-- ==== Sys2Proof/Word.lean ====
section
/-! DEFINITION. The machine's word types and their plainest arithmetic. -/

namespace Sys2Proof

/-- A byte of memory. -/
abbrev Byte := BitVec 8
/-- A register of a thread or front end, and a word of code (R37, R74). -/
abbrev Word := BitVec 32
/-- A pair of registers, a virtual address, a literal. -/
abbrev DWord := BitVec 64

end Sys2Proof
end

