-- ==== Sys2Proof/Config.lean ====
section
/-! DEFINITION. What the implementation fixes and what the spec leaves open: constants without a body, so that
nothing can be proved of their values. Each is named in the assumption log. -/

namespace Sys2Proof.Config

/-- Whether a read below its producer's latency sees the new value (R57): by free-value counter, agent, register key, position in the instruction and producer depth. -/
opaque freeChoice : Nat → Nat → Nat → Nat → Nat → Bool
/-- A byte read from the memory of the host, a peer or an appliance (R109): by free-value counter and address. -/
opaque freeByte : Nat → Nat → Byte
/-- The class function of a block's 1,024 bytes beyond its bounds (R329). -/
opaque blockClass : List Byte → Nat
/-- The two signature hashes of a physical line address (R380). -/
opaque sigHash : Bool → Nat → Nat
/-- FXU results within their bounds (R170): by minor and operand. -/
opaque fxu : Nat → Word → Word
/-- %task values (R127): by free-value counter. -/
opaque taskId : Nat → Word
/-- %ctxtag values (R243): by free-value counter. -/
opaque ctxTag : Nat → Word
/-- The bank of the L3 TLB for a virtual device and page (R360). -/
opaque tlbBank : Nat → Nat → Nat
/-- Whether the host's root port supports PCIe AtomicOps (R106, R406). -/
opaque atomicOps : Bool
/-- A word the hearth places in an ash-record section of variable layout (R411): by free-value counter and position. -/
opaque ashWord : Nat → Nat → Word
/-- A frame that hearth core 3 chooses on a stack (R346, R363): by free-value counter. -/
opaque frame : Nat → Nat
/-- The fabric windows that hearth core 6 sets up over a Workar link (R354, R424). -/
opaque linkWindows : Nat → List Nat

/-- The bytes of a context save area that the spill engine writes (R246): by free-value counter. -/
opaque saveImage : Nat → List Byte
/-- The hypervisor's own translation of a partition's virtual page to a local frame (R414). -/
opaque hyperFrame : Nat → Nat → Nat

/-- Where a bundle's boot code begins: by bundle version and partition (R413, R428). -/
opaque bootPc : Nat → Nat → BitVec 64
/-- The queue pair that hearth core 6 hands a received frame to (R423): by free-value counter. -/
opaque rxPair : Nat → Nat

/-- The temperature histograms of the die, stack and coolant sensors (R430): by free-value counter and position. -/
opaque sensor : Nat → Nat → Nat

end Sys2Proof.Config
end

