-- ==== Sys2Proof/Syntax.lean ====
section
/-! DEFINITION. The instruction language: one constructor of `Instr` for each row of the opcode table. -/

namespace Sys2Proof

/-- A register field of the extended form (R52): 0 to 254 name a register, 255 is vz or sz. A 7-bit base field 127 is held as 255 (R47). -/
abbrev Reg := BitVec 8

/-- The B operand of a base form (R47): a register, or the signed 7-bit immediate. -/
inductive Src7 where
  | reg (r : Reg)
  | imm (i : BitVec 7)
  deriving DecidableEq, Repr

/-- The B operand of an extended form (R46, R52): a register, IMM16, a literal with L = 0b11, or the literal of a base form with L = 0b01. -/
inductive Src where
  | reg (r : Reg)
  | imm (i : BitVec 16)
  | lit (x : DWord)
  | blit (x : DWord)
  deriving DecidableEq, Repr

/-- A displacement or offset operand (R205): IMM16, a 32-bit literal with L = 0b11, or the literal of a base form with L = 0b01. -/
inductive Disp where
  | imm (i : BitVec 16)
  | lit (x : Word)
  | blit (x : Word)
  deriving DecidableEq, Repr

/-- The control fields of an extended form: the wait marker W (R60) and the guard G (R56). -/
structure Ctl where
  w : Bool
  g : BitVec 4
  deriving DecidableEq, Repr

/-- Who issues: a thread group, or the front end that is agent `a` (R131, R134, R140). -/
inductive Owner where
  | group (g : Nat)
  | frontEnd (a : Nat)
  deriving DecidableEq, Repr

/-- A running chain: a slot of a core's copy engine, or a CHAINRUN slot of the hearth on one die (R274, R402). -/
inductive ChainRef where
  | core (core slot : Nat)
  | hearth (die slot : Nat)
  deriving DecidableEq, Repr

/-- A distributor that a range can be stolen between (R374, R375). -/
inductive DistRef where
  | die (d : Nat)
  | cluster (die c : Nat)
  deriving DecidableEq, Repr

/-- A request for a queue that a hearth message makes: who sends it, and the queue (R397, R398). -/
structure QueueRequest where
  sender : Nat
  queue : Nat
  deriving DecidableEq, Repr

/-- What verifies at a boot: the signatures of the firmware bundle, and the configuration record (R428). -/
structure BootChecks where
  signatures : Bool
  record : Bool
  deriving DecidableEq, Repr

/-- What a checkpoint copies (R350). -/
inductive ImageOf where
  | vdev (v : Nat)
  | partition (p : Nat)
  deriving DecidableEq, Repr

/-- What a translation is for (R355, R357). -/
inductive Access where
  | fetch
  | load
  | store
  deriving DecidableEq, Repr

/-- What a debugger does to a halted thread through hearth core 4 (R245, R324). A read's value is answered by message. -/
inductive DebugOp where
  | readReg (r : Reg)
  | writeReg (r : Reg) (x : Word)
  | readPred (p : BitVec 3)
  | writePred (p : BitVec 3) (x : Bool)
  | readTrap (n : BitVec 12)
  | writeTrap (n : BitVec 12) (x : Word)
  | readPc
  | writePc (x : DWord)
  | readHalt
  | readCtx (x : BitVec 3) (n : Nat)
  | writeCtx (x : BitVec 3) (n : Nat) (v : Word)
  deriving DecidableEq, Repr

/-- The mode of an application core, a RISC-V processor with the Hypervisor extension (R413): M, HS, VS, and U or VU. -/
inductive HartMode where
  | machine
  | hypervisor
  | supervisor
  | user
  deriving DecidableEq, Repr

/-- An application core's own registers (R413). -/
structure Hart where
  /-- x0 to x31; 64 bits each; R413; DESIGN CHOICE 0. -/
  x : List DWord
  /-- f0 to f31; 64 bits each; R413; DESIGN CHOICE 0. -/
  f : List DWord
  /-- Program counter; 64 bits; R413, R428; DESIGN CHOICE 0, its partition's boot code once released. -/
  pc : DWord
  /-- Mode; R413; machine. -/
  mode : HartMode
  /-- Control and status registers by number, those that hold 0 left out; 64 bits each; R413; DESIGN CHOICE 0. -/
  csrs : List (Nat × DWord)
  deriving DecidableEq, Repr

/-- One access of an application core, the PCIe host or a fabric peer (R107, R359, R413, R423, R425). -/
inductive HostOp where
  | load (pa n : Nat)
  | store (pa : Nat) (bytes : List Byte)
  | fetchAdd (pa n : Nat) (x : DWord)
  | swap (pa n : Nat) (x : DWord)
  | cas (pa n : Nat) (old new : DWord)
  | amo (pa n op : Nat) (x : DWord)
  | fence
  | lr (pa n : Nat)
  | sc (pa n : Nat) (x : DWord)
  | doorbell (q : Nat) (index : DWord)
  | mailbox (target sender : Nat) (msg : List Byte)
  /-- An application core takes the interrupt of an identity (R413). -/
  | claim (id : Nat)
  /-- Partition 0's hypervisor exports a queue to the PCIe host, or no longer (R425). -/
  | exportQueue (q : Nat) (on : Bool)
  /-- Partition 0's hypervisor sets the BAR2 window (R425). -/
  | setWindow (base n : Nat)
  /-- An application core has executed instructions of its own, and its registers stand as given; their accesses are the other constructors (R413). -/
  | retire (next : Hart)
  /-- The driver of an Ethernet port's VIRTIO network device accepts VIRTIO_NET_F_CSUM, VIRTIO_NET_F_MRG_RXBUF and, with more than one queue pair, VIRTIO_NET_F_MQ (R423). -/
  | netSetup (port : Nat) (csum mrg : Bool) (pairs : Nat)
  /-- The driver hands a port a frame of n bytes in a buffer, with the start and the offset of a checksum that the device is to fill in (R423). -/
  | netSend (port pair pa n : Nat) (sum : Option (Nat × Nat))
  /-- The driver gives a queue pair of a port a buffer for received bytes (R423). -/
  | netReceive (port pair pa n : Nat)
  /-- The driver of a partition's VIRTIO block device accepts VIRTIO_BLK_F_FLUSH and VIRTIO_BLK_F_DISCARD (R423). -/
  | blkSetup (flush discard : Bool)
  /-- The namespace has answered a read, and its bytes go to the driver's buffer (R423). -/
  | blkRead (sector pa : Nat) (bytes : List Byte)
  /-- The bytes of a buffer are written to the namespace (R423). -/
  | blkWrite (sector pa n : Nat)
  /-- A flush of the namespace (R423). -/
  | blkFlush
  /-- A discard of n sectors of the namespace (R423). -/
  | blkDiscard (sector n : Nat)
  /-- A frame arrives at an Ethernet port (R423). -/
  | frame (bytes : List Byte)
  /-- A priority flow control frame arrives: the classes that it pauses, the others go on (R423). -/
  | pause (classes : BitVec 8)
  /-- Partition 0's operating system reads configuration space of a root port through ECAM; the drive answers with bytes (R425). -/
  | ecamRead (port reg : Nat) (bytes : List Byte)
  /-- It writes configuration space of a root port (R425). -/
  | ecamWrite (port reg : Nat) (bytes : List Byte)
  deriving DecidableEq, Repr

/-- An access over the PCIe port: by the server host in endpoint mode, else by the drive of one of the four root ports (R425). -/
structure PcieAccess where
  port : Nat
  op : HostOp
  deriving DecidableEq, Repr

/-- An uncorrectable memory error, by what it hits (R410). -/
inductive MemError where
  | taskData (l : Nat)
  | reserveBacked (vd : Nat)
  | hearth
  | sharedReserveBacked (vds : List Nat)
  deriving DecidableEq, Repr

/-- A firmware bundle, by what boot checks of it, and what the boot after it finds of the configuration record (R428). -/
structure Bundle where
  version : Nat
  signaturesVerify : Bool
  recordVerifies : Bool
  deriving DecidableEq, Repr

/-- The configuration record's fields (R426). -/
structure ConfigRecord where
  svn : Nat
  unified : Bool
  pcieRoot : Bool
  linkrec : Nat
  linken : BitVec 18
  hiratio : Bool
  buddy : Option (Nat × Nat)
  nvme : List (List Byte)
  powercap : Nat
  ptp : Bool
  deriving DecidableEq, Repr

/-- The identity record's fields (R427). -/
structure Identity where
  serial : BitVec 64
  idpub : List Byte
  oppub : List Byte
  enrolled : BitVec 32
  sig : List Byte
  deriving DecidableEq, Repr

inductive Instr where
  /-- ILL (R71). A word with major 0x00 is decoded and raises the illegal-instruction trap with reason 2. -/
  | ill (x : BitVec 22) (w : Bool) (l : BitVec 2)
  /-- MOV (R152). Base form: copies register or small immediate b into d. -/
  | mov (w : Bool) (d : Reg) (b : Src7)
  /-- MOV_EXT (R152). Extended or literal form of MOV (MOVI included): copies b or the literal into d. -/
  | movExt (c0 : Ctl) (d : Reg) (b : Src)
  /-- ADD (R152). Base form: d gets a plus b modulo 2^32. -/
  | add (w : Bool) (d : Reg) (a : Reg) (b : Src7)
  /-- ADD_EXT (R152). Extended or literal form of ADD, optionally saturating. -/
  | addExt (c0 : Ctl) (sat : Bool) (d : Reg) (a : Reg) (b : Src)
  /-- SUB (R152). Base form: d gets a minus b modulo 2^32. -/
  | sub (w : Bool) (d : Reg) (a : Reg) (b : Src7)
  /-- SUB_EXT (R152). Extended or literal form of SUB, optionally saturating. -/
  | subExt (c0 : Ctl) (sat : Bool) (d : Reg) (a : Reg) (b : Src)
  /-- MUL (R152). Base form: d gets the low 32 bits of a times b. -/
  | mul (w : Bool) (d : Reg) (a : Reg) (b : Src7)
  /-- MUL_EXT (R152). Extended or literal form of MUL. -/
  | mulExt (c0 : Ctl) (d : Reg) (a : Reg) (b : Src)
  /-- MULH (R152). Base form: d gets the high 32 bits of the signed 64-bit product. -/
  | mulh (w : Bool) (d : Reg) (a : Reg) (b : Src7)
  /-- MULH_EXT (R152). Extended or literal form of MULH, signed or unsigned. -/
  | mulhExt (c0 : Ctl) (u : Bool) (d : Reg) (a : Reg) (b : Src)
  /-- MAD (R152). d gets the low 32 bits of a times b plus c. -/
  | mad (c0 : Ctl) (d : Reg) (a : Reg) (b : Src) (c : Reg)
  /-- MIN (R152). Base form: d gets the signed minimum of a and b. -/
  | min (w : Bool) (d : Reg) (a : Reg) (b : Src7)
  /-- MIN_EXT (R152). Extended or literal form of MIN, signed or unsigned. -/
  | minExt (c0 : Ctl) (u : Bool) (d : Reg) (a : Reg) (b : Src)
  /-- MAX (R152). Base form: d gets the signed maximum of a and b. -/
  | max (w : Bool) (d : Reg) (a : Reg) (b : Src7)
  /-- MAX_EXT (R152). Extended or literal form of MAX, signed or unsigned. -/
  | maxExt (c0 : Ctl) (u : Bool) (d : Reg) (a : Reg) (b : Src)
  /-- AND (R152). Base form: d gets a AND b. -/
  | and (w : Bool) (d : Reg) (a : Reg) (b : Src7)
  /-- AND_EXT (R152). Extended or literal form of AND. -/
  | andExt (c0 : Ctl) (d : Reg) (a : Reg) (b : Src)
  /-- OR (R152). Base form: d gets a OR b. -/
  | or (w : Bool) (d : Reg) (a : Reg) (b : Src7)
  /-- OR_EXT (R152). Extended or literal form of OR. -/
  | orExt (c0 : Ctl) (d : Reg) (a : Reg) (b : Src)
  /-- XOR (R152). Base form: d gets a XOR b. -/
  | xor (w : Bool) (d : Reg) (a : Reg) (b : Src7)
  /-- XOR_EXT (R152). Extended or literal form of XOR. -/
  | xorExt (c0 : Ctl) (d : Reg) (a : Reg) (b : Src)
  /-- SHL (R153). Base form: logical left shift, 0 for counts of 32 or more. -/
  | shl (w : Bool) (d : Reg) (a : Reg) (b : Src7)
  /-- SHL_EXT (R153). Extended or literal form of SHL. -/
  | shlExt (c0 : Ctl) (d : Reg) (a : Reg) (b : Src)
  /-- SHR (R153). Base form: logical right shift, 0 for counts of 32 or more. -/
  | shr (w : Bool) (d : Reg) (a : Reg) (b : Src7)
  /-- SHR_EXT (R153). Extended or literal form of SHR. -/
  | shrExt (c0 : Ctl) (d : Reg) (a : Reg) (b : Src)
  /-- SAR (R153). Base form: arithmetic right shift. -/
  | sar (w : Bool) (d : Reg) (a : Reg) (b : Src7)
  /-- SAR_EXT (R153). Extended or literal form of SAR. -/
  | sarExt (c0 : Ctl) (d : Reg) (a : Reg) (b : Src)
  /-- ROT (R153). Base form: rotate left by b[4:0]. -/
  | rot (w : Bool) (d : Reg) (a : Reg) (b : Src7)
  /-- ROT_EXT (R153). Extended or literal form of ROT. -/
  | rotExt (c0 : Ctl) (d : Reg) (a : Reg) (b : Src)
  /-- BFX (R154). Base form: extracts the bitfield named by spec b, unsigned. -/
  | bfx (w : Bool) (d : Reg) (a : Reg) (b : Src7)
  /-- BFX_EXT (R154). Extended or literal form of BFX, optionally sign-extending. -/
  | bfxExt (c0 : Ctl) (s : Bool) (d : Reg) (a : Reg) (b : Src)
  /-- BFI (R154). Inserts the low bits of c into the bitfield of a named by spec b. -/
  | bfi (c0 : Ctl) (d : Reg) (a : Reg) (b : Src) (c : Reg)
  /-- SEL (R155). d gets a or b according to a predicate, optionally inverted. -/
  | sel (c0 : Ctl) (n : Bool) (d : Reg) (a : Reg) (b : Src) (p : BitVec 3)
  /-- CMP (R156). Writes a predicate with an integer comparison of a and b. -/
  | cmp (c0 : Ctl) (cc : BitVec 4) (pd : BitVec 3) (a : Reg) (b : Src)
  /-- PLOG (R157). Writes a predicate from an 8-entry lookup table over three predicates. -/
  | plog (c0 : Ctl) (lut : BitVec 8) (pd : BitVec 3) (pa : BitVec 3) (pb : BitVec 3) (pc : BitVec 3)
  /-- LEA (R158). Base form: 64-bit pair d gets pair a plus sign-extended b. -/
  | lea (w : Bool) (d : Reg) (a : Reg) (b : Src7)
  /-- LEA_EXT (R158). Extended or literal form of LEA with shift and zero-extension. -/
  | leaExt (c0 : Ctl) (sh : BitVec 3) (u : Bool) (d : Reg) (a : Reg) (b : Src)
  /-- ADD64 (R159). 64-bit pair addition. -/
  | add64 (c0 : Ctl) (d : Reg) (a : Reg) (b : Src)
  /-- SUB64 (R159). 64-bit pair subtraction. -/
  | sub64 (c0 : Ctl) (d : Reg) (a : Reg) (b : Src)
  /-- SHL64 (R159). 64-bit pair left shift. -/
  | shl64 (c0 : Ctl) (d : Reg) (a : Reg) (b : Src)
  /-- SHR64 (R159). 64-bit pair logical right shift. -/
  | shr64 (c0 : Ctl) (d : Reg) (a : Reg) (b : Src)
  /-- CMP64 (R159). Writes a predicate with a 64-bit comparison. -/
  | cmp64 (c0 : Ctl) (cc : BitVec 4) (pd : BitVec 3) (a : Reg) (b : Src)
  /-- ABS (R160). Absolute value, optionally saturating. -/
  | abs (c0 : Ctl) (sat : Bool) (d : Reg) (a : Reg)
  /-- NEG (R160). Negation, optionally saturating. -/
  | neg (c0 : Ctl) (sat : Bool) (d : Reg) (a : Reg)
  /-- NOT (R160). Bitwise complement. -/
  | not (c0 : Ctl) (d : Reg) (a : Reg)
  /-- POPC (R160). Population count. -/
  | popc (c0 : Ctl) (d : Reg) (a : Reg)
  /-- CLZ (R160). Count of leading zeros. -/
  | clz (c0 : Ctl) (d : Reg) (a : Reg)
  /-- BREV (R160). Bit reversal. -/
  | brev (c0 : Ctl) (d : Reg) (a : Reg)
  /-- SEXT8 (R160). Sign-extends the low byte. -/
  | sext8 (c0 : Ctl) (d : Reg) (a : Reg)
  /-- SEXT16 (R160). Sign-extends the low half-word. -/
  | sext16 (c0 : Ctl) (d : Reg) (a : Reg)
  /-- ZEXT8 (R160). Zero-extends the low byte. -/
  | zext8 (c0 : Ctl) (d : Reg) (a : Reg)
  /-- ZEXT16 (R160). Zero-extends the low half-word. -/
  | zext16 (c0 : Ctl) (d : Reg) (a : Reg)
  /-- CSRR (R162). Base form: reads a special register into x, capturing 64-bit counters. -/
  | csrr (w : Bool) (d : Reg) (num : BitVec 15)
  /-- CSRR_EXT (R162). Extended form of CSRR with the number in IMM16. -/
  | csrrExt (c0 : Ctl) (d : Reg) (num : BitVec 16)
  /-- CSRW (R162). Base form: writes x into the RW bits of a special register. -/
  | csrw (w : Bool) (a : Reg) (num : BitVec 15)
  /-- CSRW_EXT (R162). Extended form of CSRW with the number in IMM16. -/
  | csrwExt (c0 : Ctl) (a : Reg) (num : BitVec 16)
  /-- NOP (R163). Does nothing; with W set it parks until results and stores return. -/
  | nop (w : Bool)
  /-- FADD (R166). Base form: FP32 addition under the dynamic rounding mode. -/
  | fadd (w : Bool) (d : Reg) (a : Reg) (b : Src7)
  /-- FADD_EXT (R166). Extended or literal form of FADD with a rounding code. -/
  | faddExt (c0 : Ctl) (rm : BitVec 3) (d : Reg) (a : Reg) (b : Src)
  /-- FSUB (R166). Base form: FP32 subtraction. -/
  | fsub (w : Bool) (d : Reg) (a : Reg) (b : Src7)
  /-- FSUB_EXT (R166). Extended or literal form of FSUB. -/
  | fsubExt (c0 : Ctl) (rm : BitVec 3) (d : Reg) (a : Reg) (b : Src)
  /-- FMUL (R166). Base form: FP32 multiplication. -/
  | fmul (w : Bool) (d : Reg) (a : Reg) (b : Src7)
  /-- FMUL_EXT (R166). Extended or literal form of FMUL. -/
  | fmulExt (c0 : Ctl) (rm : BitVec 3) (d : Reg) (a : Reg) (b : Src)
  /-- FFMA (R166). FP32 fused multiply-add, rounded once. -/
  | ffma (c0 : Ctl) (rm : BitVec 3) (d : Reg) (a : Reg) (b : Src) (c : Reg)
  /-- FMIN (R167). Base form: FP32 minimum, with NaN rules. -/
  | fmin (w : Bool) (d : Reg) (a : Reg) (b : Src7)
  /-- FMIN_EXT (R167). Extended or literal form of FMIN. -/
  | fminExt (c0 : Ctl) (d : Reg) (a : Reg) (b : Src)
  /-- FMAX (R167). Base form: FP32 maximum, with NaN rules. -/
  | fmax (w : Bool) (d : Reg) (a : Reg) (b : Src7)
  /-- FMAX_EXT (R167). Extended or literal form of FMAX. -/
  | fmaxExt (c0 : Ctl) (d : Reg) (a : Reg) (b : Src)
  /-- FCMP (R168). Writes a predicate with an FP32 comparison. -/
  | fcmp (c0 : Ctl) (cc : BitVec 4) (pd : BitVec 3) (a : Reg) (b : Src)
  /-- FABS (R169). Clears the sign bit. -/
  | fabs (c0 : Ctl) (d : Reg) (a : Reg)
  /-- FNEG (R169). Inverts the sign bit. -/
  | fneg (c0 : Ctl) (d : Reg) (a : Reg)
  /-- FCLASS (R169). Writes a one-hot class mask of an FP32 value. -/
  | fclass (c0 : Ctl) (d : Reg) (a : Reg)
  /-- FRINT (R169). Rounds an FP32 value to an integral value. -/
  | frint (c0 : Ctl) (rm : BitVec 3) (d : Reg) (a : Reg)
  /-- FRCP (R170). Reciprocal within 1 ulp. -/
  | frcp (c0 : Ctl) (d : Reg) (a : Reg)
  /-- FRSQ (R170). Reciprocal square root within 1 ulp. -/
  | frsq (c0 : Ctl) (d : Reg) (a : Reg)
  /-- FSQRT (R170). Correctly rounded square root. -/
  | fsqrt (c0 : Ctl) (rm : BitVec 3) (d : Reg) (a : Reg)
  /-- FEXP2 (R170). Base-2 exponential within 2 ulp. -/
  | fexp2 (c0 : Ctl) (d : Reg) (a : Reg)
  /-- FLOG2 (R170). Base-2 logarithm. -/
  | flog2 (c0 : Ctl) (d : Reg) (a : Reg)
  /-- FSIN (R170). Sine with exact argument reduction. -/
  | fsin (c0 : Ctl) (d : Reg) (a : Reg)
  /-- FCOS (R170). Cosine with exact argument reduction. -/
  | fcos (c0 : Ctl) (d : Reg) (a : Reg)
  /-- HADD2 (R171). Packed 16-bit float addition. -/
  | hadd2 (c0 : Ctl) (rm : BitVec 3) (fmt : BitVec 4) (d : Reg) (a : Reg) (b : Reg)
  /-- HMUL2 (R171). Packed 16-bit float multiplication. -/
  | hmul2 (c0 : Ctl) (rm : BitVec 3) (fmt : BitVec 4) (d : Reg) (a : Reg) (b : Reg)
  /-- HFMA2 (R171). Packed 16-bit fused multiply-add. -/
  | hfma2 (c0 : Ctl) (rm : BitVec 3) (fmt : BitVec 4) (d : Reg) (a : Reg) (b : Reg) (c : Reg)
  /-- HMIN2 (R171). Packed 16-bit minimum. -/
  | hmin2 (c0 : Ctl) (fmt : BitVec 4) (d : Reg) (a : Reg) (b : Reg)
  /-- HMAX2 (R171). Packed 16-bit maximum. -/
  | hmax2 (c0 : Ctl) (fmt : BitVec 4) (d : Reg) (a : Reg) (b : Reg)
  /-- FDOT2 (R172). Two-element 16-bit dot product accumulated into FP32 with one rounding. -/
  | fdot2 (c0 : Ctl) (rm : BitVec 3) (fmt : BitVec 4) (d : Reg) (a : Reg) (b : Reg) (c : Reg)
  /-- FCVT (R173). Narrows FP32 into an element of d, or widens an element to FP32. -/
  | fcvt (c0 : Ctl) (sat : Bool) (dir : Bool) (elt : BitVec 2) (rm : BitVec 3) (fmt : BitVec 4) (d : Reg) (a : Reg)
  /-- I2F (R174). Signed integer to FP32. -/
  | i2f (c0 : Ctl) (rm : BitVec 3) (d : Reg) (a : Reg)
  /-- U2F (R174). Unsigned integer to FP32. -/
  | u2f (c0 : Ctl) (rm : BitVec 3) (d : Reg) (a : Reg)
  /-- F2I (R174). FP32 to signed integer. -/
  | f2i (c0 : Ctl) (sat : Bool) (rm : BitVec 3) (d : Reg) (a : Reg)
  /-- F2U (R174). FP32 to unsigned integer. -/
  | f2u (c0 : Ctl) (sat : Bool) (rm : BitVec 3) (d : Reg) (a : Reg)
  /-- QNT (R175). Quantises consecutive FP32 registers under an E8 scale into one packed register. -/
  | qnt (c0 : Ctl) (sat : Bool) (rm : BitVec 3) (fmt : BitVec 4) (d : Reg) (a : Reg) (b : Src)
  /-- DQNT (R176). Dequantises a packed register into consecutive FP32 registers. -/
  | dqnt (c0 : Ctl) (sat : Bool) (rm : BitVec 3) (fmt : BitVec 4) (d : Reg) (a : Reg) (b : Src)
  /-- HAD (R177). Applies a 16-, 32- or 64-point Hadamard transform to register elements. -/
  | had (c0 : Ctl) (sz : BitVec 2) (rm : BitVec 3) (fmt : BitVec 4) (d : Reg) (a : Reg)
  /-- CMPR (R178). Selects 2:4 or 4:8 sparse elements and writes metadata. -/
  | cmpr (c0 : Ctl) (s48 : Bool) (fmt : BitVec 4) (d : Reg) (a : Reg) (c : Reg)
  /-- BOXT (R198). Tests a ray against the four children of a box node. -/
  | boxt (c0 : Ctl) (d : Reg) (a : Reg) (b : Reg)
  /-- TRIT (R200). Tests a ray against a triangle record, optionally clipping tmax. -/
  | trit (c0 : Ctl) (clip : Bool) (d : Reg) (a : Reg) (b : Reg) (pc : BitVec 3)
  /-- REBIN (R201). Ends the thread and hands a billet to a bin of the binning gang former. -/
  | rebin (c0 : Ctl) (b : Reg) (a : Reg) (off : Disp)
  /-- SHFL_IDX (R193). Reads a from the indexed thread of the segment. -/
  | shflIdx (c0 : Ctl) (seg : BitVec 3) (d : Reg) (a : Reg) (b : Src) (pc : BitVec 3)
  /-- SHFL_UP (R193). Reads a from the thread b positions lower. -/
  | shflUp (c0 : Ctl) (seg : BitVec 3) (d : Reg) (a : Reg) (b : Src) (pc : BitVec 3)
  /-- SHFL_DOWN (R193). Reads a from the thread b positions higher. -/
  | shflDown (c0 : Ctl) (seg : BitVec 3) (d : Reg) (a : Reg) (b : Src) (pc : BitVec 3)
  /-- SHFL_XOR (R193). Reads a from the thread at position XOR b. -/
  | shflXor (c0 : Ctl) (seg : BitVec 3) (d : Reg) (a : Reg) (b : Src) (pc : BitVec 3)
  /-- VOTE_ANY (R194). Predicate true if the predicate holds in any participant. -/
  | voteAny (c0 : Ctl) (pd : BitVec 3) (pa : BitVec 3)
  /-- VOTE_ALL (R194). Predicate true if the predicate holds in every participant. -/
  | voteAll (c0 : Ctl) (pd : BitVec 3) (pa : BitVec 3)
  /-- VOTE_BALLOT (R194). Writes a bit mask of participants whose predicate holds. -/
  | voteBallot (c0 : Ctl) (d : Reg) (pa : BitVec 3)
  /-- VOTE_EQ (R194). Predicate true if every participant holds the same value. -/
  | voteEq (c0 : Ctl) (pd : BitVec 3) (a : Reg)
  /-- GRED_ADD (R195). Segment sum modulo 2^32. -/
  | gredAdd (c0 : Ctl) (seg : BitVec 3) (d : Reg) (a : Reg)
  /-- GRED_MIN (R195). Segment minimum. -/
  | gredMin (c0 : Ctl) (u : Bool) (seg : BitVec 3) (d : Reg) (a : Reg)
  /-- GRED_MAX (R195). Segment maximum. -/
  | gredMax (c0 : Ctl) (u : Bool) (seg : BitVec 3) (d : Reg) (a : Reg)
  /-- GRED_AND (R195). Segment bitwise AND. -/
  | gredAnd (c0 : Ctl) (seg : BitVec 3) (d : Reg) (a : Reg)
  /-- GRED_OR (R195). Segment bitwise OR. -/
  | gredOr (c0 : Ctl) (seg : BitVec 3) (d : Reg) (a : Reg)
  /-- GRED_XOR (R195). Segment bitwise XOR. -/
  | gredXor (c0 : Ctl) (seg : BitVec 3) (d : Reg) (a : Reg)
  /-- GRED_FADD (R195). Exact segment FP32 sum rounded once. -/
  | gredFadd (c0 : Ctl) (rm : BitVec 3) (seg : BitVec 3) (d : Reg) (a : Reg)
  /-- GRED_FMIN (R195). Segment FP32 minimum. -/
  | gredFmin (c0 : Ctl) (seg : BitVec 3) (d : Reg) (a : Reg)
  /-- GRED_FMAX (R195). Segment FP32 maximum. -/
  | gredFmax (c0 : Ctl) (seg : BitVec 3) (d : Reg) (a : Reg)
  /-- BRA (R181). Unconditional branch by a signed word offset. -/
  | bra (w : Bool) (off : BitVec 22)
  /-- BRC (R181). Branch in each thread where the predicate XOR N is true. -/
  | brc (w : Bool) (off : BitVec 18) (n : Bool) (p : BitVec 3)
  /-- BRQ (R183). Pops a decision-queue entry and branches when it is nonzero. -/
  | brq (w : Bool) (off : BitVec 22)
  /-- CALL (R182). Pushes the return address on the link stack and branches. -/
  | call (w : Bool) (off : BitVec 22)
  /-- RET (R182). Base form: pops the link stack and branches to it. -/
  | ret (w : Bool)
  /-- RET_EXT (R182). Extended form of RET. -/
  | retExt (c0 : Ctl)
  /-- JARM (R184). Base form: arms a rejoin mask with every live thread of the group. -/
  | jarm (w : Bool) (m : BitVec 4)
  /-- JARM_EXT (R184). Extended form of JARM. -/
  | jarmExt (c0 : Ctl) (m : BitVec 4)
  /-- JWAIT (R184). Base form: a member parks and arrives at an armed rejoin mask. -/
  | jwait (w : Bool) (m : BitVec 4)
  /-- JWAIT_EXT (R184). Extended form of JWAIT. -/
  | jwaitExt (c0 : Ctl) (m : BitVec 4)
  /-- JDROP (R184). Base form: a member leaves a rejoin mask. -/
  | jdrop (w : Bool) (m : BitVec 4)
  /-- JDROP_EXT (R184). Extended form of JDROP. -/
  | jdropExt (c0 : Ctl) (m : BitVec 4)
  /-- EXIT (R186). Base form: ends the thread or front end after its results and stores settle. -/
  | exit (w : Bool)
  /-- EXIT_EXT (R186). Extended form of EXIT. -/
  | exitExt (c0 : Ctl)
  /-- YIELD (R187). Base form: ends the slice-end cooperative phase, or lowers issue priority. -/
  | yield (w : Bool)
  /-- YIELD_EXT (R187). Extended form of YIELD. -/
  | yieldExt (c0 : Ctl)
  /-- TRAP (R188). Base form: raises the software trap, cause 0x0C. -/
  | trap (w : Bool) (b : Src7)
  /-- TRAP_EXT (R188). Extended or literal form of TRAP. -/
  | trapExt (c0 : Ctl) (b : Src)
  /-- BRK (R188). Base form: raises the breakpoint trap, cause 0x0B. -/
  | brk (w : Bool) (b : Src7)
  /-- BRK_EXT (R188). Extended or literal form of BRK. -/
  | brkExt (c0 : Ctl) (b : Src)
  /-- DQPUSH (R190). Base form: front end appends b to its decision queue. -/
  | dqpush (w : Bool) (b : Src7)
  /-- DQPUSH_EXT (R190). Extended or literal form of DQPUSH. -/
  | dqpushExt (c0 : Ctl) (b : Src)
  /-- DQPOP (R190). Base form: lane thread reads the entry at its read index, parking if none. -/
  | dqpop (w : Bool) (d : Reg)
  /-- DQPOP_EXT (R190). Extended form of DQPOP. -/
  | dqpopExt (c0 : Ctl) (d : Reg)
  /-- SRET (R234). Base form: leaves the trap handler and continues at %trpc. -/
  | sret (w : Bool)
  /-- SRET_EXT (R234). Extended form of SRET. -/
  | sretExt (c0 : Ctl)
  /-- LD (R210). Base form: global load with a 7-bit displacement. -/
  | ld (w : Bool) (d : Reg) (a : Reg) (disp : BitVec 7)
  /-- LD_EXT (R210). Extended or literal form of LD with width, order, scope and hint. -/
  | ldExt (c0 : Ctl) (ord : Bool) (width : BitVec 3) (scope : BitVec 3) (hint : BitVec 2) (d : Reg) (a : Reg) (disp : Disp)
  /-- LDZ (R210). Global load that returns zero and a clear predicate on non-resident or surrendered pages. -/
  | ldz (c0 : Ctl) (width : BitVec 3) (hint : BitVec 2) (d : Reg) (pc : BitVec 3) (a : Reg) (disp : Disp)
  /-- ST (R210). Base form: global store charged by the kiln and entered in the store queue. -/
  | st (w : Bool) (d : Reg) (a : Reg) (disp : BitVec 7)
  /-- ST_EXT (R210). Extended or literal form of ST with width, order, scope and hint. -/
  | stExt (c0 : Ctl) (ord : Bool) (width : BitVec 3) (scope : BitVec 3) (hint : BitVec 2) (d : Reg) (a : Reg) (disp : Disp)
  /-- LDS (R213). Base form: scratchpad load, parking on an absent line. -/
  | lds (w : Bool) (d : Reg) (a : Reg) (disp : BitVec 7)
  /-- LDS_EXT (R213). Extended or literal form of LDS. -/
  | ldsExt (c0 : Ctl) (width : BitVec 3) (d : Reg) (a : Reg) (disp : Disp)
  /-- STS (R213). Base form: scratchpad store through the forwarding table. -/
  | sts (w : Bool) (d : Reg) (a : Reg) (disp : BitVec 7)
  /-- STS_EXT (R213). Extended or literal form of STS. -/
  | stsExt (c0 : Ctl) (width : BitVec 3) (d : Reg) (a : Reg) (disp : Disp)
  /-- LDC (R212). Base form: load through the constant cache. -/
  | ldc (w : Bool) (d : Reg) (a : Reg) (disp : BitVec 7)
  /-- LDC_EXT (R212). Extended or literal form of LDC. -/
  | ldcExt (c0 : Ctl) (width : BitVec 3) (hint : BitVec 2) (d : Reg) (a : Reg) (disp : Disp)
  /-- ATOM_ADD (R218). Atomic add returning the old value. -/
  | atomAdd (c0 : Ctl) (ord : Bool) (w64 : Bool) (scope : BitVec 3) (d : Reg) (a : Reg) (b : Src)
  /-- ATOM_MIN (R218). Atomic signed minimum. -/
  | atomMin (c0 : Ctl) (ord : Bool) (w64 : Bool) (scope : BitVec 3) (d : Reg) (a : Reg) (b : Src)
  /-- ATOM_MAX (R218). Atomic signed maximum. -/
  | atomMax (c0 : Ctl) (ord : Bool) (w64 : Bool) (scope : BitVec 3) (d : Reg) (a : Reg) (b : Src)
  /-- ATOM_UMIN (R218). Atomic unsigned minimum. -/
  | atomUmin (c0 : Ctl) (ord : Bool) (w64 : Bool) (scope : BitVec 3) (d : Reg) (a : Reg) (b : Src)
  /-- ATOM_UMAX (R218). Atomic unsigned maximum. -/
  | atomUmax (c0 : Ctl) (ord : Bool) (w64 : Bool) (scope : BitVec 3) (d : Reg) (a : Reg) (b : Src)
  /-- ATOM_AND (R218). Atomic AND. -/
  | atomAnd (c0 : Ctl) (ord : Bool) (w64 : Bool) (scope : BitVec 3) (d : Reg) (a : Reg) (b : Src)
  /-- ATOM_OR (R218). Atomic OR. -/
  | atomOr (c0 : Ctl) (ord : Bool) (w64 : Bool) (scope : BitVec 3) (d : Reg) (a : Reg) (b : Src)
  /-- ATOM_XOR (R218). Atomic XOR. -/
  | atomXor (c0 : Ctl) (ord : Bool) (w64 : Bool) (scope : BitVec 3) (d : Reg) (a : Reg) (b : Src)
  /-- ATOM_EXCH (R218). Atomic exchange. -/
  | atomExch (c0 : Ctl) (ord : Bool) (w64 : Bool) (scope : BitVec 3) (d : Reg) (a : Reg) (b : Src)
  /-- ATOM_CAS (R218). Atomic compare-and-swap that always writes. -/
  | atomCas (c0 : Ctl) (ord : Bool) (w64 : Bool) (scope : BitVec 3) (d : Reg) (a : Reg) (b : Src) (c : Reg)
  /-- ATOM_FADD (R218). Atomic FP32 add rounded RNE. -/
  | atomFadd (c0 : Ctl) (ord : Bool) (scope : BitVec 3) (d : Reg) (a : Reg) (b : Src)
  /-- RED_ADD (R218). Reduction add performed when it drains. -/
  | redAdd (c0 : Ctl) (w64 : Bool) (scope : BitVec 3) (a : Reg) (b : Src)
  /-- RED_MIN (R218). Reduction signed minimum. -/
  | redMin (c0 : Ctl) (w64 : Bool) (scope : BitVec 3) (a : Reg) (b : Src)
  /-- RED_MAX (R218). Reduction signed maximum. -/
  | redMax (c0 : Ctl) (w64 : Bool) (scope : BitVec 3) (a : Reg) (b : Src)
  /-- RED_UMIN (R218). Reduction unsigned minimum. -/
  | redUmin (c0 : Ctl) (w64 : Bool) (scope : BitVec 3) (a : Reg) (b : Src)
  /-- RED_UMAX (R218). Reduction unsigned maximum. -/
  | redUmax (c0 : Ctl) (w64 : Bool) (scope : BitVec 3) (a : Reg) (b : Src)
  /-- RED_AND (R218). Reduction AND. -/
  | redAnd (c0 : Ctl) (w64 : Bool) (scope : BitVec 3) (a : Reg) (b : Src)
  /-- RED_OR (R218). Reduction OR. -/
  | redOr (c0 : Ctl) (w64 : Bool) (scope : BitVec 3) (a : Reg) (b : Src)
  /-- RED_XOR (R218). Reduction XOR. -/
  | redXor (c0 : Ctl) (w64 : Bool) (scope : BitVec 3) (a : Reg) (b : Src)
  /-- RED_FADD (R218). Reduction FP32 add. -/
  | redFadd (c0 : Ctl) (scope : BitVec 3) (a : Reg) (b : Src)
  /-- FENCE (R220). Orders the thread's accesses at a scope and drains its queues. -/
  | fence (c0 : Ctl) (scope : BitVec 3)
  /-- PREF (R215). Prefetches a line toward a cache level, never trapping after decode. -/
  | pref (c0 : Ctl) (lvl : BitVec 2) (hint : BitVec 2) (a : Reg) (disp : Disp)
  /-- SPRES (R216). Reads the presence bit of a scratchpad line into a predicate. -/
  | spres (c0 : Ctl) (pd : BitVec 3) (a : Reg) (disp : Disp)
  /-- PGREQ (R214). Asks hearth core 3 to make a page resident, optionally blocking. -/
  | pgreq (c0 : Ctl) (blk : Bool) (pd : BitVec 3) (a : Reg) (disp : Disp)
  /-- BAR_ARR (R225). Records an arrival at a barrier, a release at team scope. -/
  | barArr (c0 : Ctl) (d : Reg) (bar : BitVec 4)
  /-- BAR_WAIT (R225). Parks until a barrier phase is complete, then acquires. -/
  | barWait (c0 : Ctl) (bar : BitVec 4) (b : Src)
  /-- BAR_SYNC (R225). Arrives and waits on the phase of that arrival. -/
  | barSync (c0 : Ctl) (d : Reg) (bar : BitVec 4)
  /-- BAR_EXPECT (R225). Adds expected bytes to the barrier's pending counter. -/
  | barExpect (c0 : Ctl) (bar : BitVec 4) (b : Src)
  /-- BAR_INIT (R223). Initialises a barrier with a party count. -/
  | barInit (c0 : Ctl) (bar : BitVec 4) (b : Src)
  /-- CVSET (R226). Declares the signer set of a convergence register. -/
  | cvset (c0 : Ctl) (n1 : BitVec 7) (cv : BitVec 4) (b : Src)
  /-- RSVQ_FREE (R342). Reads the FREE sector count. -/
  | rsvqFree (c0 : Ctl) (stk : BitVec 4) (d : Reg)
  /-- RSVQ_PEND (R342). Reads the PEND sector count. -/
  | rsvqPend (c0 : Ctl) (stk : BitVec 4) (d : Reg)
  /-- RSVQ_NOMINAL (R342). Reads the number of mapped pages. -/
  | rsvqNominal (c0 : Ctl) (stk : BitVec 4) (d : Reg)
  /-- RSVQ_SURR (R342). Reads the number of surrendered pages. -/
  | rsvqSurr (c0 : Ctl) (stk : BitVec 4) (d : Reg)
  /-- BLKSZ (R343). Reports a block's class and state, optionally writing it back first. -/
  | blksz (c0 : Ctl) (wb : Bool) (d : Reg) (a : Reg) (disp : Disp)
  /-- BLKFILL (R344). Sets a whole block to an 8-byte constant and makes it class 0. -/
  | blkfill (c0 : Ctl) (a : Reg) (disp : Disp) (c : Reg)
  /-- BALQ (R347). Reads the open balloon request count and time left. -/
  | balq (c0 : Ctl) (d : Reg)
  /-- PGSURR (R345). Surrenders a 64 KiB page's sectors to the pool. -/
  | pgsurr (c0 : Ctl) (a : Reg) (disp : Disp)
  /-- PGRECL (R346). Makes a page all zero and resident without sectors. -/
  | pgrecl (c0 : Ctl) (a : Reg) (disp : Disp)
  /-- WLOAD (R292). Enters a weight-tile load into the matrix queue after issue checks. -/
  | wload (c0 : Ctl) (sparse : BitVec 2) (hadn : BitVec 2) (fmt : BitVec 4) (a : Reg) (b : Src) (c : Reg)
  /-- MMA (R294). Signs a matrix operation with activation rows in registers. -/
  | mma (c0 : Ctl) (row0 : BitVec 7) (z : Bool) (as : Bool) (ksz : BitVec 2) (kh : Bool) (fmt : BitVec 4) (t : BitVec 3) (a : Reg) (cv : BitVec 4)
  /-- MMAM (R295). Signs a matrix operation with activation rows in memory. -/
  | mmam (c0 : Ctl) (row0 : BitVec 7) (z : Bool) (as : Bool) (ksz : BitVec 2) (sp : Bool) (fmt : BitVec 4) (t : BitVec 3) (a : Reg) (cv : BitVec 4) (disp : Disp)
  /-- ACLR (R299). Clears an accumulator tile to +0. -/
  | aclr (c0 : Ctl) (t : BitVec 3)
  /-- ARD (R299). Reads eight elements of an accumulator row into registers. -/
  | ard (c0 : Ctl) (chunk : BitVec 3) (d : Reg) (t : BitVec 3) (b : Src)
  /-- AWR (R299). Writes eight registers into an accumulator row. -/
  | awr (c0 : Ctl) (chunk : BitVec 3) (t : BitVec 3) (a : Reg) (b : Src)
  /-- ADRAIN (R301). Issues a conversion and write of tile rows to memory. -/
  | adrain (c0 : Ctl) (sat : Bool) (clr : Bool) (sp : Bool) (scale : BitVec 8) (fmt : BitVec 4) (t : BitVec 3) (a : Reg) (b : Src) (c : Reg)
  /-- WREL (R303). Retires both weight sets of the share. -/
  | wrel (c0 : Ctl)
  /-- MSTAT (R303). Reads and optionally clears the share's matrix status word. -/
  | mstat (c0 : Ctl) (keep : Bool) (d : Reg)
  /-- XCFG (R315). Configures and empties an extrapolation context. -/
  | xcfg (c0 : Ctl) (depth : BitVec 4) (meth : BitVec 2) (x : BitVec 3) (a : Reg) (b : Src) (c : Reg)
  /-- XPUSH (R316). Offers a value to a context, recording it at checkpoints. -/
  | xpush (c0 : Ctl) (x : BitVec 3) (a : Reg) (pc : BitVec 3)
  /-- XEST (R321). Returns a limit estimate and its flag word. -/
  | xest (c0 : Ctl) (d : Reg) (x : BitVec 3) (pc : BitVec 3)
  /-- XCLR (R315). Empties a context keeping its configuration. -/
  | xclr (c0 : Ctl) (x : BitVec 3)
  /-- XSTAT (R323). Reads a context's state word. -/
  | xstat (c0 : Ctl) (d : Reg) (x : BitVec 3)
  /-- TCOPY (R264). Checks and enters a tensor copy into the copy queue. -/
  | tcopy (c0 : Ctl) (dir : BitVec 2) (cmode : BitVec 2) (scope : BitVec 3) (d : Reg) (a : Reg) (b : Reg) (c : Reg)
  /-- CHAIN (R275). Starts a command chain in a chain slot and returns its handle. -/
  | chain (c0 : Ctl) (cmode : BitVec 1) (scope : BitVec 3) (d : Reg) (a : Reg) (c : Reg)
  /-- CTWAIT (R270). Parks until a completion counter reaches a value, then acquires. -/
  | ctwait (c0 : Ctl) (sp : Bool) (scope : BitVec 3) (d : Reg) (a : Reg) (b : Src)
  /-- CHKILL (R277). Stops a running chain at its next entry boundary. -/
  | chkill (c0 : Ctl) (a : Reg)
  /-- SPAWN (R389). Makes a billet in the launch's billet store. -/
  | spawn (c0 : Ctl) (d : Reg) (a : Reg) (b : Reg) (c : Reg) (off : Disp)
  /-- ENQN (R390). Enters a work-graph record into a node's queue. -/
  | enqn (c0 : Ctl) (a : Reg) (b : Src)
  /-- JDEC (R391). Decrements a billet's join count, making it ready at zero. -/
  | jdec (c0 : Ctl) (d : Reg) (a : Reg) (b : Src)
  /-- SETTLE (R392). Commits the task's version and settles the task. -/
  | settle (c0 : Ctl)
  /-- TASKQ_PRIO (R393). Reads the task's priority. -/
  | taskqPrio (c0 : Ctl) (d : Reg) (b : Src)
  /-- TASKQ_RESTART (R393). Reads the task's consecutive restarts. -/
  | taskqRestart (c0 : Ctl) (d : Reg) (b : Src)
  /-- TASKQ_SETTLED (R393). Reads whether the task is settled. -/
  | taskqSettled (c0 : Ctl) (d : Reg) (b : Src)
  /-- TASKQ_VLINES (R393). Reads the lines held by the task's version. -/
  | taskqVlines (c0 : Ctl) (d : Reg) (b : Src)
  /-- TASKQ_BQUEUE (R393). Reads ready billets at a priority. -/
  | taskqBqueue (c0 : Ctl) (d : Reg) (b : Src)
  /-- TASKQ_NQUEUE (R393). Reads records waiting in a node's queue. -/
  | taskqNqueue (c0 : Ctl) (d : Reg) (b : Src)
  /-- TASKQ_CURSOR (R393). Reads the launch's retire cursor. -/
  | taskqCursor (c0 : Ctl) (d : Reg) (b : Src)
  /-- STKHO (R253). Requests a hand-over of a stack to a die. -/
  | stkho (c0 : Ctl) (die : BitVec 1) (scope : BitVec 3) (a : Reg) (b : Src)
  /-- TLBI_PAGE (R254). Drops TLB entries for a page range of the issuer's virtual device. -/
  | tlbiPage (c0 : Ctl) (scope : BitVec 3) (a : Reg) (b : Src)
  /-- TLBI_VDEV (R254). Drops every TLB entry of the issuer's virtual device. -/
  | tlbiVdev (c0 : Ctl) (scope : BitVec 3) (b : Src)
  /-- TLBI_VDEVN (R254). Drops every TLB entry of a named virtual device. -/
  | tlbiVdevn (c0 : Ctl) (scope : BitVec 3) (b : Src)
  /-- TLBI_ALL (R254). Drops every TLB entry. -/
  | tlbiAll (c0 : Ctl) (scope : BitVec 3) (b : Src)
  /-- CFLUSH_CLEAN (R255). Writes back dirty lines of a range and keeps them. -/
  | cflushClean (c0 : Ctl) (scope : BitVec 3) (a : Reg) (b : Src)
  /-- CFLUSH_INV (R255). Writes back and invalidates lines of a range. -/
  | cflushInv (c0 : Ctl) (scope : BitVec 3) (a : Reg) (b : Src)
  /-- CFLUSH_DISCARD (R255). Invalidates lines of a range without write-back. -/
  | cflushDiscard (c0 : Ctl) (scope : BitVec 3) (a : Reg) (b : Src)
  /-- CTXSW (R256). Asks the scheduler to switch a core to a described context. -/
  | ctxsw (c0 : Ctl) (force : Bool) (scope : BitVec 3) (d : Reg) (a : Reg) (b : Src)
  /-- RESULT_WRITEBACK (R59). A variable-latency result is written and its scoreboard entry freed. -/
  | resultWriteback (ag k : Nat)
  /-- STORE_QUEUE_DRAIN (R98). The oldest store-queue entry drains into L1 and becomes visible in the core. -/
  | storeQueueDrain (o : Owner)
  /-- STS_BANK_WRITE (R101). A scratchpad store in the forwarding table is written to the banks. -/
  | stsBankWrite (core part : Nat)
  /-- PARK_RELEASE (R14). A parked issuer resumes when room frees in a full queue or table. -/
  | parkRelease (ag : Nat)
  /-- SLICE_NOMINATION (R134). Slice sequencers nominate program counters and a fragment issues. -/
  | sliceNomination (o : Owner)
  /-- THREAD_KILL (R148). A thread is killed and removed from masks, convergence sets and queue readers. -/
  | threadKill (ag : Nat)
  /-- SHARE_RETIRE (R149). A share whose threads and front end exited and commands completed retires. -/
  | shareRetire (sh : Nat)
  /-- SHARE_PLACEMENT (R132). A waiting share is placed on a core when it fits in full. -/
  | sharePlacement (sh core : Nat)
  /-- COPY_START (R267). A queued copy starts when fewer than four copies run. -/
  | copyStart (core : Nat)
  /-- COPY_COMPLETE (R267). A copy completes, credits its barrier or increments its counter, and frees its locks. -/
  | copyComplete (core k : Nat)
  /-- CHAIN_ENTRY (R274). A chain reaches and performs its next entry. -/
  | chainEntry (u : ChainRef)
  /-- CHAIN_SEND_ACK (R274). A peer acknowledges a SEND and it is performed. -/
  | chainSendAck (u : ChainRef) (accept : Bool)
  /-- CHAIN_RECVWAIT_MET (R273). A RECVWAIT counter reaches its value and the chain acquires and continues. -/
  | chainRecvwaitMet (u : ChainRef)
  /-- CHAIN_END (R275). A chain ends by END, CHKILL or fault and adds its end value to its counter. -/
  | chainEnd (u : ChainRef)
  /-- WEIGHT_LATCH (R288). A WLOAD's tile is fetched and latches as a weight set. -/
  | weightLatch (sh : Nat)
  /-- MATRIX_OPERATION (R297). The array performs a bound operation on its tile once its set has latched. -/
  | matrixOperation (core : Nat)
  /-- TILE_PATH_ENTRY (R286). The tile path performs an ACLR, ARD, AWR or MSTAT queue entry. -/
  | tilePathEntry (core k : Nat)
  /-- ADRAIN_COMPLETE (R300). An ADRAIN converts and writes its rows and completes. -/
  | adrainComplete (core k : Nat)
  /-- MATRIX_ENGINE_RESET (R305). Hearth core 4 resets a core's matrix engine after a 100 µs hang or internal error. -/
  | matrixEngineReset (core : Nat)
  /-- MATRIX_RESET_END (R305). The 20 µs reset ends, queued tile entries run and parked issuers resume. -/
  | matrixResetEnd (core : Nat)
  /-- BLOCK_WRITEBACK (R333). The memory-side cache writes back a block, the kiln compresses it and settles its charge. -/
  | blockWriteback (blk : Nat)
  /-- HELD_CHARGE_DECIDED (R340). A charge held while the path was suspended is decided after resumption. -/
  | heldChargeDecided (ag : Nat)
  /-- GRANT_MOVE (R331). Hearth core 3 moves grant between shares of a virtual device. -/
  | grantMove (vd stack : Nat)
  /-- BALLOON_REQUEST_OPEN (R338). Hearth core 3 opens a balloon request and increments the balloon counter. -/
  | balloonRequestOpen (vd : Nat)
  /-- BALLOON_DEADLINE_EXPIRY (R340). The balloon deadline ends with the request open and the charge path is suspended. -/
  | balloonDeadlineExpiry (vd : Nat)
  /-- CAPACITY_WAIT_RESTART (R337). A task in capacity-wait restarts once the reserve covers its thresholds. -/
  | capacityWaitRestart (t : Nat)
  /-- TASK_FAULT (R237). A task stops, its version is discarded and it is restarted or trapped. -/
  | taskFault (t : Nat)
  /-- TASK_RESTART (R237). A discarded task restarts from its start on chosen cores. -/
  | taskRestart (t : Nat) (cores : List Nat)
  /-- VERSION_COMMIT (R119). A version is committed in one step at device scope. -/
  | versionCommit (t : Nat)
  /-- COMMIT_REQUEST (R380). A commit request is ordered by the arbiters and checked for isolated tasks. -/
  | commitRequest (t : Nat)
  /-- COMMIT_TOKEN_GRANT (R382). The partition's commit token is granted to the oldest qualifying task. -/
  | commitTokenGrant (part : Nat)
  /-- TEAM_RETIRE (R376). A team retires and the retire cursor advances. -/
  | teamRetire (t : Nat)
  /-- LAUNCH_WATCHDOG_EXPIRY (R378). A launch's watchdog expires and every task of the launch is killed. -/
  | launchWatchdogExpiry (l : Nat)
  /-- DIE_DISTRIBUTOR_REQUEST (R374). A die distributor takes the next 64 teams of a launch. -/
  | dieDistributorRequest (die l : Nat)
  /-- CLUSTER_RANGE_HANDOUT (R374). A die distributor passes 8 teams to a cluster distributor with room. -/
  | clusterRangeHandout (die cluster l : Nat)
  /-- TEAM_PLACEMENT (R374). A cluster distributor places the next team of its range as shares. -/
  | teamPlacement (die cluster l : Nat)
  /-- RANGE_STEAL (R375). An idle distributor steals half of a sibling's unstarted range. -/
  | rangeSteal (thief victim : DistRef) (l : Nat)
  /-- GANG_FORMER_POP (R385). A gang former pops the oldest ready billet of the highest level into a bin. -/
  | gangFormerPop (core l : Nat)
  /-- BIN_TIMEOUT (R203). A bin forms a short group 2,048 clocks after its oldest billet entered. -/
  | binTimeout (core bin : Nat)
  /-- CORD_SCHEDULE_WALK (R395). The scheduler walks waiting cords by effective priority, placing and reserving regions. -/
  | cordScheduleWalk (vd : Nat)
  /-- CORD_AGEING_TICK (R395). A millisecond tick raises waiting cords' effective priority and triggers a walk. -/
  | cordAgeingTick (vd : Nat)
  /-- SLICE_END (R248). At slice end outgoing front ends take cause 0x14 and the handler budget starts. -/
  | sliceEnd (core : Nat)
  /-- CONTEXT_SWAP (R248). When every front end has yielded, shares stop, state is brought to saved form and banks swap. -/
  | contextSwap (core : Nat)
  /-- HANDLER_BUDGET_EXPIRY (R249). The slice-end handler budget ends and the core makes a forced save. -/
  | handlerBudgetExpiry (core : Nat)
  /-- SPILL_COMPLETE (R247). The spill engine finishes saving and filling contexts. -/
  | spillComplete (core : Nat)
  /-- BUDGET_REFILL (R416). At each PERIOD a tenant's budget bucket is refilled. -/
  | budgetRefill (vd core : Nat)
  /-- RUN_END (R416). A tenant's run ends and the core selects the next tenant. -/
  | runEnd (core : Nat)
  /-- CTXSW_RUN_END (R417). A run forced by CTXSW reaches RUN and the core returns to normal selection. -/
  | ctxswRunEnd (core : Nat)
  /-- CARVEOUT_CHANGE (R422). A carve-out change of a core is requested. -/
  | carveoutChange (core ways : Nat)
  /-- CARVEOUT_CHANGE_EFFECT (R422). A pending carve-out split takes effect and %carve changes. -/
  | carveoutChangeEffect (core : Nat)
  /-- PAGE_WALK (R358). A TLB miss walks the page tables, setting A and D or faulting. -/
  | pageWalk (core vd : Nat) (va : BitVec 64) (k : Access)
  /-- MAKE_RESIDENT (R363). Hearth core 3 brings a non-resident page by replica or migration. -/
  | makeResident (vd : Nat) (va : BitVec 64) (die : Nat) (dup : Bool)
  /-- REPLICA_CREATE (R364). Hearth core 3 makes a read-only replica on the reader's die. -/
  | replicaCreate (vd : Nat) (va : BitVec 64) (die : Nat)
  /-- REPLICA_COLLAPSE (R365). A write to a replicated page collapses it to one copy. -/
  | replicaCollapse (vd : Nat) (va : BitVec 64) (die : Nat)
  /-- STACK_HANDOVER (R369). A hand-over runs at the stack's base die through revoke, drain, recall, switch and grant. -/
  | stackHandover (stack : Nat)
  /-- LOAN_AGREEMENT (R372). Hearth core 3 records a loan agreement on matching supervisor requests. -/
  | loanAgreement (stack borrower seconds : Nat)
  /-- LOAN_END (R373). A loan ends by matching requests or lender demand and pages are migrated back. -/
  | loanEnd (stack : Nat) (demand : Bool)
  /-- LOAN_DEADLINE_EXPIRY (R373). The loan return deadline passes, remaining pages are surrendered and the stack handed back. -/
  | loanDeadlineExpiry (stack : Nat)
  /-- MAILBOX_MESSAGE (R397). A message is delivered to a hearth core mailbox or dropped. -/
  | mailboxMessage (target sender : Nat) (msg : List (BitVec 8))
  /-- QUEUE_CREATE (R400). A queue descriptor is accepted and the queue becomes ACTIVE. -/
  | queueCreate (sender : Nat) (desc : List (BitVec 8))
  /-- QUEUE_RESET (R400). A queue in ERROR is reset to a new read index. -/
  | queueReset (request : QueueRequest) (index : Nat)
  /-- QUEUE_DESTROY (R400). A queue stops starting packets and waits for dispatched ones. -/
  | queueDestroy (request : QueueRequest)
  /-- QUEUE_DESTROY_COMPLETE (R400). A destroyed queue's dispatched packets complete and it becomes DISABLED. -/
  | queueDestroyComplete (q : Nat)
  /-- DOORBELL_WRITE (R399). An application core writes a queue's doorbell register. -/
  | doorbellWrite (q : Nat) (index : BitVec 64)
  /-- WRITE_INDEX_NOTICE (R399). Hearth core 1 notices a write-index advance on a device-owned queue. -/
  | writeIndexNotice (q : Nat)
  /-- PACKET_NOP (R405). A NOP packet is performed in one micro-step. -/
  | packetNop (q : Nat)
  /-- PACKET_LAUNCH (R405). A LAUNCH packet reads and checks its kernel object and records. -/
  | packetLaunch (q : Nat)
  /-- LAUNCH_BILLET_STEP (R405). A micro-step creates 256 initial billets of a billet launch. -/
  | launchBilletStep (q : Nat)
  /-- LAUNCH_DISPATCH (R404). The last micro-step hands the launch to hearth core 2 as a release. -/
  | launchDispatch (q : Nat)
  /-- PACKET_CORD (R405). A CORD packet is checked and handed to hearth core 2. -/
  | packetCord (q : Nat)
  /-- PACKET_WAIT (R403). A WAIT packet begins testing its location. -/
  | packetWait (q : Nat)
  /-- WAIT_CONDITION_MET (R403). A WAIT's condition holds; it acquires and completes. -/
  | waitConditionMet (q : Nat)
  /-- PACKET_WRITE (R401). A WRITE packet writes its bytes as a release. -/
  | packetWrite (q : Nat)
  /-- PACKET_SIGNAL (R401). A SIGNAL packet adds to or stores a location atomically. -/
  | packetSignal (q : Nat)
  /-- PACKET_WRSIG_WRITE (R401). The write step of a WRSIG packet. -/
  | packetWrsigWrite (q : Nat)
  /-- PACKET_WRSIG_SIGNAL (R405). The signal step of a WRSIG packet. -/
  | packetWrsigSignal (q : Nat)
  /-- PACKET_CHAINRUN (R402). A CHAINRUN packet starts a chain on the hearth's port of a die. -/
  | packetChainrun (q : Nat)
  /-- PACKET_RANGES (R366). A RANGES micro-step brings 64 pages of its ranges. -/
  | packetRanges (q : Nat)
  /-- KINDLING (R403). While the queue head is blocked, code and arguments of later launches are prefetched. -/
  | kindling (q : Nat)
  /-- PACKET_COMPLETION (R406). A packet completes and its completion signal is added. -/
  | packetCompletion (q k : Nat)
  /-- VDEV_DESCRIPTOR (R414). The hypervisor defines or updates a virtual device. -/
  | vdevDescriptor (part : Nat) (desc : List (BitVec 8))
  /-- GRANT_MESSAGE (R414). The hypervisor grants sectors to a tenant's shares through hearth core 3. -/
  | grantMessage (vd stack sectors : Nat)
  /-- TENANT_PAUSE (R418). A READY tenant is paused and its guest time frozen. -/
  | tenantPause (vd : Nat)
  /-- TENANT_RESUME (R418). A PAUSED tenant resumes with guest time continuing. -/
  | tenantResume (vd : Nat)
  /-- TENANT_RESET (R418). A reset message or virtual-device fault freezes the tenant and captures an ash record. -/
  | tenantReset (vd : Nat)
  /-- TENANT_CLEAR (R419). A frozen tenant's state is cleared after its ash record. -/
  | tenantClear (vd : Nat)
  /-- CLEARING_DONE (R418). Clearing ends and the tenant returns to READY. -/
  | clearingDone (vd : Nat)
  /-- TENANT_EXPORT (R418). A PAUSED tenant is checkpointed to a target and removed. -/
  | tenantExport (vd target : Nat)
  /-- TENANT_IMPORT (R421). An image is restored as a PAUSED tenant. -/
  | tenantImport (vd image : Nat)
  /-- TENANT_UNDEFINE (R418). A tenant is reset without capture and its descriptor dropped. -/
  | tenantUndefine (vd : Nat)
  /-- CHECKPOINT (R350). Hearth core 3 copies a stored image to the safe tier. -/
  | checkpoint (x : ImageOf)
  /-- DEBUG_ACCESS (R245). The debugger reads or writes a halted thread's state through hearth core 4. -/
  | debugAccess (ag : Nat) (op : DebugOp)
  /-- DEBUG_RESUME (R245). The debugger resumes a halted thread at its halt PC. -/
  | debugResume (ag : Nat)
  /-- DEBUG_STEP (R245). The debugger resumes a halted thread for one instruction. -/
  | debugStep (ag : Nat)
  /-- DEBUG_KILL (R245). The debugger kills a halted thread. -/
  | debugKill (ag : Nat)
  /-- DEBUG_DROP_MASK (R245). The debugger drops a halted thread from a rejoin mask. -/
  | debugDropMask (ag : Nat) (m : BitVec 4)
  /-- HEARTH_CORE_TIMEOUT (R19). A hearth core misses its 100 ms mailbox deadline and core 0 restarts it. -/
  | hearthCoreTimeout (k : Nat)
  /-- SUPERVISION_TIMER_EXPIRY (R19). The package supervision timer expires and core 0 restarts from ROM. -/
  | supervisionTimerExpiry (verified : Bool)
  /-- MEMORY_ERROR (R410). An uncorrectable memory error is classified and its launch or device faulted. -/
  | memoryError (e : MemError)
  /-- SOFT_ERROR (R410). A correctable soft error is corrected and counted. -/
  | softError (stack channel : Nat)
  /-- DIE_LINK_LOSS (R410). Loss of the die-to-die link resets the partition or package with ash records. -/
  | dieLinkLoss
  /-- LINK_ENABLE (R424). A Workar link is enabled and starts training. -/
  | linkEnable (link : Nat)
  /-- LINK_TRAINED (R424). A training link agrees keys and opens its fabric windows. -/
  | linkTrained (link : Nat)
  /-- LINK_TRAINING_TIMEOUT (R424). A link fails to train within 1,000 ms and goes DOWN. -/
  | linkTrainingTimeout (link : Nat)
  /-- LINK_LOST_LOCK (R424). An UP link loses lock or exceeds its retry rate and retrains. -/
  | linkLostLock (link : Nat)
  /-- LINK_RETRAINED (R424). A retraining link recovers and delivers held writes. -/
  | linkRetrained (link : Nat)
  /-- LINK_RECOVERY_EXPIRY (R124). The recovery limit passes and the link is declared down with lost writes. -/
  | linkRecoveryExpiry (link : Nat)
  /-- SECURITY_ALARM_L2 (R429). A glitch or unauthorised debug unlock freezes every partition and erases session keys. -/
  | securityAlarmL2
  /-- SECURITY_ALARM_L3 (R429). The tamper mesh or a repeated level 2 erases the identity keys. -/
  | securityAlarmL3
  /-- THERMAL_THROTTLE (R431). Hearth core 5 lowers or raises the arithmetic clock in 50 MHz steps. -/
  | thermalThrottle (up : Bool)
  /-- JUNCTION_OVERTEMP (R431). A junction at 115 °C resets the package with ash records. -/
  | junctionOvertemp
  /-- PACKAGE_RESET_BOOT (R428). Boot verifies the firmware, loads hearth cores, checks configuration and releases partitions. -/
  | packageResetBoot (verified : BootChecks)
  /-- RECOVERY (R428). A ROM client fetches and verifies a signed bundle, writes it and resets. -/
  | recovery (bundle : Bundle)
  /-- CONFIG_RECORD_UPDATE (R426). A new configuration record is verified and accepted or refused. -/
  | configRecordUpdate (r : ConfigRecord) (signaturesVerify : Bool)
  /-- IDENTITY_REQUEST (R427). Hearth core 0 returns the identity record to a supervisor. -/
  | identityRequest (part : Nat)
  /-- TELEMETRY_RECORD (R430). Hearth core 7 writes a lifetime record each 24 hours of operation. -/
  | telemetryRecord
  /-- TELEMETRY_REQUEST (R430). Hearth core 7 returns lifetime records to a supervisor. -/
  | telemetryRequest (part : Nat)
  /-- APPLICATION_CORE_ACCESS (R107). An application core performs a load, store, AMO or LR/SC on device memory under RVWMO, for instance writing packets, write indices or page-table leaves. -/
  | applicationCoreAccess (hart : Nat) (op : HostOp)
  /-- PCIE_HOST_ACCESS (R107). A write or read from the PCIe host arrives and is performed on device memory in PCIe posted order. -/
  | pcieHostAccess (x : PcieAccess)
  /-- INBOUND_FABRIC_WRITE (R106). A peer device's write, atomic or remote SIGNAL arrives over a Workar link or Ethernet and is performed on this device's memory. -/
  | inboundFabricWrite (port : Nat) (op : HostOp)
  /-- POSTED_WRITE_ACK (R124). A peer acknowledges a thread's posted write, releasing a system-scope fence that waits on it. -/
  | postedWriteAck (k : Nat)
  /-- EXTRAPOLATION_ENTRY (R313). The extrapolation unit performs the next entry of its queue on the issuing threads' contexts. -/
  | extrapolationEntry (core : Nat)
  /-- CHARGE_PATH_LIFT (R340). The hypervisor lifts the suspension of a virtual device's charge path. -/
  | chargePathLift (vd : Nat)
  /-- PTP_CORRECTION (R420). A PTP exchange over Ethernet gives hearth core 6 a correction, which slews the reference counter. -/
  | ptpCorrection (ppm : Int)
  /-- ENROLLMENT (R427). The device is enrolled, writing the identity record and leaving the recovery-only state after a level 3 alarm. -/
  | enrollment (r : Identity)
  deriving DecidableEq, Repr

end Sys2Proof
end

