-- ==== Sys2Proof/Machine/State.lean ====
section
/-! DEFINITION. The machine's state, whole, as plain data, and the state after reset.
Each field's comment gives what it holds, its width, its rule and its value at reset. -/

namespace Sys2Proof.Machine

/-- Memory in its canonical form: addresses strictly rising, no entry equal to what an unlisted address reads as. -/
abbrev Mem := List Host.Cell
/-- A sparse array of words: indices strictly rising, no entry equal to 0. -/
abbrev Words := List (Nat × Word)

/-! ## A thread or front end -/

/-- Where a register result goes. -/
inductive Dst where
  /-- A thread or front-end register. -/
  | reg (n : Nat)
  /-- A predicate p0 to p6. -/
  | pred (n : Nat)
  /-- A special register (R57, R58: the effect of CSRW). -/
  | csr (n : Nat)
  deriving DecidableEq, Repr, Inhabited

/-- A result of a fixed-latency producer that is nearer than its latency: reads may still see the old value (R57). -/
structure Pend where
  /-- The register. -/
  dst : Dst
  /-- Its value before the producer. -/
  old : Word
  /-- The issue count from which every read sees the new value. -/
  due : Nat
  deriving DecidableEq, Repr, Inhabited

/-- An outstanding variable-latency result, with its scoreboard entries (R59). -/
structure Outst where
  /-- Number of the result within its thread. -/
  id : Nat
  /-- Its producer has performed it, so that it can be written. -/
  done : Bool
  /-- Its producer is of majors 0x20 to 0x2F (R163). -/
  fp : Bool
  /-- The registers and the values they receive. -/
  writes : List (Dst × Word)
  /-- The flags OR'd into %fstat as it is written (R163). -/
  flags : BitVec 5
  deriving DecidableEq, Repr, Inhabited

/-- A trap that a thread has met and is to take (R233, R240). -/
structure TrapArgs where
  /-- Cause; R69. -/
  cause : Nat
  /-- The PC it is to record. -/
  pc : DWord
  /-- The value for %taddr. -/
  addr : DWord
  /-- The value for %tinfo. -/
  info : Word
  /-- Shortfall in sectors, for a record of cause 0x08. -/
  short : Nat
  /-- Suppressed stores, for a record of cause 0x08. -/
  supp : Nat
  /-- The thread was resumed for the one instruction that met it (R245). -/
  step : Bool
  deriving DecidableEq, Repr, Inhabited

/-- Why a thread or front end is parked, with what releases it (R14, R60, R137, R143, R184, R228). -/
inductive Wait where
  /-- A store that waits to be accepted (R98, R101, R340): 0 a full store queue, 1 a full forwarding table, 2 a held charge, 3 a store and 4 an STS behind another of its group. -/
  | store (k : Nat)
  /-- A full engine queue or table, or an engine reset (R14, R264, R275, R305): 0 copy, 1 chain, 2 matrix, 3 extrapolation; 4 a held charge of an engine command (R280, R340). -/
  | engine (k : Nat)
  /-- Parked at a rejoin mask (R184). -/
  | mask (m : Nat)
  /-- Parked on a barrier's phase (R223), with the length of its BAR instruction: the pc stays there until the release. -/
  | barrier (b : Nat) (phase : Word) (len : Nat)
  /-- An empty or full decision queue (R143). -/
  | queue
  /-- An absent scratchpad line (R115). -/
  | presence (line : Nat)
  /-- PGREQ with BLK (R214). -/
  | page (va : DWord) (p : BitVec 3)
  /-- CTWAIT (R270). -/
  | counter
  /-- The W point of an issued instruction (R60); whether the encoded W bit asked for it (R239). -/
  | wmark (enc : Bool)
  /-- A full billet store or node queue (R389, R390). -/
  | slots
  /-- YIELD in the slice-end handler: waits for the switch (R187, R248). -/
  | switch
  /-- A trap it has met: its fault record is still to be written, or its kill is still to take its turn on the barriers (R224, R240, R410); whether it is the deferred trap of suppressed stores (R239). -/
  | record (deferred : Bool) (x : TrapArgs)
  deriving DecidableEq, Repr, Inhabited

/-- Whether a thread or front end can issue. -/
inductive Status where
  /-- Not parked, not halted, not ended. -/
  | ready
  /-- Parked. -/
  | parked (w : Wait)
  /-- Halted for the debugger (R245). -/
  | halted
  /-- Exited, killed or rebinned (R148). -/
  | ended
  deriving DecidableEq, Repr, Inhabited

/-- The trap registers of a thread or front end (R64, R232). -/
structure TrapRegs where
  /-- Handler bit H; 1 bit; R232; 0 at thread start. -/
  h : Bool
  /-- %tcause; 32 bits; R64, R69; 0 at thread start. -/
  cause : Word
  /-- %trpc and %trpch; 64 bits; R64, R162; 0 at thread start. -/
  rpc : DWord
  /-- %taddr and %taddrh; 64 bits; R64; 0 at thread start. -/
  addr : DWord
  /-- %tinfo; 32 bits; R64; 0 at thread start. -/
  info : Word
  /-- %tvec and %tvech; 64 bits; R64, R232; the launch's TVEC at thread start. -/
  vec : DWord
  /-- %tscratch; 32 bits; R64; 0 at thread start. -/
  scratch : Word
  deriving DecidableEq, Repr, Inhabited

/-- The halt record (R245). -/
structure HaltRec where
  /-- Halt cause; 8 bits; R245. -/
  cause : Word
  /-- Halt address; 64 bits; R245. -/
  addr : DWord
  /-- Halt detail; 32 bits; R245. -/
  info : Word
  /-- Halt PC; 64 bits; R245. -/
  pc : DWord
  /-- What it was parked on when it was halted. -/
  parked : Option Wait
  deriving DecidableEq, Repr, Inhabited

/-- An asynchronous cause held for a thread (R241). -/
structure Async where
  /-- The cause: 0x0E, 0x14, 0x0A or 0x10; 0x0B of single step; 0x16 of a barrier error that released the thread. -/
  cause : Nat
  /-- The value for %taddr. -/
  addr : DWord
  /-- The value for %tinfo. -/
  info : Word
  deriving DecidableEq, Repr, Inhabited

/-- Suppression of stores after a refused charge (R239). -/
structure Supp where
  /-- Address of the first suppressed store; 64 bits; R239. -/
  addr : DWord
  /-- Number of suppressed stores; R239. -/
  count : Nat
  /-- Shortfall of the first in sectors; R239. -/
  short : Nat
  deriving DecidableEq, Repr, Inhabited

/-- An extrapolation context (R312). -/
structure XCtx where
  /-- METHOD; 2 bits; R312; 1 at thread start. -/
  meth : BitVec 2
  /-- DEPTH; 4 bits; R312; 3 at thread start. -/
  depth : BitVec 4
  /-- INTVL; 17 bits; R312; 1 at thread start. -/
  intvl : BitVec 17
  /-- TS; 32 bits; R312; +0 at thread start. -/
  ts : Word
  /-- TZ; 32 bits; R312; +0 at thread start. -/
  tz : Word
  /-- H0 to H7, oldest in H0; 32 bits each; R312; +0 at thread start. -/
  hist : List Word
  /-- CNT; 4 bits; R312; 0 at thread start. -/
  cnt : Nat
  /-- PHASE; 16 bits; R312; 0 at thread start. -/
  phase : BitVec 16
  /-- NEW; 1 bit; R312; 1 at thread start. -/
  fresh : Bool
  /-- V; 1 bit; R312; 0 at thread start. -/
  v : Bool
  /-- LAST; 32 bits; R312; 0x7FC0_0000 at thread start. -/
  last : Word
  /-- LFLAGS; 12 bits; R312; 0x008 at thread start. -/
  lflags : BitVec 12
  deriving DecidableEq, Repr, Inhabited

/-- Where an agent belongs. -/
structure Home where
  /-- The share it runs in (R129, R131). -/
  share : Nat
  /-- Its group, none for a front end (R131). -/
  group : Option Nat
  /-- Index i of the thread in its group (R126). -/
  idx : Nat
  /-- Register budget (R130); 64 for a front end. -/
  budget : Nat
  deriving DecidableEq, Repr, Inhabited

/-- What a thread's floating-point and counter reads keep. -/
structure FpState where
  /-- %fstat; 5 flags of 32 bits; R84; clear at thread start. -/
  fstat : BitVec 5
  /-- %frm; RM [1:0] and FPE [12:8] of 32 bits; R83; 0 at thread start. -/
  frm : Word
  /-- %rngseed; 32 bits; R89; the start value of R89. -/
  rngseed : Word
  /-- Flags of instructions nearer than their latency, with the issue count at which they enter %fstat (R163). -/
  fpend : List (Nat × BitVec 5)
  /-- The capture of %time; 64 bits; R65; none at thread start. -/
  time : Option DWord
  /-- The capture of %clock; 64 bits; R65; none at thread start. -/
  clock : Option DWord
  deriving DecidableEq, Repr, Inhabited

/-- A lane thread or a front end (R126, R131, R141). -/
structure Agent where
  /-- Where it belongs. -/
  home : Home
  /-- v0 to v254 within the budget, or s0 to s63; 32 bits each; R47, R129; 0 at thread start. -/
  regs : List Word
  /-- p0 to p7, bit 7 always 1; 8 bits; R56, R129; 0x80 at thread start. -/
  preds : BitVec 8
  /-- Program counter; 64 bits; R44, R129; the entry point at thread start. -/
  pc : DWord
  /-- Whether it can issue. -/
  status : Status
  /-- Instructions issued since its start; R57; 0 at thread start. -/
  issued : Nat
  /-- Fixed-latency results not yet at their distance, newest first; R57. -/
  pend : List Pend
  /-- Outstanding variable-latency results, at most 16 registers; R59. -/
  outst : List Outst
  /-- Floating-point state and captures. -/
  fp : FpState
  /-- Trap registers. -/
  trap : TrapRegs
  /-- Link stack, newest first; 16 entries of 64 bits; R182; empty at thread start. -/
  link : List DWord
  /-- Entries of the decision queue it has read, counted from the share's start; R142; 0 at thread start. -/
  dqRead : Nat
  /-- Suppression of stores; R239; none at thread start. -/
  supp : Option Supp
  /-- Barriers it has arrived at, each with the phase; R222; empty at thread start. -/
  arrived : List (Nat × Word)
  /-- xc0 to xc7; R311, R312. -/
  xctx : List XCtx
  /-- Halt record; R245; none unless halted. -/
  halt : Option HaltRec
  /-- Asynchronous causes held; R241. -/
  async : List Async
  /-- The next instruction is not matched against breakpoints (R244). -/
  skipBp : Bool
  /-- Resumed for one instruction (R245). -/
  stepOnce : Bool
  /-- A W point still to be met once its park ends (R60). -/
  wHold : Bool
  /-- In the slice-end handler of cause 0x14 in its cooperative phase (R187, R248). -/
  sliceEnd : Bool
  /-- ADRAINs of its issues that have not completed, by entry number (R302). -/
  drains : List Nat
  /-- The model's own: a release or fence at system scope waits for posted writes: the issue count at which it does, and the move up to which they were posted; R103, R124; none. -/
  relAt : Option (Nat × Nat)
  deriving DecidableEq, Repr, Inhabited

/-! ## Groups and shares -/

/-- What a store-queue entry does when it drains. -/
inductive SqOp where
  /-- A store of bytes. -/
  | store (bytes : List Byte)
  /-- A RED: minor code, width in bytes, operand (R218, R219). -/
  | red (op n : Nat) (b : DWord)
  deriving DecidableEq, Repr, Inhabited

/-- A store-queue entry (R98). -/
structure SqEntry where
  /-- The agent that issued it. -/
  ag : Nat
  /-- Its task. -/
  task : Nat
  /-- Physical address. -/
  pa : Nat
  /-- What it does. -/
  op : SqOp
  /-- Its bytes enter the task's version (R118). -/
  vers : Bool
  /-- Its page has HOME 11 (R361). -/
  h11 : Bool
  deriving DecidableEq, Repr, Inhabited

/-- A group of threads (R15, R126). -/
structure Group where
  /-- Its share. -/
  share : Nat
  /-- %gid; R127. -/
  gid : Nat
  /-- Producer role (R16, R127 %role). -/
  producer : Bool
  /-- %gwidth: 32, 64 or 128; R64. -/
  width : Nat
  /-- Partition of the core, 0 to 5; R132. -/
  part : Nat
  /-- Agent numbers of threads 0 to width − 1; R126. -/
  members : List Nat
  /-- m0 to m15: none is idle, else the member set by thread index; R184; idle at start. -/
  masks : List (Option (BitVec 128))
  /-- Store queue, oldest first; 32 entries; R98; empty at start. -/
  sq : List SqEntry
  /-- Stores that wait to be accepted, in issue order: whether it is an STS, the thread, and its pc; R98, R101, R340; empty at start. -/
  line : List (Bool × Nat × DWord)
  /-- Issue count at its last class F issue; R138. -/
  lastF : Nat
  /-- Issue count at its last class G issue; R138. -/
  lastG : Nat
  deriving DecidableEq, Repr, Inhabited

/-- An instruction-buffer entry of a partition: the fetch stream of one fragment (R139). -/
structure IBuf where
  /-- The group. -/
  group : Nat
  /-- Its program counter. -/
  pc : DWord
  /-- The model's own count at its last issue, for the least recently issued. -/
  last : Nat
  deriving DecidableEq, Repr, Inhabited

/-- Where a share stands. -/
inductive ShareState where
  /-- Waiting for a core (R132). -/
  | waiting
  /-- On a core. -/
  | resident
  /-- Saved at a switch (R246). -/
  | saved
  /-- Retired (R149). -/
  | retired
  deriving DecidableEq, Repr, Inhabited

/-- A weight set of a share (R288). -/
structure WSet where
  /-- Number of its WLOAD within the share. -/
  id : Nat
  /-- Weight format code; R290. -/
  fmt : BitVec 4
  /-- SPARSE; R290. -/
  sparse : BitVec 2
  /-- Latched. -/
  latched : Bool
  /-- Retired (R288). -/
  retired : Bool
  /-- Column bytes as latched, 64 columns; R291. -/
  cols : List (List Byte)
  /-- Scale bytes of each column, empty without scales; R291. -/
  scales : List (List Byte)
  /-- HAD; R290. -/
  hadn : BitVec 2
  deriving DecidableEq, Repr, Inhabited

/-- Where the row of a signer comes from (R294, R295). -/
inductive RowSrc where
  /-- Registers still to be read: the first, how many, scales after the row (R294), and the issue count of the MMA (R57). -/
  | reading (r n at_ : Nat)
  /-- The values read as the operation entered the queue (R117, R145). -/
  | values (ws : List Word)
  /-- A scratchpad row at an offset. -/
  | pad (off : Nat)
  /-- A global row at a virtual address. -/
  | glob (va : DWord)
  deriving DecidableEq, Repr, Inhabited

/-- The fields the first signature fixes (R296). -/
structure SigSpec where
  /-- Accumulator tile. -/
  tile : BitVec 3
  /-- Activation format. -/
  fmt : BitVec 4
  /-- KSZ. -/
  ksz : BitVec 2
  /-- KH. -/
  kh : Bool
  /-- AS. -/
  as : Bool
  /-- Z. -/
  z : Bool
  /-- ROW0. -/
  row0 : BitVec 7
  /-- SP. -/
  sp : Bool
  deriving DecidableEq, Repr, Inhabited

/-! ## Engines of a core -/

/-- The tensor shape record, 64 bytes (R260). -/
abbrev ShapeRec := List Byte

/-- A tensor copy in the queue or running (R262 to R268). -/
structure Copy where
  /-- Number within its core. -/
  id : Nat
  /-- Issuing share. -/
  share : Nat
  /-- DIR: 0 g2s, 1 s2g, 2 g2g. -/
  dir : Nat
  /-- The record as read at issue. -/
  shape : ShapeRec
  /-- Box origin, dimension 0 first. -/
  coord : List Int
  /-- Tile address: scratchpad offset or virtual address. -/
  tile : DWord
  /-- CMODE. -/
  cmode : Nat
  /-- Counter address or offset, or barrier number. -/
  counter : DWord
  /-- Destination blocks it holds a charge for (R264). -/
  blocks : List Nat
  /-- The thread or front end that issued it (R379). -/
  ag : Nat
  /-- Its counter's increment is a release at system scope (R113). -/
  sys : Bool
  /-- The model's own: the move of its issue; that release covers what was posted before (R103, R113). -/
  since : Nat
  /-- Its data has moved, with the bytes it is credited with; the report waits for its posted writes (R113). -/
  moved : Option Nat
  deriving DecidableEq, Repr, Inhabited

/-- A range-lock entry (R271). -/
structure RLock where
  /-- The copy that holds it. -/
  copy : Nat
  /-- Virtual device. -/
  vd : Nat
  /-- Lowest byte. -/
  lo : DWord
  /-- Highest byte. -/
  hi : DWord
  /-- Destination range. -/
  dest : Bool
  deriving DecidableEq, Repr, Inhabited

/-- A running chain of a core (R272 to R277) or of the hearth (R402). -/
structure Chain where
  /-- Issuing share, or none for a CHAINRUN. -/
  share : Option Nat
  /-- Virtual device and privilege of a CHAINRUN. -/
  vd : Nat
  /-- PRIV of the issuing task or queue (R276). -/
  priv : Bool
  /-- Queue and packet index of a CHAINRUN. -/
  packet : Nat × Nat
  /-- Head: offset or virtual address. -/
  head : DWord
  /-- Current entry. -/
  pos : DWord
  /-- Counts of LOOP entries, nonzero ones, by address; R274. -/
  loops : List (DWord × Nat)
  /-- CMODE; R275. -/
  cmode : Nat
  /-- Counter. -/
  counter : DWord
  /-- SENDs not yet acknowledged, oldest first: each one's port, or 255 where its link has been declared down since, and its entry's address; R274, R276. -/
  sends : List (Nat × DWord)
  /-- CHKILL or a reset asked it to stop. -/
  stop : Bool
  /-- It has reached its end with this value, not yet added; R275. -/
  ending : Option DWord
  /-- %tid of the issuer. -/
  tid : Word
  /-- The issuer was a front end. -/
  fe : Bool
  /-- The thread or front end that issued it, none for a CHAINRUN (R379). -/
  ag : Option Nat
  /-- Its counter's increment is a release at system scope (R113). -/
  sys : Bool
  /-- The model's own: the move of its start, or of the last RECVWAIT that it met; its releases at system scope cover what was posted before (R103, R113). -/
  since : Nat
  /-- FREC of a CHAINRUN, 0 for none. -/
  frec : DWord
  /-- It has faulted, with a cause, an address and a shortfall, and its record is still to be written; R276, R402; none. -/
  failing : Option (Nat × DWord × Nat)
  deriving DecidableEq, Repr, Inhabited

/-- A matrix-queue command (R286). -/
inductive MxCmd where
  /-- WLOAD: its set number, address, stride, scale address. -/
  | wload (set : Nat) (va : DWord) (stride : Nat) (scales : Option DWord)
  /-- An operation: convergence register, spec, each row with its signer and index, the set. -/
  | op (cv : Nat) (spec : SigSpec) (rows : List (Nat × Nat × RowSrc)) (set : Nat)
  /-- ACLR. -/
  | aclr (t : BitVec 3)
  /-- ARD: tile, chunk, and for each thread its agent, result number and row. -/
  | ard (t : BitVec 3) (chunk : Nat) (for_ : List (Nat × Nat × Nat))
  /-- AWR: tile, chunk, and each thread's row and words in ascending %tid. -/
  | awr (t : BitVec 3) (chunk : Nat) (rows : List (Nat × List Word))
  /-- ADRAIN: tile, target format, SAT, CLR, SCALE, scratchpad, destination, stride, ROW0, count, destination blocks charged. -/
  | adrain (t : BitVec 3) (fmt : BitVec 4) (sat clr : Bool) (scale : BitVec 8) (sp : Bool) (dest : DWord) (stride row0 count : Nat) (blocks : List Nat)
  /-- WREL. -/
  | wrel
  /-- MSTAT: KEEP, and the agents and result numbers that receive it. -/
  | mstat (keep : Bool) (for_ : List (Nat × Nat))
  deriving DecidableEq, Repr, Inhabited

/-- A matrix-queue entry (R286). -/
structure MxEntry where
  /-- Number within its core. -/
  id : Nat
  /-- Its share. -/
  share : Nat
  /-- The command. -/
  cmd : MxCmd
  /-- Core clock at which it entered, and for an operation the one of its last signature (R147). -/
  clk : Nat
  deriving DecidableEq, Repr, Inhabited

/-- An extrapolation command of one thread (R313). -/
inductive XCmd where
  /-- XCFG: context, method, depth, interval, TS, TZ sources. -/
  | cfg (x : BitVec 3) (meth : BitVec 2) (depth : BitVec 4) (b a c : Word)
  /-- XPUSH: context, value, result number. -/
  | push (x : BitVec 3) (a : Word) (res : Nat)
  /-- XEST: context, result number. -/
  | est (x : BitVec 3) (res : Nat)
  /-- XCLR. -/
  | clr (x : BitVec 3)
  /-- XSTAT: context, result number. -/
  | stat (x : BitVec 3) (res : Nat)
  deriving DecidableEq, Repr, Inhabited

/-- Engine commands of a share, taken out of the core's queues at a switch (R246). -/
structure Saved where
  /-- Queued copies in queue order. -/
  copies : List Copy
  /-- Queued matrix entries in queue order. -/
  mx : List MxEntry
  /-- Queued extrapolation entries in queue order. -/
  xs : List (List (Nat × XCmd))
  /-- Chains, each with its slot number and use count. -/
  chains : List (Nat × Nat × Chain)
  /-- Range locks of the queued copies. -/
  locks : List RLock
  /-- Lines of the window that the spill engine has still to fill after a resume (R247). -/
  fill : List Nat
  /-- The accumulator tiles are still to be filled after a resume (R247). -/
  tiles : Bool
  deriving DecidableEq, Repr, Inhabited

/-- Nothing saved. -/
def Saved.empty : Saved := { copies := [], mx := [], xs := [], chains := [], locks := [], fill := [], tiles := false }
/-- A team share on a core, or waiting for one, or saved (R131 to R133, R149, R246). -/
structure Share where
  /-- Its task. -/
  task : Nat
  /-- Its core, numbered die × 96 + cluster × 8 + core (R256). -/
  core : Nat
  /-- Where it stands. -/
  state : ShareState
  /-- Its groups. -/
  groups : List Nat
  /-- Its front end's agent number; R131. -/
  fe : Nat
  /-- The front end's store queue; 32 entries; R98. -/
  feSq : List SqEntry
  /-- Issue count at its front end's last issue; R140. -/
  feLast : Nat
  /-- Offset of its window in the carve-out; R422. -/
  base : Nat
  /-- Window size in bytes; R213, R408. -/
  size : Nat
  /-- Scratchpad window, by offset; 8 bits a byte; R213; unlisted bytes read 0. -/
  pad : Mem
  /-- Lines of the window whose presence bit is clear; R115; none at share start. -/
  absent : List Nat
  /-- Decision queue: entries pushed and not yet freed, oldest first; 64 of 32 bits; R142. -/
  dq : List Word
  /-- Entries freed since the share's start; R142. -/
  dqFreed : Nat
  /-- Accumulator tiles a0 to a(t − 1): 128 × 64 words each; R284; +0 at share start. -/
  tiles : List Words
  /-- Matrix status word; 32 bits; R285; 0 at share start. -/
  mstatus : Word
  /-- Weight sets, oldest first; R288; none at share start. -/
  sets : List WSet
  /-- WLOADs entered since the share's start; R288. -/
  wloads : Nat
  /-- The most recent WLOAD that can be bound to; R288. -/
  current : Option Nat
  /-- %ctxtag; 32 bits; R243: its value is open. -/
  ctxtag : Word
  /-- Engine commands saved at a switch; R246; none. -/
  saved : Saved
  deriving DecidableEq, Repr, Inhabited

/-! ## Tasks and launches -/

/-- A barrier (R222). -/
structure Barrier where
  /-- INITD; 1 bit; R222; 0 at team start. -/
  initd : Bool
  /-- BROKEN; 1 bit; R222; 0 at team start. -/
  broken : Bool
  /-- N; 7 bits; R222; 0 at team start. -/
  n : BitVec 7
  /-- A; 7 bits; R222; 0 at team start. -/
  a : BitVec 7
  /-- P; 36 bits, two's complement; R222; 0 at team start. -/
  p : BitVec 36
  /-- PH; 32 bits; R222; 0 at team start. -/
  ph : Word
  deriving DecidableEq, Repr, Inhabited

/-- The state of a convergence register (R145). -/
inductive CvState where
  | idle
  | declared
  | issuing
  | poisoned
  deriving DecidableEq, Repr, Inhabited

/-- A convergence register (R145, R226). -/
structure Cv where
  /-- idle, declared, issuing or poisoned; R145; idle at team start. -/
  state : CvState
  /-- First declared %tid; R226. -/
  t0 : Nat
  /-- Number of declared threads; R226. -/
  n : Nat
  /-- The share that holds the set. -/
  share : Nat
  /-- Signatures: agent, row index and row; R145. -/
  sigs : List (Nat × Nat × RowSrc)
  /-- What the first signature fixed; R296. -/
  spec : Option SigSpec
  /-- The WLOAD the operation is bound to; R288. -/
  bound : Option Nat
  /-- Core clock at which its CVSET took effect; R288. -/
  clk : Nat
  /-- Core clock of its last signature; R147; 0 at team start. -/
  signed : Nat
  deriving DecidableEq, Repr, Inhabited

/-- A billet on its way: code, frame, join count, priority (R383). -/
structure Billet where
  /-- CODE; 64 bits; R383. -/
  code : DWord
  /-- FRAME; 48 bits; R383. -/
  frame : BitVec 48
  /-- JOIN; 16 bits; R383. -/
  join : BitVec 16
  deriving DecidableEq, Repr, Inhabited

/-- State of a billet-store slot (R384). -/
inductive SlotState where
  | free
  | reserved
  | waiting
  | ready
  deriving DecidableEq, Repr, Inhabited

/-- A billet-store slot (R384). -/
structure Slot where
  /-- free, reserved, waiting or ready; R384; free at launch start. -/
  state : SlotState
  /-- Generation; 8 bits; R384; 0 at launch start: DESIGN CHOICE. -/
  gen : BitVec 8
  /-- The billet. -/
  billet : Billet
  /-- Its priority level; R385. -/
  prio : Nat
  /-- The node and record slot the billet's record holds (R386). -/
  record : Option (Nat × Nat)
  deriving DecidableEq, Repr, Inhabited

/-- A work-graph node (R386). -/
structure Node where
  /-- CODE; R386. -/
  code : DWord
  /-- QBASE; R386. -/
  qbase : DWord
  /-- QCAP; R386. -/
  qcap : Nat
  /-- RSIZE; R386. -/
  rsize : Nat
  /-- PRIO; R386. -/
  prio : Nat
  /-- Record slots in use; R386. -/
  used : List Nat
  deriving DecidableEq, Repr, Inhabited

/-- Where a task stands. -/
inductive TaskState where
  /-- Its shares wait for room or run. -/
  | live
  /-- Stopped by a task fault, until hearth core 4 deals with it (R237). -/
  | faulted
  /-- To be restarted by the scheduler (R237). -/
  | restarting
  /-- In capacity-wait (R238, R337). -/
  | capWait
  /-- Waiting for its commit at retirement (R376, R380). -/
  | committing
  /-- Killed as a whole; its shares retire (R376). -/
  | killed
  /-- Retired. -/
  | retired
  deriving DecidableEq, Repr, Inhabited

/-- The fault that stopped a task (R237, R240). -/
structure FaultInfo where
  /-- Cause; R69. -/
  cause : Nat
  /-- PC of the faulting instruction. -/
  pc : DWord
  /-- %taddr. -/
  addr : DWord
  /-- %tinfo. -/
  info : Word
  /-- %tid; 0xFFFF_FFFF for a front end. -/
  tid : Word
  /-- A front end faulted. -/
  fe : Bool
  /-- Shortfall in sectors. -/
  short : Nat
  deriving DecidableEq, Repr, Inhabited

/-- Work a task holds until it commits, in program order (R202, R389, R391). -/
inductive Held where
  /-- A REBIN billet for a bin of a core. -/
  | rebin (core bin : Nat) (b : Billet)
  /-- A reserved billet-store slot. -/
  | slot (n : Nat)
  /-- A JDEC with D = vz. -/
  | jdec (handle : Word) (n : BitVec 16) (pc : DWord) (tid : Word)
  deriving DecidableEq, Repr, Inhabited

/-- The version of an unsettled task and what its commit needs (R118, R379 to R382). -/
structure Version where
  /-- Bytes written, by physical address, sorted; R118; empty at task start. -/
  bytes : Mem
  /-- Read signature; 1,024 bits; R380; 0 at task start. -/
  rsig : BitVec 1024
  /-- Write signature; 1,024 bits; R380; 0 at task start. -/
  wsig : BitVec 1024
  /-- Work held until the commit. -/
  held : List Held
  /-- Commits performed in the package when the current run started; R381. -/
  since : Nat
  /-- Blocks it holds on pages of HOME 11, settled as it commits; R361. -/
  h11 : List Nat
  deriving DecidableEq, Repr, Inhabited

/-- Restarts and conflicts of a task. -/
structure Restarts where
  /-- Consecutive restarts (NREST); R240, R393. -/
  n : Nat
  /-- Restarts in a row for one cause and address; R237. -/
  same : Nat
  /-- That cause. -/
  cause : Nat
  /-- That address. -/
  addr : DWord
  /-- Conflict count; R381. -/
  conflicts : Nat
  deriving DecidableEq, Repr, Inhabited

/-- Debug registers of a task (R243). -/
structure Debug where
  /-- %dbctl: STEP [8], BPEN [3:0] of 32 bits; R243; 0. -/
  ctl : Word
  /-- %dbpc0 to %dbpc3; 64 bits each; R243; reset DESIGN CHOICE 0. -/
  bp : List DWord
  deriving DecidableEq, Repr, Inhabited

/-- A task: a team of a grid launch, or a formed billet group (R18, R128). -/
structure Task where
  /-- %task; 32 bits; R127: its value is open. -/
  id : Word
  /-- Its launch. -/
  launch : Nat
  /-- Team index; 48 bits; R127. -/
  team : Nat
  /-- It is a formed billet group (R128). -/
  billet : Bool
  /-- Where it stands. -/
  state : TaskState
  /-- It has committed under R120, or is DIRECT (R236). -/
  settled : Bool
  /-- Its version. -/
  ver : Version
  /-- Its shares, share 0 first; R133. -/
  shares : List Nat
  /-- bar0 to bar15; R222. -/
  bars : List Barrier
  /-- The last event on each barrier: its core clock and its rank, 0 a front end's, 1 + %tid a thread's, 2^32 an engine's credit; R224; none. -/
  barSeen : List (Option (Nat × Nat))
  /-- cv0 to cv15; R145. -/
  cvs : List Cv
  /-- Restarts and conflicts. -/
  restarts : Restarts
  /-- The fault that stopped it. -/
  fault : Option FaultInfo
  /-- Page address that an engine command of it last missed for a write with cause 0x06; R363; none. -/
  missed : Option DWord
  /-- The model's own: the move at which it stopped, for the order of R337. -/
  faultAt : Nat
  /-- Thresholds W by stack; R337. -/
  need : List (Nat × Nat)
  /-- Debug registers. -/
  debug : Debug
  /-- Priority; 0 to 255; R377. -/
  prio : Nat
  /-- The model's own: one more than the move at which its first run started, 0 before; R382. -/
  born : Nat
  /-- The frames, record slots and code its threads start from, for a formed group; R203, R386. -/
  starts : List (Billet × Option (Nat × Nat))
  deriving DecidableEq, Repr, Inhabited

/-- A range of team numbers not yet started, first and one past the last (R374). -/
abbrev Range := Nat × Nat

/-- The kernel object's header as the launch uses it (R407). -/
structure Kernel where
  /-- KOBJ. -/
  kobj : DWord
  /-- MODE; R407. -/
  mode : Nat
  /-- Group width. -/
  gwidth : Nat
  /-- CORES. -/
  cores : Nat
  /-- NGROUPS. -/
  ngroups : Nat
  /-- NPROD. -/
  nprod : Nat
  /-- CREGS. -/
  cregs : Nat
  /-- PREGS. -/
  pregs : Nat
  /-- TILES. -/
  tiles : Nat
  /-- CXC. -/
  cxc : Nat
  /-- PXC. -/
  pxc : Nat
  /-- The kernel has a front-end section. -/
  fe : Bool
  /-- CENTRY, PENTRY and FENTRY as offsets. -/
  entries : Nat × Nat × Nat
  /-- CODESZ. -/
  codesz : Nat
  deriving DecidableEq, Repr, Inhabited

/-- What a launch takes from its packet and extension record (R401, R408). -/
structure Params where
  /-- Virtual device. -/
  vd : Nat
  /-- Its queue, and the packet's index there. -/
  packet : Option (Nat × Nat)
  /-- TAG; 32 bits; R401. -/
  tag : Word
  /-- ARGS; 64 bits; R401. -/
  args : DWord
  /-- TEAMS; 48 bits; R401. -/
  teams : Nat
  /-- SPAD in bytes; R401. -/
  spad : Nat
  /-- POLICY; 32 bits; R235. -/
  policy : Word
  /-- SEED; 32 bits; R89. -/
  seed : Word
  /-- TVEC; 64 bits; R232. -/
  tvec : DWord
  /-- FLOG; R408. -/
  flog : DWord
  /-- FLOGN; R408. -/
  flogn : Nat
  /-- FLOGCNT, 0 for none; R408. -/
  flogcnt : DWord
  /-- Watchdog limit in ms; R378. -/
  wdog : Nat
  /-- Version budget in MiB; R379. -/
  vbudget : Nat
  /-- Delegation bits granted; 4 bits; R242, R408. -/
  deleg : BitVec 4
  /-- PRIV; R242. -/
  priv : Bool
  /-- HV; R242. -/
  hv : Bool
  /-- Release scope of the packet; R401. -/
  scope : Nat
  /-- It is a CORD. -/
  cord : Bool
  deriving DecidableEq, Repr, Inhabited

/-- The distributors' ranges of a launch (R374). -/
structure Dist where
  /-- Chip distributor's unstarted range. -/
  chip : Range
  /-- Die distributors' ranges, by die. -/
  die : List (List Range)
  /-- Cluster distributors' ranges, by die × 12 + cluster. -/
  cluster : List (List Range)
  deriving DecidableEq, Repr, Inhabited

/-- A launch (R374 to R378, R384 to R386, R407, R408). -/
structure Launch where
  /-- The kernel. -/
  kernel : Kernel
  /-- Packet and record fields. -/
  par : Params
  /-- Priority; R377. -/
  prio : Nat
  /-- Dispatch order; R377, R395. -/
  order : Nat
  /-- Dispatched by its last micro-step. -/
  started : Bool
  /-- Completed or ended. -/
  ended : Bool
  /-- Its signal carries the fault value; R406. -/
  fault : Bool
  /-- Retire cursor; R376. -/
  cursor : Nat
  /-- Retired teams at or beyond the cursor; R376. -/
  retired : List Nat
  /-- Distributor ranges. -/
  dist : Dist
  /-- Counted time since dispatch or the last retirement, in ns; R378. -/
  idleNs : Nat
  /-- Reference time, in ns, since which a cord waits: its dispatch, or its last switch-out; R395. -/
  waited : Nat
  /-- Fault records written; R408. -/
  records : Nat
  /-- Billet-store slots; R384. -/
  slots : List Slot
  /-- Ready slots in order of entry; R385. -/
  level : List Nat
  /-- Work-graph nodes; R386. -/
  nodes : List Node
  /-- The launch is a billet launch (R408). -/
  billets : Bool
  /-- A launch fault has reached hearth core 4, with the INFO of its record, which is still to be written; R410; none. -/
  dying : Option Word
  deriving DecidableEq, Repr, Inhabited

/-! ## A core -/

/-- A bin of the binning gang former (R201 to R203, R385). -/
structure Bin where
  /-- Bin number, 0 to 63. -/
  no : Nat
  /-- Launch of its billets. -/
  launch : Nat
  /-- Billets in order of entry, with their record slots and priority; at most 128; R202. -/
  billets : List (Billet × Option (Nat × Nat) × Nat)
  /-- Core clock at which the oldest entered; R203. -/
  since : Nat
  deriving DecidableEq, Repr, Inhabited

/-- An STS waiting in a forwarding table (R101). -/
structure Fwd where
  /-- The thread. -/
  ag : Nat
  /-- Its share. -/
  share : Nat
  /-- Offset in the window. -/
  off : Nat
  /-- The bytes. -/
  bytes : List Byte
  deriving DecidableEq, Repr, Inhabited

/-- The time slice of a core (R247 to R249, R416, R417). -/
structure Slice where
  /-- The virtual device it runs. -/
  vd : Option Nat
  /-- Reference time at which the run started, in ns. -/
  start : Nat
  /-- The run is charged to the tenant's bucket (R416). -/
  charged : Bool
  /-- Length of a CTXSW run in ns, none for a scheduled run (R417). -/
  forced : Option Nat
  /-- Slice end in progress: reference time it began (R248). -/
  ending : Option Nat
  /-- The virtual device of the next run, whether it is charged, and its RUN in ns where CTXSW named it, else 0 (R416, R417). -/
  next : Option (Nat × Bool × Nat)
  /-- Counter that CTXSW increments, virtual device and scope (R256). -/
  counter : Option (DWord × Nat × Nat)
  /-- The spill engine has not finished (R247). -/
  spilling : Bool
  /-- The virtual device whose context the spill engine has still to write to its save area; R247; none. -/
  out : Option Nat
  /-- Reference time up to which the run has been charged, in ns (R416). -/
  acct : Nat
  /-- The slice end is a forced save (R249, R256). -/
  force : Bool
  /-- Lane threads and front ends have stopped, while the state is brought to its saved form (R248, R249). -/
  stop : Bool
  deriving DecidableEq, Repr, Inhabited

/-- A core (R5, R6). -/
structure Core where
  /-- Copy queue, 16 entries; R268; empty. -/
  copyQ : List Copy
  /-- Running copies, at most 4; R268; none. -/
  copies : List Copy
  /-- Copies issued; numbers them. -/
  copyNo : Nat
  /-- Range-lock table, 32 entries by index; R271; empty. -/
  locks : List (Option RLock)
  /-- Chain slots, 8, each with its use count; R275; empty, use counts 0: DESIGN CHOICE. -/
  chains : List (Nat × Option Chain)
  /-- Matrix queue, 32 entries; R286; empty. -/
  mxQ : List MxEntry
  /-- Entries issued; numbers them. -/
  mxNo : Nat
  /-- The matrix engine is in reset; R305; no. -/
  mxReset : Bool
  /-- Extrapolation queue, 16 entries; R313; empty. -/
  xQ : List (List (Nat × XCmd))
  /-- Instruction buffers of partitions 0 to 5, 12 entries each; R139; empty. -/
  ibuf : List (List IBuf)
  /-- The core clock of the last command to arrive at the copy, matrix and extrapolation queue, and its source: 0 the front end, 1 + p the lanes of partition p; R13; none. -/
  arrivals : List (Option (Nat × Nat))
  /-- One more than the core clock of the last issue through each pipe: 2 p and 2 p + 1 of partition p's classes G and F, 12 the front ends'; R138, R140; 0. -/
  pipes : List Nat
  /-- Forwarding tables of partitions 0 to 5, 16 entries each; R101; empty. -/
  fwd : List (List Fwd)
  /-- Bins of the gang former; R201; empty. -/
  bins : List Bin
  /-- REBIN billets beyond 128, in the launch's queue; R202. -/
  spill : List (Nat × Nat × Billet)
  /-- Ways of scratchpad carve-out, 0 to 6; R422; reset DESIGN CHOICE 6. -/
  ways : Nat
  /-- Pending carve-out; R422; none. -/
  waysNext : Option Nat
  /-- Core clock count; 64 bits; R64 %clock; reset DESIGN CHOICE 0. -/
  clock : Nat
  /-- Time slice. -/
  slice : Slice
  deriving DecidableEq, Repr, Inhabited

/-! ## Memory, translation, kiln -/

/-- Where a TLB entry is held (R360). -/
inductive TlbAt where
  | l1 (core : Nat)
  | l2 (cluster : Nat)
  | l3 (bank : Nat)
  deriving DecidableEq, Repr, Inhabited

/-- A TLB entry (R360). -/
structure TlbEntry where
  /-- Where it is held. -/
  at_ : TlbAt
  /-- Virtual device. -/
  vd : Nat
  /-- First 64 KiB page number. -/
  vpn : Nat
  /-- Number of 64 KiB pages: 1, 32 or 16,384. -/
  pages : Nat
  /-- The leaf as read. -/
  leaf : DWord
  /-- Local right (R360); read-only for a replica's entry (R364). -/
  loc : Bool
  /-- Physical base of the replica it maps, where it maps one. -/
  replica : Option Nat
  /-- The die it was filled from: an L3 entry that maps a replica serves its own die (R360, R364). -/
  die : Nat
  deriving DecidableEq, Repr, Inhabited

/-- A block of the kiln that is not clean class 0 (R329, R332). -/
structure Block where
  /-- Block number: physical address ÷ 1,024. -/
  no : Nat
  /-- Stored class c, 0 to 8; R329. -/
  cls : Nat
  /-- The charge CH and the virtual device charged, while charged; R332. -/
  ch : Option (Nat × Nat)
  /-- Committed dirty lines of the memory-side cache with the bytes stored beneath them; R330, R332. -/
  dirty : List (Nat × List Byte)
  /-- Virtual device in whose USED its stored sectors count: the one that maps its page, or that mapped it last; R331; none. -/
  own : Option Nat
  deriving DecidableEq, Repr, Inhabited

/-- What a share (v, s) holds beside its blocks: USED and PEND are sums over the block records (R331, R333). -/
structure KShare where
  /-- Virtual device v. -/
  vd : Nat
  /-- Stack s. -/
  stack : Nat
  /-- GRANT in sectors; R331; 0. -/
  grant : Nat
  /-- A charge has been refused since grant was last moved to it; R331; no. -/
  refused : Bool
  deriving DecidableEq, Repr, Inhabited

/-- A read-only replica of a page (R364). -/
structure Replica where
  /-- Die of the replica. -/
  die : Nat
  /-- Virtual device. -/
  vd : Nat
  /-- Virtual page number in 64 KiB. -/
  vpn : Nat
  /-- Physical base of the replica. -/
  base : Nat
  deriving DecidableEq, Repr, Inhabited

/-- A stack's ownership register (R367). -/
structure Owner where
  /-- SEQ; 8 bits; R367; 0x00. -/
  seq : BitVec 8
  /-- LOAN; 1 bit; R367; 0. -/
  loan : Bool
  /-- STATE; 2 bits; R367; 0b00. -/
  state : BitVec 2
  /-- NEXT; 1 bit; R367; 0. -/
  next : Bool
  /-- OWNER; 1 bit; R367; 0 for stacks 0 to 3, 1 for stacks 4 to 7. -/
  owner : Bool
  deriving DecidableEq, Repr, Inhabited

/-- A hand-over waiting or running (R369). -/
structure Handover where
  /-- Stack. -/
  stack : Nat
  /-- New owner die. -/
  die : Nat
  /-- Steps performed, 0 to 7. -/
  step : Nat
  /-- Counter to increment, its virtual device and scope; none when a loan ends by demand. -/
  counter : Option (DWord × Nat × Nat)
  deriving DecidableEq, Repr, Inhabited

/-- A memory loan or a request for one (R372, R373). -/
structure Loan where
  /-- Stack. -/
  stack : Nat
  /-- Borrowing partition. -/
  borrower : Nat
  /-- Return deadline in seconds. -/
  seconds : Nat
  /-- Partitions that have asked for the agreement. -/
  asked : List Nat
  /-- The agreement is recorded. -/
  agreed : Bool
  /-- Partitions that have asked for its end. -/
  endAsked : List Nat
  /-- Reference time at which a demanded return is due, in ns. -/
  due : Option Nat
  deriving DecidableEq, Repr, Inhabited

/-- A write to a peer, an appliance or the host that is not acknowledged (R124). -/
structure Posted where
  /-- Workar link, none for PCIe. -/
  link : Option Nat
  /-- The thread that made it, or the engine command. -/
  ag : Nat
  /-- Its task, none for the hearth (R123). -/
  task : Option Nat
  /-- Physical address. -/
  pa : Nat
  /-- Bytes. -/
  bytes : List Byte
  /-- Held while the link retrains. -/
  held : Bool
  /-- Lost: its link was declared down, and not every thread it counts for has made a system-scope fence since (R124). -/
  lost : Bool
  /-- The model's own: the move at which it was posted; R124. -/
  no : Nat
  /-- Threads that have been told of its loss by a fence; R124; none. -/
  told : List Nat
  deriving DecidableEq, Repr, Inhabited

/-! ## Command processor and hearth -/

/-- State of a queue (R400). -/
inductive QState where
  | disabled
  | active
  | blocked
  | suspended (was : Bool)
  | error
  | destroying
  deriving DecidableEq, Repr, Inhabited

/-- A packet dispatched and not complete (R403, R405). -/
structure InFlight where
  /-- Its read index. -/
  index : Nat
  /-- TAG; R401. -/
  tag : Word
  /-- SIGADDR; R401. -/
  sig : DWord
  /-- SCOPE; R401. -/
  scope : Nat
  /-- It has completed with this signal value, not yet written. -/
  done : Option DWord
  /-- The model's own: the move at which it completed, for the writes its signal releases; R123. -/
  doneAt : Nat
  deriving DecidableEq, Repr, Inhabited

/-- A queue (R398 to R400). -/
structure Queue where
  /-- BASE; R398. -/
  base : DWord
  /-- LOG2SLOTS; R398. -/
  log2 : Nat
  /-- FLAGS: DEVOWN, PRIV, HV; R398. -/
  flags : BitVec 3
  /-- MAXPRIO; R398. -/
  maxPrio : Nat
  /-- DELEG; R398. -/
  deleg : BitVec 4
  /-- Virtual device; R398. -/
  vd : Nat
  /-- WIDXA; R398. -/
  widxa : DWord
  /-- RIDXA; R398. -/
  ridxa : DWord
  /-- ERRA; R398. -/
  erra : DWord
  /-- CURSOR; 16 bits; R398; 0 at creation. -/
  cursor : Nat
  /-- State; R400. -/
  state : QState
  /-- Write index as hearth core 1 last read it; R399. -/
  widx : Nat
  /-- Hearth core 1 is to read the write index, which a hand-over has held; R369, R399; no. -/
  notice : Bool
  /-- Read index; R399. -/
  ridx : Nat
  /-- Doorbell register; 64 bits; R399; 0 at creation: DESIGN CHOICE. -/
  doorbell : DWord
  /-- Packets dispatched and not complete; with those complete or rejected whose signal is not yet written. -/
  inflight : List InFlight
  /-- The launch its LAUNCH packet has begun. -/
  launching : Option Nat
  /-- The model's own: the move of its last micro-step, for the round-robin of R400. -/
  served : Nat
  /-- The model's own: the move at which its present micro-step came to a release at system scope; R103, R401; none. -/
  relAt : Option Nat
  /-- Bytes that unread slots held before they were overwritten, by slot number, newest first; R399; none. -/
  stale : List (Nat × List Byte)
  deriving DecidableEq, Repr, Inhabited

/-- Tenant states (R418). -/
inductive Tenant where
  | absent
  | ready
  | paused
  | frozen
  | clearing
  deriving DecidableEq, Repr, Inhabited

/-- The work of the lane engine. -/
structure Lanes where
  /-- Threads and front ends by number; R126, R131; none. -/
  agents : List Agent
  /-- Groups by number; R15; none. -/
  groups : List Group
  /-- Shares by number; R131; none. -/
  shares : List Share
  /-- Tasks by number; R18; none. -/
  tasks : List Task
  /-- Launches by number; R374; none. -/
  launches : List Launch
  /-- The 192 cores; R5. -/
  cores : List Core
  deriving DecidableEq, Repr, Inhabited

/-- A tenant image made by export or checkpoint (R350, R418, R421). -/
structure Image where
  /-- The virtual device it was made of. -/
  vd : Nat
  /-- Its descriptor bytes; R414. -/
  desc : List Byte
  /-- Where its mapped local pages and tables lie: address and size. -/
  ranges : List (Nat × Nat)
  /-- Bytes of those ranges, by physical address; R350. -/
  bytes : Mem
  /-- Blocks of those pages; R350. -/
  blocks : List Block
  /-- Its counters; R331, R350. -/
  counters : List KShare
  /-- USED in sectors of its share on each stack, an RB page at 512; R335, R350. -/
  used : List Nat
  /-- Saved guest timestamp S; R421. -/
  stamp : Nat
  /-- Its threads, groups, shares, tasks and launches, saved; R246, R350. -/
  lanes : Lanes
  /-- Its queues. -/
  queues : List Queue
  deriving DecidableEq, Repr, Inhabited

/-- The balloon state of a virtual device (R338 to R340). -/
structure Balloon where
  /-- Q in sectors; R338; 0. -/
  q : Nat
  /-- Reference time of the deadline while a request is open; R338; none. -/
  due : Option Nat
  /-- The deadline of the open request has ended; R340; no. -/
  expired : Bool
  /-- The charge path is suspended; R340; no. -/
  suspended : Bool
  deriving DecidableEq, Repr, Inhabited

/-- A virtual device, numbered 16 × partition + VDEV (R414). -/
structure Vdev where
  /-- The descriptor's 64 bytes; R414; all 0 while absent. -/
  desc : List Byte
  /-- Tenant state; R418; ABSENT. -/
  state : Tenant
  /-- OFFSET, while the timestamp runs; R420. -/
  offset : Int
  /-- S, while it is stopped; R420. -/
  saved : Nat
  /-- Reference time of its definition, from which refills count; R416. -/
  defined : Nat
  /-- Budget buckets in ns, by core; R416; full when it becomes READY. -/
  bucket : List (Nat × Nat)
  /-- Moment it became eligible on a core; R416. -/
  since : List (Nat × Nat)
  /-- Reference time of the last refill, by core; R416; none: the definition. -/
  refills : List (Nat × Nat)
  /-- Balloon state. -/
  balloon : Balloon
  /-- Messages held, in order of arrival: an undefine while a stack is handed over, 0; a pause that is asked for or held, 1; an export, 2 + its target; while it is absent, an import, 2 + its image; R371, R418. -/
  heldMsg : List Nat
  /-- The cluster whose region the head of its waiting cords reserves, as of the last walk; R395; none. -/
  reserved : Option Nat
  /-- A scheduling event has come since the last walk of its cords; R395; no. -/
  walkDue : Bool
  /-- Faults that reached hearth core 4 while it was frozen; R411; 0. -/
  faults : Nat
  /-- The last 64 fault records of the virtual device, newest first; R411; none. -/
  records : List (List Byte)
  /-- Guest timestamp at which it was frozen, for its ash record; R411; 0. -/
  frozenAt : Nat
  deriving DecidableEq, Repr, Inhabited

/-- State of a Workar link (R424). -/
inductive LinkState where
  | down
  | training
  | up
  | retraining
  deriving DecidableEq, Repr, Inhabited

/-- A mailbox message or an answer (R397). -/
structure Msg where
  /-- SRC. -/
  src : Nat
  /-- Receiver: hearth core 0 to 7, or 8 to 11 for the system software. -/
  dst : Nat
  /-- The 64 bytes. -/
  bytes : List Byte
  deriving DecidableEq, Repr, Inhabited

/-- The lifetime telemetry and logs of hearth core 7 (R430). -/
structure Telemetry where
  /-- Reference time at which the record in progress began; R430; 0: DESIGN CHOICE. -/
  start : Nat
  /-- Correctable soft errors, by stack × 64 + channel; R410, R430. -/
  soft : List (Nat × Nat)
  /-- Capacity faults; R430. -/
  capacity : Nat
  /-- Forced settles; R379, R430. -/
  forced : Nat
  /-- Version restarts; R430. -/
  restarts : Nat
  /-- Link retrains, links declared down; R430. -/
  links : Nat × Nat
  /-- Hearth restarts, refused micro-steps and package resets; R430. -/
  hearth : Nat × Nat × Nat
  /-- Throttle time in ns; R430. -/
  throttle : Nat
  /-- Writes of the hearth that were lost: virtual device, kind and address; R432. -/
  lost : List (Nat × Nat × DWord)
  /-- Dropped messages; R397. -/
  dropped : Nat
  /-- Fault records counted and not written; R402, R408. -/
  unwritten : Nat
  /-- Pages of RANGES that could not be brought; R366. -/
  ranges : Nat
  /-- Micro-steps in progress at a restart of hearth core 1: queue and TAG; R405. -/
  steps : List (Nat × Word)
  /-- Second faults of a virtual device whose ash record was complete: virtual device, class and cause; R411. -/
  late : List (Nat × Nat × Nat)
  /-- Temperature histograms of the two dies, the eight stacks and the coolant, in that order, once the record is written; R430. -/
  temps : List (List Nat)
  deriving DecidableEq, Repr, Inhabited

/-- An Ethernet port, with what its partition's drivers have accepted (R423). -/
structure EthPort where
  /-- VIRTIO_NET_F_CSUM accepted; R423; no. -/
  csum : Bool
  /-- VIRTIO_NET_F_MRG_RXBUF accepted; R423; no. -/
  mrg : Bool
  /-- Queue pairs in use, 1 to 16; R423; 1. -/
  pairs : Nat
  /-- Received frames not yet taken: queue pair, IEEE 1588 timestamp in ns, bytes, oldest first; R423; none. -/
  rx : List (Nat × Nat × List Byte)
  /-- Frames to be sent whose class is paused, oldest first; R423; none. -/
  held : List (List Byte)
  /-- Classes that priority flow control has paused; 8 bits; R423; none. -/
  paused : BitVec 8
  deriving DecidableEq, Repr, Inhabited

/-- What the device has sent outside through an Ethernet port or a PCIe root port (R423, R425). -/
inductive Sent where
  /-- A frame: port, IEEE 1588 timestamp in ns, bytes. -/
  | frame (port time : Nat) (bytes : List Byte)
  /-- A write to the namespace of a partition. -/
  | write (part sector : Nat) (bytes : List Byte)
  /-- A flush of it. -/
  | flush (part : Nat)
  /-- A discard of sectors of it. -/
  | discard (part sector n : Nat)
  /-- A write to configuration space of a root port. -/
  | config (port reg : Nat) (bytes : List Byte)
  deriving DecidableEq, Repr, Inhabited

/-- What a write of the hearth does (R432). -/
inductive HWrite where
  /-- Store bytes. -/
  | store (bytes : List Byte)
  /-- Add to a 64-bit location, atomically. -/
  | add (x : DWord)
  deriving DecidableEq, Repr, Inhabited

/-- A write of the hearth whose charge is held while the charge path is suspended, or whose stack is being handed over (R253, R340, R432). -/
structure HeldWrite where
  /-- Virtual device. -/
  vd : Nat
  /-- Kind of write, for the telemetry. -/
  kind : Nat
  /-- Virtual address. -/
  va : DWord
  /-- The write. -/
  op : HWrite
  /-- FLOGCNT, which is incremented once a fault record has been written (R408). -/
  count : Option DWord
  /-- It is made in the hypervisor's own translation (R414). -/
  hyper : Bool
  /-- It is a release at system scope that came at this move, and waits for the writes posted before it; R103, R252; none. -/
  sys : Option Nat
  deriving DecidableEq, Repr, Inhabited

/-- The hearth and the platform (R19, R412, R424 to R431). -/
structure Hearth where
  /-- Booted: firmware verified and application cores released; R428; no. -/
  booted : Bool
  /-- In recovery; R428; no. -/
  recovery : Bool
  /-- Accepted configuration record in force; R426; the defaults of R426. -/
  config : ConfigRecord
  /-- Accepted record that takes effect at the next package reset; R426; none. -/
  nextConfig : Option ConfigRecord
  /-- Rollback counter of configuration records; R426; DESIGN CHOICE 0. -/
  svn : Nat
  /-- Firmware rollback counter; R428; DESIGN CHOICE 0. -/
  fwMin : Nat
  /-- Version of the bundle in flash; R428; DESIGN CHOICE 0. -/
  fwVersion : Nat
  /-- Identity record; R427; DESIGN CHOICE all zero. -/
  identity : Identity
  /-- The identity private keys are held; R427, R429; yes. -/
  keys : Bool
  /-- Session keys are held; R424, R429; none until a link has agreed keys. -/
  session : Bool
  /-- Reference time of the last level 2 alarm; R429; none. -/
  lastL2 : Option Nat
  /-- Reference time of the last supervision-timer expiry; R19; none. -/
  lastExpiry : Option Nat
  /-- Failed recovery bundles in a row; R429; 0. -/
  badBundles : Nat
  /-- Inbound mailboxes of cores 0 to 7, 32 slots of 64 bytes each; R397; empty. -/
  boxes : List (List Msg)
  /-- Answers and notices to supervisors, hypervisors and outside, oldest first. -/
  out : List Msg
  /-- Lifetime log and fabric fault log: alarm level and kind, oldest first; R19, R340, R424, R426, R429; empty. Kinds: 1 balloon deadline, 2 link training, 3 lost posted write, 4 hearth core restart, 5 refused configuration record, 6 failed bundles, 7 and 8 alarms of level 2 and 3, 9 supervision timer, 10 a second fault while an ash record is in progress. -/
  log : List (Nat × Nat)
  /-- Reference time of each entry of the log; R411; none. -/
  logAt : List Nat
  /-- Telemetry of the current record; R430. -/
  tele : Telemetry
  /-- Telemetry records written, newest first, a ring of 4,096; R430; none. -/
  ring : List Telemetry
  /-- State of links 0 to 17; R424; DOWN. -/
  links : List LinkState
  /-- Reference time at which each link left UP or began training; R424. -/
  linkSince : List Nat
  /-- Fabric windows set up by hearth core 6: window number and link; R354; none. -/
  windows : List (Nat × Nat)
  /-- Arithmetic clock in MHz; R431; 1,700. -/
  mhz : Nat
  /-- PTP slew in ppm; R420; 0. -/
  slew : Int
  /-- Writes of the hearth that are held, oldest first; R340, R432; none. -/
  waiting : List HeldWrite
  /-- CHAINRUN slots: 4 on each die; R402; empty. -/
  chains : List (Option Chain)
  /-- Images held at buddy devices or appliances, as this device made or was given them; R350; none. -/
  images : List Image
  /-- Ash records captured: virtual device, class and reason; R411; none. -/
  ash : List (Nat × Nat × Nat)
  /-- Resets that wait until their ash records are written: of partition 0 or 1, or 2 of the package; R411; none. -/
  resets : List Nat
  /-- Hearth cores that are being restarted, core 0 by the supervision timer and the others by core 0; R19, R409; none. -/
  restart : List Nat
  /-- Interrupt identities pending: partition, and 0 to 7 for a reply of that hearth core or 8 + q for an error of queue q; R413; none. -/
  irqs : List (Nat × Nat)
  /-- What the last load or atomic of each agent outside the lane engine returned: harts 0 to 31, the PCIe host 32, the drive of root port p 32 + p, port p 64 + p; R107, R413; none. -/
  answers : List (Nat × List Byte)
  /-- Reservations of the application cores: hart, address, length; R107, R413; none. -/
  resv : List (Nat × Nat × Nat)
  /-- Queues exported to the PCIe host; R425; none. -/
  exported : List Nat
  /-- The BAR2 window onto device memory: base and length; R425; none. -/
  bar2 : Option (Nat × Nat)
  /-- Version of the bundle whose boot code lies in partitions 0 and 1; R428; none. -/
  boot : List (Option Nat)
  /-- Registers of the 32 application cores, 16 on each die; R413; see Hart. -/
  harts : List Hart
  /-- Ethernet ports 0 and 1; R423; no driver, nothing received. -/
  ports : List EthPort
  /-- Whether the driver of partition 0's and 1's block device has accepted VIRTIO_BLK_F_FLUSH and VIRTIO_BLK_F_DISCARD; R423; no. -/
  blks : List (Bool × Bool)
  /-- What has been sent through the Ethernet ports and the PCIe root ports, oldest first; R423, R425; nothing. -/
  sent : List Sent
  deriving DecidableEq, Repr

/-! ## The whole machine -/

/-- The next move, and how much time passes before it. -/
structure Sched where
  /-- Nanoseconds of the package reference that pass first. -/
  dt : Nat
  /-- Core clocks that pass first. -/
  dclk : Nat
  /-- The event row, or the nomination of a group or front end. -/
  ev : Instr
  deriving DecidableEq, Repr

/-- The fragment that is issuing (R134). -/
structure Issue where
  /-- The threads, in ascending index, or the front end. -/
  agents : List Nat
  /-- Address of the instruction. -/
  pc : DWord
  /-- Its length in bytes. -/
  len : Nat
  deriving DecidableEq, Repr, Inhabited

/-- Memory and what stands between it and the agents. -/
structure Store where
  /-- Local memory of the eight stacks, by physical address; 8 bits a byte; R354; unlisted bytes read 0: DESIGN CHOICE. -/
  mem : Mem
  /-- TLB entries, newest first; R360; none. -/
  tlb : List TlbEntry
  /-- Blocks that are not clean class 0, by number; R329; none. -/
  blocks : List Block
  /-- Counters of the shares (v, s); R331; none granted. -/
  kshares : List KShare
  /-- Lines, by address ÷ 128, pinned in the memory-side cache for HOME 10, oldest first; R361; none. -/
  pins : List Nat
  /-- Replica maps of both dies; R364; empty. -/
  replicas : List Replica
  /-- Pages that PGREQ has asked hearth core 3 for, oldest first: virtual device, 64 KiB page number, die; R214, R363; none. -/
  requests : List (Nat × Nat × Nat)
  /-- Ownership registers of stacks 0 to 7; R367. -/
  owners : List Owner
  /-- Each die's copy of the eight OWNER bits, by which requests are routed; 8 bits each; R367; 0xF0 on both dies (R7). -/
  ownerCopies : List (BitVec 8)
  /-- Hand-overs in the order they reached the base dies; R369; none. -/
  handovers : List Handover
  /-- Loans and requests; R372; none. -/
  loans : List Loan
  /-- Writes to peers and the host not acknowledged; R124; none. -/
  posted : List Posted
  /-- Accesses from outside the lane engine that a hand-over or a suspended charge path holds, oldest first: agent and access; R253, R340, R369; none. -/
  heldOps : List (Nat × HostOp)
  /-- Write signatures and commit numbers of the commits performed; R381; none. -/
  commits : List (BitVec 1024)
  /-- Commit tokens of partitions 0 and 1: the task that holds each, granted; R382; none. -/
  tokens : List (Option Nat)
  deriving DecidableEq, Repr, Inhabited

/-- The machine. -/
structure State where
  /-- Threads, groups, shares, tasks, launches, cores. -/
  lanes : Lanes
  /-- Memory, translation, kiln, commits. -/
  store : Store
  /-- Queues by number; R398; none. -/
  queues : List Queue
  /-- Virtual devices 0 to 31; R414. -/
  vdevs : List Vdev
  /-- The hearth and the platform. -/
  hearth : Hearth
  /-- Package reference counter R in ns; R420; 0: DESIGN CHOICE. -/
  now : Nat
  /-- The moves to come; the model's own: empty, the default order follows. -/
  sched : List Sched
  /-- The fragment being issued; the model's own. -/
  cur : Issue
  /-- The free-value counter; the model's own; 0: DESIGN CHOICE. -/
  free : Nat
  /-- Moves made, for the least-recently-issued choice of R138 and R140; the model's own. -/
  moves : Nat
  deriving DecidableEq, Repr

/-- Why the machine stops. No meaning of the present model ends in one. -/
inductive Fault where
  /-- Raised by a physical access outside the address space that no rule gives a cause for. Safe: the run stops. -/
  | noSuchAddress (pa : Nat)
  deriving DecidableEq, Repr, Inhabited

/-- Why an instruction has no meaning here. -/
inductive Refusal where
  /-- An arm of exec that has no meaning yet. Safe: the run stops. -/
  | notModelled (mnemonic : String)
  deriving DecidableEq, Repr, Inhabited

/-! ## The state after reset -/

/-- No slice runs. -/
def Slice.reset : Slice :=
  { vd := none, start := 0, charged := false, forced := none, ending := none, next := none, counter := none,
    spilling := false, out := none, acct := 0, force := false, stop := false }
/-- A core after reset. The carve-out at reset is a DESIGN CHOICE: 6 ways (768 KiB). -/
def Core.reset : Core :=
  { copyQ := [], copies := [], copyNo := 0, locks := List.replicate 32 none,
    chains := List.replicate 8 (0, none), mxQ := [], mxNo := 0, mxReset := false, xQ := [],
    ibuf := List.replicate 6 [], arrivals := [none, none, none], pipes := List.replicate 13 0, fwd := List.replicate 6 [], bins := [], spill := [], ways := 6, waysNext := none, clock := 0,
    slice := Slice.reset }
/-- A virtual device that is not defined. -/
def Vdev.reset : Vdev :=
  { desc := List.replicate 64 0#8, state := .absent, offset := 0, saved := 0, defined := 0, bucket := [],
    since := [], refills := [], balloon := ⟨0, none, false, false⟩, heldMsg := [], reserved := none, walkDue := false, faults := 0, records := [], frozenAt := 0 }
/-- Ownership at reset (R7, R367). -/
def Owner.reset (stack : Nat) : Owner :=
  { seq := 0#8, loan := false, state := 0#2, next := false, owner := decide (4 ≤ stack) }
/-- The default configuration record (R426); SVN 0 is a DESIGN CHOICE. -/
def defaultConfig : ConfigRecord :=
  { svn := 0, unified := false, pcieRoot := false, linkrec := 10, linken := 0x3FFFF#18, hiratio := false,
    buddy := none, nvme := [], powercap := 1600, ptp := false }
/-- No telemetry. -/
def Telemetry.reset : Telemetry :=
  { start := 0, soft := [], capacity := 0, forced := 0, restarts := 0, links := (0, 0), hearth := (0, 0, 0), throttle := 0,
    lost := [], dropped := 0, unwritten := 0, ranges := 0, steps := [], late := [], temps := [] }
/-- An application core before it is released; the values of its registers are a DESIGN CHOICE. -/
def hartReset : Hart := { x := List.replicate 32 0#64, f := List.replicate 32 0#64, pc := 0#64, mode := .machine, csrs := [] }
/-- An Ethernet port that no driver has set up. -/
def EthPort.reset : EthPort := { csum := false, mrg := false, pairs := 1, rx := [], held := [], paused := 0#8 }
/-- The hearth at package reset, before boot (R428). -/
def Hearth.reset : Hearth :=
  { booted := false, recovery := false, config := defaultConfig, nextConfig := none, svn := 0, fwMin := 0,
    fwVersion := 0,
    identity := { serial := 0#64, idpub := List.replicate 1984 0#8, oppub := List.replicate 1984 0#8,
                  enrolled := 0#32, sig := List.replicate 3373 0#8 },
    keys := true, session := false, lastL2 := none, lastExpiry := none, badBundles := 0,
    boxes := List.replicate 8 [], out := [], log := [], logAt := [], tele := Telemetry.reset, ring := [],
    links := List.replicate 18 .down, linkSince := List.replicate 18 0, windows := [], mhz := 1700, slew := 0, waiting := [],
    chains := List.replicate 8 none, images := [], ash := [], resets := [], restart := [],
    irqs := [], answers := [], resv := [], exported := [], bar2 := none, boot := [none, none],
    harts := List.replicate 32 hartReset, ports := List.replicate 2 EthPort.reset, blks := [(false, false), (false, false)], sent := [] }
/-- The machine right after reset. -/
def State.reset : State :=
  { lanes := { agents := [], groups := [], shares := [], tasks := [], launches := [],
               cores := List.replicate 192 Core.reset },
    store := { mem := [], tlb := [], blocks := [], kshares := [], pins := [], replicas := [], requests := [],
               owners := (List.range 8).map Owner.reset, ownerCopies := [0xF0#8, 0xF0#8], handovers := [], loans := [], posted := [], heldOps := [],
               commits := [], tokens := [none, none] },
    queues := [], vdevs := List.replicate 32 Vdev.reset, hearth := Hearth.reset, now := 0, sched := [],
    cur := ⟨[], 0#64, 0⟩, free := 0, moves := 0 }

end Sys2Proof.Machine
end

