-- ==== Sys2Proof/Machine/Access.lean ====
section
/-! DEFINITION. Named accessors of the state, and memory as bytes. -/

namespace Sys2Proof.Machine

/-! ## Accessors -/

/-- Thread or front end number a. -/
def State.agent (s : State) (a : Nat) : Agent := s.lanes.agents.getD a default
/-- Change a thread or front end. -/
def State.modAgent (s : State) (a : Nat) (f : Agent → Agent) : State :=
  { s with lanes := { s.lanes with agents := s.lanes.agents.modify a f } }
/-- Group number g. -/
def State.group (s : State) (g : Nat) : Group := s.lanes.groups.getD g default
/-- Change a group. -/
def State.modGroup (s : State) (g : Nat) (f : Group → Group) : State :=
  { s with lanes := { s.lanes with groups := s.lanes.groups.modify g f } }
/-- Share number h. -/
def State.share (s : State) (h : Nat) : Share := s.lanes.shares.getD h default
/-- Change a share. -/
def State.modShare (s : State) (h : Nat) (f : Share → Share) : State :=
  { s with lanes := { s.lanes with shares := s.lanes.shares.modify h f } }
/-- Task number t. -/
def State.task (s : State) (t : Nat) : Task := s.lanes.tasks.getD t default
/-- Change a task. -/
def State.modTask (s : State) (t : Nat) (f : Task → Task) : State :=
  { s with lanes := { s.lanes with tasks := s.lanes.tasks.modify t f } }
/-- Launch number l. -/
def State.launch (s : State) (l : Nat) : Launch := s.lanes.launches.getD l default
/-- Change a launch. -/
def State.modLaunch (s : State) (l : Nat) (f : Launch → Launch) : State :=
  { s with lanes := { s.lanes with launches := s.lanes.launches.modify l f } }
/-- Core number c. -/
def State.core (s : State) (c : Nat) : Core := s.lanes.cores.getD c Core.reset
/-- Change a core. -/
def State.modCore (s : State) (c : Nat) (f : Core → Core) : State :=
  { s with lanes := { s.lanes with cores := s.lanes.cores.modify c f } }
/-- Queue number q. -/
def State.queue (s : State) (q : Nat) : Queue := s.queues.getD q default
/-- Change a queue. -/
def State.modQueue (s : State) (q : Nat) (f : Queue → Queue) : State :=
  { s with queues := s.queues.modify q f }
/-- Virtual device v, numbered 16 × partition + VDEV. -/
def State.vdev (s : State) (v : Nat) : Vdev := s.vdevs.getD v Vdev.reset
/-- Change a virtual device. -/
def State.modVdev (s : State) (v : Nat) (f : Vdev → Vdev) : State :=
  { s with vdevs := s.vdevs.modify v f }
/-- Change the store. -/
def State.modStore (s : State) (f : Store → Store) : State := { s with store := f s.store }
/-- Change the hearth. -/
def State.modHearth (s : State) (f : Hearth → Hearth) : State := { s with hearth := f s.hearth }
/-- Change the telemetry. -/
def State.modTele (s : State) (f : Telemetry → Telemetry) : State :=
  s.modHearth fun h => { h with tele := f h.tele }

/-- The share of an agent. -/
def State.shareOf (s : State) (a : Nat) : Nat := (s.agent a).home.share
/-- The task of an agent. -/
def State.taskOf (s : State) (a : Nat) : Nat := (s.share (s.shareOf a)).task
/-- The launch of an agent. -/
def State.launchOf (s : State) (a : Nat) : Nat := (s.task (s.taskOf a)).launch
/-- The virtual device of a task. -/
def State.taskVd (s : State) (t : Nat) : Nat := (s.launch (s.task t).launch).par.vd
/-- The virtual device of an agent. -/
def State.vdOf (s : State) (a : Nat) : Nat := s.taskVd (s.taskOf a)
/-- The core of an agent. -/
def State.coreOf (s : State) (a : Nat) : Nat := (s.share (s.shareOf a)).core
/-- An agent is a front end (R141). -/
def Agent.isFE (a : Agent) : Bool := a.home.group.isNone
/-- The die of a core (R256). -/
def dieOf (core : Nat) : Nat := core / 96
/-- The cluster of a core, counted over both dies. -/
def clusterOf (core : Nat) : Nat := core / 8
/-- The kernel of an agent's launch. -/
def State.kernelOf (s : State) (a : Nat) : Kernel := (s.launch (s.launchOf a)).kernel
/-- Group width (R64). -/
def State.gwidth (s : State) (a : Nat) : Nat := (s.kernelOf a).gwidth
/-- %tid of a lane thread (R127). -/
def State.tid (s : State) (a : Nat) : Nat :=
  match (s.agent a).home.group with
  | some g => (s.group g).gid * (s.group g).width + (s.agent a).home.idx
  | none => 0
/-- TID as fault records hold it: 0xFFFF_FFFF for a front end (R240). -/
def State.tidWord (s : State) (a : Nat) : Word :=
  bif (s.agent a).isFE then 0xFFFFFFFF#32 else BitVec.ofNat 32 (s.tid a)
/-- An agent that has not ended. -/
def State.live (s : State) (a : Nat) : Bool :=
  decide (a < s.lanes.agents.length) && (s.agent a).status != .ended
/-- The guest timestamp of a virtual device (R420). -/
def State.guest (s : State) (v : Nat) : Nat :=
  let d := s.vdev v
  match d.state with
  | .paused => d.saved
  | .absent => 0
  | _ => ((s.now : Int) - d.offset).toNat
/-- The partition of a virtual device. -/
def partOf (v : Nat) : Nat := v / 16
/-- The task is unsettled (R236). -/
def State.unsettled (s : State) (t : Nat) : Bool := !(s.task t).settled

/-! ## Bits and bytes -/

/-- Little-endian value of bytes (R37, R74). -/
def leNat : List Byte → Nat
  | [] => 0
  | b :: bs => b.toNat + 256 * leNat bs
/-- The low n bytes of a number, little-endian. -/
def natLe : Nat → Nat → List Byte
  | 0, _ => []
  | n + 1, x => BitVec.ofNat 8 x :: natLe n (x / 256)
/-- Bytes i to i + n − 1 of a record, as a number. -/
def field (bs : List Byte) (i n : Nat) : Nat := leNat ((bs.drop i).take n)
/-- Bits [lo + n − 1 : lo] of a number. -/
def bits (x lo n : Nat) : Nat := (x >>> lo) % 2 ^ n
/-- Sign-extend the low n bits of a number to an integer. -/
def sext (x n : Nat) : Int :=
  bif (x >>> (n - 1)) % 2 == 1 then (x % 2 ^ n : Nat) - (2 ^ n : Nat) else (x % 2 ^ n : Nat)

/-! ## Memory (R354): sorted bytes, unlisted bytes read 0 (log entry 1) -/

/-- The byte at an address. -/
def Mem.get : Mem → Nat → Byte
  | [], _ => 0#8
  | (k, v) :: rest, a => if k = a then v else if a < k then 0#8 else Mem.get rest a
/-- Write a byte, keeping the canonical form. -/
def Mem.put : Mem → Nat → Byte → Mem
  | [], a, b => if b = 0#8 then [] else [(a, b)]
  | (k, v) :: rest, a, b =>
    if k = a then (if b = 0#8 then rest else (a, b) :: rest)
    else if a < k then (if b = 0#8 then (k, v) :: rest else (a, b) :: (k, v) :: rest)
    else (k, v) :: Mem.put rest a b
/-- n bytes from an address. -/
def Mem.getN (m : Mem) (a : Nat) : Nat → List Byte
  | 0 => []
  | n + 1 => m.get a :: m.getN (a + 1) n
/-- Write bytes from an address. -/
def Mem.putN (m : Mem) (a : Nat) : List Byte → Mem
  | [] => m
  | b :: bs => (m.put a b).putN (a + 1) bs
/-- Addresses rise strictly from a bound, and no byte listed is 0. -/
def Mem.wfFrom : Nat → Mem → Bool
  | _, [] => true
  | lo, (k, v) :: rest => decide (lo ≤ k) && v != 0#8 && Mem.wfFrom (k + 1) rest
/-- The canonical form. -/
def Mem.wf (m : Mem) : Bool := m.wfFrom 0

/-- The byte an overlay (a version) holds at an address, if it was written (R118). -/
def overlayGet : List Host.Cell → Nat → Option Byte
  | [], _ => none
  | (k, v) :: rest, a => if k = a then some v else if a < k then none else overlayGet rest a
/-- Write a byte into an overlay. -/
def overlayPut : List Host.Cell → Nat → Byte → List Host.Cell
  | [], a, b => [(a, b)]
  | (k, v) :: rest, a, b =>
    if k = a then (a, b) :: rest
    else if a < k then (a, b) :: (k, v) :: rest
    else (k, v) :: overlayPut rest a b
/-- Write bytes into an overlay. -/
def overlayPutN (m : List Host.Cell) (a : Nat) : List Byte → List Host.Cell
  | [] => m
  | b :: bs => overlayPutN (overlayPut m a b) (a + 1) bs

/-- A word of a sparse array. -/
def Words.get : Words → Nat → Word
  | [], _ => 0#32
  | (k, v) :: rest, a => if k = a then v else if a < k then 0#32 else Words.get rest a
/-- Write a word, keeping the canonical form. -/
def Words.put : Words → Nat → Word → Words
  | [], a, b => if b = 0#32 then [] else [(a, b)]
  | (k, v) :: rest, a, b =>
    if k = a then (if b = 0#32 then rest else (a, b) :: rest)
    else if a < k then (if b = 0#32 then (k, v) :: rest else (a, b) :: (k, v) :: rest)
    else (k, v) :: Words.put rest a b

/-- Region of a physical address (R354). -/
def region (pa : Nat) : Nat := bits pa 48 4
/-- Stack of a local physical address (R354). -/
def stackOf (pa : Nat) : Nat := bits pa 36 3

/-- Bytes at a physical address as the device's agents see committed memory: local bytes, or a free value for memory off the device (R97, R109). -/
def State.readCommitted (s : State) (pa n : Nat) : List Byte :=
  bif region pa == 0 then s.store.mem.getN pa n
  else (List.range n).map fun k => Config.freeByte s.free (pa + k)
/-- Bytes as a task sees them: its version first (R118). -/
def State.readAs (s : State) (t : Nat) (pa n : Nat) : List Byte :=
  bif s.unsettled t then
    ((s.readCommitted pa n).zip (List.range n)).map fun (b, k) =>
      (overlayGet (s.task t).ver.bytes (pa + k)).getD b
  else s.readCommitted pa n

end Sys2Proof.Machine
end

