-- ==== Sys2Proof/Machine/Float.lean ====
section
/-! DEFINITION. Exact values, the element formats, Convert, stochastic rounding, DPS8, E8, the Hadamard transform
and sparse selection (R73 to R94, R166 to R178). -/

namespace Sys2Proof.Machine

/-! ## Exact values -/

/-- An exact value: a NaN, an infinity, or (−1)^neg × m × 2^e. -/
inductive FV where
  | nan (signalling : Bool)
  | inf (neg : Bool)
  | fin (neg : Bool) (m : Nat) (e : Int)
  deriving DecidableEq, Repr, Inhabited

/-- Flags of %fstat (R84). -/
abbrev FFlags := BitVec 5
/-- Invalid. -/
def fNV : FFlags := 1#5
/-- Division by zero. -/
def fDZ : FFlags := 2#5
/-- Overflow. -/
def fOF : FFlags := 4#5
/-- Underflow. -/
def fUF : FFlags := 8#5
/-- Inexact. -/
def fNX : FFlags := 16#5
/-- A flag where a condition holds. -/
def flagIf (c : Bool) (f : FFlags) : FFlags := bif c then f else 0#5

/-- Rounding modes (R82). -/
inductive RMode where
  | rne
  | rtz
  | rdn
  | rup
  | rs
  deriving DecidableEq, Repr, Inhabited
/-- The mode of a rounding code, code 0 taking %frm.RM (R82, R83). -/
def rmode (code : BitVec 3) (frm : Word) : RMode :=
  match (bif code == 0#3 then (frm.extractLsb' 0 2).toNat + 1 else code.toNat) with
  | 1 => .rne
  | 2 => .rtz
  | 3 => .rdn
  | 4 => .rup
  | _ => .rs

/-- m × 2^e as an integer count of 2^q, for q ≤ e. -/
def scaleTo (m : Nat) (e q : Int) : Nat := m * 2 ^ (e - q).toNat
/-- A signed count. -/
def signed (neg : Bool) (m : Nat) : Int := bif neg then -(m : Int) else m
/-- floor(log2(m × 2^e)), for m > 0. -/
def flog2 (m : Nat) (e : Int) : Int := (Nat.log2 m : Int) + e
/-- The value is a NaN. -/
def FV.isNan : FV → Bool
  | .nan _ => true
  | _ => false
/-- The value is a signalling NaN. -/
def FV.isSnan : FV → Bool
  | .nan b => b
  | _ => false
/-- The value is an infinity. -/
def FV.isInf : FV → Bool
  | .inf _ => true
  | _ => false
/-- The value is a zero. -/
def FV.isZero : FV → Bool
  | .fin _ m _ => m == 0
  | _ => false
/-- Sign of a value; a NaN has none. -/
def FV.neg : FV → Bool
  | .nan _ => false
  | .inf n => n
  | .fin n _ _ => n
/-- The value with its sign inverted. -/
def FV.flip : FV → FV
  | .nan b => .nan b
  | .inf n => .inf !n
  | .fin n m e => .fin (!n) m e
/-- The value × 2^k, exact. -/
def FV.scale (k : Int) : FV → FV
  | .fin n m e => .fin n m (e + k)
  | x => x
/-- An integer. -/
def FV.ofInt (x : Int) : FV := .fin (decide (x < 0)) x.natAbs 0
/-- Order of two finite or infinite values, −0 equal to +0. -/
def FV.cmp (x y : FV) : Ordering :=
  let key : FV → Int × Nat × Int := fun v => match v with
    | .inf n => (bif n then -1 else 1, 0, 0)
    | .fin _ m e => (0, m, e)
    | .nan _ => (0, 0, 0)
  let (a, m, e) := key x
  let (b, n, f) := key y
  if a != b then compare a b
  else
    let q := min e f
    compare (signed x.neg (scaleTo m e q)) (signed y.neg (scaleTo n f q))

/-! ## Formats -/

/-- A floating-point format: width, fraction bits, bias (R75). -/
structure Fmt where
  w : Nat
  f : Nat
  bias : Nat
  deriving DecidableEq, Repr
/-- The floating-point format of a code (R73); FP32 for codes that are not floating. -/
def fmtOf (c : Nat) : Fmt :=
  match c with
  | 1 => ⟨16, 10, 15⟩
  | 2 => ⟨16, 7, 127⟩
  | 3 => ⟨8, 3, 7⟩
  | 4 => ⟨8, 2, 15⟩
  | _ => ⟨32, 23, 127⟩
/-- Width in bits of an element of a code (R73). -/
def widthOf (c : Nat) : Nat :=
  match c with
  | 0 => 32
  | 1 => 16
  | 2 => 16
  | 6 => 4
  | 8 => 32
  | _ => 8
/-- Exponent bits. -/
def Fmt.x (t : Fmt) : Nat := t.w - 1 - t.f
/-- The format is E4M3, which has no infinity. -/
def Fmt.e4 (t : Fmt) : Bool := t.f == 3
/-- Exponent of the smallest normal. -/
def Fmt.emin (t : Fmt) : Int := 1 - (t.bias : Int)
/-- Bits of +infinity, or of the NaN that takes its place in E4M3 (R87). -/
def Fmt.infBits (t : Fmt) : Nat := bif t.e4 then 0x7F else (2 ^ t.x - 1) * 2 ^ t.f
/-- Bits of the largest finite value. -/
def Fmt.maxBits (t : Fmt) : Nat := t.infBits - 1
/-- Bits of the canonical NaN. -/
def Fmt.nanBits (t : Fmt) : Nat := bif t.e4 then 0x7F else t.infBits + 2 ^ (t.f - 1)
/-- The value of an encoding (R76). -/
def Fmt.value (t : Fmt) (x : Nat) : FV :=
  let s := bits x (t.w - 1) 1 == 1
  let ex := bits x t.f t.x
  let fr := bits x 0 t.f
  if t.e4 && x % 128 == 127 then .nan false
  else if !t.e4 && ex == 2 ^ t.x - 1 then
    if fr == 0 then .inf s else .nan (bits x (t.f - 1) 1 == 0)
  else if ex == 0 then .fin s fr (t.emin - t.f)
  else .fin s (fr + 2 ^ t.f) ((ex : Int) - t.bias - t.f)

/-- Value of a DPS8 term in units of 2^−6 (R78). -/
def dpsTerm (x : Nat) : Int :=
  let c := x % 8
  if c == 7 then 0 else signed (x / 8 % 2 == 1) (2 ^ (6 - c))
/-- Value of a DPS8 encoding in units of 2^−6. -/
def dpsValue (x : Nat) : Int := dpsTerm (x / 16) + dpsTerm (x % 16)
/-- An encoding that a conversion may produce (R79). -/
def dpsCanonical (x : Nat) : Bool :=
  let v := dpsValue x
  let c1 := x / 16 % 8
  let c2 := x % 8
  let s1 := x / 128
  let s2 := x / 8 % 2
  if v == 0 then x == 0x77
  else if v.natAbs == 128 then c1 == 0 && c2 == 0
  else if v.natAbs &&& (v.natAbs - 1) == 0 then c2 == 7 && s2 == 0
  else decide (c1 < c2) && decide (c2 < 7) &&
    (s1 == s2 || !((List.range 256).any fun y =>
      dpsValue y == v && decide (y / 16 % 8 < y % 8) && y / 128 == y / 8 % 2 && decide (y % 8 < 7)))
/-- The canonical encodings with their values. -/
def dpsTable : List (Nat × Int) :=
  ((List.range 256).filter dpsCanonical).map fun x => (x, dpsValue x)
/-- Conversion of a finite value into DPS8: nearest, a tie to the smaller magnitude (R79). -/
def toDps (neg : Bool) (m : Nat) (e : Int) : Nat × FFlags :=
  let q := min e (-6)
  let x := signed neg (scaleTo m e q)
  let d : Int → Nat := fun v => (x - v * (2 ^ (-6 - q).toNat : Nat)).natAbs
  let best := dpsTable.foldl (fun b c =>
    if d c.2 < d b.2 || (d c.2 == d b.2 && decide (c.2.natAbs < b.2.natAbs)) then c else b) (0x77, 0)
  (best.1, flagIf (d best.2 != 0) fNX)

/-- The exact value of an element of a format code (R73, R76 to R78, R80). -/
def elemValue (c x : Nat) : FV :=
  match c with
  | 5 => .ofInt (sext x 8)
  | 6 => .ofInt (sext x 4)
  | 7 => (FV.ofInt (dpsValue (x % 256))).scale (-6)
  | 8 => .ofInt (sext x 32)
  | 9 => bif x % 256 == 255 then .nan false else .fin false 1 ((x % 256 : Nat) - 127)
  | c => (fmtOf c).value (x % 2 ^ (fmtOf c).w)
/-- The value of an FP32 register. -/
def fp32 (x : Word) : FV := elemValue 0 x.toNat

/-! ## Rounding (R86 to R89) -/

/-- Units of the grid, counted toward zero, with the remainder and the number of bits dropped. -/
structure Cut where
  t : Nat
  rem : Nat
  sh : Nat
  deriving DecidableEq, Repr
/-- Cut m × 2^e at the grid spacing 2^q. -/
def cut (m : Nat) (e q : Int) : Cut :=
  if q ≤ e then ⟨scaleTo m e q, 0, 0⟩
  else
    let sh := (q - e).toNat
    ⟨m >>> sh, m % 2 ^ sh, sh⟩
/-- T or U in units of the grid (Round, Stoch); r16 is %rngseed[15:0] after Step. -/
def Cut.pick (c : Cut) (neg : Bool) (mode : RMode) (r16 : Nat) : Nat :=
  if c.rem = 0 then c.t else
  let up : Bool := match mode with
    | .rne => decide (2 ^ c.sh < 2 * c.rem) || (2 * c.rem == 2 ^ c.sh && c.t % 2 == 1)
    | .rtz => false
    | .rdn => neg
    | .rup => !neg
    | .rs => decide (2 ^ 16 ≤ c.rem * 2 ^ 16 / 2 ^ c.sh + r16 % 2 ^ 16)
  bif up then c.t + 1 else c.t

/-- Bits of k × 2^q in a format, where it is in range and on the grid. -/
def Fmt.enc (t : Fmt) (neg : Bool) (k : Nat) (q : Int) : Nat :=
  let s := bif neg then 2 ^ (t.w - 1) else 0
  if k = 0 then s else
  let ee := flog2 k q
  if ee < t.emin then s + k
  else
    let fr := if k < 2 ^ (t.f + 1) then scaleTo k 0 (Nat.log2 k - t.f : Int) else k >>> (Nat.log2 k - t.f)
    s + (ee + t.bias).toNat * 2 ^ t.f + (fr - 2 ^ t.f)

/-- An overflow of a float target (R87). -/
def Fmt.over (t : Fmt) (neg : Bool) (mode : RMode) (sat : Bool) : Nat :=
  let s := bif neg then 2 ^ (t.w - 1) else 0
  let finite : Bool := sat || (match mode with
    | .rtz => true
    | .rdn => !neg
    | .rup => neg
    | _ => false)
  s + bif finite then t.maxBits else t.infBits
/-- Round a finite nonzero value into a float format, with its flags (R86, R87, R89). -/
def Fmt.round (t : Fmt) (neg : Bool) (m : Nat) (e : Int) (mode : RMode) (sat : Bool) (r16 : Nat) : Nat × FFlags :=
  let ee := flog2 m e
  let q := max ee t.emin - t.f
  let c := cut m e q
  let k := c.pick neg mode r16
  let exact := c.rem == 0
  -- the largest finite value in units of the grid
  let mx := match t.value t.maxBits with
    | .fin _ a b => (a, b)
    | _ => (0, 0)
  let qq := min q mx.2
  if scaleTo mx.1 mx.2 qq < scaleTo k q qq then (t.over neg mode sat, fOF ||| fNX)
  else
    -- tiny after rounding: by the draw under RS, else with an unbounded exponent range (R86, R89)
    let tiny : Bool := !exact && decide (ee < t.emin) &&
      (match mode with
       | .rs => k != 0 && decide (k < 2 ^ t.f)
       | _ =>
         let c2 := cut m e (ee - t.f)
         decide (flog2 (c2.pick neg mode 0) (ee - t.f) < t.emin))
    (t.enc neg k q, flagIf (!exact) fNX ||| flagIf tiny fUF)

/-- Range of an integer target: low end, high end, width. UINT32 is code 15 here (R81, R174). -/
def intRange (c : Nat) : Int × Int × Nat :=
  match c with
  | 5 => (-128, 127, 8)
  | 6 => (-8, 7, 4)
  | 15 => (0, 2 ^ 32 - 1, 32)
  | _ => (-(2 ^ 31), 2 ^ 31 - 1, 32)
/-- The low n bits of the two's complement of an integer. -/
def twos (x : Int) (n : Nat) : Nat := (x % (2 ^ n : Nat)).toNat
/-- Convert into an integer target (R87, R88). -/
def toInteger (c : Nat) (x : FV) (mode : RMode) (sat : Bool) (r16 : Nat) : Nat × FFlags :=
  let (lo, hi, w) := intRange c
  match x with
  | .nan _ => (0, fNV)
  | .inf n => (twos (bif n then lo else hi) w, fNV)
  | .fin n m e =>
    let k := cut m e 0
    let v := signed n (k.pick n mode r16)
    if v < lo ∨ hi < v then
      (twos (bif sat then (if v < lo then lo else hi) else v) w, fNV ||| fNX)
    else (twos v w, flagIf (k.rem != 0) fNX)
/-- Convert(x, fmt, mode, sat) of R87 and R88: the encoding and the flags. -/
def convert (c : Nat) (x : FV) (mode : RMode) (sat : Bool) (r16 : Nat) : Nat × FFlags :=
  match c with
  | 5 => toInteger 5 x mode sat r16
  | 6 => toInteger 6 x mode sat r16
  | 8 => toInteger 8 x mode sat r16
  | 15 => toInteger 15 x mode sat r16
  | 7 =>
    match x with
    | .nan _ => (0x77, fNV)
    | .inf n => (bif n then 0x88 else 0x00, 0#5)
    | .fin n m e => toDps n m e
  | c =>
    let t := fmtOf c
    match x with
    | .nan s => (t.nanBits, flagIf s fNV)
    | .inf n =>
      let s := bif n then 2 ^ (t.w - 1) else 0
      bif sat then (s + t.maxBits, 0#5) else (s + t.infBits, flagIf t.e4 fNV)
    | .fin n m e =>
      if m = 0 then (bif n then 2 ^ (t.w - 1) else 0, 0#5)
      else t.round n m e mode sat r16
/-- Convert to FP32 without saturation. -/
def toFp32 (x : FV) (mode : RMode) : Word × FFlags :=
  let (b, f) := convert 0 x mode false 0
  (BitVec.ofNat 32 b, f)

/-- Step() of R89. -/
def stepSeed (x : Word) : Word :=
  let x := x ^^^ (x <<< 13)
  let x := x ^^^ (x >>> 17)
  x ^^^ (x <<< 5)

/-- An E8 scale derived from a value (R80). -/
def toE8 (x : FV) : Nat :=
  match x with
  | .nan _ => 0xFF
  | .inf _ => 0xFF
  | .fin _ m e => if m = 0 then 0 else (min 0xFE (max 0 (flog2 m e + 127))).toNat

/-! ## Sums and products (R86, R166, R172, R177) -/

/-- A product, exact; none is 0 × Inf. -/
def fmulV (x y : FV) : Option FV :=
  match x, y with
  | .nan _, _ => some (.nan false)
  | _, .nan _ => some (.nan false)
  | .inf n, y => bif y.isZero then none else some (.inf (xor n y.neg))
  | x, .inf n => bif x.isZero then none else some (.inf (xor n x.neg))
  | .fin n m e, .fin k l f => some (.fin (xor n k) (m * l) (e + f))
/-- The exact finite sum, counted in 2^q. -/
def sumAt (q : Int) : List FV → Int
  | [] => 0
  | .fin n m e :: rest => signed n (scaleTo m e q) + sumAt q rest
  | _ :: rest => sumAt q rest
/-- The lowest exponent of a list. -/
def lowExp : List FV → Int
  | [] => 0
  | .fin _ _ e :: rest => min e (lowExp rest)
  | _ :: rest => lowExp rest
/-- The sum of terms: NaN first, then opposite infinities, then the exact sum with the sign of an exact zero (R86, R166, R177). That a quiet NaN comes before Inf − Inf, without NV, is the model's choice, log entry 18. -/
def fsumV (ts : List FV) (mode : RMode) : FV × FFlags :=
  if ts.any FV.isNan then (.nan false, 0#5)
  else
    match ts.find? FV.isInf with
    | some x => bif ts.any (fun t => t.isInf && t.neg != x.neg) then (.nan false, fNV) else (x, 0#5)
    | none =>
      let q := lowExp ts
      let n := sumAt q ts
      if n = 0 then
        let same := ts.all FV.isZero && ts.all fun t => t.neg == (ts.headD default).neg
        (.fin (bif same then (ts.headD default).neg else mode == .rdn) 0 0, 0#5)
      else (.fin (decide (n < 0)) n.natAbs q, 0#5)
/-- Sum of products and addends with NV for signalling NaNs and for 0 × Inf (R166, R172). -/
def fdotV (ps : List (FV × FV)) (adds : List FV) (mode : RMode) : FV × FFlags :=
  let snan := (ps.any fun (a, b) => a.isSnan || b.isSnan) || adds.any FV.isSnan
  let qs := ps.map fun (a, b) => fmulV a b
  let bad := qs.any Option.isNone
  let (x, f) := fsumV (qs.filterMap id ++ adds) mode
  bif bad then (.nan false, fNV) else (x, f ||| flagIf snan fNV)
/-- FMIN and FMAX of two encodings of a format (R167). -/
def fminmax (c a b : Nat) (big : Bool) : Nat × FFlags :=
  let x := elemValue c a
  let y := elemValue c b
  let f := flagIf (x.isSnan || y.isSnan) fNV
  if x.isNan && y.isNan then ((fmtOf c).nanBits, f)
  else if x.isNan then (b, f)
  else if y.isNan then (a, f)
  else
    let aFirst : Bool := match x.cmp y with
      | .lt => true
      | .gt => false
      | .eq => x.neg || !y.neg
    (bif aFirst != big then a else b, f)
/-- FCMP (R168). -/
def fcmpV (cc : Nat) (x y : FV) : Bool × FFlags :=
  let un := x.isNan || y.isNan
  let sn := x.isSnan || y.isSnan
  let o := x.cmp y
  match cc with
  | 0 => (!un && o == .eq, flagIf sn fNV)
  | 1 => (un || o != .eq, flagIf sn fNV)
  | 2 => (!un && o == .lt, flagIf un fNV)
  | 3 => (!un && o != .gt, flagIf un fNV)
  | 4 => (!un && o == .gt, flagIf un fNV)
  | 5 => (!un && o != .lt, flagIf un fNV)
  | 6 => (un, flagIf sn fNV)
  | _ => (!un, flagIf sn fNV)
/-- FCLASS (R169). -/
def fclassV (a : Word) : Word :=
  let x := fp32 a
  let k := match x with
    | .inf n => bif n then 0 else 7
    | .nan s => bif s then 8 else 9
    | .fin n m _ =>
      if m = 0 then (bif n then 3 else 4)
      else if bits a.toNat 23 8 = 0 then (bif n then 2 else 5)
      else (bif n then 1 else 6)
  1#32 <<< k
/-- FRINT (R169). -/
def frintV (a : Word) (mode : RMode) : Word × FFlags :=
  match fp32 a with
  | .nan s => (0x7FC00000#32, flagIf s fNV)
  | .inf _ => (a, 0#5)
  | .fin n m e =>
    let c := cut m e 0
    if c.rem = 0 then (a, 0#5)
    else
      let k := c.pick n mode 0
      (BitVec.ofNat 32 (convert 0 (.fin n k 0) .rne false 0).1, fNX)

/-! ## Hadamard transform (R93, R177) -/

/-- Number of 1 bits of a number below 2^fuel. -/
def popcount : Nat → Nat → Nat
  | 0, _ => 0
  | f + 1, x => x % 2 + popcount f (x / 2)
/-- Exponent of the scale s of an n-point transform. -/
def hadScale (n : Nat) : Int := bif n == 64 then -3 else -2
/-- Terms of output j: s × (−1)^popcount(i AND j) × x[i]. -/
def hadTerms (xs : List FV) (j : Nat) : List FV :=
  xs.zipIdx.map fun (x, i) =>
    let y := x.scale (hadScale xs.length)
    bif popcount 8 (i &&& j) % 2 == 1 then y.flip else y
/-- The outputs of a transform with their flags. -/
def hadamard (xs : List FV) (mode : RMode) : List (FV × FFlags) :=
  let sn := xs.any FV.isSnan
  (List.range xs.length).map fun j =>
    let (y, f) := fsumV (hadTerms xs j) mode
    (y, f ||| flagIf sn fNV)

/-! ## Sparse selection (R94) -/

/-- Magnitude for ranking: NaN above infinity above every finite magnitude, counted in 2^q. -/
def magKey (q : Int) : FV → Nat × Nat
  | .nan _ => (2, 0)
  | .inf _ => (1, 0)
  | .fin _ m e => (0, scaleTo m e q)
/-- One magnitude is larger. -/
def keyGt (a b : Nat × Nat) : Bool := decide (b.1 < a.1) || (a.1 == b.1 && decide (b.2 < a.2))
/-- The index of the largest key among those allowed, the lowest on a tie. -/
def largest (ks : List (Nat × Nat)) (skip : Option Nat) : Nat :=
  ((ks.zipIdx.filter fun (_, i) => some i != skip).foldl (fun (b : Option ((Nat × Nat) × Nat)) k =>
    match b with
    | none => some k
    | some x => bif keyGt k.1 x.1 then some k else some x) none).map (·.2) |>.getD 0
/-- The two kept indices of four keys, ascending. -/
def twoLargest (ks : List (Nat × Nat)) : Nat × Nat :=
  let a := largest ks none
  let b := largest ks (some a)
  (min a b, max a b)
/-- Sum of a pair's keys: a NaN or infinity decides. -/
def keySum (a b : Nat × Nat) : Nat × Nat :=
  let k := max a.1 b.1
  (k, bif k == 0 then a.2 + b.2 else 0)
/-- Sums of adjacent pairs. -/
def pairKeys : List (Nat × Nat) → List (Nat × Nat)
  | a :: b :: rest => keySum a b :: pairKeys rest
  | _ => []
/-- One group's kept element indices and its metadata nibble; `pairs` is 4:8. -/
def sparseGroup (pairs : Bool) (xs : List FV) : List Nat × Nat :=
  let ks := xs.map (magKey (lowExp xs))
  let (lo, hi) := twoLargest (bif pairs then pairKeys ks else ks)
  (bif pairs then [2 * lo, 2 * lo + 1, 2 * hi, 2 * hi + 1] else [lo, hi], lo + 4 * hi)

end Sys2Proof.Machine
end

