-- ==== Sys2Proof/Machine/Fxu.lean ====
section
/-! DEFINITION. The functions of the FXU family (R170): exact and special cases as given, FSQRT correctly rounded, and
every other result any FP32 value within its bound, chosen by a constant without a body. -/

namespace Sys2Proof.Machine

/-- 2π in units of 2^−400, rounded down. -/
def twoPi : Nat := 16224754493461942477724542702601789038322303200358530407182382075230461810747980997491046721853633630855133559454655152472
/-- ln 2 in units of 2^−300, rounded down. -/
def ln2 : Nat := 1411965743695424507508857192728570223734551239724995589061361292466257174357546532574725854

/-- Integer square root, by bits from a weight down. -/
def isqrtFrom : Nat → Nat → Nat → Nat
  | 0, _, r => r
  | b + 1, n, r =>
    let c := r + 2 ^ b
    isqrtFrom b n (if c * c ≤ n then c else r)
/-- Integer square root of a number below 2^520. -/
def isqrt (n : Nat) : Nat := isqrtFrom 260 n 0
/-- A positive value with a sticky bit below it: n × 2^e, plus less than one unit where not exact. -/
def sticky (n : Nat) (e : Int) (exact : Bool) : FV :=
  bif exact then .fin false n e else .fin false (2 * n + 1) (e - 1)
/-- The square root of m × 2^e. -/
def sqrtV (m : Nat) (e : Int) : FV :=
  let (m, e) := if e % 2 = 1 then (2 * m, e - 1) else (m, e)
  let n := m * 2 ^ 200
  let r := isqrt n
  sticky r (e / 2 - 100) (r * r == n)
/-- 1 ÷ √(m × 2^e), within 2^−150 of its value, relatively. -/
def rsqrtV (m : Nat) (e : Int) : FV :=
  let (m, e) := if e % 2 = 1 then (2 * m, e - 1) else (m, e)
  sticky (isqrt (2 ^ 400 / m)) (-(e / 2) - 200) false
/-- 1 ÷ (m × 2^e). -/
def rcpV (m : Nat) (e : Int) : FV := sticky (2 ^ 200 / m) (-e - 200) (2 ^ 200 % m == 0)

/-- exp of t ÷ 2^300 by its series, in units of 2^−300: terms k to k + fuel. -/
def expSum : Nat → Nat → Nat → Nat → Nat
  | 0, _, _, _ => 0
  | f + 1, k, t, term => term + expSum f (k + 1) t (term * t / 2 ^ 300 / (k + 1))
/-- 2^x for a finite x between −160 and 128, within 2^−280 of its value, relatively. -/
def exp2V (x : FV) : FV :=
  match x with
  | .fin n m e =>
    let v : Int := signed n (cut m e (-300)).t
    let k := v / (2 ^ 300 : Nat)
    let f := (v % (2 ^ 300 : Nat)).toNat
    .fin false (expSum 70 0 (f * ln2 / 2 ^ 300) (2 ^ 300)) (k - 300)
  | x => x
/-- Fraction bits of log2 of y ÷ 2^400, for y from 2^400 to 2^401, most significant first. -/
def logBits : Nat → Nat → Nat → Nat
  | 0, _, acc => acc
  | f + 1, y, acc =>
    let z := y * y / 2 ^ 400
    if 2 ^ 401 ≤ z then logBits f (z / 2) (2 * acc + 1) else logBits f z (2 * acc)
/-- log2 of m × 2^e, within 2^−175. -/
def log2V (m : Nat) (e : Int) : FV :=
  let k := flog2 m e
  let y := (cut m 0 ((Nat.log2 m : Int) - 400)).t
  let v : Int := k * (2 ^ 180 : Nat) + (logBits 180 y 0 : Nat)
  .fin (decide (v < 0)) v.natAbs (-180)
/-- The series of sine or cosine at r ÷ 2^200: the term, then those two powers on with the sign inverted. -/
def trigSum : Nat → Nat → Nat → Int → Int
  | 0, _, _, _ => 0
  | f + 1, k, r2, term => term + trigSum f (k + 2) r2 (-(term * r2 / (2 ^ 200 : Nat) / (((k + 1) * (k + 2) : Nat) : Int)))
/-- sin or cos of a finite x, within 2^−185, its argument reduced exactly. -/
def trigV (x : FV) (cosine : Bool) : FV :=
  match x with
  | .fin n m e =>
    let r : Nat := (cut m e (-400)).t % twoPi / 2 ^ 200
    let r2 := r * r / 2 ^ 200
    let y := bif cosine then trigSum 60 0 r2 (2 ^ 200 : Nat) else trigSum 60 1 r2 r
    .fin (xor (decide (y < 0)) (n && !cosine)) y.natAbs (-200)
  | x => x

/-- v is surely within a × 2^c of a value known to within 2^d as p. -/
def within (v p : FV) (a : Nat) (c d : Int) : Bool :=
  match v, p with
  | .fin n m e, .fin k l f =>
    let q := min (min e f) (min c d)
    decide ((signed n (scaleTo m e q) - signed k (scaleTo l f q)).natAbs + scaleTo 1 d q ≤ scaleTo a c q)
  | _, _ => false
/-- Exponent of the ulp of the exact result p rounded to FP32. -/
def ulpExp (p : FV) : Int :=
  match p with
  | .fin _ m e =>
    if m = 0 then -149 else
    let q := max (flog2 m e) (-126) - 23
    let k := (cut m e q).pick false .rne 0
    min 104 (max (if k = 0 then q else flog2 k q - 23) (-149))
  | _ => -149
/-- The value of a candidate result; an infinity counts as ±2^128 where the bound is in ulp. -/
def candidate (c : Word) (ulps : Bool) : FV :=
  match fp32 c with
  | .inf s => bif ulps then .fin s 1 128 else .inf s
  | .nan s => .nan s
  | .fin s m e => .fin s m e
/-- A candidate lies within n ulp of a value known to within 2^d (R170). -/
def inUlps (p : FV) (n : Nat) (d : Int) (c : Word) : Bool := within (candidate c true) p n (ulpExp p) d
/-- A candidate lies within 2^b of a value known to within 2^d (R170). -/
def inAbs (p : FV) (b d : Int) (c : Word) : Bool := within (candidate c false) p 1 b d
/-- A candidate lies within 2^k of ±1 ÷ (m × 2^e), exactly. -/
def inRcp (n : Bool) (m : Nat) (e k : Int) (c : Word) : Bool :=
  match candidate c true with
  | .fin s l f =>
    let q := min 0 (min (e + f) (e + k))
    decide ((signed s (scaleTo (l * m) (e + f) q) - signed n (scaleTo 1 0 q)).natAbs ≤ scaleTo m (e + k) q)
  | _ => false
/-- A candidate lies within 2^k of 1 ÷ √(m × 2^e), exactly: the squares of both ends enclose the radicand's inverse. -/
def inRsq (m : Nat) (e k : Int) (c : Word) : Bool :=
  match candidate c true with
  | .fin s l f =>
    let q := min f k
    let v := signed s (scaleTo l f q)
    let u : Int := scaleTo 1 k q
    let r := min 0 (2 * q + e)
    let sq := fun (x : Int) => scaleTo (x.natAbs * x.natAbs * m) (2 * q + e) r
    (decide (v - u ≤ 0) || decide (sq (v - u) ≤ scaleTo 1 0 r)) && decide (0 < v + u) && decide (scaleTo 1 0 r ≤ sq (v + u))
  | _ => false
/-- Flags of an inexact result (R170). -/
def fxuFlags (r : Word) : FFlags :=
  fNX ||| flagIf (r.extractLsb' 0 31 == 0x7F800000#31) fOF ||| flagIf (r.extractLsb' 23 8 == 0#8) fUF
/-- The result of an inexact case with exact value p: the revision's choice where it lies within the bound (R170). -/
def fxuPick (minor : Nat) (a : Word) (p : FV) (ok : Word → Bool) : Word × FFlags :=
  let c := Config.fxu minor a
  let r := bif ok c then c else (toFp32 p .rne).1
  (r, fxuFlags r)

/-- The canonical NaN with NV. -/
def fxuInvalid : Word × FFlags := (0x7FC00000#32, fNV)
/-- An infinity. -/
def fpInf (neg : Bool) : Word := bif neg then 0xFF800000#32 else 0x7F800000#32
/-- m is a power of two. -/
def isPow2 (m : Nat) : Bool := m == 2 ^ Nat.log2 m
/-- FRCP. -/
def frcpV (a : Word) : Word × FFlags :=
  match fp32 a with
  | .nan s => (0x7FC00000#32, flagIf s fNV)
  | .inf n => (bif n then 0x80000000#32 else 0#32, 0#5)
  | .fin n m e =>
    if m = 0 then (fpInf n, fDZ)
    else if isPow2 m then toFp32 (.fin n 1 (-(flog2 m e))) .rne
    else
      let p := match rcpV m e with
        | .fin _ x f => .fin n x f
        | x => x
      fxuPick 0 a p (inRcp n m e (ulpExp p))
/-- FRSQ. -/
def frsqV (a : Word) : Word × FFlags :=
  match fp32 a with
  | .nan s => (0x7FC00000#32, flagIf s fNV)
  | .inf n => bif n then fxuInvalid else (0#32, 0#5)
  | .fin n m e =>
    if m = 0 then (fpInf n, fDZ)
    else if n then fxuInvalid
    else if isPow2 m && flog2 m e % 2 == 0 then toFp32 (.fin false 1 (-(flog2 m e / 2))) .rne
    else fxuPick 1 a (rsqrtV m e) (inRsq m e (ulpExp (rsqrtV m e)))
/-- FSQRT, correctly rounded. -/
def fsqrtV (a : Word) (mode : RMode) : Word × FFlags :=
  match fp32 a with
  | .nan s => (0x7FC00000#32, flagIf s fNV)
  | .inf n => bif n then fxuInvalid else (a, 0#5)
  | .fin n m e =>
    if m = 0 then (a, 0#5)
    else if n then fxuInvalid
    else toFp32 (sqrtV m e) mode
/-- A finite value is an integer. -/
def isIntegral (m : Nat) (e : Int) : Bool := (cut m e 0).rem == 0
/-- FEXP2. -/
def fexp2V (a : Word) : Word × FFlags :=
  match fp32 a with
  | .nan s => (0x7FC00000#32, flagIf s fNV)
  | .inf n => (bif n then 0#32 else a, 0#5)
  | .fin n m e =>
    let k : Int := signed n (cut m e 0).t
    if !n && decide (128 ≤ k) then (fpInf false, fOF ||| fNX)
    else if isIntegral m e && decide (-149 ≤ k) then toFp32 (.fin false 1 k) .rne
    else if k < -155 then fxuPick 3 a (.fin false 1 (-200)) (inUlps (.fin false 1 (-200)) 2 (-300))
    else
      let p := exp2V (.fin n m e)
      fxuPick 3 a p (inUlps p 2 (ulpExp p - 200))
/-- FLOG2: 2 ulp outside [0.5, 2], 2^−22 inside. -/
def flog2V (a : Word) : Word × FFlags :=
  match fp32 a with
  | .nan s => (0x7FC00000#32, flagIf s fNV)
  | .inf n => bif n then fxuInvalid else (a, 0#5)
  | .fin n m e =>
    if m = 0 then (fpInf true, fDZ)
    else if n then fxuInvalid
    else if isPow2 m then toFp32 (FV.ofInt (flog2 m e)) .rne
    else if flog2 m e = 0 ∨ flog2 m e = -1 then fxuPick 4 a (log2V m e) (inAbs (log2V m e) (-22) (-170))
    else fxuPick 4 a (log2V m e) (inUlps (log2V m e) 2 (-170))
/-- FSIN and FCOS. -/
def ftrigV (a : Word) (cosine : Bool) : Word × FFlags :=
  match fp32 a with
  | .nan s => (0x7FC00000#32, flagIf s fNV)
  | .inf _ => fxuInvalid
  | .fin n m e =>
    if m = 0 then (bif cosine then 0x3F800000#32 else a, 0#5)
    else
      let p := trigV (.fin n m e) cosine
      fxuPick (bif cosine then 6 else 5) a p (inAbs p (-21) (-180))

end Sys2Proof.Machine
end

