-- ==== Sys2Proof/Machine/Codes.lean ====
section
/-! DEFINITION. Codes, spans and ranges that encodings and meanings share (R46 to R56 and the rule of each row). -/

namespace Sys2Proof

/-- A register field that a base form can hold (R47). -/
def baseReg (r : Reg) : Bool := decide (r < 127#8) || r == 255#8
/-- The even first register of a pair that does not reach vz or sz (R54). -/
def pairOk (r : Reg) : Bool := !r.getLsbD 0 && decide (r < 254#8)
/-- A code is in the set whose bit mask is given (R53). -/
def codeIn (mask : BitVec 16) (c : BitVec 4) : Bool := mask.getLsbD c.toNat
/-- A base B operand a word can hold. -/
def Src7.wf : Src7 → Bool
  | .reg r => baseReg r
  | .imm _ => true
/-- Whether the operand asks for the base form with a literal. -/
def Src.isBase : Src → Bool
  | .blit _ => true
  | _ => false
/-- A literal of a 32-bit operand has zero bits [63:32] (R46); a base literal needs a base form. -/
def Src.wf (base w64 : Bool) : Src → Bool
  | .reg _ => true
  | .imm _ => true
  | .lit x => w64 || x.extractLsb' 32 32 == 0#32
  | .blit x => base && (w64 || x.extractLsb' 32 32 == 0#32)
/-- A register B operand that is a pair (R54). -/
def Src.pairOk : Src → Bool
  | .reg r => Sys2Proof.pairOk r
  | _ => true
/-- Whether the displacement asks for the base form with a literal. -/
def Disp.isBase : Disp → Bool
  | .blit _ => true
  | _ => false
/-- A displacement the row's forms can hold. -/
def Disp.wf (base : Bool) : Disp → Bool
  | .blit _ => base
  | _ => true
/-- How many registers a load or store of a width code names (R206). -/
def widthRegs (c : BitVec 3) : Nat :=
  match c.toNat with
  | 5 => 2
  | 6 => 4
  | _ => 1
/-- A data register suits its width: an even pair, or a multiple of 4 whose range does not reach vz (R206). -/
def widthRegOk (c : BitVec 3) (r : Reg) : Bool :=
  match c.toNat with
  | 5 => pairOk r
  | 6 => r.toNat % 4 == 0 && decide (r < 252#8)
  | _ => true
/-- The counter operand of TCOPY and CHAIN suits its mode: a pair, a 32-bit register, or a barrier's number (R262, R275). -/
def counterRegOk (cmode : BitVec 2) (r : Reg) : Bool :=
  match cmode.toNat with
  | 0 => pairOk r
  | 2 => decide (r < 16#8)
  | _ => true
/-- The scope code of TCOPY and CHAIN (R262, R275). -/
def tcopyScopeOk (cmode : BitVec 2) (scope : BitVec 4) : Bool :=
  match cmode.toNat with
  | 0 => codeIn 0x00FC#16 scope
  | 1 => scope == 2#4
  | _ => scope == 0#4
/-- How many elements QNT and DQNT move, which is how many FP32 registers (R175). -/
def qntCount (fmt : BitVec 4) : Nat :=
  match fmt.toNat with
  | 6 => 8
  | 9 => 1
  | _ => 4
/-- Registers HAD spans (R177). -/
def hadSpan (sz : BitVec 2) (fmt : BitVec 4) : Nat :=
  (16 <<< sz.toNat) / (bif fmt == 0#4 then 1 else 2)
/-- Registers of CMPR's input (R178). -/
def cmprSpan (fmt : BitVec 4) : Nat := bif fmt ≤ 2#4 then 8 else 4
/-- Registers of an MMA row: K × width ÷ 32, and K ÷ 128 more with the scales (R294). -/
def mmaSpan (fmt : BitVec 4) (ksz : BitVec 2) (as : Bool) : Nat :=
  (bif fmt ≤ 2#4 then 64 <<< ksz.toNat else 32 <<< ksz.toNat) + (bif as then 1 <<< ksz.toNat else 0)
/-- A register lies in a range. -/
def inRange (r base : Reg) (n : Nat) : Bool := decide (base.toNat ≤ r.toNat) && decide (r.toNat < base.toNat + n)
/-- Two register ranges do not meet. -/
def disjoint (a : Reg) (n : Nat) (b : Reg) (m : Nat) : Bool :=
  decide (a.toNat + n ≤ b.toNat) || decide (b.toNat + m ≤ a.toNat)
/-- Two ranges have the same first register or do not meet. -/
def rangesOk (d a : Reg) (n m : Nat) : Bool := d == a || disjoint d n a m


end Sys2Proof
end

