-- ==== Sys2Proof/Machine/Uses.lean ====
section
/-! DEFINITION. What each instruction names: the code it is valid in, its registers, its length and control fields. -/

namespace Sys2Proof

/-- The code a row is valid in (R12). -/
inductive Place where
  | lane
  | frontEnd
  | both
  deriving DecidableEq, Repr

/-- One register operand: how many registers, and whether they are written. -/
inductive Use where
  /-- Registers r to r + n − 1; 255 alone is vz or sz. -/
  | reg (r : Reg) (n : Nat) (wr : Bool)
  /-- A register that 255 leaves out (R290, R300, R341, R387). -/
  | opt (r : Reg) (n : Nat)
  /-- TCOPY's and CHAIN's counter by CMODE (R262). -/
  | counter (cmode : BitVec 2) (r : Reg)
  /-- A predicate. -/
  | pred (p : BitVec 3) (wr : Bool)
  /-- A B operand of n registers where it is a register. -/
  | src (b : Src) (n : Nat)
  /-- A base B operand. -/
  | src7 (b : Src7)
  /-- An accumulator tile (R284). -/
  | tile (t : BitVec 3)
  /-- An extrapolation context (R311). -/
  | xctx (x : BitVec 3)
  deriving DecidableEq, Repr

/-- Length of a form whose B operand is given (R45). -/
def Src.len : Src → Nat
  | .lit _ => 20
  | _ => 12
/-- Length of a form whose displacement is given (R45). -/
def Disp.len : Disp → Nat
  | .lit _ => 20
  | _ => 12
/-- A base form: unguarded (R48). -/
def Ctl.base (w : Bool) : Ctl := ⟨w, 7#4⟩


/-- Which code a row is valid in (R12, R179). -/
def Instr.place : Instr → Place
  | .dqpush .. => .frontEnd
  | .dqpushExt .. => .frontEnd
  | .fadd .. => .lane
  | .faddExt .. => .lane
  | .fsub .. => .lane
  | .fsubExt .. => .lane
  | .fmul .. => .lane
  | .fmulExt .. => .lane
  | .ffma .. => .lane
  | .fmin .. => .lane
  | .fminExt .. => .lane
  | .fmax .. => .lane
  | .fmaxExt .. => .lane
  | .fcmp .. => .lane
  | .fabs .. => .lane
  | .fneg .. => .lane
  | .fclass .. => .lane
  | .frint .. => .lane
  | .frcp .. => .lane
  | .frsq .. => .lane
  | .fsqrt .. => .lane
  | .fexp2 .. => .lane
  | .flog2 .. => .lane
  | .fsin .. => .lane
  | .fcos .. => .lane
  | .hadd2 .. => .lane
  | .hmul2 .. => .lane
  | .hfma2 .. => .lane
  | .hmin2 .. => .lane
  | .hmax2 .. => .lane
  | .fdot2 .. => .lane
  | .fcvt .. => .lane
  | .i2f .. => .lane
  | .u2f .. => .lane
  | .f2i .. => .lane
  | .f2u .. => .lane
  | .qnt .. => .lane
  | .dqnt .. => .lane
  | .had .. => .lane
  | .cmpr .. => .lane
  | .boxt .. => .lane
  | .trit .. => .lane
  | .rebin .. => .lane
  | .shflIdx .. => .lane
  | .shflUp .. => .lane
  | .shflDown .. => .lane
  | .shflXor .. => .lane
  | .voteAny .. => .lane
  | .voteAll .. => .lane
  | .voteBallot .. => .lane
  | .voteEq .. => .lane
  | .gredAdd .. => .lane
  | .gredMin .. => .lane
  | .gredMax .. => .lane
  | .gredAnd .. => .lane
  | .gredOr .. => .lane
  | .gredXor .. => .lane
  | .gredFadd .. => .lane
  | .gredFmin .. => .lane
  | .gredFmax .. => .lane
  | .brq .. => .lane
  | .jarm .. => .lane
  | .jarmExt .. => .lane
  | .jwait .. => .lane
  | .jwaitExt .. => .lane
  | .jdrop .. => .lane
  | .jdropExt .. => .lane
  | .dqpop .. => .lane
  | .dqpopExt .. => .lane
  | .cvset .. => .lane
  | .mma .. => .lane
  | .mmam .. => .lane
  | .ard .. => .lane
  | .awr .. => .lane
  | .xcfg .. => .lane
  | .xpush .. => .lane
  | .xest .. => .lane
  | .xclr .. => .lane
  | .xstat .. => .lane
  | _ => .both

/-- The registers, predicates, tiles and contexts an instruction names, with how many and whether it writes them: for the budget checks of R71 reason 8 and the scoreboard of R59. -/
def Instr.uses : Instr → List Use
  | .mov _ d b => [.reg d 1 true, .src7 b]
  | .movExt _ d b => [.reg d 1 true, .src b 1]
  | .add _ d a b => [.reg d 1 true, .reg a 1 false, .src7 b]
  | .addExt _ _ d a b => [.reg d 1 true, .reg a 1 false, .src b 1]
  | .sub _ d a b => [.reg d 1 true, .reg a 1 false, .src7 b]
  | .subExt _ _ d a b => [.reg d 1 true, .reg a 1 false, .src b 1]
  | .mul _ d a b => [.reg d 1 true, .reg a 1 false, .src7 b]
  | .mulExt _ d a b => [.reg d 1 true, .reg a 1 false, .src b 1]
  | .mulh _ d a b => [.reg d 1 true, .reg a 1 false, .src7 b]
  | .mulhExt _ _ d a b => [.reg d 1 true, .reg a 1 false, .src b 1]
  | .mad _ d a b c => [.reg d 1 true, .reg a 1 false, .src b 1, .reg c 1 false]
  | .min _ d a b => [.reg d 1 true, .reg a 1 false, .src7 b]
  | .minExt _ _ d a b => [.reg d 1 true, .reg a 1 false, .src b 1]
  | .max _ d a b => [.reg d 1 true, .reg a 1 false, .src7 b]
  | .maxExt _ _ d a b => [.reg d 1 true, .reg a 1 false, .src b 1]
  | .and _ d a b => [.reg d 1 true, .reg a 1 false, .src7 b]
  | .andExt _ d a b => [.reg d 1 true, .reg a 1 false, .src b 1]
  | .or _ d a b => [.reg d 1 true, .reg a 1 false, .src7 b]
  | .orExt _ d a b => [.reg d 1 true, .reg a 1 false, .src b 1]
  | .xor _ d a b => [.reg d 1 true, .reg a 1 false, .src7 b]
  | .xorExt _ d a b => [.reg d 1 true, .reg a 1 false, .src b 1]
  | .shl _ d a b => [.reg d 1 true, .reg a 1 false, .src7 b]
  | .shlExt _ d a b => [.reg d 1 true, .reg a 1 false, .src b 1]
  | .shr _ d a b => [.reg d 1 true, .reg a 1 false, .src7 b]
  | .shrExt _ d a b => [.reg d 1 true, .reg a 1 false, .src b 1]
  | .sar _ d a b => [.reg d 1 true, .reg a 1 false, .src7 b]
  | .sarExt _ d a b => [.reg d 1 true, .reg a 1 false, .src b 1]
  | .rot _ d a b => [.reg d 1 true, .reg a 1 false, .src7 b]
  | .rotExt _ d a b => [.reg d 1 true, .reg a 1 false, .src b 1]
  | .bfx _ d a b => [.reg d 1 true, .reg a 1 false, .src7 b]
  | .bfxExt _ _ d a b => [.reg d 1 true, .reg a 1 false, .src b 1]
  | .bfi _ d a b c => [.reg d 1 true, .reg a 1 false, .src b 1, .reg c 1 false]
  | .sel _ _ d a b p => [.reg d 1 true, .reg a 1 false, .src b 1, .pred p false]
  | .cmp _ _ pd a b => [.pred pd true, .reg a 1 false, .src b 1]
  | .plog _ _ pd pa pb pc => [.pred pd true, .pred pa false, .pred pb false, .pred pc false]
  | .lea _ d a b => [.reg d 2 true, .reg a 2 false, .src7 b]
  | .leaExt _ _ _ d a b => [.reg d 2 true, .reg a 2 false, .src b 1]
  | .add64 _ d a b => [.reg d 2 true, .reg a 2 false, .src b 2]
  | .sub64 _ d a b => [.reg d 2 true, .reg a 2 false, .src b 2]
  | .shl64 _ d a b => [.reg d 2 true, .reg a 2 false, .src b 1]
  | .shr64 _ d a b => [.reg d 2 true, .reg a 2 false, .src b 1]
  | .cmp64 _ _ pd a b => [.pred pd true, .reg a 2 false, .src b 2]
  | .abs _ _ d a => [.reg d 1 true, .reg a 1 false]
  | .neg _ _ d a => [.reg d 1 true, .reg a 1 false]
  | .not _ d a => [.reg d 1 true, .reg a 1 false]
  | .popc _ d a => [.reg d 1 true, .reg a 1 false]
  | .clz _ d a => [.reg d 1 true, .reg a 1 false]
  | .brev _ d a => [.reg d 1 true, .reg a 1 false]
  | .sext8 _ d a => [.reg d 1 true, .reg a 1 false]
  | .sext16 _ d a => [.reg d 1 true, .reg a 1 false]
  | .zext8 _ d a => [.reg d 1 true, .reg a 1 false]
  | .zext16 _ d a => [.reg d 1 true, .reg a 1 false]
  | .csrr _ d _ => [.reg d 1 true]
  | .csrrExt _ d _ => [.reg d 1 true]
  | .csrw _ a _ => [.reg a 1 false]
  | .csrwExt _ a _ => [.reg a 1 false]
  | .nop _ => []
  | .fadd _ d a b => [.reg d 1 true, .reg a 1 false, .src7 b]
  | .faddExt _ _ d a b => [.reg d 1 true, .reg a 1 false, .src b 1]
  | .fsub _ d a b => [.reg d 1 true, .reg a 1 false, .src7 b]
  | .fsubExt _ _ d a b => [.reg d 1 true, .reg a 1 false, .src b 1]
  | .fmul _ d a b => [.reg d 1 true, .reg a 1 false, .src7 b]
  | .fmulExt _ _ d a b => [.reg d 1 true, .reg a 1 false, .src b 1]
  | .ffma _ _ d a b c => [.reg d 1 true, .reg a 1 false, .src b 1, .reg c 1 false]
  | .fmin _ d a b => [.reg d 1 true, .reg a 1 false, .src7 b]
  | .fminExt _ d a b => [.reg d 1 true, .reg a 1 false, .src b 1]
  | .fmax _ d a b => [.reg d 1 true, .reg a 1 false, .src7 b]
  | .fmaxExt _ d a b => [.reg d 1 true, .reg a 1 false, .src b 1]
  | .fcmp _ _ pd a b => [.pred pd true, .reg a 1 false, .src b 1]
  | .fabs _ d a => [.reg d 1 true, .reg a 1 false]
  | .fneg _ d a => [.reg d 1 true, .reg a 1 false]
  | .fclass _ d a => [.reg d 1 true, .reg a 1 false]
  | .frint _ _ d a => [.reg d 1 true, .reg a 1 false]
  | .frcp _ d a => [.reg d 1 true, .reg a 1 false]
  | .frsq _ d a => [.reg d 1 true, .reg a 1 false]
  | .fsqrt _ _ d a => [.reg d 1 true, .reg a 1 false]
  | .fexp2 _ d a => [.reg d 1 true, .reg a 1 false]
  | .flog2 _ d a => [.reg d 1 true, .reg a 1 false]
  | .fsin _ d a => [.reg d 1 true, .reg a 1 false]
  | .fcos _ d a => [.reg d 1 true, .reg a 1 false]
  | .hadd2 _ _ _ d a b => [.reg d 1 true, .reg a 1 false, .reg b 1 false]
  | .hmul2 _ _ _ d a b => [.reg d 1 true, .reg a 1 false, .reg b 1 false]
  | .hfma2 _ _ _ d a b c => [.reg d 1 true, .reg a 1 false, .reg b 1 false, .reg c 1 false]
  | .hmin2 _ _ d a b => [.reg d 1 true, .reg a 1 false, .reg b 1 false]
  | .hmax2 _ _ d a b => [.reg d 1 true, .reg a 1 false, .reg b 1 false]
  | .fdot2 _ _ _ d a b c => [.reg d 1 true, .reg a 1 false, .reg b 1 false, .reg c 1 false]
  | .fcvt _ _ _ _ _ _ d a => [.reg d 1 true, .reg a 1 false]
  | .i2f _ _ d a => [.reg d 1 true, .reg a 1 false]
  | .u2f _ _ d a => [.reg d 1 true, .reg a 1 false]
  | .f2i _ _ _ d a => [.reg d 1 true, .reg a 1 false]
  | .f2u _ _ _ d a => [.reg d 1 true, .reg a 1 false]
  | .qnt _ _ _ fmt d a b => [.reg d 1 true, .reg a (qntCount fmt) false] ++ (bif fmt == 9#4 then [] else [.src b 1])
  | .dqnt _ _ _ fmt d a b => [.reg d (qntCount fmt) true, .reg a 1 false, .src b 1]
  | .had _ sz _ fmt d a => [.reg d (hadSpan sz fmt) true, .reg a (hadSpan sz fmt) false]
  | .cmpr _ _ fmt d a c => [.reg d (cmprSpan fmt / 2) true, .reg a (cmprSpan fmt) false, .reg c 1 true]
  | .boxt _ d a b => [.reg d 5 true, .reg a 8 false, .reg b 2 false]
  | .trit _ clip d a b pc => [.reg d 4 true, .reg a 8 false, .reg b 2 false, .pred pc true] ++ (bif clip then [.reg (a + 7#8) 1 true] else [])
  | .rebin _ b a _ => [.reg b 1 false, .reg a 2 false]
  | .shflIdx _ _ d a b pc => [.reg d 1 true, .reg a 1 false, .src b 1, .pred pc true]
  | .shflUp _ _ d a b pc => [.reg d 1 true, .reg a 1 false, .src b 1, .pred pc true]
  | .shflDown _ _ d a b pc => [.reg d 1 true, .reg a 1 false, .src b 1, .pred pc true]
  | .shflXor _ _ d a b pc => [.reg d 1 true, .reg a 1 false, .src b 1, .pred pc true]
  | .voteAny _ pd pa => [.pred pd true, .pred pa false]
  | .voteAll _ pd pa => [.pred pd true, .pred pa false]
  | .voteBallot _ d pa => [.reg d 1 true, .pred pa false]
  | .voteEq _ pd a => [.pred pd true, .reg a 1 false]
  | .gredAdd _ _ d a => [.reg d 1 true, .reg a 1 false]
  | .gredMin _ _ _ d a => [.reg d 1 true, .reg a 1 false]
  | .gredMax _ _ _ d a => [.reg d 1 true, .reg a 1 false]
  | .gredAnd _ _ d a => [.reg d 1 true, .reg a 1 false]
  | .gredOr _ _ d a => [.reg d 1 true, .reg a 1 false]
  | .gredXor _ _ d a => [.reg d 1 true, .reg a 1 false]
  | .gredFadd _ _ _ d a => [.reg d 1 true, .reg a 1 false]
  | .gredFmin _ _ d a => [.reg d 1 true, .reg a 1 false]
  | .gredFmax _ _ d a => [.reg d 1 true, .reg a 1 false]
  | .bra _ _ => []
  | .brc _ _ _ p => [.pred p false]
  | .brq _ _ => []
  | .call _ _ => []
  | .ret _ => []
  | .retExt _ => []
  | .jarm _ _ => []
  | .jarmExt _ _ => []
  | .jwait _ _ => []
  | .jwaitExt _ _ => []
  | .jdrop _ _ => []
  | .jdropExt _ _ => []
  | .exit _ => []
  | .exitExt _ => []
  | .yield _ => []
  | .yieldExt _ => []
  | .trap _ b => [.src7 b]
  | .trapExt _ b => [.src b 1]
  | .brk _ b => [.src7 b]
  | .brkExt _ b => [.src b 1]
  | .dqpush _ b => [.src7 b]
  | .dqpushExt _ b => [.src b 1]
  | .dqpop _ d => [.reg d 1 true]
  | .dqpopExt _ d => [.reg d 1 true]
  | .sret _ => []
  | .sretExt _ => []
  | .ld _ d a _ => [.reg d 1 true, .reg a 2 false]
  | .ldExt _ _ width _ _ d a _ => [.reg d (widthRegs width) true, .reg a 2 false]
  | .ldz _ width _ d pc a _ => [.reg d (widthRegs width) true, .pred pc true, .reg a 2 false]
  | .st _ d a _ => [.reg d 1 false, .reg a 2 false]
  | .stExt _ _ width _ _ d a _ => [.reg d (widthRegs width) false, .reg a 2 false]
  | .lds _ d a _ => [.reg d 1 true, .reg a 1 false]
  | .ldsExt _ width d a _ => [.reg d (widthRegs width) true, .reg a 1 false]
  | .sts _ d a _ => [.reg d 1 false, .reg a 1 false]
  | .stsExt _ width d a _ => [.reg d (widthRegs width) false, .reg a 1 false]
  | .ldc _ d a _ => [.reg d 1 true, .reg a 2 false]
  | .ldcExt _ width _ d a _ => [.reg d (widthRegs width) true, .reg a 2 false]
  | .atomAdd _ _ w64 _ d a b => [.reg d (bif w64 then 2 else 1) true, .reg a 2 false, .src b (bif w64 then 2 else 1)]
  | .atomMin _ _ w64 _ d a b => [.reg d (bif w64 then 2 else 1) true, .reg a 2 false, .src b (bif w64 then 2 else 1)]
  | .atomMax _ _ w64 _ d a b => [.reg d (bif w64 then 2 else 1) true, .reg a 2 false, .src b (bif w64 then 2 else 1)]
  | .atomUmin _ _ w64 _ d a b => [.reg d (bif w64 then 2 else 1) true, .reg a 2 false, .src b (bif w64 then 2 else 1)]
  | .atomUmax _ _ w64 _ d a b => [.reg d (bif w64 then 2 else 1) true, .reg a 2 false, .src b (bif w64 then 2 else 1)]
  | .atomAnd _ _ w64 _ d a b => [.reg d (bif w64 then 2 else 1) true, .reg a 2 false, .src b (bif w64 then 2 else 1)]
  | .atomOr _ _ w64 _ d a b => [.reg d (bif w64 then 2 else 1) true, .reg a 2 false, .src b (bif w64 then 2 else 1)]
  | .atomXor _ _ w64 _ d a b => [.reg d (bif w64 then 2 else 1) true, .reg a 2 false, .src b (bif w64 then 2 else 1)]
  | .atomExch _ _ w64 _ d a b => [.reg d (bif w64 then 2 else 1) true, .reg a 2 false, .src b (bif w64 then 2 else 1)]
  | .atomCas _ _ w64 _ d a b c => [.reg d (bif w64 then 2 else 1) true, .reg a 2 false, .src b (bif w64 then 2 else 1), .reg c (bif w64 then 2 else 1) false]
  | .atomFadd _ _ _ d a b => [.reg d 1 true, .reg a 2 false, .src b 1]
  | .redAdd _ w64 _ a b => [.reg a 2 false, .src b (bif w64 then 2 else 1)]
  | .redMin _ w64 _ a b => [.reg a 2 false, .src b (bif w64 then 2 else 1)]
  | .redMax _ w64 _ a b => [.reg a 2 false, .src b (bif w64 then 2 else 1)]
  | .redUmin _ w64 _ a b => [.reg a 2 false, .src b (bif w64 then 2 else 1)]
  | .redUmax _ w64 _ a b => [.reg a 2 false, .src b (bif w64 then 2 else 1)]
  | .redAnd _ w64 _ a b => [.reg a 2 false, .src b (bif w64 then 2 else 1)]
  | .redOr _ w64 _ a b => [.reg a 2 false, .src b (bif w64 then 2 else 1)]
  | .redXor _ w64 _ a b => [.reg a 2 false, .src b (bif w64 then 2 else 1)]
  | .redFadd _ _ a b => [.reg a 2 false, .src b 1]
  | .fence _ _ => []
  | .pref _ _ _ a _ => [.reg a 2 false]
  | .spres _ pd a _ => [.pred pd true, .reg a 1 false]
  | .pgreq _ _ pd a _ => [.pred pd true, .reg a 2 false]
  | .barArr _ d _ => [.reg d 1 true]
  | .barWait _ _ b => [.src b 1]
  | .barSync _ d _ => [.reg d 1 true]
  | .barExpect _ _ b => [.src b 1]
  | .barInit _ _ b => [.src b 1]
  | .cvset _ _ _ b => [.src b 1]
  | .rsvqFree _ _ d => [.reg d 2 true]
  | .rsvqPend _ _ d => [.reg d 2 true]
  | .rsvqNominal _ _ d => [.reg d 2 true]
  | .rsvqSurr _ _ d => [.reg d 2 true]
  | .blksz _ _ d a _ => [.reg d 1 true, .reg a 2 false]
  | .blkfill _ a _ c => [.reg a 2 false, .opt c 2]
  | .balq _ d => [.reg d 2 true]
  | .pgsurr _ a _ => [.reg a 2 false]
  | .pgrecl _ a _ => [.reg a 2 false]
  | .wload _ _ _ _ a b c => [.reg a 2 false, .src b 1, .opt c 2]
  | .mma _ _ _ as ksz _ fmt t a _ => [.tile t, .reg a (mmaSpan fmt ksz as) false]
  | .mmam _ _ _ _ _ sp _ t a _ _ => [.tile t, .reg a (bif sp then 1 else 2) false]
  | .aclr _ t => [.tile t]
  | .ard _ _ d t b => [.reg d 8 true, .tile t, .src b 1]
  | .awr _ _ t a b => [.tile t, .reg a 8 false, .src b 1]
  | .adrain _ _ _ sp _ _ t a b c => [.tile t, .reg a (bif sp then 1 else 2) false, .src b 1, .opt c 1]
  | .wrel _ => []
  | .mstat _ _ d => [.reg d 1 true]
  | .xcfg _ _ _ x a b c => [.xctx x, .reg a 1 false, .src b 1, .reg c 1 false]
  | .xpush _ x a pc => [.xctx x, .reg a 1 false, .pred pc true]
  | .xest _ d x pc => [.reg d 2 true, .xctx x, .pred pc true]
  | .xclr _ x => [.xctx x]
  | .xstat _ d x => [.reg d 1 true, .xctx x]
  | .tcopy _ dir cmode _ d a b c => [.reg d (bif dir == 2#2 then 2 else 1) false, .reg a 2 false, .reg b 1 false, .counter cmode c]
  | .chain _ cmode _ d a c => [.reg d 1 true, .reg a 1 false, .counter (cmode.setWidth 2) c]
  | .ctwait _ sp _ d a b => [.reg d 2 true, .reg a (bif sp then 1 else 2) false, .src b 2]
  | .chkill _ a => [.reg a 1 false]
  | .spawn _ d a b c _ => [.reg d 1 true, .reg a 2 false, .reg b 1 false, .opt c 1]
  | .enqn _ a b => [.reg a 2 false, .src b 1]
  | .jdec _ d a b => [.reg d 1 true, .reg a 1 false, .src b 1]
  | .settle _ => []
  | .taskqPrio _ d b => [.reg d 1 true, .src b 1]
  | .taskqRestart _ d b => [.reg d 1 true, .src b 1]
  | .taskqSettled _ d b => [.reg d 1 true, .src b 1]
  | .taskqVlines _ d b => [.reg d 1 true, .src b 1]
  | .taskqBqueue _ d b => [.reg d 1 true, .src b 1]
  | .taskqNqueue _ d b => [.reg d 1 true, .src b 1]
  | .taskqCursor _ d b => [.reg d 1 true, .src b 1]
  | .stkho _ _ _ a b => [.reg a 2 false, .src b 1]
  | .tlbiPage _ _ a b => [.reg a 2 false, .src b 1]
  | .tlbiVdev _ _ _ => []
  | .tlbiVdevn _ _ b => [.src b 1]
  | .tlbiAll _ _ _ => []
  | .cflushClean _ _ a b => [.reg a 2 false, .src b 1]
  | .cflushInv _ _ a b => [.reg a 2 false, .src b 1]
  | .cflushDiscard _ _ a b => [.reg a 2 false, .src b 1]
  | .ctxsw _ _ _ d a b => [.reg d 2 false, .reg a 2 false, .src b 1]
  | _ => []

/-- The control part of an instruction: length in bytes (R45), wait marker, guard. -/
def Instr.ctl : Instr → Nat × Ctl
  | .ill _ _ _ => (4, Ctl.base false)
  | .mov w .. => (4, Ctl.base w)
  | .movExt c0 _ b => (b.len, c0)
  | .add w .. => (4, Ctl.base w)
  | .addExt c0 _ _ _ b => (b.len, c0)
  | .sub w .. => (4, Ctl.base w)
  | .subExt c0 _ _ _ b => (b.len, c0)
  | .mul w .. => (4, Ctl.base w)
  | .mulExt c0 _ _ b => (b.len, c0)
  | .mulh w .. => (4, Ctl.base w)
  | .mulhExt c0 _ _ _ b => (b.len, c0)
  | .mad c0 _ _ b _ => (b.len, c0)
  | .min w .. => (4, Ctl.base w)
  | .minExt c0 _ _ _ b => (b.len, c0)
  | .max w .. => (4, Ctl.base w)
  | .maxExt c0 _ _ _ b => (b.len, c0)
  | .and w .. => (4, Ctl.base w)
  | .andExt c0 _ _ b => (b.len, c0)
  | .or w .. => (4, Ctl.base w)
  | .orExt c0 _ _ b => (b.len, c0)
  | .xor w .. => (4, Ctl.base w)
  | .xorExt c0 _ _ b => (b.len, c0)
  | .shl w .. => (4, Ctl.base w)
  | .shlExt c0 _ _ b => (b.len, c0)
  | .shr w .. => (4, Ctl.base w)
  | .shrExt c0 _ _ b => (b.len, c0)
  | .sar w .. => (4, Ctl.base w)
  | .sarExt c0 _ _ b => (b.len, c0)
  | .rot w .. => (4, Ctl.base w)
  | .rotExt c0 _ _ b => (b.len, c0)
  | .bfx w .. => (4, Ctl.base w)
  | .bfxExt c0 _ _ _ b => (b.len, c0)
  | .bfi c0 _ _ b _ => (b.len, c0)
  | .sel c0 _ _ _ b _ => (b.len, c0)
  | .cmp c0 _ _ _ b => (b.len, c0)
  | .plog c0 _ _ _ _ _ => (12, c0)
  | .lea w .. => (4, Ctl.base w)
  | .leaExt c0 _ _ _ _ b => (b.len, c0)
  | .add64 c0 _ _ b => (b.len, c0)
  | .sub64 c0 _ _ b => (b.len, c0)
  | .shl64 c0 _ _ b => (b.len, c0)
  | .shr64 c0 _ _ b => (b.len, c0)
  | .cmp64 c0 _ _ _ b => (b.len, c0)
  | .abs c0 _ _ _ => (12, c0)
  | .neg c0 _ _ _ => (12, c0)
  | .not c0 _ _ => (12, c0)
  | .popc c0 _ _ => (12, c0)
  | .clz c0 _ _ => (12, c0)
  | .brev c0 _ _ => (12, c0)
  | .sext8 c0 _ _ => (12, c0)
  | .sext16 c0 _ _ => (12, c0)
  | .zext8 c0 _ _ => (12, c0)
  | .zext16 c0 _ _ => (12, c0)
  | .csrr w .. => (4, Ctl.base w)
  | .csrrExt c0 _ _ => (12, c0)
  | .csrw w .. => (4, Ctl.base w)
  | .csrwExt c0 _ _ => (12, c0)
  | .nop w .. => (4, Ctl.base w)
  | .fadd w .. => (4, Ctl.base w)
  | .faddExt c0 _ _ _ b => (b.len, c0)
  | .fsub w .. => (4, Ctl.base w)
  | .fsubExt c0 _ _ _ b => (b.len, c0)
  | .fmul w .. => (4, Ctl.base w)
  | .fmulExt c0 _ _ _ b => (b.len, c0)
  | .ffma c0 _ _ _ b _ => (b.len, c0)
  | .fmin w .. => (4, Ctl.base w)
  | .fminExt c0 _ _ b => (b.len, c0)
  | .fmax w .. => (4, Ctl.base w)
  | .fmaxExt c0 _ _ b => (b.len, c0)
  | .fcmp c0 _ _ _ b => (b.len, c0)
  | .fabs c0 _ _ => (12, c0)
  | .fneg c0 _ _ => (12, c0)
  | .fclass c0 _ _ => (12, c0)
  | .frint c0 _ _ _ => (12, c0)
  | .frcp c0 _ _ => (12, c0)
  | .frsq c0 _ _ => (12, c0)
  | .fsqrt c0 _ _ _ => (12, c0)
  | .fexp2 c0 _ _ => (12, c0)
  | .flog2 c0 _ _ => (12, c0)
  | .fsin c0 _ _ => (12, c0)
  | .fcos c0 _ _ => (12, c0)
  | .hadd2 c0 _ _ _ _ _ => (12, c0)
  | .hmul2 c0 _ _ _ _ _ => (12, c0)
  | .hfma2 c0 _ _ _ _ _ _ => (12, c0)
  | .hmin2 c0 _ _ _ _ => (12, c0)
  | .hmax2 c0 _ _ _ _ => (12, c0)
  | .fdot2 c0 _ _ _ _ _ _ => (12, c0)
  | .fcvt c0 _ _ _ _ _ _ _ => (12, c0)
  | .i2f c0 _ _ _ => (12, c0)
  | .u2f c0 _ _ _ => (12, c0)
  | .f2i c0 _ _ _ _ => (12, c0)
  | .f2u c0 _ _ _ _ => (12, c0)
  | .qnt c0 _ _ _ _ _ b => (b.len, c0)
  | .dqnt c0 _ _ _ _ _ b => (b.len, c0)
  | .had c0 _ _ _ _ _ => (12, c0)
  | .cmpr c0 _ _ _ _ _ => (12, c0)
  | .boxt c0 _ _ _ => (12, c0)
  | .trit c0 _ _ _ _ _ => (12, c0)
  | .rebin c0 _ _ off => (off.len, c0)
  | .shflIdx c0 _ _ _ b _ => (b.len, c0)
  | .shflUp c0 _ _ _ b _ => (b.len, c0)
  | .shflDown c0 _ _ _ b _ => (b.len, c0)
  | .shflXor c0 _ _ _ b _ => (b.len, c0)
  | .voteAny c0 _ _ => (12, c0)
  | .voteAll c0 _ _ => (12, c0)
  | .voteBallot c0 _ _ => (12, c0)
  | .voteEq c0 _ _ => (12, c0)
  | .gredAdd c0 _ _ _ => (12, c0)
  | .gredMin c0 _ _ _ _ => (12, c0)
  | .gredMax c0 _ _ _ _ => (12, c0)
  | .gredAnd c0 _ _ _ => (12, c0)
  | .gredOr c0 _ _ _ => (12, c0)
  | .gredXor c0 _ _ _ => (12, c0)
  | .gredFadd c0 _ _ _ _ => (12, c0)
  | .gredFmin c0 _ _ _ => (12, c0)
  | .gredFmax c0 _ _ _ => (12, c0)
  | .bra w .. => (4, Ctl.base w)
  | .brc w .. => (4, Ctl.base w)
  | .brq w .. => (4, Ctl.base w)
  | .call w .. => (4, Ctl.base w)
  | .ret w .. => (4, Ctl.base w)
  | .retExt c0 => (12, c0)
  | .jarm w .. => (4, Ctl.base w)
  | .jarmExt c0 _ => (12, c0)
  | .jwait w .. => (4, Ctl.base w)
  | .jwaitExt c0 _ => (12, c0)
  | .jdrop w .. => (4, Ctl.base w)
  | .jdropExt c0 _ => (12, c0)
  | .exit w .. => (4, Ctl.base w)
  | .exitExt c0 => (12, c0)
  | .yield w .. => (4, Ctl.base w)
  | .yieldExt c0 => (12, c0)
  | .trap w .. => (4, Ctl.base w)
  | .trapExt c0 b => (b.len, c0)
  | .brk w .. => (4, Ctl.base w)
  | .brkExt c0 b => (b.len, c0)
  | .dqpush w .. => (4, Ctl.base w)
  | .dqpushExt c0 b => (b.len, c0)
  | .dqpop w .. => (4, Ctl.base w)
  | .dqpopExt c0 _ => (12, c0)
  | .sret w .. => (4, Ctl.base w)
  | .sretExt c0 => (12, c0)
  | .ld w .. => (4, Ctl.base w)
  | .ldExt c0 _ _ _ _ _ _ disp => (disp.len, c0)
  | .ldz c0 _ _ _ _ _ disp => (disp.len, c0)
  | .st w .. => (4, Ctl.base w)
  | .stExt c0 _ _ _ _ _ _ disp => (disp.len, c0)
  | .lds w .. => (4, Ctl.base w)
  | .ldsExt c0 _ _ _ disp => (disp.len, c0)
  | .sts w .. => (4, Ctl.base w)
  | .stsExt c0 _ _ _ disp => (disp.len, c0)
  | .ldc w .. => (4, Ctl.base w)
  | .ldcExt c0 _ _ _ _ disp => (disp.len, c0)
  | .atomAdd c0 _ _ _ _ _ b => (b.len, c0)
  | .atomMin c0 _ _ _ _ _ b => (b.len, c0)
  | .atomMax c0 _ _ _ _ _ b => (b.len, c0)
  | .atomUmin c0 _ _ _ _ _ b => (b.len, c0)
  | .atomUmax c0 _ _ _ _ _ b => (b.len, c0)
  | .atomAnd c0 _ _ _ _ _ b => (b.len, c0)
  | .atomOr c0 _ _ _ _ _ b => (b.len, c0)
  | .atomXor c0 _ _ _ _ _ b => (b.len, c0)
  | .atomExch c0 _ _ _ _ _ b => (b.len, c0)
  | .atomCas c0 _ _ _ _ _ b _ => (b.len, c0)
  | .atomFadd c0 _ _ _ _ b => (b.len, c0)
  | .redAdd c0 _ _ _ b => (b.len, c0)
  | .redMin c0 _ _ _ b => (b.len, c0)
  | .redMax c0 _ _ _ b => (b.len, c0)
  | .redUmin c0 _ _ _ b => (b.len, c0)
  | .redUmax c0 _ _ _ b => (b.len, c0)
  | .redAnd c0 _ _ _ b => (b.len, c0)
  | .redOr c0 _ _ _ b => (b.len, c0)
  | .redXor c0 _ _ _ b => (b.len, c0)
  | .redFadd c0 _ _ b => (b.len, c0)
  | .fence c0 _ => (12, c0)
  | .pref c0 _ _ _ disp => (disp.len, c0)
  | .spres c0 _ _ disp => (disp.len, c0)
  | .pgreq c0 _ _ _ disp => (disp.len, c0)
  | .barArr c0 _ _ => (12, c0)
  | .barWait c0 _ b => (b.len, c0)
  | .barSync c0 _ _ => (12, c0)
  | .barExpect c0 _ b => (b.len, c0)
  | .barInit c0 _ b => (b.len, c0)
  | .cvset c0 _ _ b => (b.len, c0)
  | .rsvqFree c0 _ _ => (12, c0)
  | .rsvqPend c0 _ _ => (12, c0)
  | .rsvqNominal c0 _ _ => (12, c0)
  | .rsvqSurr c0 _ _ => (12, c0)
  | .blksz c0 _ _ _ disp => (disp.len, c0)
  | .blkfill c0 _ disp _ => (disp.len, c0)
  | .balq c0 _ => (12, c0)
  | .pgsurr c0 _ disp => (disp.len, c0)
  | .pgrecl c0 _ disp => (disp.len, c0)
  | .wload c0 _ _ _ _ b _ => (b.len, c0)
  | .mma c0 _ _ _ _ _ _ _ _ _ => (12, c0)
  | .mmam c0 _ _ _ _ _ _ _ _ _ disp => (disp.len, c0)
  | .aclr c0 _ => (12, c0)
  | .ard c0 _ _ _ b => (b.len, c0)
  | .awr c0 _ _ _ b => (b.len, c0)
  | .adrain c0 _ _ _ _ _ _ _ b _ => (b.len, c0)
  | .wrel c0 => (12, c0)
  | .mstat c0 _ _ => (12, c0)
  | .xcfg c0 _ _ _ _ b _ => (b.len, c0)
  | .xpush c0 _ _ _ => (12, c0)
  | .xest c0 _ _ _ => (12, c0)
  | .xclr c0 _ => (12, c0)
  | .xstat c0 _ _ => (12, c0)
  | .tcopy c0 _ _ _ _ _ _ _ => (12, c0)
  | .chain c0 _ _ _ _ _ => (12, c0)
  | .ctwait c0 _ _ _ _ b => (b.len, c0)
  | .chkill c0 _ => (12, c0)
  | .spawn c0 _ _ _ _ off => (off.len, c0)
  | .enqn c0 _ b => (b.len, c0)
  | .jdec c0 _ _ b => (b.len, c0)
  | .settle c0 => (12, c0)
  | .taskqPrio c0 _ b => (b.len, c0)
  | .taskqRestart c0 _ b => (b.len, c0)
  | .taskqSettled c0 _ b => (b.len, c0)
  | .taskqVlines c0 _ b => (b.len, c0)
  | .taskqBqueue c0 _ b => (b.len, c0)
  | .taskqNqueue c0 _ b => (b.len, c0)
  | .taskqCursor c0 _ b => (b.len, c0)
  | .stkho c0 _ _ _ b => (b.len, c0)
  | .tlbiPage c0 _ _ b => (b.len, c0)
  | .tlbiVdev c0 _ b => (b.len, c0)
  | .tlbiVdevn c0 _ b => (b.len, c0)
  | .tlbiAll c0 _ b => (b.len, c0)
  | .cflushClean c0 _ _ b => (b.len, c0)
  | .cflushInv c0 _ _ b => (b.len, c0)
  | .cflushDiscard c0 _ _ b => (b.len, c0)
  | .ctxsw c0 _ _ _ _ b => (b.len, c0)
  | _ => (4, Ctl.base false)

/-- First register and number of registers of a use; none where it names no register of the thread. -/
def Use.range : Use → Option (Nat × Nat)
  | .reg r n _ => bif r == 255#8 && n ≤ 1 then none else some (r.toNat, n)
  | .opt r n => bif r == 255#8 then none else some (r.toNat, n)
  | .counter m r =>
    match m.toNat with
    | 0 => some (r.toNat, 2)
    | 1 => bif r == 255#8 then none else some (r.toNat, 1)
    | _ => none
  | .src (.reg r) n => bif r == 255#8 && n ≤ 1 then none else some (r.toNat, n)
  | .src7 (.reg r) => bif r == 255#8 then none else some (r.toNat, 1)
  | _ => none
/-- The registers a use touches. -/
def Use.regs (u : Use) : List Nat :=
  match u.range with
  | some (r, n) => (List.range n).map (r + ·)
  | none => []
/-- The predicate a use touches. -/
def Use.preds : Use → List Nat
  | .pred p _ => [p.toNat]
  | _ => []

/-- The registers VOTE.BALLOT writes in a group of a width (R194). -/
def Instr.ballotRegs (i : Instr) (gw : Nat) : List Nat :=
  match i with
  | .voteBallot _ d _ => (List.range (gw / 32)).map (d.toNat + ·)
  | _ => []
/-- An instruction of a group of a width reads or writes one of these results (R59, R194). -/
def Instr.touches (i : Instr) (gw : Nat) (g : BitVec 4) : Machine.Dst → Bool
  | .reg n => (i.uses.any fun u => u.regs.elem n) || (i.ballotRegs gw).elem n
  | .pred n => (i.uses.any fun u => u.preds.elem n) || (g != 7#4 && (g.extractLsb' 0 3).toNat == n)
  | .csr _ => false

end Sys2Proof
end

