-- ==== Sys2Proof/Machine/Rows.lean ====
section
/-! DEFINITION. Which instructions carry a segment, name a special register, need a privilege, or are points at
which suppressed stores, drains and floating-point waits are looked at. -/

namespace Sys2Proof

/-- A register use lies within the budget, tiles and contexts (R71 reason 8, R284, R311). -/
def Use.fits (u : Use) (budget tiles ctxs : Nat) : Bool :=
  (match u.range with
   | some (r, n) => decide (r + n ≤ budget)
   | none => true) &&
  (match u with
   | .tile t => decide (t.toNat < tiles)
   | .xctx x => decide (x.toNat < ctxs)
   | _ => true)
/-- The segment code of SHFL and GRED (R192). -/
def segBad (seg : BitVec 3) (gw : Nat) : Bool := seg != 0#3 && decide (gw < 2 ^ seg.toNat)
/-- Segment of an instruction that has one. -/
def Instr.segment : Instr → Option (BitVec 3)
  | .shflIdx _ seg _ _ _ _ => some seg
  | .shflUp _ seg _ _ _ _ => some seg
  | .shflDown _ seg _ _ _ _ => some seg
  | .shflXor _ seg _ _ _ _ => some seg
  | .gredAdd _ seg _ _ => some seg
  | .gredMin _ _ seg _ _ => some seg
  | .gredMax _ _ seg _ _ => some seg
  | .gredAnd _ seg _ _ => some seg
  | .gredOr _ seg _ _ => some seg
  | .gredXor _ seg _ _ => some seg
  | .gredFadd _ _ seg _ _ => some seg
  | .gredFmin _ seg _ _ => some seg
  | .gredFmax _ seg _ _ => some seg
  | _ => none
/-- Special-register number and direction of CSRR and CSRW. -/
def Instr.csr : Instr → Option (Nat × Bool)
  | .csrr _ _ n => some (n.toNat, false)
  | .csrrExt _ _ n => some (n.toNat, false)
  | .csrw _ _ n => some (n.toNat, true)
  | .csrwExt _ _ n => some (n.toNat, true)
  | _ => none
/-- Cause 0x02 of the system instructions: neither PRIV nor the delegation bit that serves; PRIV alone for CFLUSH .discard; HV as well for TLBI .vdevn and .all (R242). -/
def Instr.needsPriv (i : Instr) (priv hv : Bool) (deleg : BitVec 4) : Bool :=
  match i with
  | .stkho .. => !priv && !deleg.getLsbD 0
  | .tlbiPage .. => !priv && !deleg.getLsbD 1
  | .tlbiVdev .. => !priv && !deleg.getLsbD 1
  | .tlbiVdevn .. => !hv || (!priv && !deleg.getLsbD 1)
  | .tlbiAll .. => !hv || (!priv && !deleg.getLsbD 1)
  | .cflushClean .. => !priv && !deleg.getLsbD 2
  | .cflushInv .. => !priv && !deleg.getLsbD 2
  | .cflushDiscard .. => !priv
  | .ctxsw .. => !priv && !deleg.getLsbD 3
  | _ => false
/-- SRET. -/
def Instr.isSret : Instr → Bool
  | .sret _ => true
  | .sretExt _ => true
  | _ => false
/-- VOTE.BALLOT's destination range (R194). -/
def Instr.ballotBad (i : Instr) (gw budget : Nat) : Bool :=
  match i with
  | .voteBallot _ d _ => d.toNat % (gw / 32) != 0 || decide (budget < d.toNat + gw / 32)
  | _ => false

/-- Instructions at which suppressed stores trap (R239). -/
def Instr.trapPoint : Instr → Bool
  | .fence .. => true
  | .barArr .. => true
  | .barWait .. => true
  | .barSync .. => true
  | .barExpect .. => true
  | .barInit .. => true
  | .exit _ => true
  | .exitExt _ => true
  | .settle _ => true
  | .rebin .. => true
  | .stkho .. => true
  | .tlbiPage .. => true
  | .tlbiVdev .. => true
  | .tlbiVdevn .. => true
  | .tlbiAll .. => true
  | .cflushClean .. => true
  | .cflushInv .. => true
  | .cflushDiscard .. => true
  | .ctxsw .. => true
  | _ => false
/-- Memory order of an ATOM: release. -/
def Instr.atomOrd : Instr → Bool
  | .atomAdd _ o .. => o
  | .atomMin _ o .. => o
  | .atomMax _ o .. => o
  | .atomUmin _ o .. => o
  | .atomUmax _ o .. => o
  | .atomAnd _ o .. => o
  | .atomOr _ o .. => o
  | .atomXor _ o .. => o
  | .atomExch _ o .. => o
  | .atomCas _ o .. => o
  | .atomFadd _ o .. => o
  | _ => false
/-- Instructions that wait for their thread's ADRAINs: a FENCE that orders, a release, EXIT, an encoded W, and what acts first as one of these (R119, R220, R254, R255, R302, R345, R346, R390, R392). -/
def Instr.drainPoint (i : Instr) : Bool :=
  i.ctl.2.w || i.atomOrd ||
  match i with
  | .fence _ scope => scope != 0#3
  | .tlbiPage .. => true
  | .tlbiVdev .. => true
  | .tlbiVdevn .. => true
  | .tlbiAll .. => true
  | .cflushClean .. => true
  | .cflushInv .. => true
  | .cflushDiscard .. => true
  | .pgsurr .. => true
  | .pgrecl .. => true
  | .settle _ => true
  | .enqn .. => true
  | .stExt _ o .. => o
  | .barArr .. => true
  | .barSync .. => true
  | .exit _ => true
  | .exitExt _ => true
  | .spawn .. => true
  | .jdec .. => true
  | .rebin .. => true
  | _ => false
/-- Majors 0x20 to 0x2F and GRED, which issue as if W were 1 while %frm.FPE is nonzero (R165, R195). -/
def Instr.fpWait : Instr → Bool
  | .fadd .. => true
  | .faddExt .. => true
  | .fsub .. => true
  | .fsubExt .. => true
  | .fmul .. => true
  | .fmulExt .. => true
  | .ffma .. => true
  | .fmin .. => true
  | .fminExt .. => true
  | .fmax .. => true
  | .fmaxExt .. => true
  | .fcmp .. => true
  | .fabs .. => true
  | .fneg .. => true
  | .fclass .. => true
  | .frint .. => true
  | .frcp .. => true
  | .frsq .. => true
  | .fsqrt .. => true
  | .fexp2 .. => true
  | .flog2 .. => true
  | .fsin .. => true
  | .fcos .. => true
  | .hadd2 .. => true
  | .hmul2 .. => true
  | .hfma2 .. => true
  | .hmin2 .. => true
  | .hmax2 .. => true
  | .fdot2 .. => true
  | .fcvt .. => true
  | .i2f .. => true
  | .u2f .. => true
  | .f2i .. => true
  | .f2u .. => true
  | .qnt .. => true
  | .dqnt .. => true
  | .had .. => true
  | .cmpr .. => true
  | .gredAdd .. => true
  | .gredMin .. => true
  | .gredMax .. => true
  | .gredAnd .. => true
  | .gredOr .. => true
  | .gredXor .. => true
  | .gredFadd .. => true
  | .gredFmin .. => true
  | .gredFmax .. => true
  | _ => false

/-- Fixed latency of an instruction's results (R58); none where it is variable. -/
def Instr.latency : Instr → Option Nat
  | .mov .. => some 2
  | .movExt .. => some 2
  | .add .. => some 2
  | .addExt .. => some 2
  | .sub .. => some 2
  | .subExt .. => some 2
  | .min .. => some 2
  | .minExt .. => some 2
  | .max .. => some 2
  | .maxExt .. => some 2
  | .and .. => some 2
  | .andExt .. => some 2
  | .or .. => some 2
  | .orExt .. => some 2
  | .xor .. => some 2
  | .xorExt .. => some 2
  | .shl .. => some 2
  | .shlExt .. => some 2
  | .shr .. => some 2
  | .shrExt .. => some 2
  | .sar .. => some 2
  | .sarExt .. => some 2
  | .rot .. => some 2
  | .rotExt .. => some 2
  | .bfx .. => some 2
  | .bfxExt .. => some 2
  | .bfi .. => some 2
  | .sel .. => some 2
  | .cmp .. => some 2
  | .plog .. => some 2
  | .lea .. => some 2
  | .leaExt .. => some 2
  | .abs .. => some 2
  | .neg .. => some 2
  | .not .. => some 2
  | .popc .. => some 2
  | .clz .. => some 2
  | .brev .. => some 2
  | .sext8 .. => some 2
  | .sext16 .. => some 2
  | .zext8 .. => some 2
  | .zext16 .. => some 2
  | .voteAny .. => some 2
  | .voteAll .. => some 2
  | .voteBallot .. => some 2
  | .voteEq .. => some 2
  | .csrr .. => some 2
  | .csrrExt .. => some 2
  | .csrw .. => some 2
  | .csrwExt .. => some 2
  | .add64 .. => some 3
  | .sub64 .. => some 3
  | .shl64 .. => some 3
  | .shr64 .. => some 3
  | .cmp64 .. => some 3
  | .mul .. => some 4
  | .mulExt .. => some 4
  | .mulh .. => some 4
  | .mulhExt .. => some 4
  | .mad .. => some 4
  | .fadd .. => some 4
  | .faddExt .. => some 4
  | .fsub .. => some 4
  | .fsubExt .. => some 4
  | .fmul .. => some 4
  | .fmulExt .. => some 4
  | .ffma .. => some 4
  | .fmin .. => some 4
  | .fminExt .. => some 4
  | .fmax .. => some 4
  | .fmaxExt .. => some 4
  | .fcmp .. => some 4
  | .fabs .. => some 4
  | .fneg .. => some 4
  | .fclass .. => some 4
  | .frint .. => some 4
  | .hadd2 .. => some 4
  | .hmul2 .. => some 4
  | .hfma2 .. => some 4
  | .hmin2 .. => some 4
  | .hmax2 .. => some 4
  | .fdot2 .. => some 5
  | .fcvt .. => some 5
  | .i2f .. => some 5
  | .u2f .. => some 5
  | .f2i .. => some 5
  | .f2u .. => some 5
  | .qnt .. => some 5
  | .dqnt .. => some 5
  | .had .. => some 6
  | .cmpr .. => some 6
  | _ => none
/-- Scoreboard entries an instruction needs: one for each register it writes with a variable latency (R59). -/
def Instr.entries (i : Instr) : Nat :=
  match i.latency with
  | some _ => 0
  | none => (i.uses.map fun u => match u with
      | .reg r n true => bif r == 255#8 && n ≤ 1 then 0 else n
      | .pred p true => bif p == 7#3 then 0 else 1
      | _ => 0).sum
/-- It writes register n in a group of a width. -/
def Instr.writesReg (i : Instr) (gw n : Nat) : Bool :=
  (i.ballotRegs gw).elem n || i.uses.any fun u => match u with
    | .reg _ _ true => u.regs.elem n
    | _ => false
/-- The engine queue a command enters: 0 copy, 1 matrix, 2 extrapolation (R13). -/
def Instr.engineQueue : Instr → Option Nat
  | .tcopy .. => some 0
  | .wload .. => some 1
  | .mma .. => some 1
  | .mmam .. => some 1
  | .aclr .. => some 1
  | .ard .. => some 1
  | .awr .. => some 1
  | .adrain .. => some 1
  | .wrel .. => some 1
  | .mstat .. => some 1
  | .xcfg .. => some 2
  | .xpush .. => some 2
  | .xest .. => some 2
  | .xclr .. => some 2
  | .xstat .. => some 2
  | _ => none
/-- The barriers an instruction acts on: the one it names, or each where a thread ends (R148, R223, R224). -/
def Instr.barsOf : Instr → List Nat
  | .barArr _ _ b => [b.toNat]
  | .barWait _ b _ => [b.toNat]
  | .barSync _ _ b => [b.toNat]
  | .barExpect _ b _ => [b.toNat]
  | .barInit _ b _ => [b.toNat]
  | .exit _ => List.range 16
  | .exitExt _ => List.range 16
  | .rebin .. => List.range 16
  | _ => []
/-- Instructions that issue once every result of their thread is written (R61, R186, R187, R201, R392). -/
def Instr.settlePoint : Instr → Bool
  | .exit _ => true
  | .exitExt _ => true
  | .yield _ => true
  | .yieldExt _ => true
  | .rebin .. => true
  | .settle _ => true
  | _ => false
/-- The rejoin mask a JWAIT names: a member issues it once its results are written (R184). -/
def Instr.joins : Instr → Option (BitVec 4)
  | .jwait _ m => some m
  | .jwaitExt _ m => some m
  | _ => none
/-- It reads %fstat, which waits for the outstanding floating-point results (R163). -/
def Instr.readsFstat (i : Instr) : Bool :=
  match i.csr with
  | some (n, wr) => n == 0x020 && !wr
  | none => false
/-- It reads or writes accumulator tile t at issue or in the queue: not a signature (R146). -/
def Instr.usesTile (i : Instr) (t : BitVec 3) : Bool :=
  match i with
  | .mma .. => false
  | .mmam .. => false
  | i => i.uses.any fun u => match u with
    | .tile x => x == t
    | _ => false
/-- It names an accumulator tile, a signature included. -/
def Instr.namesTile (i : Instr) : Bool :=
  i.uses.any fun u => match u with
    | .tile _ => true
    | _ => false

end Sys2Proof
end

