-- ==== Sys2Proof/Machine/Tables.lean ====
section
/-! DEFINITION. Page tables as memory holds them: walks and every mapped page (09 R205, 21 R354 to R358). -/

namespace Sys2Proof.Machine

/-- Distinct numbers of a list, in order. -/
def distinct : List Nat → List Nat
  | [] => []
  | x :: xs => bif xs.elem x then distinct xs else x :: distinct xs
/-- Runs of equal neighbours, each once. -/
def runs : List Nat → List Nat
  | x :: y :: rest => bif x == y then runs (y :: rest) else x :: runs (y :: rest)
  | l => l
/-- Insert a number into an ascending list, once. -/
def insertOnce (n : Nat) : List Nat → List Nat
  | [] => [n]
  | x :: xs => bif decide (n < x) then n :: x :: xs else bif n == x then x :: xs else x :: insertOnce n xs
/-- The link of a fabric window (R354). -/
def State.linkOf (s : State) (pa : Nat) : Option Nat := s.hearth.windows.lookup (bits pa 40 8)

/-- Bits [63:48] are copies of bit 47 (R205). -/
def canonical (va : DWord) : Bool := va == (va.setWidth 48).signExtend 64
/-- The 48-bit address as a number. -/
def va48 (va : DWord) : Nat := va.toNat % 2 ^ 48
/-- A 64-bit address from bits [47:0] (R205). -/
def canon (x : Nat) : DWord := (BitVec.ofNat 48 x).signExtend 64

/-- Index shift and index width of a table level (R355). -/
def levelShift (lvl : Nat) : Nat × Nat :=
  match lvl with
  | 0 => (39, 9)
  | 1 => (30, 9)
  | 2 => (21, 9)
  | _ => (16, 5)
/-- A leaf found by a walk: its level, the entry's address and value. -/
structure Leaf where
  level : Nat
  at_ : Nat
  e : Nat
  deriving DecidableEq, Repr
/-- RES of a leaf (R357). -/
def Leaf.res (l : Leaf) : Nat := bits l.e 8 2
/-- Pages of 64 KiB a leaf maps. -/
def Leaf.pages (l : Leaf) : Nat :=
  match l.level with
  | 1 => 16384
  | 2 => 32
  | _ => 1
/-- Physical base of a leaf's page. -/
def Leaf.base (l : Leaf) : Nat := bits l.e 16 36 * 65536
/-- RB of a leaf. -/
def Leaf.rb (l : Leaf) : Bool := bits l.e 63 1 == 1

/-- A physical address names a place (R354). -/
def State.physOk (s : State) (pa : Nat) : Bool :=
  match region pa with
  | 0 => bits pa 39 9 == 0
  | 1 => true
  | 2 => (s.linkOf pa).isSome
  | _ => false

/-- A leaf entry's own rules (R357, R358). -/
def leafOk (lvl e : Nat) : Bool :=
  lvl != 0 && bits e 10 6 == 0 && bits e 7 1 == 0 && !(bits e 3 1 == 1 && bits e 2 1 == 0) &&
  (match lvl with
   | 1 => bits e 16 14 == 0
   | 2 => bits e 16 5 == 0
   | _ => true) &&
  (lvl == 3 || (bits e 63 1 == 0 && bits e 52 1 == 0 && bits e 8 2 == 0))
/-- A table entry's own rules (R356, R358). -/
def tableOk (lvl e : Nat) : Bool :=
  lvl != 3 && bits e 52 12 == 0 && bits e 2 6 == 0 && (lvl == 2 || bits e 8 4 == 0) && bits e 39 13 == 0

/-- A walk from a table (R355 to R358); `fuel` is the number of levels left. None is cause 0x04. -/
def State.walkFrom (s : State) (va : Nat) : Nat → Nat → Nat → Option Leaf
  | 0, _, _ => none
  | fuel + 1, lvl, tbl =>
    let (sh, w) := levelShift lvl
    let a := tbl + 8 * bits va sh w
    let e := leNat (s.store.mem.getN a 8)
    if bits e 0 1 = 0 then none
    else if bits e 1 1 = 1 then (if leafOk lvl e then some ⟨lvl, a, e⟩ else none)
    else if tableOk lvl e then s.walkFrom va fuel (lvl + 1) (bits e 8 44 * 256) else none
/-- Addresses of the table entries that a walk reads, in order (R355). -/
def State.walkPath (s : State) (va : Nat) : Nat → Nat → Nat → List Nat
  | 0, _, _ => []
  | fuel + 1, lvl, tbl =>
    let (sh, w) := levelShift lvl
    let a := tbl + 8 * bits va sh w
    let e := leNat (s.store.mem.getN a 8)
    a :: if bits e 0 1 = 1 ∧ bits e 1 1 = 0 ∧ tableOk lvl e then s.walkPath va fuel (lvl + 1) (bits e 8 44 * 256) else []
/-- The translation root of a virtual device (R355, R414). -/
def State.root (s : State) (v : Nat) : Nat := field (s.vdev v).desc 24 8
/-- The leaf of an address, from the tables. -/
def State.walk (s : State) (v : Nat) (va : DWord) : Option Leaf :=
  (s.walkFrom (va48 va) 4 0 (s.root v)).filter fun l => s.physOk l.base

/-- Bytes listed in a range of memory. -/
def Mem.cells (m : Mem) (lo n : Nat) : Mem := m.filter fun (a, _) => decide (lo ≤ a) && decide (a < lo + n)
/-! ## Every mapped page of a virtual device -/

/-- Indices of a table's entries that are not 0. -/
def Mem.entries (m : Mem) (tbl n : Nat) : List Nat := runs ((m.cells tbl (8 * n)).map fun c => (c.1 - tbl) / 8)
/-- Valid leaves below a table, with their virtual addresses (R355 to R358). -/
def State.leavesFrom (s : State) : Nat → Nat → Nat → Nat → List (DWord × Leaf)
  | 0, _, _, _ => []
  | fuel + 1, lvl, tbl, va =>
    let (sh, w) := levelShift lvl
    (s.store.mem.entries tbl (2 ^ w)).flatMap fun k =>
      let a := tbl + 8 * k
      let e := leNat (s.store.mem.getN a 8)
      let x := va + k * 2 ^ sh
      bif bits e 0 1 == 0 then []
      else bif bits e 1 1 == 1 then (bif leafOk lvl e && s.physOk (bits e 16 36 * 65536) then [(canon x, ⟨lvl, a, e⟩)] else [])
      else bif tableOk lvl e then s.leavesFrom fuel (lvl + 1) (bits e 8 44 * 256) x else []
/-- Valid leaves of a virtual device. -/
def State.leaves (s : State) (v : Nat) : List (DWord × Leaf) :=
  bif (s.vdev v).state == .absent then [] else s.leavesFrom 4 0 (s.root v) 0
/-- The leaf names a frame of local memory; PPN 0 of a non-resident or surrendered page names none (R346, R362). -/
def Leaf.local (l : Leaf) : Bool := region l.base == 0 && (l.base != 0 || l.res == 0 || l.res == 3)

/-- Tables that a walk of a virtual device may read: address and size. -/
def State.tablesFrom (s : State) : Nat → Nat → Nat → List (Nat × Nat)
  | 0, _, _ => []
  | fuel + 1, lvl, tbl =>
    let w := (levelShift lvl).2
    (tbl, 8 * 2 ^ w) :: (s.store.mem.entries tbl (2 ^ w)).flatMap fun k =>
      let e := leNat (s.store.mem.getN (tbl + 8 * k) 8)
      bif bits e 0 1 == 1 && bits e 1 1 == 0 && tableOk lvl e then s.tablesFrom fuel (lvl + 1) (bits e 8 44 * 256) else []
/-- Local ranges of a virtual device: its tables and its mapped pages. -/
def State.rangesOf (s : State) (v : Nat) : List (Nat × Nat) :=
  s.tablesFrom 4 0 (s.root v) ++ ((s.leaves v).filter fun x => x.2.local).map fun x => (x.2.base, x.2.pages * 65536)
/-- An address lies in one of the ranges. -/
def inRanges (rs : List (Nat × Nat)) (a : Nat) : Bool := rs.any fun r => decide (r.1 ≤ a) && decide (a < r.1 + r.2)
/-- Pages of 64 KiB mapped by a virtual device, surrendered ones included (R342 NOMINAL). -/
def State.nominal (s : State) (v : Nat) : Nat := ((s.leaves v).map fun x => x.2.pages).sum
/-- Surrendered pages of a virtual device (R342 SURR). -/
def State.surrendered (s : State) (v : Nat) : Nat := ((s.leaves v).map fun x => bif x.2.res == 2 then x.2.pages else 0).sum
/-- The leaf maps the page of a physical address. -/
def Leaf.maps (l : Leaf) (pa : Nat) : Bool := decide (l.base ≤ pa) && decide (pa < l.base + l.pages * 65536)
/-- The virtual device that maps the page of a physical address, with the leaf. -/
def State.mapping (s : State) (pa : Nat) : Option (Nat × Leaf) :=
  (List.range 32).findSome? fun v => ((s.leaves v).find? fun x => x.2.local && x.2.maps pa).map fun x => (v, x.2)
/-- HOME of a leaf (R357). -/
def Leaf.home (l : Leaf) : Nat := bits l.e 61 2

end Sys2Proof.Machine
end

