-- ==== Sys2Proof/Machine/Kiln.lean ====
section
/-! DEFINITION. The kiln: blocks, classes, charges, writebacks and the counters (19 R329 to R337). -/

namespace Sys2Proof.Machine

/-- Bytes repeat with period 8 (R329). -/
def periodic8 : List Byte → Bool
  | a :: b :: c :: d :: e :: f :: g :: h :: rest =>
    (rest.zipIdx.all fun (x, k) =>
      x == [a, b, c, d, e, f, g, h].getD (k % 8) 0#8)
  | _ => true
/-- The class of a block's bytes: 0 exactly for period 8, else the revision's function from 1 to 8 (R329). -/
def classOf (bs : List Byte) : Nat := bif periodic8 bs then 0 else 1 + Config.blockClass bs % 8

/-- Block number of a physical address. -/
def blockOf (pa : Nat) : Nat := pa / 1024
/-- A block that is clean, uncharged and of class 0. -/
def Block.clean (no : Nat) : Block := ⟨no, 0, none, [], none⟩
/-- The kiln's record of a block. -/
def State.block (s : State) (no : Nat) : Block :=
  (s.store.blocks.find? fun b => b.no == no).getD (Block.clean no)
/-- Insert a block record in order; clean class-0 blocks are not listed. -/
def putBlock : List Block → Block → List Block
  | [], b => bif b == Block.clean b.no then [] else [b]
  | x :: rest, b =>
    bif x.no == b.no then (bif b == Block.clean b.no then rest else b :: rest)
    else bif b.no < x.no then (bif b == Block.clean b.no then x :: rest else b :: x :: rest)
    else x :: putBlock rest b
/-- Replace a block's record. -/
def State.setBlock (s : State) (b : Block) : State :=
  s.modStore fun m => { m with blocks := putBlock m.blocks b }

/-- Counters of a share (v, s) (R331). -/
structure KCount where
  /-- Stack s. -/
  stack : Nat
  /-- GRANT in sectors. -/
  grant : Nat
  /-- USED in sectors. -/
  used : Nat
  /-- PEND in sectors. -/
  pend : Nat
  /-- A charge has been refused since grant was last moved to it. -/
  refused : Bool
  deriving DecidableEq, Repr, Inhabited
/-- The records of a page's blocks. -/
def State.pageBlocks (s : State) (base : Nat) : List Block := s.store.blocks.filter fun b => b.no / 64 == base / 65536
/-- Sectors that the blocks of a page occupy. -/
def State.pageSectors (s : State) (base : Nat) : Nat := ((s.pageBlocks base).map (·.cls)).sum
/-- Sectors of a page that count in a virtual device's USED block by block. -/
def State.ownSectors (s : State) (v base : Nat) : Nat := (((s.pageBlocks base).filter fun b => b.own == some v).map (·.cls)).sum
/-- What RB pages add to USED of share (v, st): each counts 512 sectors in place of what its blocks hold, while it is mapped (R335). -/
def State.rbExtra (s : State) (v st : Nat) : Nat :=
  ((s.leaves v).map fun x => bif x.2.rb && x.2.local && stackOf x.2.base == st then 512 - s.ownSectors v x.2.base else 0).sum
/-- The record of share (v, st): GRANT 0 until grant is given (R331). -/
def State.kstored (s : State) (v st : Nat) : KShare :=
  (s.store.kshares.find? fun k => k.vd == v && k.stack == st).getD ⟨v, st, 0, false⟩
/-- The block lies on a stack. -/
def Block.on (b : Block) (st : Nat) : Bool := stackOf (b.no * 1024) == st
/-- The charge CH that a block carries on a virtual device's share. -/
def Block.chargeOf (b : Block) (v : Nat) : Nat :=
  match b.ch with
  | some (u, n) => bif u == v then n else 0
  | none => 0
/-- The counters of share (v, st): USED over its stored blocks and RB pages, PEND over its charged blocks (R331, R333, R335). -/
def State.kshare (s : State) (v st : Nat) : KCount :=
  let k := s.kstored v st
  let mine := s.store.blocks.filter fun b => b.on st
  { stack := st, grant := k.grant, used := ((mine.filter fun b => b.own == some v).map (·.cls)).sum + s.rbExtra v st,
    pend := (mine.map fun b => b.chargeOf v).sum, refused := k.refused }
/-- Change the record of share (v, st). -/
def State.modK (s : State) (v st : Nat) (f : KShare → KShare) : State :=
  let k := f (s.kstored v st)
  s.modStore fun m =>
    { m with kshares := k :: m.kshares.filter fun x => !(x.vd == v && x.stack == st) }
/-- RES = GRANT − USED − PEND (R331). -/
def KCount.res (k : KCount) : Nat := k.grant - k.used - k.pend

/-- Some unsettled task's version holds a line of the block (R332). -/
def State.versionHolds (s : State) (no : Nat) : Bool :=
  s.lanes.tasks.any fun t => !t.settled && t.ver.bytes.any fun (a, _) => a / 1024 == no
/-- Blocks an entry of a matrix queue holds a charge for. -/
def MxEntry.blocks (e : MxEntry) : List Nat :=
  match e.cmd with
  | .adrain _ _ _ _ _ _ _ _ _ _ bs => bs
  | _ => []
/-- A write accepted for the block still waits: in a store queue, or as an engine command. -/
def State.queued (s : State) (no : Nat) : Bool :=
  (s.lanes.groups.any fun g => g.sq.any fun e => e.pa / 1024 == no) ||
  (s.lanes.shares.any fun h => (h.feSq.any fun e => e.pa / 1024 == no) ||
    (h.saved.copies.any fun c => c.blocks.elem no) || h.saved.mx.any fun e => e.blocks.elem no) ||
  (s.lanes.cores.any fun c => ((c.copyQ ++ c.copies).any fun x => x.blocks.elem no) || c.mxQ.any fun e => e.blocks.elem no)

/-- How Charge answers (R332). -/
inductive Charge where
  /-- The store is accepted. -/
  | accepted
  /-- Refused, with the shortfall in sectors. -/
  | refused (short : Nat)
  /-- Held while the charge path is suspended (R340). -/
  | held
  deriving DecidableEq, Repr

/-- A charge on a share has been refused: it may receive moved grant, and the fault is counted (R331, R430). -/
def State.refusedOn (s : State) (v st : Nat) : State :=
  (s.modK v st fun k => { k with refused := true }).modTele fun t => { t with capacity := t.capacity + 1 }
/-- Charge(ea) for a virtual device on the block of a physical address (R332, R335, R340). -/
def State.charge (s : State) (v pa : Nat) (rb : Bool) : State × Charge :=
  let b := s.block (blockOf pa)
  let st := stackOf pa
  bif rb || b.ch.isSome || region pa != 0 then (s, .accepted)
  else
    let n := 8 - b.cls
    bif (s.vdev v).balloon.suspended && n != 0 then (s, .held)
    else bif n ≤ (s.kshare v st).res then
      (s.setBlock { b with ch := some (v, n) }, .accepted)
    else (s.refusedOn v st, .refused (n - (s.kshare v st).res))

/-- Give up a block's charge (R333). -/
def State.release (s : State) (no : Nat) : State := s.setBlock { s.block no with ch := none }
/-- A block's record with a new class, its dirty lines written back: its sectors count for the virtual device charged, or that maps its page, else as before (R331, R333). -/
def Block.stored (b : Block) (c : Nat) (v : Option Nat) (ch : Option (Nat × Nat)) : Block :=
  { b with cls := c, ch := ch, dirty := [], own := bif c == 0 then none else v.orElse fun _ => b.own }
/-- Write back every committed dirty line of a block and settle its charge (R330, R333). A line whose charge hearth core 3 or a walker could not take (log entry 49) stays in the cache while its new class does not fit the reserve, which never falls below 0; so does one of a page that is mapped no more, against the share its sectors count in (R331). -/
def State.writeback (s : State) (no : Nat) : State :=
  let b := s.block no
  bif b.dirty.isEmpty then s else
  let c := classOf (s.store.mem.getN (no * 1024) 1024)
  match b.ch with
  | none =>
    match s.mapping (no * 1024) with
    | some (v, l) =>
      bif l.rb || decide (c ≤ (bif b.own == some v then b.cls else 0) + (s.kshare v (stackOf (no * 1024))).res)
        then s.setBlock (b.stored c (some v) none) else s
    | none =>
      bif (b.own.map fun v => decide (c ≤ b.cls + (s.kshare v (stackOf (no * 1024))).res)).getD true then s.setBlock (b.stored c none none) else s
  | some (v, _) => s.setBlock (b.stored c (some v) (bif s.versionHolds no || s.queued no then some (v, 8 - c) else none))

/-- Release the charges of blocks that no window holds any more (R333, discard). -/
def State.releaseIdle (s : State) : List Nat → State
  | [] => s
  | no :: rest =>
    let b := s.block no
    (bif b.dirty.isEmpty && !s.versionHolds no && !s.queued no then s.release no else s).releaseIdle rest

/-- Charge the block of a write that is never refused, where the reserve covers it: a block that a window holds is charged (R332; log entries 24 and 49). -/
def State.chargeAs (s : State) (v pa : Nat) (rb : Bool) : State :=
  match s.charge v pa rb with
  | (t, .accepted) => t
  | _ => s
/-- The block of an address can be charged now, or needs no charge (R332, R340). -/
def State.chargeable (s : State) (pa : Nat) : Bool :=
  match s.mapping pa with
  | some (v, l) => (s.charge v pa l.rb).2 == .accepted
  | none => true
/-- The same, for the virtual device that maps the page. -/
def State.chargeHeld (s : State) (pa : Nat) : State :=
  match s.mapping pa with
  | some (v, l) => s.chargeAs v pa l.rb
  | none => s
/-- Write one byte into committed memory: the line becomes dirty above its stored bytes (R330, R332). -/
def State.putByte (s : State) (pa : Nat) (x : Byte) : State :=
  let b := s.block (blockOf pa)
  let line := pa / 128
  let s := bif b.dirty.any fun d => d.1 == line then s
    else s.setBlock { b with dirty := b.dirty ++ [(line, s.store.mem.getN (line * 128) 128)] }
  s.modStore fun m => { m with mem := m.mem.put pa x }
/-- Write bytes into committed local memory. -/
def State.putBytes (s : State) (pa : Nat) : List Byte → State
  | [] => s
  | x :: xs => (s.putByte pa x).putBytes (pa + 1) xs

end Sys2Proof.Machine
end

