-- ==== Sys2Proof/Machine/Translate.lean ====
section
/-! DEFINITION. Address translation, TLBs, residency, replicas and closed ports (21 R354 to R368). -/

namespace Sys2Proof.Machine

/-- What a translation answers. -/
inductive Xlat where
  /-- The physical address; whether the page is reserve-backed; whether its home is 11. -/
  | ok (pa : Nat) (rb home11 : Bool)
  /-- A cause of R69. -/
  | bad (cause : Nat)
  /-- Held by a hand-over of the stack (R253). -/
  | held
  deriving DecidableEq, Repr

/-- Who asks for a translation: a core's lanes, front ends and copy engine, its tile fetch unit, or the hearth (R360). -/
inductive Seeker where
  | core (c : Nat)
  | tiles (c : Nat)
  | hearth
  deriving DecidableEq, Repr

/-- Rewrite a leaf in its table, where it changes: a committed write of the walker or of hearth core 3, which is never refused (R329, R332, R357; log entry 49). -/
def State.setLeaf (s : State) (at_ e : Nat) : State :=
  bif leNat (s.store.mem.getN at_ 8) == e then s else (s.chargeHeld at_).putBytes at_ (natLe 8 e)
/-- Replace bits [lo + n − 1 : lo] of an entry. -/
def setBits (e lo n x : Nat) : Nat := e - bits e lo n * 2 ^ lo + (x % 2 ^ n) * 2 ^ lo

/-- Owner die of a stack (R367). -/
def State.ownerDie (s : State) (st : Nat) : Nat :=
  bif (s.store.owners.getD st (Owner.reset st)).owner then 1 else 0
/-- Owner die of a stack as a die's copy of the OWNER bits gives it: requests are routed by it (R367). -/
def State.ownerSeen (s : State) (die st : Nat) : Nat :=
  bif ((s.store.ownerCopies.getD die 0xF0#8)).getLsbD st then 1 else 0
/-- A partition may reach a stack: always in unified mode, else as its owner or borrower (R368). -/
def State.portOpen (s : State) (part st : Nat) : Bool :=
  s.hearth.config.unified || s.ownerSeen part st == part
/-- A hand-over holds the stack's requests (R253, R369). -/
def State.handing (s : State) (st : Nat) : Bool :=
  (s.store.owners.getD st (Owner.reset st)).state != 0#2

/-- A stack is on loan (R367). -/
def State.onLoan (s : State) (stack : Nat) : Bool := (s.store.owners.getD stack (Owner.reset stack)).loan
/-- A stack is to be returned to its lender, who has demanded it (R373). -/
def State.leaving (s : State) (stack : Nat) : Bool := s.store.loans.any fun l => l.stack == stack && l.due.isSome
/-- A hand-over has started on a stack and not finished step 7 (R371). -/
def State.betweenSteps (s : State) (st : Nat) : Bool :=
  s.handing st || s.store.handovers.any fun h => h.stack == st && decide (0 < h.step)
/-- Drop the TLB entries that match (R254, R360). -/
def State.dropTlb (s : State) (p : TlbEntry → Bool) : State :=
  s.modStore fun m => { m with tlb := m.tlb.filter fun e => !p e }
/-- Drop a page of a virtual device from every TLB. -/
def State.dropPage (s : State) (v vpn : Nat) : State :=
  s.dropTlb fun e => e.vd == v && e.vpn ≤ vpn && vpn < e.vpn + e.pages

/-- Memory with a range all 0. -/
def Mem.clear (m : Mem) (lo n : Nat) : Mem := m.filter fun (a, _) => !(decide (lo ≤ a) && decide (a < lo + n))
/-- Put listed bytes at a displacement. -/
def Mem.move (m : Mem) (src dst : Nat) : Mem → Mem
  | [] => m
  | (a, b) :: rest => (m.put (a - src + dst) b).move src dst rest

/-- Release what a page's blocks hold and forget their lines: charges, sectors and dirty lines. -/
def State.freePage (s : State) (base : Nat) : State :=
  s.modStore fun m =>
    { m with blocks := m.blocks.filter fun b => b.no / 64 != base / 65536, mem := m.mem.clear base 65536 }
/-- A block's record at another frame of a virtual device, without its charge. -/
def Block.moveTo (b : Block) (v src dst : Nat) : Block :=
  { no := b.no - src / 1024 + dst / 1024, cls := b.cls, ch := none,
    dirty := b.dirty.map fun d => (d.1 - src / 128 + dst / 128, d.2), own := bif b.cls == 0 then none else some v }
/-- The class that a clean copy of a block takes: the stored one, or that of its present bytes where lines of it are dirty (R329, R364). -/
def State.copyClass (s : State) (b : Block) : Nat :=
  bif b.dirty.isEmpty then b.cls else classOf (s.store.mem.getN (b.no * 1024) 1024)
/-- Bytes read from off the device as a page of local memory (R109, R363). -/
def State.bringPage (s : State) (v src dst : Nat) : State :=
  let bs := s.readCommitted src 65536
  let s := s.modStore fun m => { m with mem := m.mem.putN dst bs }
  (List.range 64).foldl (fun s k =>
    let no := dst / 1024 + k
    s.setBlock ((Block.clean no).stored (classOf (s.store.mem.getN (no * 1024) 1024)) (some v) none)) s
/-- Copy a page's committed bytes and blocks to another frame of a virtual device; a source off the device gives free bytes (R109, R363). -/
def State.copyPage (s : State) (v src dst : Nat) : State :=
  bif region src == 0 then
    s.modStore fun m =>
      { m with mem := (m.mem.clear dst 65536).move src dst (m.mem.cells src 65536),
               blocks := (s.pageBlocks src).foldl (fun l b => putBlock l (b.moveTo v src dst))
                 (m.blocks.filter fun b => b.no / 64 != dst / 65536) }
  else s.bringPage v src dst
/-- Copy a page's committed bytes to the frame of a replica: its blocks are clean, and the home is left as it is (R361, R364). -/
def State.replicate (s : State) (v src dst : Nat) : State :=
  bif region src == 0 then
    s.modStore fun m =>
      { m with mem := (m.mem.clear dst 65536).move src dst (m.mem.cells src 65536),
               blocks := (s.pageBlocks src).foldl (fun l b =>
                   putBlock l ((Block.clean (b.no - src / 1024 + dst / 1024)).stored (s.copyClass b) (some v) none))
                 (m.blocks.filter fun b => b.no / 64 != dst / 65536) }
  else s.bringPage v src dst
/-- A frame all zero, of class 0, for a page whose data is still to be made (R362). -/
def State.freshPage (s : State) (f : Nat) : State :=
  s.modStore fun m => { m with mem := m.mem.clear f 65536, blocks := m.blocks.filter fun b => b.no / 64 != f / 65536 }
/-- Sectors a page will take elsewhere: the stored ones with its charges, or the most a page can hold for a source off the device. -/
def State.needSectors (s : State) (src : Nat) : Nat :=
  bif region src == 0 then ((s.pageBlocks src).map fun b => b.cls + (b.ch.map (·.2)).getD 0).sum else 512
/-- Sectors a replica of the page will take. -/
def State.replicaNeed (s : State) (src : Nat) : Nat :=
  bif region src == 0 then ((s.pageBlocks src).map s.copyClass).sum else 512

/-- A stack of a die that no hand-over holds and that is not to be returned, with the reserve (R363, R369, R373). Of several the lowest-numbered is taken, which R363 leaves open: DESIGN CHOICE, log entry 14. -/
def State.roomyStack (s : State) (v die need : Nat) : Option Nat :=
  (List.range 8).find? fun st => s.ownerDie st == die && !s.handing st && !s.leaving st && decide (need ≤ (s.kshare v st).res)
/-- Local ranges in use: tables and mapped pages of every virtual device, and replicas. -/
def State.usedRanges (s : State) : List (Nat × Nat) :=
  (((List.range 32).filter fun v => (s.vdev v).state != .absent).flatMap s.rangesOf) ++ s.store.replicas.map fun r => (r.base, 65536)
/-- A free frame that hearth core 3 chooses on a stack: its place is open (log entry 14). -/
def State.newFrame (s : State) (st : Nat) : Nat :=
  let x := st * 2 ^ 36 + Config.frame s.free % 2 ^ 20 * 65536
  let rs := s.usedRanges
  ((x :: st * 2 ^ 36 :: rs.map fun r => (r.1 + r.2 + 65535) / 65536 * 65536).find? fun a =>
    stackOf a == st && region a == 0 && !(inRanges rs a)).getD x
/-- Write back every dirty block of a page. -/
def State.cleanPage (s : State) (base : Nat) : State :=
  (s.pageBlocks base).foldl (fun s b => s.writeback b.no) s

/-- Stores to a page still wait in a queue or stand in a version. -/
def State.pageBusy (s : State) (base : Nat) : Bool :=
  let here := fun (pa : Nat) => pa / 65536 == base / 65536
  (s.lanes.groups.any fun g => g.sq.any fun e => here e.pa) || (s.lanes.shares.any fun h => h.feSq.any fun e => here e.pa) ||
  s.lanes.tasks.any fun t => !t.settled && t.ver.bytes.any fun c => here c.1
/-- Make a replica of a page on a die, where the reserve allows (R364); of a page off the device only while no store to it waits. -/
def State.makeReplica (s : State) (v die : Nat) (va : DWord) (l : Leaf) : Option State :=
  let vpn := va48 va / 65536
  (bif region l.base != 0 && s.pageBusy l.base then none else s.roomyStack v die (s.replicaNeed l.base)).map fun st =>
    let f := s.newFrame st
    let s := (s.replicate v l.base f).modStore fun m => { m with replicas := ⟨die, v, vpn, f⟩ :: m.replicas }
    (s.setLeaf l.at_ (setBits l.e 8 2 3)).dropPage v vpn
/-- Change the blocks a matrix command holds charges for. -/
def MxCmd.mapBlocks (f : Nat → Nat) : MxCmd → MxCmd
  | .adrain t fmt sat clr scale sp dest stride row0 n bs => .adrain t fmt sat clr scale sp dest stride row0 n (bs.map f)
  | c => c
/-- Bits of a signature that a line sets (R380). -/
def sigBits (line : Nat) : BitVec 1024 :=
  BitVec.ofNat 1024 (2 ^ (Config.sigHash false line % 1024)) ||| BitVec.ofNat 1024 (2 ^ (Config.sigHash true line % 1024))
/-- A signature whose lines of a page have been moved to another frame: a line that it may hold is entered at its new address too, so that a conflict on it is still found (R122, R380). The spec gives a line's address as it is when it is accessed; that a moved line keeps its conflicts is DEDUCED; log entry 22. -/
def followSig (old new : Nat) (x : BitVec 1024) : BitVec 1024 :=
  bif x == 0#1024 then x else
  (List.range 512).foldl (fun y k =>
    let o := sigBits (old / 128 + k)
    bif x &&& o == o then y ||| sigBits (new / 128 + k) else y) x
/-- The signatures of tasks and of the commits performed follow a page to another frame (R122, R380, R381). -/
def State.followSigs (s : State) (old new : Nat) : State :=
  let ver := fun (v : Version) => ({ v with rsig := followSig old new v.rsig, wsig := followSig old new v.wsig } : Version)
  bif old == new then s else
  ({ s with lanes := { s.lanes with tasks := s.lanes.tasks.map fun t => { t with ver := ver t.ver } } } : State).modStore fun m =>
    { m with commits := m.commits.map (followSig old new) }
/-- What waits for a page follows it to another frame: queued stores, version bytes, and the charges of engine commands (R363, R373). -/
def State.follow (s : State) (old new : Nat) : State :=
  let here := fun pa => pa / 65536 == old / 65536
  let moved := fun pa => bif here pa then pa - old + new else pa
  let blk := fun no => bif no / 64 == old / 65536 then no - old / 1024 + new / 1024 else no
  let sq := fun (e : SqEntry) => ({ e with pa := moved e.pa } : SqEntry)
  let cp := fun (c : Copy) => ({ c with blocks := c.blocks.map blk } : Copy)
  let mx := fun (e : MxEntry) => ({ e with cmd := e.cmd.mapBlocks blk } : MxEntry)
  let ver := fun (v : Version) =>
    ({ v with bytes := (v.bytes.filter fun c => here c.1).foldl (fun m c => overlayPut m (moved c.1) c.2) (v.bytes.filter fun c => !here c.1),
              h11 := v.h11.map blk } : Version)
  { s with lanes := { s.lanes with
      groups := s.lanes.groups.map fun g => { g with sq := g.sq.map sq },
      shares := s.lanes.shares.map fun h => { h with feSq := h.feSq.map sq, saved := { h.saved with copies := h.saved.copies.map cp, mx := h.saved.mx.map mx } },
      tasks := s.lanes.tasks.map fun t => { t with ver := ver t.ver },
      cores := s.lanes.cores.map fun c => { c with copyQ := c.copyQ.map cp, copies := c.copies.map cp, mxQ := c.mxQ.map mx } } }
/-- The charges of a page's blocks are taken over by the blocks of its new frame (R332, R363). -/
def State.moveCharges (s : State) (v old new : Nat) : State :=
  ((s.pageBlocks old).filter fun b => b.ch.isSome).foldl (fun s b =>
    let no := b.no - old / 1024 + new / 1024
    s.setBlock { s.block no with ch := some (v, (b.ch.map (·.2)).getD 0) }) s
/-- Migrate a page to a stack: its bytes, classes and charges move, with what waits for it, and the leaf is rewritten (R363). Dirty lines of HOME 10 move as they are (R361); a surrendered page stays so. -/
def State.migrateTo (s : State) (v st : Nat) (va : DWord) (l : Leaf) : State :=
  let vpn := va48 va / 65536
  let s := bif l.local && l.home != 2 then s.cleanPage l.base else s
  let f := s.newFrame st
  let s := bif l.base == 0 && !l.local then s.freshPage f else s.copyPage v l.base f
  let s := bif l.local then ((s.moveCharges v l.base f).freePage l.base).follow l.base f else s
  let s := s.followSigs l.base f
  (s.setLeaf l.at_ (setBits (setBits l.e 8 2 (bif l.res == 2 then 2 else 0)) 16 36 (f / 65536))).dropPage v vpn
/-- Sectors that a migration of the page needs: 512 for an RB page, none where the data is still to be made (R335, R363). -/
def State.moveNeed (s : State) (l : Leaf) : Nat := bif l.rb then 512 else bif l.base == 0 && !l.local then 0 else s.needSectors l.base
/-- Migrate a page to a stack of a die that has the reserve (R363). -/
def State.migrate (s : State) (v die : Nat) (va : DWord) (l : Leaf) : Option State :=
  (s.roomyStack v die (s.moveNeed l)).map fun st => s.migrateTo v st va l
/-- Make a non-resident page resident for a die: a replica where DUP and the request allow, else a migration; none is a refusal, or a surrendered page (R363). -/
def State.makePageResident (s : State) (v die : Nat) (va : DWord) (dup : Bool) : Option State :=
  match s.walk v va with
  | none => none
  | some l =>
    if l.res = 2 then none
    else if l.res ≠ 1 then some s
    else if dup ∧ bits l.e 52 1 = 1 ∧ l.base ≠ 0 then s.makeReplica v die va l
    else s.migrate v die va l
/-- Collapse a replicated page before a store (R365). For a home off the device the writer's replica stays; where the writer's die has none, R365 leaves open which copy does: the newest other replica, else the remote home, DESIGN CHOICE, log entry 14. -/
def State.collapse (s : State) (v die : Nat) (va : DWord) : State :=
  let vpn := va48 va / 65536
  match s.walk v va with
  | none => s
  | some l =>
    if l.res ≠ 3 then s else
    let mine := s.store.replicas.filter fun r => r.vd == v && r.vpn == vpn
    let keep := bif region l.base == 0 then none
      else (mine.find? fun r => r.die == die).orElse fun _ => mine.head?
    let s := s.dropPage v vpn
    let s := bif region l.base == 0 then s else
      (l.base :: mine.map fun (r : Replica) => r.base).foldl (fun s b => s.followSigs b ((keep.map fun (r : Replica) => r.base).getD l.base)) s
    let s := mine.foldl (fun s r => bif keep == some r then s else s.freePage r.base) s
    let s := s.modStore fun m => { m with replicas := m.replicas.filter fun r => !(r.vd == v && r.vpn == vpn) }
    let e := setBits l.e 8 2 0
    s.setLeaf l.at_ (match keep with
      | some r => setBits e 16 36 (r.base / 65536)
      | none => e)

/-- Entries a TLB holds (R360). -/
def tlbCap : TlbAt → Nat
  | .l1 _ => 128
  | .l2 _ => 4096
  | .l3 _ => 32768
/-- Keep at most n entries of one TLB, newest first. -/
def trimTlb (at_ : TlbAt) : Nat → List TlbEntry → List TlbEntry
  | _, [] => []
  | n, e :: rest =>
    bif e.at_ == at_ then
      match n with
      | 0 => trimTlb at_ 0 rest
      | k + 1 => e :: trimTlb at_ k rest
    else e :: trimTlb at_ n rest
/-- L3 banks that a virtual device's translations may use: all in unified mode, those of the stacks its partition owns in split mode (R360). -/
def State.banksOf (s : State) (v : Nat) : List Nat :=
  bif s.hearth.config.unified then List.range 8 else (List.range 8).filter fun st => s.ownerSeen (partOf v) st == partOf v
/-- The L3 bank of a page of a virtual device (R360). -/
def State.bankOf (s : State) (v vpn : Nat) : Nat :=
  let bs := s.banksOf v
  bs.getD (Config.tlbBank v vpn % max 1 bs.length) 0
/-- A seeker's die: its core's, or its partition's for the hearth. -/
def agentDie (v : Nat) : Seeker → Nat
  | .core c => dieOf c
  | .tiles c => dieOf c
  | .hearth => partOf v
/-- The TLBs that a seeker fills: a core all three levels, a tile fetch unit from L2 on, the hearth the L3 banks alone (R360). -/
def State.tlbPath (s : State) (v : Nat) (who : Seeker) (vpn : Nat) : List TlbAt :=
  match who with
  | .core c => [.l1 c, .l2 (clusterOf c), .l3 (s.bankOf v vpn)]
  | .tiles c => [.l2 (clusterOf c), .l3 (s.bankOf v vpn)]
  | .hearth => [.l3 (s.bankOf v vpn)]
/-- Put an entry, as the newest, into some TLBs. -/
def State.putTlb (s : State) (e : TlbEntry) (ats : List TlbAt) : State :=
  s.modStore fun m =>
    { m with tlb := ats.foldl (fun t a =>
        { e with at_ := a } :: (trimTlb a (tlbCap a - 1) (t.filter fun x => !(x.at_ == a && x.vd == e.vd && x.vpn == e.vpn)))) m.tlb }
/-- The local right of a die for a frame: the die owns its stack (R360). -/
def State.localTo (s : State) (die pa : Nat) : Bool := region pa == 0 && s.ownerDie (stackOf pa) == die
/-- Fill the TLBs of an agent's path with a leaf (R360). -/
def State.fillTlb (s : State) (v : Nat) (who : Seeker) (va : DWord) (l : Leaf) (replica : Option Nat) : State :=
  let vpn := va48 va / 65536 / l.pages * l.pages
  let die := agentDie v who
  s.putTlb ⟨.l3 0, v, vpn, l.pages, BitVec.ofNat 64 l.e, s.localTo die (replica.getD l.base), replica, die⟩ (s.tlbPath v who vpn)
/-- The entry maps the page of an address for a virtual device. -/
def TlbEntry.covers (e : TlbEntry) (v vpn : Nat) : Bool := e.vd == v && decide (e.vpn ≤ vpn) && decide (vpn < e.vpn + e.pages)
/-- An L3 entry serves an agent of a die: it stands in the bank its page hashes to, and an entry of a page that is replicated, or to be, was filled from that die (R360, R364). -/
def State.l3Serves (s : State) (e : TlbEntry) (die : Nat) : Bool :=
  e.at_ == .l3 (s.bankOf e.vd e.vpn) && (e.die == die || (e.leaf.extractLsb' 8 2 != 3#2 && !e.leaf.getLsbD 52))
/-- The entry of one TLB for a page. -/
def State.entryIn (s : State) (at_ : TlbAt) (v vpn : Nat) : Option TlbEntry := s.store.tlb.find? fun e => e.at_ == at_ && e.covers v vpn
/-- The entry a seeker finds for an address: L1, then L2, then L3; a tile fetch unit from L2 on, the hearth L3 alone (R360). -/
def State.findTlb (s : State) (v : Nat) (who : Seeker) (va : DWord) : Option TlbEntry :=
  let vpn := va48 va / 65536
  let near := match who with
    | .core c => (s.entryIn (.l1 c) v vpn).orElse fun _ => s.entryIn (.l2 (clusterOf c)) v vpn
    | .tiles c => s.entryIn (.l2 (clusterOf c)) v vpn
    | .hearth => none
  near.orElse fun _ => s.store.tlb.find? fun e => e.covers v vpn && s.l3Serves e (agentDie v who)
/-- A hit below a seeker's first level fills the levels above it (R360). -/
def State.promote (s : State) (v : Nat) (who : Seeker) (e : TlbEntry) : State :=
  match e.at_ with
  | .l1 _ => s
  | .l2 _ => match who with
    | .core c => s.putTlb e [.l1 c]
    | _ => s
  | .l3 _ =>
    let die := agentDie v who
    s.putTlb { e with loc := s.localTo die (e.replica.getD (bits e.leaf.toNat 16 36 * 65536)), die := die }
      (bif who == .hearth then [] else (s.tlbPath v who e.vpn).dropLast)

/-- The level of a leaf from the pages it maps. -/
def levelOf (pages : Nat) : Nat :=
  match pages with
  | 1 => 3
  | 32 => 2
  | _ => 1
/-- The permission an access needs (R358). -/
def permOk (e : Nat) : Access → Bool
  | .fetch => bits e 4 1 == 1
  | .load => bits e 2 1 == 1
  | .store => bits e 3 1 == 1

/-- A place that a partition's agents cannot reach in split mode: host memory over the other die's PCIe port, or a window over the other die's link (R8, R412). -/
def State.offPart (s : State) (v pa : Nat) : Bool :=
  !s.hearth.config.unified &&
  match region pa with
  | 1 => partOf v != 0
  | 2 => match s.linkOf pa with
    | some n => n / 9 != partOf v
    | none => false
  | _ => false
/-- The port to a local place is closed to a partition, and no hand-over holds the stack: what a hand-over holds raises no 0x13 (R253, R368). -/
def State.closed (s : State) (v pa : Nat) : Bool :=
  region pa == 0 && !s.portOpen (partOf v) (stackOf pa) && !s.handing (stackOf pa)
/-- Where a leaf sends an access, after the walk: place, permission, residency, ports, hand-overs, replicas (R354, R358, R362, R368). A surrendered page reaches no port. A replica of a local home holds the home's committed bytes until a write collapses it (R365), so a load it serves is performed at the home's address: the writes that wait for the page, or that a version holds, have that address (R99, R108, R118). -/
def State.throughLeaf (s : State) (v : Nat) (va : DWord) (k : Access) (l : Leaf) (replica : Option Nat) : Xlat :=
  let off := va48 va % (l.pages * 65536)
  let pa := replica.getD l.base + off
  if !s.physOk pa || s.offPart v pa then .bad 0x04
  else if !permOk l.e k then .bad 0x05
  else if l.res = 2 then .bad 0x07
  else if (l.res ≠ 1 ∨ l.base ≠ 0) ∧ s.closed v pa then .bad 0x13
  else if l.res = 1 then .bad 0x06
  else if region pa == 0 && s.handing (stackOf pa) then .held
  else .ok (bif region l.base == 0 then l.base + off else pa) l.rb (l.home == 3)

/-- Where a physical address of a privileged chain entry lies (R272, R354, R368): its page's RB and HOME are those of the leaf that maps it. -/
def State.physAt (s : State) (v pa : Nat) : Xlat :=
  if !s.physOk pa || s.offPart v pa then .bad 0x04
  else if s.closed v pa then .bad 0x13
  else if region pa == 0 && s.handing (stackOf pa) then .held
  else match s.mapping pa with
    | some (_, l) => .ok pa l.rb (l.home == 3)
    | none => .ok pa false false
/-- A load or fetch is to be served by a replica on its die that has still to be made (R364): a DUP page first filled there from the other die's stack, or a replicated page homed elsewhere; no replica is made of a home that the partition cannot reach (R368, R412). -/
def State.wantsReplica (s : State) (v die : Nat) (va : DWord) (l : Leaf) : Bool :=
  let loc := region l.base == 0
  let far := !loc || s.ownerDie (stackOf l.base) != die
  let has := s.store.replicas.any fun r => r.die == die && r.vd == v && r.vpn == va48 va / 65536
  !has && far && !(loc && s.handing (stackOf l.base)) && !s.closed v l.base && !s.offPart v l.base && (l.res == 3 || (l.res == 0 && loc && bits l.e 52 1 == 1))
/-- A store to a page is to collapse its replicas: it is permitted, and its home can be reached (R365, R368, R412). -/
def State.collapses (s : State) (v : Nat) (l : Leaf) : Bool :=
  l.res == 3 && permOk l.e .store && !s.closed v l.base && !s.offPart v l.base
/-- A store collapses a replicated page before it is translated (R365). -/
def State.collapseFor (s : State) (v die : Nat) (va : DWord) : State :=
  match s.walk v va with
  | some l => bif s.collapses v l then s.collapse v die va else s
  | none => s
/-- Hearth core 3 cannot change a page's place yet: a hand-over holds the stack of its leaf, its frame or a replica of it, or its leaf's block cannot be charged (R332, R369; log entry 49). -/
def State.placeHeld (s : State) (v : Nat) (va : DWord) (l : Leaf) : Bool :=
  s.handing (stackOf l.at_) || (l.local && s.handing (stackOf l.base)) ||
  (s.store.replicas.any fun r => r.vd == v && r.vpn == va48 va / 65536 && s.handing (stackOf r.base)) || !s.chargeable l.at_
/-- A replica is made where an access wants one and the reserve allows (R364). -/
def State.replicaFor (s : State) (v : Nat) (who : Seeker) (va : DWord) (k : Access) : State :=
  match s.walk v va with
  | some l =>
    bif who != .hearth && permOk l.e k && s.wantsReplica v (agentDie v who) va l then (s.makeReplica v (agentDie v who) va l).getD s else s
  | none => s
/-- The replica that serves a replicated page on a die (R364). -/
def State.replicaOn (s : State) (v die : Nat) (va : DWord) (l : Leaf) : Option Nat :=
  bif l.res == 3 then (s.store.replicas.find? fun r => r.die == die && r.vd == v && r.vpn == va48 va / 65536).map (·.base) else none
/-- A leaf after an access: A, and D for a store (R357, R358). -/
def touched (k : Access) (e : Nat) : Nat := setBits (bif k == .store then setBits e 6 1 1 else e) 5 1 1
/-- What stops a walk at a table it reads, a load of its entry (R355): a closed port, or a hand-over of the stack (R253, R368). -/
def State.walkStop (s : State) (v : Nat) (va : DWord) : Option Xlat :=
  (s.walkPath (va48 va) 4 0 (s.root v)).findSome? fun a =>
    bif s.closed v a then some (.bad 0x13) else bif region a == 0 && s.handing (stackOf a) then some .held else none
/-- A walk: an access that it permits sets A and D and fills the TLBs; it waits while the block of the leaf cannot be charged (R332, R357, R358, R360; log entry 49). -/
def State.walkNow (s : State) (v : Nat) (who : Seeker) (va : DWord) (k : Access) : State × Xlat :=
  match s.walkStop v va, s.walk v va with
  | some x, _ => (s, x)
  | none, none => (s, .bad 0x04)
  | none, some l =>
    let rep := s.replicaOn v (agentDie v who) va l
    match s.throughLeaf v va k l rep with
    | .ok pa rb h11 => bif touched k l.e != l.e && !s.chargeable l.at_ then (s, .held) else ((s.setLeaf l.at_ (touched k l.e)).fillTlb v who va { l with e := touched k l.e } rep, .ok pa rb h11)
    | .bad c => (s, .bad c)
    | .held => (s, .held)
/-- An access needs hearth core 3 first, to collapse a replicated page or to make a replica (R364, R365). -/
def State.needsCore3 (s : State) (v : Nat) (who : Seeker) (va : DWord) (k : Access) : Bool :=
  match s.walk v va with
  | some l =>
    bif k == .store then s.collapses v l
    else who != .hearth && permOk l.e k && s.wantsReplica v (agentDie v who) va l
  | none => false
/-- What hearth core 3 is to do for an access waits: it is being restarted, or cannot change the page's place yet (R369, R409). -/
def State.core3Waits (s : State) (v : Nat) (va : DWord) : Bool :=
  s.hearth.restart.elem 3 || ((s.walk v va).map fun l => s.placeHeld v va l).getD false
/-- An access that missed every TLB and whose walk nothing stops: a store collapses a replicated page and a load is given its die's replica, before the walk (R358, R364, R365, R368). -/
def State.walkFor (s : State) (v : Nat) (who : Seeker) (va : DWord) (k : Access) : State × Xlat :=
  match s.walkStop v va with
  | some x => (s, x)
  | none =>
  bif s.needsCore3 v who va k && s.core3Waits v va then (s, .held) else
  (bif k == .store then s.collapseFor v (agentDie v who) va else s.replicaFor v who va k).walkNow v who va k
/-- Translate an address for an agent of a core, or for the hearth: a TLB entry, but for a first store or a store to a replica, or a walk (R205, R355 to R368). An access that a hand-over holds fills no TLB (R369). -/
def State.xlat (s : State) (v : Nat) (who : Seeker) (va : DWord) (k : Access) : State × Xlat :=
  if !canonical va then (s, .bad 0x04) else
  match (s.findTlb v who va).filter fun e => !(k == .store && (e.leaf.getLsbD 6 == false || e.leaf.extractLsb' 8 2 == 3#2)) with
  | some e =>
    let x := s.throughLeaf v va k ⟨levelOf e.pages, 0, e.leaf.toNat⟩ e.replica
    (bif x == .held then s else s.promote v who e, x)
  | none => s.walkFor v who va k
/-- Translate an address for an agent of a core. -/
def State.translate (s : State) (v core : Nat) (va : DWord) (k : Access) : State × Xlat := s.xlat v (.core core) va k

end Sys2Proof.Machine
end

