-- ==== Sys2Proof/Machine/Versions.lean ====
section
/-! DEFINITION. Committed writes and the versions of unsettled tasks (05 R97, R118 to R124, 21 R361, R365, 22 R379, R380). -/

namespace Sys2Proof.Machine

/-! ## Who made a write that is posted off the device (R124) -/

/-- The hearth, for no task. -/
def noAgent : Nat := 2 ^ 40
/-- A task's commit and its ADRAINs: their writes count as writes of every thread of the task (R119, R302). -/
def taskMaker (t : Nat) : Nat := 2 ^ 40 + 1 + t
/-- A copy of a core (R113). -/
def copyMaker (core id : Nat) : Nat := 2 ^ 41 + core + 192 * id
/-- The chain in a slot (R113). -/
def chainMaker : ChainRef → Nat
  | .core c k => 2 ^ 42 + 8 * c + k
  | .hearth d k => 2 ^ 43 + 4 * d + k
/-- The packets of a queue: the steps of a queue are covered by its later releases (R401). -/
def queueMaker (q : Nat) : Nat := 2 ^ 44 + q
/-- A write that a maker posted is not yet acknowledged (R113, R124). -/
def State.postingOf (s : State) (maker : Nat) : Bool := s.store.posted.any fun p => p.ag == maker && !p.lost

/-- A write that a partition had posted by a move is not yet acknowledged: a release at system scope that came at that move waits for it (R103, R123, R124). A write of a virtual device belongs to the device's partition, one of the hearth or of an outside agent to either: the model's choice; log entry 21. -/
def State.postedBy (s : State) (part upTo : Nat) : Bool :=
  s.store.posted.any fun p => !p.lost && decide (p.no ≤ upTo) && match p.task with
    | some t => partOf (s.taskVd t) == part
    | none => true

/-! ## Committed writes -/

/-- A write to a page that has replicas of a local home collapses them first (R108, R365). -/
def State.collapseHome (s : State) (pa : Nat) : State :=
  s.store.replicas.foldl (fun s r =>
    let va := canon (r.vpn * 65536)
    match s.walk r.vd va with
    | some l => bif l.res == 3 && region l.base == 0 && l.maps pa then s.collapse r.vd 0 va else s
    | none => s) s
/-- A write that leaves the device is posted on its link, or to PCIe; it is held while the link retrains (R124, R424). -/
def State.post (s : State) (maker : Nat) (t : Option Nat) (pa : Nat) (bs : List Byte) : State :=
  let l := bif region pa == 1 then none else s.linkOf pa
  let h := match l with
    | some n => s.hearth.links.getD n .down == .retraining
    | none => false
  s.modStore fun m => { m with posted := m.posted ++ [⟨l, maker, t, pa, bs, h, false, s.moves, []⟩] }
/-- A committed write to a physical address, within one page, by an agent or an engine command, for a task (R97, R108, R124). -/
def State.writeCommitted (s : State) (maker : Nat) (t : Option Nat) (pa : Nat) (bs : List Byte) : State :=
  bif region pa == 0 then (s.collapseHome pa).putBytes pa bs else s.post maker t pa bs
/-- Blocks touched by n bytes at an address. -/
def blocksIn (pa n : Nat) : List Nat := (List.range ((pa + n + 1023) / 1024 - pa / 1024)).map fun k => pa / 1024 + k
/-- A committed write to a page of HOME 11 is written back at once (R361). -/
def State.settleHome (s : State) (h11 : Bool) (pa n : Nat) : State :=
  bif h11 && region pa == 0 then (blocksIn pa n).foldl (fun s b => s.writeback b) s else s
/-- A block lies on a page of HOME 10. -/
def State.pinHome (s : State) (no : Nat) : Bool := ((s.mapping (no * 1024)).map fun x => x.2.home == 2).getD false
/-- A block with a line that HOME 10 pins in the memory-side cache (R361). -/
def State.pinned (s : State) (no : Nat) : Bool := s.pinHome no && s.store.pins.any fun n => n / 8 == no
/-- Pinned lines in the slice of a stack. -/
def State.pinnedLines (s : State) (st : Nat) : Nat := s.store.pins.countP fun n => stackOf (n * 128) == st
/-- A line is dirty in the memory-side cache. -/
def State.dirtyLine (s : State) (n : Nat) : Bool := (s.block (n / 8)).dirty.any fun d => d.1 == n
/-- The dirty lines of a block of HOME 10 are pinned while their slice holds less than 64 MiB of pinned lines; further ones behave as HOME 00 (R361). -/
def State.pinBlock (s : State) (b : Block) : State :=
  bif b.dirty.isEmpty || !s.pinHome b.no then s
  else b.dirty.foldl (fun s d =>
    bif s.store.pins.elem d.1 || decide (2 ^ 19 ≤ s.pinnedLines (stackOf (d.1 * 128))) then s
    else s.modStore fun m => { m with pins := m.pins ++ [d.1] }) s
/-- After a move: the pinned lines of pages that it unmapped are written back, lines that are dirty no more are unpinned, and new dirty lines of HOME 10 are pinned (R361). -/
def State.notePins (s : State) : State :=
  bif s.store.blocks.isEmpty && s.store.pins.isEmpty then s else
  let gone := s.store.pins.filter fun n => s.dirtyLine n && (s.mapping (n * 128)).isNone
  let s := (distinct (gone.map (· / 8))).foldl State.writeback s
  let s := s.modStore fun m => { m with pins := m.pins.filter fun n => s.dirtyLine n && s.pinHome (n / 8) }
  s.store.blocks.foldl State.pinBlock s

/-! ## Versions -/

/-- Lines touched by n bytes at an address. -/
def linesOf (pa n : Nat) : List Nat :=
  (List.range ((pa + n + 127) / 128 - pa / 128)).map fun k => pa / 128 + k
/-- A signature with the lines of n bytes at an address (R380). -/
def addLines (x : BitVec 1024) (pa n : Nat) : BitVec 1024 := (linesOf pa n).foldl (fun x l => x ||| sigBits l) x
/-- The task is unsettled and ISOLATED (R380). -/
def State.isolated (s : State) (t : Nat) : Bool :=
  s.unsettled t && (s.launch (s.task t).launch).kernel.mode == 2
/-- Record a read of an ISOLATED task (R380). -/
def State.noteRead (s : State) (t pa n : Nat) : State :=
  bif s.isolated t then s.modTask t fun k => { k with ver := { k.ver with rsig := addLines k.ver.rsig pa n } } else s
/-- A write by a task: into its version while it is unsettled, wherever it lies, else into committed memory (R118). -/
def State.writeAs (s : State) (t maker pa : Nat) (bs : List Byte) : State :=
  bif s.unsettled t then
    let iso := s.isolated t
    s.modTask t fun k =>
      { k with ver := { k.ver with
          bytes := overlayPutN k.ver.bytes pa bs,
          wsig := bif iso then addLines k.ver.wsig pa bs.length else k.ver.wsig } }
  else s.writeCommitted maker (some t) pa bs
/-- A write by a task, with the treatment of HOME 11 (R118, R361). -/
def State.writeHome (s : State) (t maker pa : Nat) (h11 : Bool) (bs : List Byte) : State :=
  let uns := s.unsettled t
  let s := s.writeAs t maker pa bs
  bif !h11 || region pa != 0 then s
  else bif uns then s.modTask t fun k => { k with ver := { k.ver with h11 := blocksIn pa bs.length ++ k.ver.h11 } }
  else s.settleHome true pa bs.length

/-- Lines a version holds, ascending (R379). -/
def Version.lineList (v : Version) : List Nat := runs (v.bytes.map fun (a, _) => a / 128)
/-- Number of lines a version holds (R379). -/
def Version.lines (v : Version) : Nat := v.lineList.length
/-- Blocks of local memory that a version holds a line of. -/
def Version.blocks (v : Version) : List Nat := (runs (v.bytes.map fun (a, _) => a / 1024)).filter fun b => region (b * 1024) == 0
/-- An empty version that starts after the commits performed so far. -/
def Version.empty (since : Nat) : Version := ⟨[], 0#1024, 0#1024, [], since, []⟩
/-- Sorted bytes as runs of consecutive addresses, each within one 64 KiB page. -/
def runBytes : Mem → List (Nat × List Byte)
  | [] => []
  | (a, b) :: rest =>
    match runBytes rest with
    | (c, bs) :: more => bif c == a + 1 && c % 65536 != 0 then (a, b :: bs) :: more else (a, [b]) :: (c, bs) :: more
    | [] => [(a, [b])]

end Sys2Proof.Machine
end

