-- ==== Sys2Proof/Machine/Ops.lean ====
section
/-! DEFINITION. The named operations every meaning is written over: registers and their latencies, the hearth's
writes and records, barriers, masks and convergence registers, ending a thread, taking a trap and returning from
one, and the issue of one instruction by a fragment. -/

namespace Sys2Proof.Machine

/-! ## Registers (R47, R52, R57 to R59) -/

/-- The word with bits [63:32] or [31:0] of a 64-bit register replaced. -/
def setHalf (x : DWord) (hi : Bool) (w : Word) : DWord :=
  bif hi then w ++ x.extractLsb' 0 32 else x.extractLsb' 32 32 ++ w
/-- Half of a 64-bit register. -/
def half (x : DWord) (hi : Bool) : Word := bif hi then x.extractLsb' 32 32 else x.extractLsb' 0 32

/-- The value an agent's register holds, latencies aside. -/
def Agent.get (a : Agent) : Dst → Word
  | .reg n => a.regs.getD n 0#32
  | .pred n => bif a.preds.getLsbD n then 1#32 else 0#32
  | .csr n =>
    match n with
    | 0x20 => a.fp.fstat.setWidth 32
    | 0x21 => a.fp.frm
    | 0x22 => a.fp.rngseed
    | 0x31 => half a.trap.rpc false
    | 0x36 => half a.trap.rpc true
    | 0x34 => half a.trap.vec false
    | 0x37 => half a.trap.vec true
    | 0x35 => a.trap.scratch
    | _ => 0#32
/-- Store into an agent's register; only RW bits change (R83, R84, R162), and p7 stays 1. -/
def Agent.set (a : Agent) (d : Dst) (x : Word) : Agent :=
  match d with
  | .reg n => { a with regs := a.regs.set n x }
  | .pred n =>
    let m : BitVec 8 := 1#8 <<< n
    { a with preds := (bif x == 0#32 then a.preds &&& ~~~m else a.preds ||| m) ||| 0x80#8 }
  | .csr n =>
    match n with
    | 0x20 => { a with fp := { a.fp with fstat := x.setWidth 5 } }
    | 0x21 => { a with fp := { a.fp with frm := x &&& 0x1F03#32 } }
    | 0x22 => { a with fp := { a.fp with rngseed := x } }
    | 0x31 => { a with trap := { a.trap with rpc := setHalf a.trap.rpc false x } }
    | 0x36 => { a with trap := { a.trap with rpc := setHalf a.trap.rpc true x } }
    | 0x34 => { a with trap := { a.trap with vec := setHalf a.trap.vec false x } }
    | 0x37 => { a with trap := { a.trap with vec := setHalf a.trap.vec true x } }
    | 0x35 => { a with trap := { a.trap with scratch := x } }
    | _ => a

/-- A number for a register, for the free choice of R57. -/
def Dst.key : Dst → Nat
  | .reg n => n
  | .pred n => 1000 + n
  | .csr n => 2000 + n
/-- What a read sees through the results still below their latency (R57); `new k` chooses at depth k. -/
def seeThrough (issued : Nat) (new : Nat → Bool) (d : Dst) : Nat → Word → List Pend → Word
  | _, v, [] => v
  | k, v, p :: rest =>
    bif p.dst == d then
      bif p.due ≤ issued then v
      else bif new k then v else seeThrough issued new d (k + 1) p.old rest
    else seeThrough issued new d k v rest
/-- A debug register of a task (R243). -/
def Debug.get (d : Debug) (n : Nat) : Word :=
  if n = 0x801 then d.ctl else half (d.bp.getD ((n - 0x802) / 2) 0#64) (n % 2 == 1)
/-- Write a debug register of a task; only RW bits change (R243). -/
def Debug.write (d : Debug) (n : Nat) (x : Word) : Debug :=
  if n = 0x801 then { d with ctl := x &&& 0x10F#32 }
  else { d with bp := d.bp.modify ((n - 0x802) / 2) fun b => setHalf b (n % 2 == 1) x }
/-- A debug register of its task as an agent sees it at an issue count: its own CSRW takes effect at distance 2 (R57, R243). -/
def State.debugSeen (s : State) (ag pos n issued : Nat) : Word :=
  let d := (s.task (s.taskOf ag)).debug
  seeThrough issued (Config.freeChoice s.free ag (2000 + n) pos) (.csr n) 0 (d.get n) (s.agent ag).pend
/-- Read a register of an agent at its present issue (R57). -/
def State.rd (s : State) (ag pos : Nat) (d : Dst) : Word :=
  let a := s.agent ag
  seeThrough a.issued (Config.freeChoice s.free ag d.key pos) d 0 (a.get d) a.pend
/-- A register operand: 255 is vz or sz and reads 0 (R47, R52). -/
def State.reg (s : State) (ag pos : Nat) (r : Reg) : Word :=
  bif r == 255#8 then 0#32 else s.rd ag pos (.reg r.toNat)
/-- A register by number. -/
def State.regN (s : State) (ag pos n : Nat) : Word := s.rd ag pos (.reg n)
/-- A pair operand (R54, R206: the lower register holds the lower half). -/
def State.pair (s : State) (ag pos : Nat) (r : Reg) : DWord :=
  s.regN ag pos (r.toNat + 1) ++ s.regN ag pos r.toNat
/-- A predicate operand; p7 reads true (R56). -/
def State.pred (s : State) (ag pos : Nat) (p : BitVec 3) : Bool :=
  p == 7#3 || s.rd ag pos (.pred p.toNat) != 0#32

/-- A write with a fixed latency: the old value may be read until the distance is reached (R57, R58). -/
def Agent.write (a : Agent) (lat : Nat) (d : Dst) (x : Word) : Agent :=
  { a.set d x with pend := ⟨d, a.get d, a.issued + lat⟩ :: a.pend }
/-- Where a register field writes; none for vz or sz (R150). -/
def dstReg (r : Reg) : Option Dst := bif r == 255#8 then none else some (.reg r.toNat)
/-- Where a predicate field writes; none for p7 (R156). -/
def dstPred (p : BitVec 3) : Option Dst := bif p == 7#3 then none else some (.pred p.toNat)
/-- A fixed-latency write to a destination, discarded where there is none. -/
def State.wr (s : State) (ag lat : Nat) (d : Option Dst) (x : Word) : State :=
  match d with
  | none => s
  | some d => s.modAgent ag fun a => a.write lat d x
/-- A fixed-latency write of a register. -/
def State.wrReg (s : State) (ag lat : Nat) (r : Reg) (x : Word) : State := s.wr ag lat (dstReg r) x
/-- A fixed-latency write of a pair. -/
def State.wrPair (s : State) (ag lat : Nat) (r : Reg) (x : DWord) : State :=
  (s.wr ag lat (some (.reg r.toNat)) (half x false)).wr ag lat (some (.reg (r.toNat + 1))) (half x true)
/-- A fixed-latency write of a predicate. -/
def State.wrPred (s : State) (ag lat : Nat) (p : BitVec 3) (x : Bool) : State :=
  s.wr ag lat (dstPred p) (bif x then 1#32 else 0#32)
/-- Destinations that exist, of a list of optional ones. -/
def keepDst (ws : List (Option Dst × Word)) : List (Dst × Word) :=
  ws.filterMap fun (d, x) => d.map fun d => (d, x)
/-- A register write for a variable-latency result. -/
def toReg (r : Reg) (x : Word) : Option Dst × Word := (dstReg r, x)
/-- Register r + k. -/
def toRegN (n : Nat) (x : Word) : Option Dst × Word := (some (.reg n), x)
/-- A pair. -/
def toPair (r : Reg) (x : DWord) : List (Option Dst × Word) :=
  [toRegN r.toNat (half x false), toRegN (r.toNat + 1) (half x true)]
/-- A predicate. -/
def toPred (p : BitVec 3) (x : Bool) : Option Dst × Word := (dstPred p, bif x then 1#32 else 0#32)
/-- An outstanding variable-latency result, numbered by its instruction (R59). -/
def State.out (s : State) (ag : Nat) (done fp : Bool) (ws : List (Option Dst × Word)) (flags : BitVec 5) : State :=
  let ws := keepDst ws
  bif ws.isEmpty && flags == 0#5 && done then s
  else s.modAgent ag fun a => { a with outst := a.outst ++ [⟨a.issued, done, fp, ws, flags⟩] }
/-- The result number an instruction's outstanding result carries. -/
def State.resNo (s : State) (ag : Nat) : Nat := (s.agent ag).issued
/-- An engine has performed a command: its result can be written (R59). -/
def State.fillOut (s : State) (ag id : Nat) (ws : List Word) : State :=
  s.modAgent ag fun a =>
    { a with outst := a.outst.map fun o =>
        bif o.id == id && !o.done then { o with done := true, writes := (o.writes.map (·.1)).zip ws } else o }
/-- OR flags into %fstat, and into what a read still below the latency of a CSRW of %fstat may see (R163). -/
def Agent.orFlags (a : Agent) (f : BitVec 5) : Agent :=
  bif f == 0#5 then a else
  { a with fp := { a.fp with fstat := a.fp.fstat ||| f },
           pend := a.pend.map fun p => bif p.dst == .csr 0x20 then { p with old := p.old ||| f.setWidth 32 } else p }
/-- Write one outstanding result (R59, R163). -/
def Agent.settleOne (a : Agent) (o : Outst) : Agent :=
  let b := (o.writes.foldl (fun a (d, x) => a.set d x) a).orFlags o.flags
  -- a later write hides what is older of its registers (R57)
  { b with pend := b.pend.filter fun p => !o.writes.any fun w => w.1 == p.dst }
/-- Write every outstanding result that is done, and forget old values (R61). -/
def Agent.settle (a : Agent) : Agent :=
  let b := (a.outst.filter (·.done)).foldl Agent.settleOne a
  { b with outst := a.outst.filter (!·.done), pend := [],
           fp := { b.fp with fstat := (b.fp.fpend.foldl (fun f p => f ||| p.2) b.fp.fstat), fpend := [] } }
/-- Every outstanding result can be written (R61). -/
def Agent.settleable (a : Agent) : Bool := a.outst.all (·.done)
/-- Flags raised by an instruction of fixed latency (R163). -/
def State.flagAt (s : State) (ag lat : Nat) (f : BitVec 5) : State :=
  bif f == 0#5 then s
  else s.modAgent ag fun a => { a with fp := { a.fp with fpend := a.fp.fpend ++ [(a.issued + lat, f)] } }
/-- Results still below their latency at an issue count: one that has reached it hides every older one of its register (R57). -/
def livePend (n : Nat) : List Pend → List Pend
  | [] => []
  | p :: rest => bif decide (n < p.due) then p :: livePend n rest else (livePend n rest).filter fun q => q.dst != p.dst
/-- One more instruction of the thread issues: distances advance (R57, R163). -/
def Agent.tick (a : Agent) : Agent :=
  let n := a.issued + 1
  let b := (a.fp.fpend.filter fun p => decide (p.1 ≤ n)).foldl (fun b p => b.orFlags p.2) a
  { b with issued := n, skipBp := false, stepOnce := false, wHold := false,
           pend := livePend n b.pend,
           fp := { b.fp with fpend := a.fp.fpend.filter fun p => !decide (p.1 ≤ n) } }

/-! ## The hearth's own accesses (R432) -/

/-- Parts of a range at page boundaries of 64 KiB. -/
def pageParts : Nat → DWord → Nat → List (DWord × Nat)
  | 0, _, _ => []
  | fuel + 1, ea, n =>
    if n = 0 then []
    else
      let m := min n (65536 - ea.toNat % 65536)
      (ea, m) :: pageParts fuel (ea + BitVec.ofNat 64 m) (n - m)
/-- Pieces of a write at multiples of 8. -/
def pieces (va : DWord) : Nat → List Byte → List (DWord × List Byte)
  | 0, _ => []
  | fuel + 1, bs =>
    bif bs.isEmpty then [] else
    let n := 8 - va.toNat % 8
    (va, bs.take n) :: pieces (va + BitVec.ofNat 64 n) fuel (bs.drop n)
/-- Charges for the pieces of a hearth write, all or none: else the stack whose charge is refused, or none where one is held (R332, R340). -/
def State.chargeAll (s : State) (v : Nat) : List (Nat × Bool) → Except (Option Nat) State
  | [] => .ok s
  | (pa, rb) :: rest =>
    match s.charge v pa rb with
    | (s, .accepted) => s.chargeAll v rest
    | (_, .held) => .error none
    | (_, .refused _) => .error (some (stackOf pa))
/-- Where a list of virtual addresses lies for the hearth, translated in order: A and D are set, the L3 is filled (R357, R360). -/
def State.hearthPlaces (s : State) (v : Nat) (k : Access) : List DWord → State × List Xlat
  | [] => (s, [])
  | va :: rest =>
    let (s, x) := s.xlat v .hearth va k
    let (s, xs) := s.hearthPlaces v k rest
    (s, x :: xs)
/-- The first cause of a list of translations, 0 where one is held. -/
def firstCause (xs : List Xlat) : Option Nat :=
  xs.findSome? fun x => match x with
    | .bad c => some c
    | .held => some 0
    | .ok _ _ _ => none
/-- The places of a list of translations. -/
def placesOf (xs : List Xlat) : List (Nat × Bool × Bool) :=
  xs.filterMap fun x => match x with
    | .ok pa rb h11 => some (pa, rb, h11)
    | _ => none
/-- A store of the hearth under a virtual device's translation (R432), and the cause that stops it: 0x08 for a refused charge, 0 where it is held (R253, R340). -/
def State.hearthStore (s : State) (maker v : Nat) (va : DWord) (bs : List Byte) : State × Option Nat :=
  let ps := pieces va (bs.length + 1) bs
  let (s, xs) := s.hearthPlaces v .store (ps.map (·.1))
  match firstCause xs with
  | some c => (s, some c)
  | none =>
    let at_ := placesOf xs
    match s.chargeAll v (at_.map fun a => (a.1, a.2.1)) with
    | .error none => (s, some 0)
    | .error (some st) => (s.refusedOn v st, some 0x08)
    | .ok s => ((at_.zip ps).foldl (fun s (a, p) => (s.writeCommitted maker none a.1 p.2).settleHome a.2.2 a.1 p.2.length) s, none)
/-- Bytes the hearth reads, or the cause, 0 where it is held (R432). -/
def State.hearthLoad (s : State) (v : Nat) (va : DWord) (n : Nat) : Except Nat (List Byte) :=
  let ps := pieces va (n + 1) (List.replicate n 0#8)
  let xs := (s.hearthPlaces v .load (ps.map (·.1))).2
  match firstCause xs with
  | some c => .error c
  | none => .ok (((placesOf xs).zip ps).flatMap fun (a, p) => s.readCommitted a.1 p.2.length)
/-- What a load of the hearth leaves in the tables and the L3 (R357, R360). -/
def State.hearthTouch (s : State) (v : Nat) (va : DWord) (n : Nat) : State :=
  (s.hearthPlaces v .load ((pieces va (n + 1) (List.replicate n 0#8)).map (·.1))).1
/-- An atomic 64-bit add of the hearth (R406, R338). -/
def State.hearthAdd (s : State) (maker v : Nat) (va x : DWord) : State × Option Nat :=
  match s.hearthLoad v va 8 with
  | .error c => (s, some c)
  | .ok bs => s.hearthStore maker v va (natLe 8 (leNat bs + x.toNat))
/-- A write of the hearth, on its own behalf or for a packet (R432). -/
def State.hearthDo (s : State) (maker v : Nat) (va : DWord) : HWrite → State × Option Nat
  | .store bs => s.hearthStore maker v va bs
  | .add x => s.hearthAdd maker v va x
/-- A write of the hearth that is lost and counted where it fails, and performed later where it is held (R340, R432). -/
def State.hearthPost (s : State) (v kind : Nat) (va : DWord) (w : HWrite) : State :=
  match s.hearthDo noAgent v va w with
  | (s, none) => s
  | (s, some 0) => s.modHearth fun h => { h with waiting := h.waiting ++ [⟨v, kind, va, w, none, false, none⟩] }
  | (s, some _) => s.modTele fun t => { t with lost := t.lost ++ [(v, kind, va)] }
/-- A counter's increment of the hearth, a release that came at a move: at system scope it waits for every write that its partition had posted by then (R103, R113, R252). -/
def State.hearthSignal (s : State) (v scope kind upTo : Nat) (va x : DWord) : State :=
  bif scope == 7 && s.postedBy (partOf v) upTo then
    s.modHearth fun h => { h with waiting := h.waiting ++ [⟨v, kind, va, .add x, none, false, some upTo⟩] }
  else s.hearthPost v kind va (.add x)
/-- A write of the hearth is held now (R253, R340). -/
def State.hearthHeld (s : State) (v : Nat) (va : DWord) (w : HWrite) : Bool := (s.hearthDo noAgent v va w).2 == some 0
/-- The address of the first translation of a list that faults; each is beside its place. -/
def firstMiss (ps : List (DWord × Xlat)) : Option DWord :=
  ps.findSome? fun p => match p.2 with
    | .bad _ => some p.1
    | _ => none
/-- The address of the first piece of a list whose charge is refused, those before it being charged (R332). -/
def State.firstRefused (s : State) (v : Nat) : List (DWord × Nat × Bool) → Option DWord
  | [] => none
  | (a, pa, rb) :: rest =>
    match s.charge v pa rb with
    | (s, .accepted) => s.firstRefused v rest
    | (_, .held) => none
    | (_, .refused _) => some a
/-- The lowest faulting address of an access of the hearth to n bytes: of the first piece whose translation faults or, for a write, whose charge is refused (R406). -/
def State.hearthMiss (s : State) (v : Nat) (va : DWord) (n : Nat) (k : Access) : DWord :=
  let ps := (pieces va (n + 1) (List.replicate n 0#8)).map (·.1)
  let (t, xs) := s.hearthPlaces v k ps
  ((firstMiss (ps.zip xs)).orElse fun _ =>
    bif k == .store then t.firstRefused v ((ps.zip (placesOf xs)).map fun x => (x.1, x.2.1, x.2.2.1)) else none).getD va
/-- The faulting address of a write of the hearth (R406). -/
def State.hearthMissOf (s : State) (v : Nat) (va : DWord) : HWrite → DWord
  | .store bs => s.hearthMiss v va bs.length .store
  | .add _ => match s.hearthLoad v va 8 with
    | .error _ => s.hearthMiss v va 8 .load
    | .ok _ => s.hearthMiss v va 8 .store
/-- A fault record is written at an address, and FLOGCNT, where there is one, counts it once it is written (R408, R432). -/
def State.hearthRecord (s : State) (v : Nat) (va : DWord) (bs : List Byte) (count : Option DWord) : State :=
  match s.hearthDo noAgent v va (.store bs) with
  | (s, none) => match count with
    | some a => s.hearthPost v 2 a (.add 1#64)
    | none => s
  | (s, some 0) => s.modHearth fun h => { h with waiting := h.waiting ++ [⟨v, 1, va, .store bs, count, false, none⟩] }
  | (s, some _) => s.modTele fun t => { t with lost := t.lost ++ [(v, 1, va)] }
/-- Where a page of the hypervisor's own translation lies (R414). -/
def hyperPage (v va : Nat) : Nat := Config.hyperFrame (partOf v) (va / 65536) % 2 ^ 23 * 65536
/-- Where a byte of the hypervisor's own translation lies (R414). -/
def hyperPlace (v va : Nat) : Nat := hyperPage v va + va % 65536
/-- A hand-over holds a write of a kind to a page: an ash record waits until step 7 of it (R369, R371). -/
def State.holdsPage (s : State) (kind pa : Nat) : Bool := bif kind == 6 then s.betweenSteps (stackOf pa) else s.handing (stackOf pa)
/-- A write of the hearth in the hypervisor's own translation, whose pages are RB (R411, R414, R432): no charge; held while a hand-over holds a stack of it. -/
def State.hyperPost (s : State) (v kind va : Nat) (w : HWrite) : State :=
  let bs := match w with
    | .store bs => bs
    | .add x => natLe 8 (leNat (s.readCommitted (hyperPlace v va) 8) + x.toNat)
  let ps := pageParts (bs.length / 65536 + 2) (BitVec.ofNat 64 va) bs.length
  bif ps.any fun p => s.holdsPage kind (hyperPlace v p.1.toNat) then
    s.modHearth fun h => { h with waiting := h.waiting ++ [⟨v, kind, BitVec.ofNat 64 va, w, none, true, none⟩] }
  else ps.foldl (fun s p => s.writeCommitted noAgent none (hyperPlace v p.1.toNat) ((bs.drop (p.1.toNat - va)).take p.2)) s
/-- Make a held write. -/
def State.hearthAgain (s : State) (x : HeldWrite) : State :=
  bif x.hyper then s.hyperPost x.vd x.kind x.va.toNat x.op
  else match x.op, x.count, x.sys with
    | .store bs, some a, _ => s.hearthRecord x.vd x.va bs (some a)
    | .add n, _, some k => s.hearthSignal x.vd 7 x.kind k x.va n
    | w, _, _ => s.hearthPost x.vd x.kind x.va w
/-- Try the held writes of the hearth again, oldest first (R340). -/
def State.hearthResume (s : State) : State :=
  s.hearth.waiting.foldl State.hearthAgain (s.modHearth fun h => { h with waiting := [] })

/-- The fields of a fault record (R240). -/
structure FaultRecord where
  flags : Nat
  task : Word
  pc : DWord
  addr : DWord
  info : Word
  tid : Word
  team : Nat
  short : Nat
  supp : Nat
  time : Nat
  nrest : Nat
  deriving DecidableEq, Repr
/-- Its 64 bytes (R240). -/
def FaultRecord.bytes (r : FaultRecord) : List Byte :=
  natLe 4 r.flags ++ natLe 4 r.task.toNat ++ natLe 8 r.pc.toNat ++ natLe 8 r.addr.toNat ++ natLe 4 r.info.toNat ++
  natLe 4 r.tid.toNat ++ natLe 8 r.team ++ natLe 4 r.short ++ natLe 4 r.supp ++ natLe 8 r.time ++ natLe 4 r.nrest ++
  natLe 4 0
/-- Where the next fault record of a launch goes (R408). -/
def State.recordAt (s : State) (l : Nat) : DWord :=
  (s.launch l).par.flog + BitVec.ofNat 64 (64 * ((s.launch l).records % (s.launch l).par.flogn))
/-- Hearth core 4 cannot write the next fault record of a launch yet, while its page is held or core 4 restarts: what follows the record waits with it (R253, R340, R409, R410). -/
def State.recordHeld (s : State) (l : Nat) : Bool :=
  s.hearth.restart.elem 4 ||
  ((s.launch l).par.flogn != 0 && s.hearthHeld (s.launch l).par.vd (s.recordAt l) (.store (List.replicate 64 0#8)))
/-- Write a fault record into a launch's log and count it (R240, R408, R432). -/
def State.record (s : State) (l : Nat) (r : FaultRecord) : State :=
  let p := (s.launch l).par
  let a := s.recordAt l
  let s := s.modLaunch l fun x => { x with records := x.records + 1 }
  let s := s.modVdev p.vd fun d => { d with records := (r.bytes :: d.records).take 64 }
  bif p.flogn == 0 then s.modTele fun t => { t with unwritten := t.unwritten + 1 }
  else s.hearthRecord p.vd a r.bytes (bif p.flogcnt == 0#64 then none else some p.flogcnt)
/-- The record of a task's fault, before its flag bits (R240). -/
def State.taskRecord (s : State) (t : Nat) (flags : Nat) (f : FaultInfo) (supp : Nat) : State :=
  let k := s.task t
  s.record k.launch
    { flags := f.cause + flags + (bif f.fe then 0x8000 else 0), task := k.id, pc := f.pc, addr := f.addr,
      info := f.info, tid := f.tid, team := k.team, short := f.short, supp := supp,
      time := s.guest (s.taskVd t), nrest := k.restarts.n }
/-- What an agent's fault tells (R240). -/
def State.faultOf (s : State) (ag cause : Nat) (pc addr : DWord) (info : Word) (short : Nat) : FaultInfo :=
  ⟨cause, pc, addr, info, s.tidWord ag, (s.agent ag).isFE, short⟩

/-! ## Agents of a task, masks, barriers, convergence registers -/

/-- The first of a list by a key. -/
def firstBy (key : Nat → Nat) : List Nat → Option Nat
  | [] => none
  | x :: rest =>
    match firstBy key rest with
    | some y => bif decide (key y < key x) then some y else some x
    | none => some x
/-- Insert into an order by a key, after equal keys. -/
def insertBy (key : Nat → Nat) (x : Nat) : List Nat → List Nat
  | [] => [x]
  | y :: rest => bif decide (key x < key y) then x :: y :: rest else y :: insertBy key x rest
/-- Sort by a key, equal keys in their order. -/
def sortBy (key : Nat → Nat) (xs : List Nat) : List Nat := xs.foldl (fun l x => insertBy key x l) []
/-- A task has stopped on a fault, or is to start again: its engine commands do nothing more (R237). -/
def State.stopped (s : State) (t : Nat) : Bool :=
  match (s.task t).state with
  | .faulted => true
  | .restarting => true
  | .capWait => true
  | _ => false

/-- Threads and front ends of a share, threads in ascending %tid, the front end last. -/
def State.agentsOfShare (s : State) (h : Nat) : List Nat :=
  ((s.share h).groups.flatMap fun g => (s.group g).members) ++ [(s.share h).fe]
/-- Threads and front ends of a task, front ends last. -/
def State.agentsOfTask (s : State) (t : Nat) : List Nat :=
  ((s.task t).shares.flatMap fun h => (s.share h).groups.flatMap fun g => (s.group g).members) ++
  (s.task t).shares.map fun h => (s.share h).fe
/-- Change every agent of a list. -/
def State.modAgents (s : State) (f : Agent → Agent) : List Nat → State
  | [] => s
  | a :: rest => (s.modAgent a f).modAgents f rest
/-- Live threads of a group, by index (R184). -/
def State.liveOf (s : State) (g : Nat) : List Nat :=
  (List.range (s.group g).members.length).filter fun i => s.live ((s.group g).members.getD i 0)
/-- The agent of thread index i of a group. -/
def State.member (s : State) (g i : Nat) : Nat := (s.group g).members.getD i 0

/-- Group of a lane thread. -/
def State.groupOf (s : State) (ag : Nat) : Nat := (s.agent ag).home.group.getD 0
/-- A thread is a member of an armed mask. -/
def State.inMask (s : State) (ag m : Nat) : Bool :=
  match (s.group (s.groupOf ag)).masks.getD m none with
  | none => false
  | some x => x.getLsbD (s.agent ag).home.idx
/-- A thread has arrived at a mask: it is parked there (R184). -/
def State.arrivedAt (s : State) (ag m : Nat) : Bool := (s.agent ag).status == .parked (.mask m)
/-- Release a mask of a group if it is complete (R184). -/
def State.maskTest (s : State) (g m : Nat) : State :=
  match (s.group g).masks.getD m none with
  | none => s
  | some set =>
    let mem := (List.range (s.group g).members.length).filter fun i => set.getLsbD i
    bif mem.all fun i => s.arrivedAt (s.member g i) m then
      let s := s.modAgents (fun a => { a with status := .ready }) (mem.map (s.member g))
      s.modGroup g fun x => { x with masks := x.masks.set m none }
    else s
/-- Take a thread out of a mask (R184). -/
def State.maskDrop (s : State) (g m i : Nat) : State :=
  match (s.group g).masks.getD m none with
  | none => s
  | some set =>
    (s.modGroup g fun x => { x with masks := x.masks.set m (some (set &&& ~~~(1#128 <<< i))) }).maskTest g m
/-- Take a thread out of every mask of its group (R148). -/
def State.maskDropAll (s : State) (g i : Nat) : State := (List.range 16).foldl (fun s m => s.maskDrop g m i) s

/-- Phase b of a barrier is complete (R223). -/
def Barrier.complete (x : Barrier) (b : Word) : Bool :=
  let d := (x.ph - b).toNat
  decide (1 ≤ d) && decide (d ≤ 2 ^ 31)
/-- A thread has arrived at barrier b in a phase (R222). -/
def Agent.hasArrived (a : Agent) (b : Nat) (ph : Word) : Bool := a.arrived.elem (b, ph)
/-- Change barrier b of a task. -/
def State.modBar (s : State) (t b : Nat) (f : Barrier → Barrier) : State :=
  s.modTask t fun k => { k with bars := k.bars.modify b f }
/-- Barrier b of a task. -/
def State.bar (s : State) (t b : Nat) : Barrier := (s.task t).bars.getD b default
/-- The core clock of a task; every core's clock advances alike. -/
def State.taskClock (s : State) (t : Nat) : Nat := (s.core (s.share ((s.task t).shares.headD 0)).core).clock
/-- Note an event on a barrier, by its rank among those of one clock (R224). -/
def State.noteBar (s : State) (t b rank : Nat) : State :=
  s.modTask t fun k => { k with barSeen := k.barSeen.set b (some (s.taskClock t, rank)) }
/-- No event of a higher rank has taken effect on a barrier on this clock (R224). -/
def State.barClear (s : State) (t b rank : Nat) : Bool :=
  match (s.task t).barSeen.getD b none with
  | none => true
  | some (k, r) => k != s.taskClock t || decide (r ≤ rank)
/-- The rank of an agent's instruction among the events that take effect on one clock: its front end's before its lanes', those by ascending %tid (R13, R224). -/
def State.barRank (s : State) (ag : Nat) : Nat := bif (s.agent ag).isFE then 0 else 1 + s.tid ag
/-- A kill of an agent may take effect on the barriers of its task: nothing that comes after it has done so on this clock (R148, R224). -/
def State.killClear (s : State) (ag : Nat) : Bool := (List.range 16).all fun b => s.barClear (s.taskOf ag) b (s.barRank ag)
/-- Release an agent parked on a phase that is complete (R223). -/
def releaseBar (x : Barrier) (b : Nat) (a : Agent) : Agent :=
  match a.status with
  | .parked (.barrier k ph len) =>
    bif k == b && x.complete ph then { a with status := .ready, pc := a.pc + BitVec.ofNat 64 len } else a
  | _ => a
/-- The completion test of a barrier, and the completion itself (R223). -/
def State.barTest (s : State) (t b : Nat) : State :=
  let x := s.bar t b
  bif x.initd && !x.broken && decide (x.n ≤ x.a) && x.p == 0#36 then
    let y := { x with ph := x.ph + 1, a := 0#7 }
    let s := s.modBar t b fun _ => y
    s.modAgents (fun a => releaseBar y b { a with arrived := a.arrived.filter (· != (b, x.ph)) }) (s.agentsOfTask t)
  else s
/-- An arrival by an agent that has not yet arrived in the open phase (R223). -/
def State.barArrive (s : State) (t b ag : Nat) : State :=
  let ph := (s.bar t b).ph
  let s := s.modAgent ag fun a => { a with arrived := (b, ph) :: a.arrived }
  let all := match (s.agent ag).home.group with
    | none => true
    | some g => (s.liveOf g).all fun i => (s.agent (s.member g i)).hasArrived b ph
  (bif all then s.modBar t b fun x => { x with a := x.a + 1 } else s).barTest t b
/-- A thread of a group, live or ended, has arrived at a barrier in its open phase (R223). -/
def State.someArrived (s : State) (g b : Nat) (ph : Word) : Bool := (s.group g).members.any fun a => (s.agent a).hasArrived b ph
/-- A thread has ended: a group whose other live threads have all arrived counts (R223). -/
def State.barLeave (s : State) (t g : Nat) (was : Agent) : State :=
  (List.range 16).foldl (fun s b =>
    let ph := (s.bar t b).ph
    let rest := (s.liveOf g).map fun i => s.agent (s.member g i)
    bif (s.bar t b).initd && !was.hasArrived b ph && s.someArrived g b ph && rest.all fun a => a.hasArrived b ph then
      (s.modBar t b fun x => { x with a := x.a + 1 }).barTest t b
    else s) s

/-- Convergence register c of a task. -/
def State.cv (s : State) (t c : Nat) : Cv := (s.task t).cvs.getD c default
/-- Change convergence register c of a task. -/
def State.modCv (s : State) (t c : Nat) (f : Cv → Cv) : State :=
  s.modTask t fun k => { k with cvs := k.cvs.modify c f }
/-- %tinfo of cause 0x0A (R145). -/
def cvInfo (c reason : Nat) : Word := BitVec.ofNat 32 (c + 256 * reason)
/-- Hold an asynchronous cause for an agent (R241). -/
def State.addAsync (s : State) (ag : Nat) (x : Async) : State :=
  s.modAgent ag fun a => bif a.status == .ended then a else { a with async := a.async ++ [x] }
/-- A declared thread ends unsigned: the register is poisoned and its signers take reason 10 (R145). -/
def State.cvLeave (s : State) (t ag : Nat) : State :=
  let tid := s.tid ag
  (List.range 16).foldl (fun s c =>
    let x := s.cv t c
    bif x.state == .declared && decide (x.t0 ≤ tid) && decide (tid < x.t0 + x.n) && !(x.sigs.any fun g => g.1 == ag) then
      let s := x.sigs.foldl (fun s g => s.addAsync g.1 ⟨0x0A, 0#64, cvInfo c 10⟩) s
      s.modCv t c fun y => { y with state := .poisoned, sigs := [], spec := none }
    else s) s

/-- Release an agent from one kind of park. -/
def unparkIf (w : Wait) (a : Agent) : Agent := bif a.status == .parked w then { a with status := .ready } else a
/-- Entries of a share's decision queue that every live lane thread has read are freed (R142, R143). -/
def State.dqFree (s : State) (h : Nat) : State :=
  let x := s.share h
  let reads := ((x.groups.flatMap fun g => (s.group g).members).filter s.live).map fun a => (s.agent a).dqRead
  let total := x.dqFreed + x.dq.length
  let low := reads.foldl min total
  let s := s.modShare h fun y => { y with dq := y.dq.drop (low - y.dqFreed), dqFreed := max low y.dqFreed }
  bif decide ((s.share h).dq.length < 64) then s.modAgent x.fe (unparkIf .queue) else s

/-- Free the record slot of a thread that ends (R386). A thread that has ended and runs again, its unsettled task having restarted, reads its old slot, and frees it once more as it ends, even if another record lies there by then: the spec is silent, so this is the model's choice; log entry 30. -/
def State.freeRecord (s : State) (ag : Nat) : State :=
  let t := s.taskOf ag
  let k := s.task t
  match (k.starts.getD (s.agent ag).home.idx default).2 with
  | some (n, j) =>
    bif k.billet && !(s.agent ag).isFE then
      s.modLaunch k.launch fun l =>
        { l with nodes := l.nodes.modify n fun d => { d with used := d.used.filter (· != j) } }
    else s
  | none => s

/-- A thread or front end ends: masks, convergence sets, barriers, queue readers, records (R148, R186, R223). -/
def State.endAgent (s : State) (ag : Nat) : State :=
  let was := s.agent ag
  bif !s.live ag then s else
  let t := s.taskOf ag
  let s := s.freeRecord ag
  let s := s.modAgent ag fun a =>
    { a.settle with status := .ended, outst := [], supp := none, halt := none, async := [] }
  match was.home.group with
  | none => s
  | some g => (((s.maskDropAll g was.home.idx).cvLeave t ag).barLeave t g was).dqFree was.home.share

/-- A thread or front end is killed (R148): an event on every barrier of its task (R224). -/
def State.killAgent (s : State) (ag : Nat) : State :=
  ((List.range 16).foldl (fun s b => s.noteBar (s.taskOf ag) b (s.barRank ag)) s).endAgent ag

/-- Discard a task's version, its held work and its stores still queued (R121, R202, R237). -/
def State.discard (s : State) (t : Nat) : State :=
  let k := s.task t
  bif k.settled then s else
  let blks := k.ver.blocks
  let s := k.ver.held.foldl (fun s w => match w with
    | .slot n => s.modLaunch k.launch fun l =>
        { l with slots := l.slots.modify n fun x => { x with state := .free, gen := x.gen + 1, record := none },
                 nodes := match (l.slots.getD n default).record with
                   | some (d, j) => l.nodes.modify d fun y => { y with used := y.used.filter (· != j) }
                   | none => l.nodes }
    | _ => s) s
  let s := s.modTask t fun x => { x with ver := Version.empty s.store.commits.length }
  let qb := (s.lanes.groups.flatMap (·.sq) ++ s.lanes.shares.flatMap (·.feSq)).filterMap fun e =>
    bif e.vers && e.task == t then some (e.pa / 1024) else none
  let keep := fun (e : SqEntry) => !(e.vers && e.task == t)
  let gs := s.lanes.groups.map fun g => { g with sq := g.sq.filter keep }
  let hs := s.lanes.shares.map fun h => { h with feSq := h.feSq.filter keep }
  let s := { s with lanes := { s.lanes with groups := gs, shares := hs } }
  s.releaseIdle (distinct (blks ++ qb))

/-- Kill a whole task (R148, R235, R376): a version is discarded and every thread and front end ends. -/
def State.killTask (s : State) (t : Nat) : State :=
  bif (s.task t).state == .retired then s else
  let s := (s.discard t).modTask t fun k => { k with state := .killed, fault := none, need := [] }
  (s.agentsOfTask t).foldl State.endAgent s
/-- Halt one agent with a halt record (R245). -/
def Agent.haltWith (a : Agent) (r : HaltRec) : Agent := { a.settle with status := .halted, halt := some r }
/-- The next instruction of a parked agent that has not issued: one parked on a barrier stands at its BAR (R223, R245). -/
def Agent.afterPark (a : Agent) : Wait → DWord
  | .barrier _ _ len => a.pc + BitVec.ofNat 64 len
  | _ => a.pc
/-- Halt an agent that did not itself trap (R245). -/
def Agent.haltIdle (a : Agent) : Agent :=
  match a.status with
  | .ready => a.haltWith ⟨0#32, 0#64, 0#32, a.pc, none⟩
  | .parked w => a.haltWith ⟨0#32, 0#64, 0#32, a.afterPark w, some w⟩
  | _ => a

/-! ## Taking a trap, and returning from one (R232 to R241) -/

/-- The fault-policy word of an agent's launch (R235). -/
def State.policyOf (s : State) (ag : Nat) : Word := (s.launch (s.launchOf ag)).par.policy
/-- An unhandled or double trap: its record and the fate UNH gives (R235, R240, R245). One that is both is recorded as DOUBLE only: the model's choice, log entry 33. -/
def State.unhandled (s : State) (ag cause : Nat) (pc addr : DWord) (info : Word) (short supp : Nat) : State :=
  let t := s.taskOf ag
  let unh := bits (s.policyOf ag).toNat 0 2
  let kind := (bif (s.agent ag).trap.h then 0x800 else 0x1000) + (bif unh == 2 then 0x4000 else 0x2000)
  let s := s.taskRecord t kind (s.faultOf ag cause pc addr info short) supp
  match unh with
  | 0 => s.killAgent ag
  | 2 =>
    let s := s.modAgent ag fun a => a.haltWith ⟨BitVec.ofNat 32 cause, addr, info, pc, none⟩
    s.modAgents Agent.haltIdle (s.agentsOfTask t)
  | _ => s.killTask t
/-- A debugger is attached: cause 0x0B halts the thread (R235, R245). -/
def State.debugged (s : State) (ag cause : Nat) : Bool := cause == 0x0B && (s.policyOf ag).getLsbD 7
/-- A trap that goes to hearth core 4 has to wait: its record is held or, where it kills its one thread, the kill has not its turn on the barriers (R224, R235, R240, R410). -/
def State.trapWaits (s : State) (ag cause : Nat) : Bool :=
  let a := s.agent ag
  let halts := s.debugged ag cause
  (halts || a.trap.h || a.trap.vec == 0#64) &&
  (s.recordHeld (s.launchOf ag) || (!halts && bits (s.policyOf ag).toNat 0 2 == 0 && !s.killClear ag))
/-- A thread waits with the trap it has met. -/
def State.parkRecord (s : State) (ag : Nat) (deferred : Bool) (x : TrapArgs) : State :=
  s.modAgent ag fun a => { a with status := .parked (.record deferred x) }
/-- TakeTrap(cause, pc, addr, info) of R233, with the shortfall and the suppressed stores that a record of cause 0x08 holds (R240). The thread leaves its fragment at once (R137); its handler's first instruction waits until every outstanding result is written (R61). -/
def State.takeTrapWith (s : State) (ag cause : Nat) (pc addr : DWord) (info : Word) (short supp : Nat) : State :=
  let s := s.modAgent ag Agent.settle
  bif s.trapWaits ag cause then s.parkRecord ag false ⟨cause, pc, addr, info, short, supp, false⟩
  else bif s.debugged ag cause then
    let s := s.modAgent ag fun a => a.haltWith ⟨0x0B#32, addr, info, pc, none⟩
    s.taskRecord (s.taskOf ag) 0x4000 (s.faultOf ag cause pc addr info 0) 0
  else
    let a := s.agent ag
    bif a.trap.h || a.trap.vec == 0#64 then s.unhandled ag cause pc addr info short supp
    else
      s.modAgent ag fun a =>
        { a with
          trap := { a.trap with h := true, cause := BitVec.ofNat 32 cause, rpc := pc, addr := addr, info := info },
          pc := a.trap.vec, status := .ready, wHold := !a.outst.isEmpty, sliceEnd := cause == 0x14 }
/-- TakeTrap(cause, pc, addr, info) of R233: cause 0x08 of a TCOPY or ADRAIN tells its shortfall in %tinfo[23:0] (R264). -/
def State.takeTrap (s : State) (ag cause : Nat) (pc addr : DWord) (info : Word) : State :=
  s.takeTrapWith ag cause pc addr info (bif cause == 0x08 then info.toNat % 2 ^ 24 else 0) 0
/-- A task stops on a fault of one of its agents: the first faulting thread in %tid order is kept, a front end last (R237). -/
def State.markFault (s : State) (t : Nat) (f : FaultInfo) : State :=
  s.modTask t fun k =>
    { k with state := .faulted, faultAt := bif k.fault.isNone then s.moves else k.faultAt,
             fault := match k.fault with
               | some g => bif (g.fe && !f.fe) || (g.fe == f.fe && decide (f.tid < g.tid)) then some f else some g
               | none => some f }
/-- Add a threshold. -/
def addNeed (st n : Nat) : List (Nat × Nat) → List (Nat × Nat)
  | [] => [(st, n)]
  | (x, m) :: rest => bif x == st then (x, m + n) :: rest else (x, m) :: addNeed st n rest
/-- Blocks that a task's version, a store of it still queued, or an engine command of it holds. -/
def State.blocksHeld (s : State) (t : Nat) : List Nat :=
  let q := (s.lanes.groups.flatMap (·.sq) ++ s.lanes.shares.flatMap (·.feSq)).filterMap fun e =>
    bif e.vers && e.task == t then some (e.pa / 1024) else none
  let mine := fun (h : Nat) => (s.share h).task == t
  let eng := (s.lanes.cores.flatMap fun c =>
      ((c.copyQ ++ c.copies).filter fun x => mine x.share).flatMap (·.blocks) ++ (c.mxQ.filter fun x => mine x.share).flatMap MxEntry.blocks) ++
    (s.task t).shares.flatMap fun h => (s.share h).saved.copies.flatMap (·.blocks) ++ (s.share h).saved.mx.flatMap MxEntry.blocks
  distinct ((s.task t).ver.blocks ++ q ++ eng)
/-- Thresholds W of a capacity fault: the charges its version holds, and the charge refused on the block of an address (R337). -/
def State.capNeed (s : State) (t : Nat) (pa : Option Nat) : List (Nat × Nat) :=
  let w := (s.blocksHeld t).foldl (fun w no =>
    match (s.block no).ch with
    | some (_, n) => addNeed (stackOf (no * 1024)) n w
    | none => w) []
  match pa with
  | some pa => addNeed (stackOf pa) (8 - (s.block (blockOf pa)).cls) w
  | none => w
/-- The physical address behind a virtual one, from the tables. -/
def State.placeOf (s : State) (v : Nat) (va : DWord) : Option Nat :=
  (s.walk v va).map fun l => l.base + va48 va % (l.pages * 65536)
/-- A task stops on a refused charge of the block of a physical address: its thresholds are those of this moment (R336, R337). -/
def State.markCapacity (s : State) (t : Nat) (f : FaultInfo) (pa : Option Nat) : State :=
  let need := s.capNeed t pa
  let s := s.markFault t f
  s.modTask t fun k => bif k.fault == some f then { k with need := need } else k
/-- A memory-class cause (R236). -/
def memoryClass (cause : Nat) : Bool := [0x03, 0x04, 0x05, 0x06, 0x07, 0x09, 0x13].elem cause
/-- A synchronous cause: precise, or a task fault for a memory cause in an unsettled task (R236). -/
def State.raise (s : State) (ag cause : Nat) (pc addr : DWord) (info : Word) : State :=
  bif memoryClass cause && s.unsettled (s.taskOf ag) then
    s.markFault (s.taskOf ag) (s.faultOf ag cause pc addr info 0)
  else s.takeTrap ag cause pc addr info
/-- %tinfo of a deferred capacity trap (R239). -/
def Supp.info (x : Supp) : Word := BitVec.ofNat 32 (min x.count 0xFFFFFF + 2 ^ 24 * min x.short 15)
/-- The deferred capacity trap: its record, and suppression ends (R239, R240); it waits while its record is held (R410). -/
def State.deferred (s : State) (ag : Nat) (pc : DWord) : State :=
  match (s.agent ag).supp with
  | none => s
  | some x =>
    bif s.recordHeld (s.launchOf ag) then s.parkRecord ag true ⟨0x08, pc, x.addr, x.info, x.short, x.count, false⟩ else
    let s := s.taskRecord (s.taskOf ag) 0x200 (s.faultOf ag 0x08 pc x.addr x.info x.short) x.count
    (s.modAgent ag fun a => { a with supp := none }).takeTrapWith ag 0x08 pc x.addr x.info x.short x.count
/-- SRET's effect: H ← 0 and PC ← %trpc (R234); the next instruction is not matched against breakpoints (R244). -/
def Agent.sret (a : Agent) (rpc : DWord) : Agent :=
  { a with trap := { a.trap with h := false }, pc := rpc, skipBp := true, sliceEnd := false }
/-- The held asynchronous cause that is taken first (R241). Cause 0x0B of single step, which R241's order does not name, comes last where another cause is held at the same boundary: the model's choice; log entry 33. -/
def firstAsync (xs : List Async) : Option Async :=
  [0x0E, 0x14, 0x0A, 0x10, 0x0B].findSome? fun c => xs.find? fun x => x.cause == c
/-- Take a held asynchronous cause at an instruction boundary (R241). A barrier error that released a parked thread (R223) is its instruction's own cause, taken first and even with H = 1. -/
def State.deliver (s : State) (ag : Nat) : State :=
  let a := s.agent ag
  bif a.status == .ready then
    match (a.async.find? fun x => x.cause == 0x16).orElse fun _ => bif a.trap.h then none else firstAsync a.async with
    | some x =>
      (s.modAgent ag fun a => { a with async := a.async.erase x }).takeTrap ag x.cause a.pc x.addr x.info
    | none => s
  else s
/-- Every thread and front end of a task parked on a barrier leaves it with cause 0x16 (R223). -/
def State.barTrap (s : State) (t b : Nat) (info : Word) : State :=
  (s.agentsOfTask t).foldl (fun s ag =>
    match (s.agent ag).status with
    | .parked (.barrier k _ _) =>
      bif k == b then
        (s.modAgent ag fun a => { a with status := .ready, async := ⟨0x16, 0#64, info⟩ :: a.async }).deliver ag
      else s
    | _ => s) s

/-! ## Issue of one instruction by a fragment (R56, R57, R60, R71, R72, R134, R191, R239) -/

/-- What becomes of a thread at an instruction. -/
inductive Fate where
  /-- Performed; continue at the next instruction. -/
  | next
  /-- Performed; continue at an address. -/
  | jump (pc : DWord)
  /-- A synchronous cause; not performed. -/
  | trap (cause : Nat) (addr : DWord) (info : Word)
  /-- A refused charge of an unsettled task: a task fault with the shortfall (R336). -/
  | capacity (addr : DWord) (short : Nat)
  /-- Not performed; the thread parks and issues it again when released. -/
  | wait (w : Wait)
  /-- Performed up to its park; the thread parks at the next instruction. -/
  | past (w : Wait)
  /-- Performed up to its park on a barrier; the pc moves at the release. -/
  | atBarrier (b : Nat) (phase : Word)
  /-- Not ready: nothing happens yet. -/
  | stall
  /-- Performed, with its own change of the thread. -/
  | own
  deriving DecidableEq, Repr

/-- Uncommon conditions of decode that depend on the thread: the lowest reason of R71, or cause 0x02 (R70, R242). -/
structure Context where
  /-- Reason of cause 0x01. -/
  reason : Option Nat
  /-- Cause 0x02. -/
  priv : Bool
  deriving DecidableEq, Repr

/-- A special-register number of R64 that is assigned in this code. -/
def csrAssigned (fe : Bool) (n : Nat) : Bool :=
  ([0x002, 0x003, 0x006, 0x007, 0x008, 0x009, 0x00A, 0x00B, 0x010, 0x011, 0x012, 0x013, 0x030, 0x031, 0x032, 0x033,
    0x034, 0x035, 0x036, 0x037, 0x038, 0x040, 0x041, 0x050].elem n) ||
  (!fe && [0x000, 0x001, 0x004, 0x005, 0x020, 0x021, 0x022].elem n)
/-- A privileged special-register number that is assigned (R243). -/
def csrPrivAssigned (n : Nat) : Bool := n == 0x810 || (decide (0x800 ≤ n) && decide (n ≤ 0x809))
/-- A special register that CSRW may write (R64, R243). -/
def csrWritable (n : Nat) : Bool :=
  ([0x020, 0x021, 0x022, 0x031, 0x034, 0x035, 0x036, 0x037].elem n) || (decide (0x801 ≤ n) && decide (n ≤ 0x809))
/-- Reason 10 or cause 0x02 of a special-register number (R66, R71, R161, R243). -/
def csrContext (fe priv write : Bool) (n : Nat) : Context :=
  if 0x1000 ≤ n then ⟨some 10, false⟩
  else if 0x800 ≤ n then
    (if priv then ⟨if csrPrivAssigned n && (!write || csrWritable n) then none else some 10, false⟩ else ⟨none, true⟩)
  else ⟨if csrAssigned fe n && (!write || csrWritable n) then none else some 10, false⟩

/-- Context count of an agent's role (R311); a front end has none. -/
def State.ctxCount (s : State) (ag : Nat) : Nat :=
  match (s.agent ag).home.group with
  | none => 0
  | some g => bif (s.group g).producer then (s.kernelOf ag).pxc else (s.kernelOf ag).cxc
/-- The checks of decode that depend on the thread (R71 reasons 7 to 10, R242). A front end has no role, so that no context field of its code is beyond a count: the word falls to reason 9 (R314). -/
def State.context (s : State) (ag : Nat) (i : Instr) : Context :=
  let a := s.agent ag
  let p := (s.launch (s.launchOf ag)).par
  let gw := s.gwidth ag
  if (i.segment.map fun x => segBad x gw).getD false then ⟨some 7, false⟩
  else if !(i.uses.all fun u => u.fits a.home.budget (s.kernelOf ag).tiles (bif a.isFE then 8 else s.ctxCount ag)) || i.ballotBad gw a.home.budget then
    ⟨some 8, false⟩
  else if (i.place == .lane && a.isFE) || (i.place == .frontEnd && !a.isFE) || (i.isSret && !a.trap.h) then ⟨some 9, false⟩
  else match i.csr with
    | some (n, wr) => csrContext a.isFE p.priv wr n
    | none => ⟨none, i.needsPriv p.priv p.hv p.deleg⟩

end Sys2Proof.Machine
end

