-- ==== Sys2Proof/Machine/Issue.lean ====
section
/-! DEFINITION. The issue of one instruction by a fragment: distances, decode checks, guard, scoreboard, what each
thread's fate does to it, and the wait marker (R56 to R60, R70 to R72, R134, R146, R239, R244). -/

namespace Sys2Proof.Machine

/-- What is known of a thread before its instruction is performed. -/
inductive Pre where
  /-- Cause 0x01 with a reason. -/
  | illegal (reason : Nat)
  /-- Cause 0x02. -/
  | priv
  /-- Its guard is false. -/
  | skip
  /-- It is not ready. -/
  | stall
  /-- Suppressed stores trap before it (R239). -/
  | deferred
  /-- It participates (R191). -/
  | go
  deriving DecidableEq, Repr

/-- The guard of an instruction, read by a thread (R56). -/
def State.guard (s : State) (ag : Nat) (g : BitVec 4) : Bool :=
  xor (s.pred ag 90 (g.extractLsb' 0 3)) (g.getLsbD 3)
/-- The registers that signatures of a thread hold until their operation enters the queue, and the tiles of its operations until they complete (R145, R146). -/
def State.signedHold (s : State) (ag : Nat) (i : Instr) : Bool :=
  ((s.task (s.taskOf ag)).cvs.any fun c =>
    (c.state == .declared || c.state == .issuing) && c.sigs.any fun (a, _, src) =>
      a == ag &&
      ((match src with
        | .reading r n _ => (List.range n).any fun k => i.writesReg (s.gwidth ag) (r + k)
        | _ => false) ||
       (match c.spec with
        | some p => i.usesTile p.tile
        | none => false))) ||
  (s.core (s.coreOf ag)).mxQ.any fun e =>
    match e.cmd with
    | .op _ p rows _ => i.usesTile p.tile && rows.any fun r => r.1 == ag
    | _ => false
/-- The tile that an instruction touches is still to be filled after a switch (R247). -/
def State.tileUnfilled (s : State) (ag : Nat) (i : Instr) : Bool := (s.share (s.shareOf ag)).saved.tiles && i.namesTile
/-- The scoreboard lets a thread issue an instruction (R59, R146, R247). -/
def State.scoreboard (s : State) (ag : Nat) (i : Instr) : Bool :=
  let a := s.agent ag
  !(a.outst.any fun o => o.writes.any fun (d, _) => i.touches (s.gwidth ag) i.ctl.2.g d) &&
  decide ((a.outst.map fun o => o.writes.length).sum + i.entries ≤ 16) &&
  !s.signedHold ag i && !s.tileUnfilled ag i
/-- The instruction issues only once every result of the thread is written: EXIT, YIELD, REBIN, SETTLE, and JWAIT by a member of its mask (R61, R184). -/
def State.awaits (s : State) (ag : Nat) (i : Instr) : Bool :=
  i.settlePoint || match i.joins with
    | some m => s.inMask ag m.toNat
    | none => false
/-- Some outstanding result of the floating-point majors is not written (R163). -/
def State.fpOutstanding (s : State) (ag : Nat) : Bool := (s.agent ag).outst.any (·.fp)
/-- The thread's instruction waits as if W were 1, with or without the encoded bit (R60, R165, R195). -/
def waitsFor (i : Instr) (frm : Word) : Bool := i.ctl.2.w || (i.fpWait && frm.extractLsb' 8 5 != 0#5)
/-- An ADRAIN of the thread's issues is not complete, and its instruction waits for it by its W, or as if W were 1, whatever its guard (R56, R165, R302). -/
def State.drainHold (s : State) (ag : Nat) (i : Instr) : Bool :=
  !(s.agent ag).drains.isEmpty && waitsFor i (s.rd ag 80 (.csr 0x21))
/-- Everything that is settled before an instruction is performed, in the order of R70. -/
def State.pre (s : State) (i : Instr) (ag : Nat) : Pre :=
  let c := s.context ag i
  match c.reason with
  | some r => .illegal r
  | none =>
    if c.priv then .priv
    else if !s.scoreboard ag i then .stall
    else if !s.guard ag i.ctl.2.g then (if s.drainHold ag i then .stall else .skip)
    else if (s.agent ag).supp.isSome && (i.trapPoint || i.ctl.2.w) then .deferred
    else if s.drainHold ag i || (i.drainPoint && !(s.agent ag).drains.isEmpty) then .stall
    else if s.awaits ag i && !(s.agent ag).settleable then .stall
    else if i.readsFstat && s.fpOutstanding ag then .stall
    else .go

/-- A body that treats each participating thread alone, in ascending %tid. -/
def perThread (f : Nat → State → State × Fate) : List Nat → State → State × List (Nat × Fate)
  | [], s => (s, [])
  | a :: rest, s =>
    let (s, k) := f a s
    let (s, ks) := perThread f rest s
    (s, (a, k) :: ks)
/-- A body that never traps or waits. -/
def plain (f : Nat → State → State) : List Nat → State → State × List (Nat × Fate) :=
  perThread fun a s => (f a s, .next)
/-- A body performed once, by the elected thread, the lowest %tid that participates: its trap is its own, and a wait holds every participant (R13, R14, R263). -/
def elected (f : Nat → State → State × Fate) : List Nat → State → State × List (Nat × Fate)
  | [], s => (s, [])
  | a :: rest, s =>
    let (s, k) := f a s
    let others := match k with
      | .wait w => Fate.wait w
      | .stall => .stall
      | _ => .next
    (s, (a, k) :: rest.map fun b => (b, others))

/-- Put back the distances of a thread whose instruction has not issued. -/
def Agent.untick (a o : Agent) : Agent :=
  { a with issued := o.issued, pend := o.pend, fp := o.fp, skipBp := o.skipBp, stepOnce := o.stepOnce, wHold := o.wHold }
/-- After an instruction that a thread has performed: the W point, and single step where `st` is set (R60, R239, R244, R245). -/
def State.afterIssue (s : State) (i : Instr) (ag : Nat) (o : Agent) (st : Bool) : State :=
  let a := s.agent ag
  let w := waitsFor i (s.rd ag 80 (.csr 0x21))
  -- suppression that was in force before a guard that is false is not tested (R239)
  let enc := i.ctl.2.w && o.supp.isNone
  let s :=
    match a.status with
    | .ready =>
      if w then
        if !a.outst.isEmpty then s.modAgent ag fun a => { a with status := .parked (.wmark enc) }
        else
          let s := s.modAgent ag Agent.settle
          if enc && a.supp.isSome then s.deferred ag a.pc else s
      else s
    | .parked _ => s.modAgent ag fun a => bif w then { a with pend := [], wHold := true } else a
    | _ => s
  if !s.live ag then s
  else if o.stepOnce then s.modAgent ag fun a => a.haltIdle
  else if st && !o.trap.h then
    s.modAgent ag fun a => bif a.trap.h then a else { a with async := a.async ++ [⟨0x0B, 0#64, 0x40000000#32⟩] }
  else s
/-- Continue a thread at an address. -/
def State.continueAt (s : State) (ag : Nat) (pc : DWord) : State := s.modAgent ag fun a => { a with pc := pc }
/-- What a fate does to a thread that does not trap; `o` is the thread as it was before the issue, `st` single step. -/
def State.settleFate (s : State) (i : Instr) (ag : Nat) (o : Agent) (st : Bool) (k : Fate) : State :=
  if !s.live ag then s else
  let nxt := o.pc + BitVec.ofNat 64 i.ctl.1
  match k with
  | .next => (s.continueAt ag nxt).afterIssue i ag o st
  | .jump pc => (s.continueAt ag pc).afterIssue i ag o st
  | .own => s.afterIssue i ag o st
  | .wait w => s.modAgent ag fun a => { a.untick o with status := .parked w }
  | .past w => (s.modAgent ag fun a => { a with pc := nxt, status := .parked w }).afterIssue i ag o st
  | .atBarrier b ph =>
    if (s.bar (s.taskOf ag) b).complete ph then (s.continueAt ag nxt).afterIssue i ag o st
    else (s.modAgent ag fun a => { a with status := .parked (.barrier b ph i.ctl.1) }).afterIssue i ag o st
  | .stall => s.modAgent ag fun a => a.untick o
  | .trap _ _ _ => s
  | .capacity _ _ => s
/-- A thread that was resumed for one instruction, which trapped, halts before its handler's first instruction (R245), or as it takes a trap that still waits. The spec does not say what the halt record holds then: the model gives it cause, address and detail 0, as for a thread that caused no halt, and writes no fault record for it: its choice; log entry 39. -/
def State.stepEnd (s : State) (ag : Nat) (o : Agent) : State :=
  bif o.stepOnce && !s.stopped (s.taskOf ag) then
    s.modAgent ag fun a => match a.status with
      | .parked (.record d x) => { a with status := .parked (.record d { x with step := true }) }
      | _ => a.haltIdle
  else s
/-- What a trapping fate does. -/
def State.trapFate (s : State) (ag : Nat) (o : Agent) (k : Fate) : State :=
  if !s.live ag then s else
  match k with
  | .trap c addr info => (s.raise ag c o.pc addr info).stepEnd ag o
  | .capacity addr short => s.markCapacity (s.taskOf ag) (s.faultOf ag 0x08 o.pc addr 0#32 short) (s.placeOf (s.vdOf ag) addr)
  | _ => s
/-- A thread that suppressed stores trap before its instruction (R239). -/
def State.deferFate (s : State) (ag : Nat) (o : Agent) : State :=
  if !s.live ag then s else (s.deferred ag o.pc).stepEnd ag o

/-- A TCOPY: it completes its issue before any thread of its fragment issues its next instruction (R280). -/
def isTcopy : Instr → Bool
  | .tcopy .. => true
  | _ => false
/-- The fragment issues the command as one bundle or not at all: a command of the elected thread that the scoreboard may hold for some of its threads (R263, R286, R309). -/
def issuesAsOne : Instr → Bool
  | .tcopy .. => true
  | .adrain .. => true
  | .aclr .. => true
  | _ => false
/-- What holds the whole fragment at a command, threads with a false guard too: the park of its command at the engine's queue or charge or, for a TCOPY, whatever keeps it from issuing (R14, R280). -/
def commandHold (i : Instr) (fs : List (Nat × Fate)) : Option Fate :=
  fs.findSome? fun p => match p.2 with
    | .wait (.engine k) => some (.wait (.engine k))
    | .stall => bif isTcopy i then some .stall else none
    | _ => none
/-- The fate that a pre-check fixes, where `held` holds the fragment. -/
def Pre.fate (held : Option Fate) : Pre → Fate → Fate
  | .illegal r, _ => .trap 0x01 0#64 (BitVec.ofNat 32 r)
  | .priv, _ => .trap 0x02 0#64 0#32
  | .skip, _ => held.getD .next
  | .stall, _ => .stall
  | .deferred, _ => .stall
  | .go, k => k
/-- Issue an instruction to the fragment that is current: `body` performs it for the participating threads. -/
def State.issue (s : State) (i : Instr) (body : List Nat → State → State × List (Nat × Fate)) : State :=
  let ags := s.cur.agents
  let olds := ags.map fun a => (a, s.agent a)
  let s := s.modAgents Agent.tick ags
  let pres := olds.map fun (a, o) =>
    (a, o, s.pre i a, (s.debugSeen a 82 0x801 (s.agent a).issued).getLsbD 8)
  let stuck := issuesAsOne i && pres.any fun (_, _, p, _) => p == .stall
  let go := pres.filterMap fun (a, _, p, _) => bif p == .go && !stuck then some a else none
  let (s, fs) := body go s
  let held := bif stuck then some .stall else commandHold i fs
  let fates := pres.map fun (a, o, p, st) => (a, o, p, st, p.fate held ((fs.lookup a).getD (bif stuck then .stall else .next)))
  let s := fates.foldl (fun s (a, o, p, st, k) => bif p == .deferred then s else s.settleFate i a o st k) s
  fates.foldl (fun s (a, o, p, _, k) => bif p == .deferred then s.deferFate a o else s.trapFate a o k) s

end Sys2Proof.Machine
end

