-- ==== Sys2Proof/Machine/Operands.lean ====
section
/-! DEFINITION. Operand forms: what the B operand, a displacement, an address and a special register give (R46, R47,
R52, R64, R127, R150, R205, R243). -/

namespace Sys2Proof.Machine

/-! ## The B operand (R150) -/

/-- A base B operand of 32 bits: a register, or the 7-bit immediate sign-extended. -/
def State.b7 (s : State) (ag : Nat) : Src7 → Word
  | .reg r => s.reg ag 2 r
  | .imm i => i.signExtend 32
/-- An extended B operand of 32 bits: a register, IMM16 sign-extended, or the low 32 bits of a literal. -/
def State.b32 (s : State) (ag : Nat) : Src → Word
  | .reg r => s.reg ag 2 r
  | .imm i => i.signExtend 32
  | .lit x => x.setWidth 32
  | .blit x => x.setWidth 32
/-- A 64-bit B operand: a pair, IMM16 sign-extended, or all 64 bits of a literal (R159). -/
def State.b64 (s : State) (ag : Nat) : Src → DWord
  | .reg r => s.pair ag 2 r
  | .imm i => i.signExtend 64
  | .lit x => x
  | .blit x => x
/-- A B operand of 8 bytes or 4, zero-extended to 64 bits (R217). -/
def State.bSized (s : State) (ag : Nat) (w64 : Bool) (b : Src) : DWord :=
  bif w64 then s.b64 ag b else (s.b32 ag b).setWidth 64
/-- The A operand. -/
def State.a32 (s : State) (ag : Nat) (r : Reg) : Word := s.reg ag 1 r
/-- The A operand, a pair. -/
def State.a64 (s : State) (ag : Nat) (r : Reg) : DWord := s.pair ag 1 r
/-- The C operand. -/
def State.c32 (s : State) (ag : Nat) (r : Reg) : Word := s.reg ag 3 r
/-- The C operand, a pair. -/
def State.c64 (s : State) (ag : Nat) (r : Reg) : DWord := s.pair ag 3 r
/-- The D operand where it is a source. -/
def State.d32 (s : State) (ag : Nat) (r : Reg) : Word := s.reg ag 0 r
/-- The D operand, a pair, where it is a source. -/
def State.d64 (s : State) (ag : Nat) (r : Reg) : DWord := s.pair ag 0 r

/-! ## Displacements and addresses (R205) -/

/-- A displacement, sign-extended to 64 bits. -/
def Disp64 : Disp → DWord
  | .imm i => i.signExtend 64
  | .lit x => x.signExtend 64
  | .blit x => x.signExtend 64
/-- A global address: pair + displacement, modulo 2^64. -/
def State.ea (s : State) (ag : Nat) (a : Reg) (d : DWord) : DWord := s.a64 ag a + d
/-- A scratchpad address: register + displacement, modulo 2^32. -/
def State.eaPad (s : State) (ag : Nat) (a : Reg) (d : DWord) : Word := s.a32 ag a + d.setWidth 32
/-- The 7-bit displacement of a base form. -/
def disp7 (d : BitVec 7) : DWord := d.signExtend 64

/-! ## Special registers (R64, R65, R127, R243) -/

/-- %team and %teamhi (R127). -/
def State.teamOf (s : State) (ag : Nat) : DWord :=
  let t := s.task (s.taskOf ag)
  bif t.billet then 0#64 else BitVec.ofNat 64 t.team
/-- %priv of the task (R243). -/
def Params.privWord (p : Params) : Word :=
  BitVec.ofNat 32 (16 * p.deleg.toNat + (bif p.hv then 2 else 0) + (bif p.priv then 1 else 0))
/-- %carve: the core's scratchpad carve-out in bytes (R64, R422). -/
def State.carve (s : State) (core : Nat) : Nat := (s.core core).ways * 131072
/-- A special register that is no capture and no register of the thread's own latencies. -/
def State.csrFixed (s : State) (ag n : Nat) : Word :=
  let a := s.agent ag
  let c := s.coreOf ag
  let k := s.kernelOf ag
  let p := (s.launch (s.launchOf ag)).par
  let t := s.task (s.taskOf ag)
  match n with
  | 0x000 => BitVec.ofNat 32 (s.tid ag)
  | 0x001 => match a.home.group with
    | some g => BitVec.ofNat 32 (s.group g).gid
    | none => 0#32
  | 0x002 => half (s.teamOf ag) false
  | 0x003 => half (s.teamOf ag) true
  | 0x004 => match a.home.group with
    | some g => bif (s.group g).producer then 1#32 else 0#32
    | none => 0#32
  | 0x005 => BitVec.ofNat 32 (a.home.idx % 32)
  | 0x006 => BitVec.ofNat 32 (c % 8)
  | 0x007 => BitVec.ofNat 32 (c / 8 % 12)
  | 0x008 => BitVec.ofNat 32 (c / 96)
  | 0x009 => BitVec.ofNat 32 k.gwidth
  | 0x00A => t.id
  | 0x00B => BitVec.ofNat 32 k.mode
  | 0x030 => a.trap.cause
  | 0x032 => half a.trap.addr false
  | 0x033 => a.trap.info
  | 0x038 => half a.trap.addr true
  | 0x040 => half p.args false
  | 0x041 => half p.args true
  | 0x050 => BitVec.ofNat 32 (s.carve c)
  | 0x800 => p.privWord
  | 0x810 => (s.share (s.shareOf ag)).ctxtag
  | _ => 0#32
/-- A special register that CSRW writes with a latency (R58, R83, R84, R89, R162). -/
def csrOwn (n : Nat) : Bool := [0x020, 0x021, 0x022, 0x031, 0x034, 0x035, 0x036, 0x037].elem n
/-- A CSRW takes effect at distance 2: the debug register of the task, and what the thread may still see (R57, R58, R243). -/
def State.debugWrite (s : State) (ag n : Nat) (x : Word) : State :=
  let t := s.taskOf ag
  let old := Debug.get (s.task t).debug n
  (s.modTask t fun k => { k with debug := Debug.write k.debug n x }).modAgent ag fun a =>
    { a with pend := ⟨.csr n, old, a.issued + 2⟩ :: a.pend }
/-- Counter values of a read: %time is the guest timestamp of R420, %clock the core clock count. -/
def State.counter64 (s : State) (ag : Nat) (clock : Bool) : DWord :=
  bif clock then BitVec.ofNat 64 (s.core (s.coreOf ag)).clock
  else BitVec.ofNat 64 (s.guest (s.vdOf ag))
/-- CSRR of a special register: the value, and the captures of R65. -/
def State.csrRead (s : State) (ag n : Nat) : State × Word :=
  match n with
  | 0x010 =>
    let x := s.counter64 ag false
    (s.modAgent ag fun a => { a with fp := { a.fp with time := some x } }, half x false)
  | 0x011 => (s, half ((s.agent ag).fp.time.getD (s.counter64 ag false)) true)
  | 0x012 =>
    let x := s.counter64 ag true
    (s.modAgent ag fun a => { a with fp := { a.fp with clock := some x } }, half x false)
  | 0x013 => (s, half ((s.agent ag).fp.clock.getD (s.counter64 ag true)) true)
  | n =>
    if csrOwn n then (s, s.rd ag 1 (.csr n))
    else if 0x801 ≤ n ∧ n ≤ 0x809 then (s, s.debugSeen ag 1 n (s.agent ag).issued)
    else (s, s.csrFixed ag n)

end Sys2Proof.Machine
end

