-- ==== Sys2Proof/Machine/Flags.lean ====
section
/-! DEFINITION. The floating-point status: rounding mode, traps on enabled flags, the flags' own order, and the
stochastic state (R82 to R85, R89, R163, R165). -/

namespace Sys2Proof.Machine

/-- %frm as the instruction sees it (R57). -/
def State.frm (s : State) (ag : Nat) : Word := s.rd ag 80 (.csr 0x21)
/-- The rounding mode of an instruction (R82, R164). -/
def State.mode (s : State) (ag : Nat) (rm : BitVec 3) : RMode := rmode rm (s.frm ag)
/-- Flags whose trap is enabled (R83). -/
def State.enabled (s : State) (ag : Nat) (f : FFlags) : Bool := f &&& (s.frm ag).extractLsb' 8 5 != 0#5
/-- An enabled flag traps before anything is written (R85); otherwise the results are written. -/
def State.fpGuard (s : State) (ag : Nat) (f : FFlags) (k : State → State) : State × Fate :=
  if s.enabled ag f then
    (s.modAgent ag fun a => a.orFlags f, .trap 0x0D 0#64 (f.setWidth 32))
  else (k s, .next)
/-- A fixed-latency floating-point result in a register. -/
def State.fpReg (s : State) (ag lat : Nat) (d : Reg) (r : Word × FFlags) : State × Fate :=
  s.fpGuard ag r.2 fun s => (s.wrReg ag lat d r.1).flagAt ag lat r.2
/-- %rngseed after an instruction that steps it; it is written at once. -/
def State.setSeed (s : State) (ag : Nat) (x : Word) : State := s.wr ag 0 (some (.csr 0x22)) x
/-- %rngseed as the instruction sees it. -/
def State.seed (s : State) (ag : Nat) : Word := s.rd ag 81 (.csr 0x22)

/-- Read the flags as CSRR %fstat does: those at their distance, and any choice of the nearer ones (R163). -/
def State.readFstat (s : State) (ag : Nat) : Word :=
  let a := s.agent ag
  let near := a.fp.fpend.zipIdx.foldl (fun f (p, k) =>
    bif Config.freeChoice s.free ag 3000 k 0 then f ||| p.2 else f) 0#5
  s.rd ag 1 (.csr 0x20) ||| near.setWidth 32
/-- CSRW of %fstat: a nearer instruction's flags may be OR'd in later or lost (R163). -/
def State.writeFstat (s : State) (ag : Nat) (x : Word) : State :=
  let s := s.modAgent ag fun a =>
    { a with fp := { a.fp with fpend :=
        (a.fp.fpend.zipIdx.filter fun (_, k) => Config.freeChoice s.free ag 3001 k 0).map (·.1) } }
  s.wr ag 2 (some (.csr 0x20)) x

end Sys2Proof.Machine
end

