-- ==== Sys2Proof/Machine/Integer.lean ====
section
/-! DEFINITION. Moves, integer arithmetic, logic, shifts, comparison, predicates, addresses, 64-bit values, special
registers and NOP: majors 0x00 to 0x1A (07 R150 to R163). -/

namespace Sys2Proof.Machine

/-- How a meaning ends: every instruction and event gives a next state. -/
abbrev Result := Host.Outcome State Fault Refusal

/-! ## Values -/

/-- Sat(x, −2^31, 2^31 − 1) of R152. -/
def sat32 (x : Int) : Word := BitVec.ofInt 32 (max (-(2 ^ 31)) (min (2 ^ 31 - 1) x))
/-- ADD, with SAT (R152). -/
def vAdd (sat : Bool) (a b : Word) : Word := bif sat then sat32 (a.toInt + b.toInt) else a + b
/-- SUB, with SAT (R152). -/
def vSub (sat : Bool) (a b : Word) : Word := bif sat then sat32 (a.toInt - b.toInt) else a - b
/-- MULH: bits [63:32] of the exact product (R152). -/
def vMulh (u : Bool) (a b : Word) : Word :=
  bif u then (a.setWidth 64 * b.setWidth 64).extractLsb' 32 32
  else (a.signExtend 64 * b.signExtend 64).extractLsb' 32 32
/-- MIN (R152). -/
def vMin (u : Bool) (a b : Word) : Word := bif (bif u then a.ule b else a.sle b) then a else b
/-- MAX (R152). -/
def vMax (u : Bool) (a b : Word) : Word := bif (bif u then b.ule a else b.sle a) then a else b
/-- SHL (R153). -/
def vShl (a b : Word) : Word := bif b.ult 32#32 then a <<< b.toNat else 0#32
/-- SHR (R153). -/
def vShr (a b : Word) : Word := bif b.ult 32#32 then a >>> b.toNat else 0#32
/-- SAR (R153). -/
def vSar (a b : Word) : Word := a.sshiftRight (bif b.ult 32#32 then b.toNat else 31)
/-- ROT (R153). -/
def vRot (a b : Word) : Word := a.rotateLeft (b.toNat % 32)
/-- Position and length of a field spec (R154): p, and n = min(b[13:8], 32). -/
def specPos (b : Word) : Nat := (b.extractLsb' 0 5).toNat
/-- n of a field spec (R154). -/
def specLen (b : Word) : Nat := min (b.extractLsb' 8 6).toNat 32
/-- 2^m − 1 for the width m of the field that a spec covers (R154). -/
def specMask (b : Word) : Word := BitVec.ofNat 32 (2 ^ min (specLen b) (32 - specPos b) - 1)
/-- BFX (R154). -/
def vBfx (sx : Bool) (a b : Word) : Word :=
  let m := min (specLen b) (32 - specPos b)
  let f := (a >>> specPos b) &&& specMask b
  bif specLen b == 0 then 0#32
  else bif sx && f.getLsbD (m - 1) then f ||| ~~~specMask b else f
/-- BFI (R154). -/
def vBfi (a b c : Word) : Word :=
  let k := specMask b <<< specPos b
  (a &&& ~~~k) ||| ((c <<< specPos b) &&& k)
/-- A condition of R156 on values of any width. -/
def vCmp {n : Nat} (cc : BitVec 4) (a b : BitVec n) : Bool :=
  match cc.toNat with
  | 0 => a == b
  | 1 => a != b
  | 2 => a.slt b
  | 3 => a.sle b
  | 4 => b.slt a
  | 5 => b.sle a
  | 6 => a.ult b
  | 7 => a.ule b
  | 8 => b.ult a
  | _ => b.ule a
/-- PLOG's table look-up (R157). -/
def vPlog (lut : BitVec 8) (a b c : Bool) : Bool :=
  lut.getLsbD ((bif a then 4 else 0) + (bif b then 2 else 0) + bif c then 1 else 0)
/-- LEA (R158). -/
def vLea (sh : BitVec 3) (u : Bool) (a : DWord) (b : Word) : DWord :=
  a + ((bif u then b.setWidth 64 else b.signExtend 64) <<< sh.toNat)
/-- SHL64 (R159). -/
def vShl64 (a : DWord) (b : Word) : DWord := bif b.ult 64#32 then a <<< b.toNat else 0#64
/-- SHR64 (R159). -/
def vShr64 (a : DWord) (b : Word) : DWord := bif b.ult 64#32 then a >>> b.toNat else 0#64
/-- ABS (R160). -/
def vAbs (sat : Bool) (a : Word) : Word :=
  bif a == 0x80000000#32 then (bif sat then 0x7FFFFFFF#32 else a) else bif a.msb then -a else a
/-- NEG (R160). -/
def vNeg (sat : Bool) (a : Word) : Word :=
  bif a == 0x80000000#32 then (bif sat then 0x7FFFFFFF#32 else a) else -a
/-- POPC (R160). -/
def vPopc (a : Word) : Word := BitVec.ofNat 32 (popcount 32 a.toNat)
/-- CLZ (R160). -/
def vClz (a : Word) : Word := BitVec.ofNat 32 (bif a == 0#32 then 32 else 31 - Nat.log2 a.toNat)
/-- BREV (R160). -/
def vBrev (a : Word) : Word := a.reverse

/-! ## Shapes -/

/-- An instruction whose only effect is one register of a fixed latency. -/
def State.reg1 (s : State) (i : Instr) (lat : Nat) (d : Reg) (f : State → Nat → Word) : Result :=
  .next (s.issue i (plain fun ag s => s.wrReg ag lat d (f s ag)))
/-- An instruction whose only effect is one pair of a fixed latency. -/
def State.reg2 (s : State) (i : Instr) (lat : Nat) (d : Reg) (f : State → Nat → DWord) : Result :=
  .next (s.issue i (plain fun ag s => s.wrPair ag lat d (f s ag)))
/-- An instruction whose only effect is one predicate of a fixed latency. -/
def State.pred1 (s : State) (i : Instr) (lat : Nat) (pd : BitVec 3) (f : State → Nat → Bool) : Result :=
  .next (s.issue i (plain fun ag s => s.wrPred ag lat pd (f s ag)))
/-- A base form on a and b. -/
def State.ab (s : State) (ag : Nat) (a : Reg) (b : Src7) (f : Word → Word → Word) : Word := f (s.a32 ag a) (s.b7 ag b)
/-- An extended form on a and b. -/
def State.abx (s : State) (ag : Nat) (a : Reg) (b : Src) (f : Word → Word → Word) : Word := f (s.a32 ag a) (s.b32 ag b)

/-! ## ILL (R71) -/

/-- ILL: cause 0x01, reason 2, in every thread that issues the word, whatever its guard (R71, R72). -/
def execIll (x : BitVec 22) (w : Bool) (l : BitVec 2) (s : State) : Result :=
  .next (s.issue (.ill x w l) (perThread fun _ s => (s, .trap 0x01 0#64 2#32)))

/-! ## Moves, arithmetic and logic (R152) -/
/-- MOV (R152). -/
def execMov (w : Bool) (d : Reg) (b : Src7) (s : State) : Result :=
  s.reg1 (.mov w d b) 2 d fun s ag => s.b7 ag b
/-- MOV and MOVI, extended (R152). -/
def execMovExt (c0 : Ctl) (d : Reg) (b : Src) (s : State) : Result :=
  s.reg1 (.movExt c0 d b) 2 d fun s ag => s.b32 ag b
/-- ADD (R152). -/
def execAdd (w : Bool) (d : Reg) (a : Reg) (b : Src7) (s : State) : Result :=
  s.reg1 (.add w d a b) 2 d fun s ag => s.ab ag a b (vAdd false)
/-- ADD, extended (R152). -/
def execAddExt (c0 : Ctl) (sat : Bool) (d : Reg) (a : Reg) (b : Src) (s : State) : Result :=
  s.reg1 (.addExt c0 sat d a b) 2 d fun s ag => s.abx ag a b (vAdd sat)
/-- SUB (R152). -/
def execSub (w : Bool) (d : Reg) (a : Reg) (b : Src7) (s : State) : Result :=
  s.reg1 (.sub w d a b) 2 d fun s ag => s.ab ag a b (vSub false)
/-- SUB, extended (R152). -/
def execSubExt (c0 : Ctl) (sat : Bool) (d : Reg) (a : Reg) (b : Src) (s : State) : Result :=
  s.reg1 (.subExt c0 sat d a b) 2 d fun s ag => s.abx ag a b (vSub sat)
/-- MUL (R152). -/
def execMul (w : Bool) (d : Reg) (a : Reg) (b : Src7) (s : State) : Result :=
  s.reg1 (.mul w d a b) 4 d fun s ag => s.ab ag a b (· * ·)
/-- MUL, extended (R152). -/
def execMulExt (c0 : Ctl) (d : Reg) (a : Reg) (b : Src) (s : State) : Result :=
  s.reg1 (.mulExt c0 d a b) 4 d fun s ag => s.abx ag a b (· * ·)
/-- MULH (R152). -/
def execMulh (w : Bool) (d : Reg) (a : Reg) (b : Src7) (s : State) : Result :=
  s.reg1 (.mulh w d a b) 4 d fun s ag => s.ab ag a b (vMulh false)
/-- MULH, extended (R152). -/
def execMulhExt (c0 : Ctl) (u : Bool) (d : Reg) (a : Reg) (b : Src) (s : State) : Result :=
  s.reg1 (.mulhExt c0 u d a b) 4 d fun s ag => s.abx ag a b (vMulh u)
/-- MAD (R152). -/
def execMad (c0 : Ctl) (d : Reg) (a : Reg) (b : Src) (c : Reg) (s : State) : Result :=
  s.reg1 (.mad c0 d a b c) 4 d fun s ag => s.abx ag a b (· * ·) + s.c32 ag c
/-- MIN (R152). -/
def execMin (w : Bool) (d : Reg) (a : Reg) (b : Src7) (s : State) : Result :=
  s.reg1 (.min w d a b) 2 d fun s ag => s.ab ag a b (vMin false)
/-- MIN, extended (R152). -/
def execMinExt (c0 : Ctl) (u : Bool) (d : Reg) (a : Reg) (b : Src) (s : State) : Result :=
  s.reg1 (.minExt c0 u d a b) 2 d fun s ag => s.abx ag a b (vMin u)
/-- MAX (R152). -/
def execMax (w : Bool) (d : Reg) (a : Reg) (b : Src7) (s : State) : Result :=
  s.reg1 (.max w d a b) 2 d fun s ag => s.ab ag a b (vMax false)
/-- MAX, extended (R152). -/
def execMaxExt (c0 : Ctl) (u : Bool) (d : Reg) (a : Reg) (b : Src) (s : State) : Result :=
  s.reg1 (.maxExt c0 u d a b) 2 d fun s ag => s.abx ag a b (vMax u)
/-- AND (R152). -/
def execAnd (w : Bool) (d : Reg) (a : Reg) (b : Src7) (s : State) : Result :=
  s.reg1 (.and w d a b) 2 d fun s ag => s.ab ag a b (· &&& ·)
/-- AND, extended (R152). -/
def execAndExt (c0 : Ctl) (d : Reg) (a : Reg) (b : Src) (s : State) : Result :=
  s.reg1 (.andExt c0 d a b) 2 d fun s ag => s.abx ag a b (· &&& ·)
/-- OR (R152). -/
def execOr (w : Bool) (d : Reg) (a : Reg) (b : Src7) (s : State) : Result :=
  s.reg1 (.or w d a b) 2 d fun s ag => s.ab ag a b (· ||| ·)
/-- OR, extended (R152). -/
def execOrExt (c0 : Ctl) (d : Reg) (a : Reg) (b : Src) (s : State) : Result :=
  s.reg1 (.orExt c0 d a b) 2 d fun s ag => s.abx ag a b (· ||| ·)
/-- XOR (R152). -/
def execXor (w : Bool) (d : Reg) (a : Reg) (b : Src7) (s : State) : Result :=
  s.reg1 (.xor w d a b) 2 d fun s ag => s.ab ag a b (· ^^^ ·)
/-- XOR, extended (R152). -/
def execXorExt (c0 : Ctl) (d : Reg) (a : Reg) (b : Src) (s : State) : Result :=
  s.reg1 (.xorExt c0 d a b) 2 d fun s ag => s.abx ag a b (· ^^^ ·)
/-- SHL (R153). -/
def execShl (w : Bool) (d : Reg) (a : Reg) (b : Src7) (s : State) : Result :=
  s.reg1 (.shl w d a b) 2 d fun s ag => s.ab ag a b vShl
/-- SHL, extended (R153). -/
def execShlExt (c0 : Ctl) (d : Reg) (a : Reg) (b : Src) (s : State) : Result :=
  s.reg1 (.shlExt c0 d a b) 2 d fun s ag => s.abx ag a b vShl
/-- SHR (R153). -/
def execShr (w : Bool) (d : Reg) (a : Reg) (b : Src7) (s : State) : Result :=
  s.reg1 (.shr w d a b) 2 d fun s ag => s.ab ag a b vShr
/-- SHR, extended (R153). -/
def execShrExt (c0 : Ctl) (d : Reg) (a : Reg) (b : Src) (s : State) : Result :=
  s.reg1 (.shrExt c0 d a b) 2 d fun s ag => s.abx ag a b vShr
/-- SAR (R153). -/
def execSar (w : Bool) (d : Reg) (a : Reg) (b : Src7) (s : State) : Result :=
  s.reg1 (.sar w d a b) 2 d fun s ag => s.ab ag a b vSar
/-- SAR, extended (R153). -/
def execSarExt (c0 : Ctl) (d : Reg) (a : Reg) (b : Src) (s : State) : Result :=
  s.reg1 (.sarExt c0 d a b) 2 d fun s ag => s.abx ag a b vSar
/-- ROT (R153). -/
def execRot (w : Bool) (d : Reg) (a : Reg) (b : Src7) (s : State) : Result :=
  s.reg1 (.rot w d a b) 2 d fun s ag => s.ab ag a b vRot
/-- ROT, extended (R153). -/
def execRotExt (c0 : Ctl) (d : Reg) (a : Reg) (b : Src) (s : State) : Result :=
  s.reg1 (.rotExt c0 d a b) 2 d fun s ag => s.abx ag a b vRot
/-- BFX (R154). -/
def execBfx (w : Bool) (d : Reg) (a : Reg) (b : Src7) (s : State) : Result :=
  s.reg1 (.bfx w d a b) 2 d fun s ag => s.ab ag a b (vBfx false)
/-- BFX, extended (R154). -/
def execBfxExt (c0 : Ctl) (sx : Bool) (d : Reg) (a : Reg) (b : Src) (s : State) : Result :=
  s.reg1 (.bfxExt c0 sx d a b) 2 d fun s ag => s.abx ag a b (vBfx sx)
/-- BFI (R154). -/
def execBfi (c0 : Ctl) (d : Reg) (a : Reg) (b : Src) (c : Reg) (s : State) : Result :=
  s.reg1 (.bfi c0 d a b c) 2 d fun s ag => vBfi (s.a32 ag a) (s.b32 ag b) (s.c32 ag c)
/-- SEL (R155). -/
def execSel (c0 : Ctl) (n : Bool) (d : Reg) (a : Reg) (b : Src) (p : BitVec 3) (s : State) : Result :=
  s.reg1 (.sel c0 n d a b p) 2 d fun s ag => bif xor (s.pred ag 3 p) n then s.a32 ag a else s.b32 ag b
/-- CMP (R156). -/
def execCmp (c0 : Ctl) (cc : BitVec 4) (pd : BitVec 3) (a : Reg) (b : Src) (s : State) : Result :=
  s.pred1 (.cmp c0 cc pd a b) 2 pd fun s ag => vCmp cc (s.a32 ag a) (s.b32 ag b)
/-- PLOG (R157). -/
def execPlog (c0 : Ctl) (lut : BitVec 8) (pd : BitVec 3) (pa : BitVec 3) (pb : BitVec 3) (pc : BitVec 3) (s : State) : Result :=
  s.pred1 (.plog c0 lut pd pa pb pc) 2 pd fun s ag => vPlog lut (s.pred ag 1 pa) (s.pred ag 2 pb) (s.pred ag 3 pc)
/-- LEA (R158). -/
def execLea (w : Bool) (d : Reg) (a : Reg) (b : Src7) (s : State) : Result :=
  s.reg2 (.lea w d a b) 2 d fun s ag => vLea 0#3 false (s.a64 ag a) (s.b7 ag b)
/-- LEA, extended (R158). -/
def execLeaExt (c0 : Ctl) (sh : BitVec 3) (u : Bool) (d : Reg) (a : Reg) (b : Src) (s : State) : Result :=
  s.reg2 (.leaExt c0 sh u d a b) 2 d fun s ag => vLea sh u (s.a64 ag a) (s.b32 ag b)
/-- ADD64 (R159). -/
def execAdd64 (c0 : Ctl) (d : Reg) (a : Reg) (b : Src) (s : State) : Result :=
  s.reg2 (.add64 c0 d a b) 3 d fun s ag => s.a64 ag a + s.b64 ag b
/-- SUB64 (R159). -/
def execSub64 (c0 : Ctl) (d : Reg) (a : Reg) (b : Src) (s : State) : Result :=
  s.reg2 (.sub64 c0 d a b) 3 d fun s ag => s.a64 ag a - s.b64 ag b
/-- SHL64 (R159). -/
def execShl64 (c0 : Ctl) (d : Reg) (a : Reg) (b : Src) (s : State) : Result :=
  s.reg2 (.shl64 c0 d a b) 3 d fun s ag => vShl64 (s.a64 ag a) (s.b32 ag b)
/-- SHR64 (R159). -/
def execShr64 (c0 : Ctl) (d : Reg) (a : Reg) (b : Src) (s : State) : Result :=
  s.reg2 (.shr64 c0 d a b) 3 d fun s ag => vShr64 (s.a64 ag a) (s.b32 ag b)
/-- CMP64 (R159). -/
def execCmp64 (c0 : Ctl) (cc : BitVec 4) (pd : BitVec 3) (a : Reg) (b : Src) (s : State) : Result :=
  s.pred1 (.cmp64 c0 cc pd a b) 3 pd fun s ag => vCmp cc (s.a64 ag a) (s.b64 ag b)
/-- ABS (R160). -/
def execAbs (c0 : Ctl) (sat : Bool) (d : Reg) (a : Reg) (s : State) : Result :=
  s.reg1 (.abs c0 sat d a) 2 d fun s ag => vAbs sat (s.a32 ag a)
/-- NEG (R160). -/
def execNeg (c0 : Ctl) (sat : Bool) (d : Reg) (a : Reg) (s : State) : Result :=
  s.reg1 (.neg c0 sat d a) 2 d fun s ag => vNeg sat (s.a32 ag a)
/-- NOT (R160). -/
def execNot (c0 : Ctl) (d : Reg) (a : Reg) (s : State) : Result :=
  s.reg1 (.not c0 d a) 2 d fun s ag => ~~~(s.a32 ag a)
/-- POPC (R160). -/
def execPopc (c0 : Ctl) (d : Reg) (a : Reg) (s : State) : Result :=
  s.reg1 (.popc c0 d a) 2 d fun s ag => vPopc (s.a32 ag a)
/-- CLZ (R160). -/
def execClz (c0 : Ctl) (d : Reg) (a : Reg) (s : State) : Result :=
  s.reg1 (.clz c0 d a) 2 d fun s ag => vClz (s.a32 ag a)
/-- BREV (R160). -/
def execBrev (c0 : Ctl) (d : Reg) (a : Reg) (s : State) : Result :=
  s.reg1 (.brev c0 d a) 2 d fun s ag => vBrev (s.a32 ag a)
/-- SEXT8 (R160). -/
def execSext8 (c0 : Ctl) (d : Reg) (a : Reg) (s : State) : Result :=
  s.reg1 (.sext8 c0 d a) 2 d fun s ag => ((s.a32 ag a).extractLsb' 0 8).signExtend 32
/-- SEXT16 (R160). -/
def execSext16 (c0 : Ctl) (d : Reg) (a : Reg) (s : State) : Result :=
  s.reg1 (.sext16 c0 d a) 2 d fun s ag => ((s.a32 ag a).extractLsb' 0 16).signExtend 32
/-- ZEXT8 (R160). -/
def execZext8 (c0 : Ctl) (d : Reg) (a : Reg) (s : State) : Result :=
  s.reg1 (.zext8 c0 d a) 2 d fun s ag => ((s.a32 ag a).extractLsb' 0 8).setWidth 32
/-- ZEXT16 (R160). -/
def execZext16 (c0 : Ctl) (d : Reg) (a : Reg) (s : State) : Result :=
  s.reg1 (.zext16 c0 d a) 2 d fun s ag => ((s.a32 ag a).extractLsb' 0 16).setWidth 32

/-! ## Special registers (R161 to R163) -/

/-- CSRR (R162, R163). The spec gives it latency 2, and lets a read at distance 1 return the old value or the new one (R57, R58); the run of R325 to R328, which reads %tid at distance 1 and gives one exact final state, needs the new one, and that is what the model's reads return: DEDUCED, log entry 55. -/
def State.csrRead1 (s : State) (ag n : Nat) (d : Reg) : State × Fate :=
  if n = 0x020 then
    (s.wrReg ag 1 d (s.readFstat ag), .next)
  else
    let (s, x) := s.csrRead ag n
    (s.wrReg ag 1 d x, .next)
/-- CSRW: takes effect at distance 2 (R57, R58, R162, R243). -/
def State.csrWrite1 (s : State) (ag n : Nat) (x : Word) : State :=
  if n = 0x020 then s.writeFstat ag x
  else if 0x800 ≤ n then s.debugWrite ag n x
  else s.wr ag 2 (some (.csr n)) x
/-- CSRR (R162). -/
def execCsrr (w : Bool) (d : Reg) (num : BitVec 15) (s : State) : Result :=
  .next (s.issue (.csrr w d num) (perThread fun ag s => s.csrRead1 ag num.toNat d))
/-- CSRR, extended (R162). -/
def execCsrrExt (c0 : Ctl) (d : Reg) (num : BitVec 16) (s : State) : Result :=
  .next (s.issue (.csrrExt c0 d num) (perThread fun ag s => s.csrRead1 ag num.toNat d))
/-- CSRW (R162). -/
def execCsrw (w : Bool) (a : Reg) (num : BitVec 15) (s : State) : Result :=
  .next (s.issue (.csrw w a num) (plain fun ag s => s.csrWrite1 ag num.toNat (s.a32 ag a)))
/-- CSRW, extended (R162). -/
def execCsrwExt (c0 : Ctl) (a : Reg) (num : BitVec 16) (s : State) : Result :=
  .next (s.issue (.csrwExt c0 a num) (plain fun ag s => s.csrWrite1 ag num.toNat (s.a32 ag a)))
/-- NOP (R163). -/
def execNop (w : Bool) (s : State) : Result :=
  .next (s.issue (.nop w) (plain fun _ s => s))

end Sys2Proof.Machine
end

