-- ==== Sys2Proof/Machine/Queue.lean ====
section
/-! DEFINITION. Store queues, atomic operations and range locks (R98 to R101, R116, R218, R221). -/

namespace Sys2Proof.Machine

/-! ## Atomic operations (R218), numbered as ATOM's minors -/

/-- The new value of an atomic operation on n bytes. -/
def amoNew (op n old b c : Nat) : Nat :=
  let w := 8 * n
  match op with
  | 0 => (old + b) % 2 ^ w
  | 1 => bif decide (sext old w ≤ sext b w) then old else b
  | 2 => bif decide (sext old w ≤ sext b w) then b else old
  | 3 => min old b
  | 4 => max old b
  | 5 => old &&& b
  | 6 => old ||| b
  | 7 => old ^^^ b
  | 8 => b
  | 9 => bif old == b then c else old
  | _ => (convert 0 (fsumV [elemValue 0 old, elemValue 0 b] .rne).1 .rne false 0).1

/-! ## Store queues (R98) -/

/-- The store queue of an agent: its group's, or the front end's own. -/
def State.sq (s : State) (ag : Nat) : List SqEntry :=
  match (s.agent ag).home.group with
  | some g => (s.group g).sq
  | none => (s.share (s.shareOf ag)).feSq
/-- Replace the store queue of an agent. -/
def State.setSq (s : State) (ag : Nat) (q : List SqEntry) : State :=
  match (s.agent ag).home.group with
  | some g => s.modGroup g fun x => { x with sq := q }
  | none => s.modShare (s.shareOf ag) fun x => { x with feSq := q }
/-- Bytes an entry covers. -/
def SqEntry.size (e : SqEntry) : Nat :=
  match e.op with
  | .store bs => bs.length
  | .red _ n _ => n
/-- Two byte ranges meet. -/
def meets (a n b m : Nat) : Bool := decide (a < b + m) && decide (b < a + n)
/-- Perform a store-queue entry (R98, R100). -/
def State.perform (s : State) (e : SqEntry) : State :=
  match e.op with
  | .store bs => s.writeHome e.task e.ag e.pa e.h11 bs
  | .red op n b =>
    let old := leNat (s.readAs e.task e.pa n)
    (s.noteRead e.task e.pa n).writeHome e.task e.ag e.pa e.h11 (natLe n (amoNew op n old b.toNat 0))
/-- An entry can drain: no hand-over holds its stack (R253). -/
def State.canDrain (s : State) (e : SqEntry) : Bool := !(region e.pa == 0 && s.handing (stackOf e.pa))
/-- Drain the first n entries of a queue, as far as they can; the state and whether all n have drained. -/
def State.drainFirst (s : State) (ag : Nat) : Nat → State × Bool
  | 0 => (s, true)
  | n + 1 =>
    match s.sq ag with
    | [] => (s, true)
    | e :: rest => bif s.canDrain e then ((s.setSq ag rest).perform e).drainFirst ag n else (s, false)
/-- Drain a whole queue. -/
def State.drainAll (s : State) (ag : Nat) : State × Bool := s.drainFirst ag (s.sq ag).length
/-- Drain the queues of a list of agents. -/
def State.drainAgents (s : State) : List Nat → State × Bool
  | [] => (s, true)
  | a :: rest =>
    let (s, ok) := s.drainAll a
    let (s, ok2) := s.drainAgents rest
    (s, ok && ok2)
/-- Index of the youngest entry that meets a load's bytes (R99). -/
def youngest (pa n : Nat) (q : List SqEntry) : Option Nat :=
  (q.zipIdx.filter fun (e, _) => meets pa n e.pa e.size).foldl (fun _ (_, k) => some k) none
/-- Bytes a load sees, by its queue, its task's version, then committed memory; none while entries must drain and cannot (R97, R99, R118). -/
def State.readQueued (s : State) (ag pa n : Nat) : State × Option (List Byte) :=
  let t := s.taskOf ag
  let q := s.sq ag
  let now := fun (s : State) => (s.noteRead t pa n, some (s.readAs t pa n))
  match youngest pa n q with
  | none => now s
  | some k =>
    let e := q.getD k default
    match e.op with
    | .store bs =>
      if e.pa ≤ pa ∧ pa + n ≤ e.pa + bs.length then (s.noteRead t pa n, some ((bs.drop (pa - e.pa)).take n))
      else
        let (s, ok) := s.drainFirst ag (k + 1)
        if ok then now s else (s, none)
    | .red _ _ _ =>
      let (s, ok) := s.drainFirst ag (k + 1)
      if ok then now s else (s, none)

/-! ## Range locks seen from a thread (R116, R221) -/

/-- The lowest locked byte that stops an access of n bytes at a virtual address on a core, with the lowest entry that locks it. -/
def State.lockHit (s : State) (core vd : Nat) (va : DWord) (n : Nat) (store : Bool) : Option (DWord × Nat × Bool) :=
  let hits := (s.core core).locks.zipIdx.filterMap fun (l, k) =>
    match l with
    | some r =>
      if r.vd = vd ∧ va ≤ r.hi ∧ r.lo.toNat < va.toNat + n ∧ (r.dest = true ∨ store = true) then
        some (bif decide (va < r.lo) then r.lo else va, k, r.dest) else none
    | none => none
  hits.foldl (fun b h => match b with
    | some x => bif decide (h.1 < x.1) then some h else some x
    | none => some h) none
/-- %tinfo of cause 0x09 (R221). -/
def lockInfo (k : Nat) (dest : Bool) : Word := BitVec.ofNat 32 (k + bif dest then 256 else 0)

end Sys2Proof.Machine
end

