-- ==== Sys2Proof/Machine/Budget.lean ====
section
/-! DEFINITION. A virtual device's descriptor and its time budget on a core (24 R414, R416). -/

namespace Sys2Proof.Machine

/-- The virtual device's CLMASK includes the core's cluster, and its partition holds the core (R412, R414). -/
def State.mayUse (s : State) (v core : Nat) : Bool :=
  bits (field (s.vdev v).desc 16 4) (clusterOf core) 1 == 1 && (s.hearth.config.unified || dieOf core == partOf v)
/-- Virtual devices of a partition that are defined. -/
def State.defined (s : State) (part : Nat) : List Nat :=
  ((List.range 16).map (part * 16 + ·)).filter fun v => (s.vdev v).state != .absent
/-- SLICE in ns (R414). -/
def State.sliceNs (s : State) (v : Nat) : Nat :=
  let x := field (s.vdev v).desc 4 4
  (bif x == 0 then 2000 else x) * 1000
/-- PERIOD in ns on a core (R414). -/
def State.periodNs (s : State) (v core : Nat) : Nat :=
  let x := field (s.vdev v).desc 8 4
  bif x == 0 then s.sliceNs v * ((s.defined (partOf v)).filter fun u => s.mayUse u core).length else x * 1000
/-- (1 + CARRY) × SLICE in ns (R414, R416). -/
def State.maxBucket (s : State) (v : Nat) : Nat := (1 + field (s.vdev v).desc 3 1) * s.sliceNs v
/-- The slice-end handler budget in ns (R414). -/
def State.handlerNs (s : State) (v : Nat) : Nat :=
  let x := field (s.vdev v).desc 20 2
  (bif x == 0xFFFF then 40 else x) * 1000
/-- A bucket as it was last brought up to date; full where nothing has been drawn from it (R418). -/
def State.bucketKept (s : State) (v core : Nat) : Nat := ((s.vdev v).bucket.lookup core).getD (s.maxBucket v)
/-- B(v, c) at a moment: what the run in progress has used by then is taken off, down to 0 (R416). -/
def State.bucketAt (s : State) (v core t : Nat) : Nat :=
  let x := (s.core core).slice
  bif x.vd == some v && x.charged then s.bucketKept v core - (t - x.acct) else s.bucketKept v core
/-- B(v, c) now (R416). -/
def State.bucketOf (s : State) (v core : Nat) : Nat := s.bucketAt v core s.now
/-- Replace a bucket. -/
def State.setBucket (s : State) (v core n : Nat) : State :=
  s.modVdev v fun d => { d with bucket := (core, n) :: d.bucket.filter fun p => p.1 != core }
/-- Change the slice of a core. -/
def State.modSlice (s : State) (core : Nat) (f : Slice → Slice) : State :=
  s.modCore core fun c => { c with slice := f c.slice }
/-- Charge the run in progress on a core up to now (R416). -/
def State.account (s : State) (core : Nat) : State :=
  match (s.core core).slice.vd with
  | none => s
  | some v => (s.setBucket v core (s.bucketOf v core)).modSlice core fun x => { x with acct := s.now }
/-- Charge a virtual device's run in progress on a core, if it has one, up to a moment (R416). -/
def State.accountTo (s : State) (v core t : Nat) : State :=
  (s.setBucket v core (s.bucketAt v core t)).modSlice core fun x => bif x.vd == some v then { x with acct := max x.acct t } else x
/-- A run of a virtual device starts on a core: it waits there for eligibility afresh when the run ends (R416). -/
def State.startRun (s : State) (v core : Nat) (charged : Bool) (forced : Option Nat) : State :=
  (s.modSlice core fun x => { x with vd := some v, start := s.now, acct := s.now, charged := charged, forced := forced }).modVdev v
    fun d => { d with since := d.since.filter fun p => p.1 != core }
/-- The virtual device is not switched out: some core it may use runs it, or runs none. -/
def State.switchedIn (s : State) (v : Nat) : Bool :=
  (List.range s.lanes.cores.length).any fun c => s.mayUse v c &&
    ((s.core c).slice.vd.isNone || (s.core c).slice.vd == some v)

end Sys2Proof.Machine
end

