-- ==== Sys2Proof/Machine/Tasks.lean ====
section
/-! DEFINITION. Starting, placing, forming, committing and restarting tasks (06 R126 to R133, 08 R201 to R203,
11 R237, 22 R376 to R391). -/

namespace Sys2Proof.Machine

/-! ## Starting threads (R89, R129, R232, R312) -/

/-- An extrapolation context at thread start (R312). -/
def XCtx.start : XCtx :=
  { meth := 1#2, depth := 3#4, intvl := 1#17, ts := 0#32, tz := 0#32, hist := List.replicate 8 0#32, cnt := 0, phase := 0#16, fresh := true,
    v := false, last := 0x7FC00000#32, lflags := 0x008#12 }
/-- %rngseed at thread start (R89): `base` is team[31:0], or %task in a formed group. -/
def startSeed (seed : Word) (base tid : Nat) : Word :=
  let x := seed ^^^ BitVec.ofNat 32 ((base % 2 ^ 32 * 12288 + tid + 1) * 0x9E3779B9)
  bif x == 0#32 then 1#32 else x
/-- Consumer groups of a kernel's team. -/
def Kernel.nc (k : Kernel) : Nat := k.ngroups - k.nprod
/-- Register budget of a role (R32, R130). -/
def Kernel.budget (k : Kernel) (producer : Bool) : Nat := bif producer then k.pregs else k.cregs
/-- Registers a budget occupies: 255 takes 256, and allocation is in units of 8 (R130). -/
def occupied (b : Nat) : Nat := (b + 7) / 8 * 8
/-- The address a thread or front end starts at (R129, R203, R407). -/
def State.entryOf (s : State) (ag : Nat) : DWord :=
  let a := s.agent ag
  let t := s.task (s.taskOf ag)
  let k := s.kernelOf ag
  match a.home.group with
  | none => k.kobj + BitVec.ofNat 64 k.entries.2.2
  | some g =>
    if t.billet then (t.starts.getD a.home.idx default).1.code
    else k.kobj + BitVec.ofNat 64 (bif (s.group g).producer then k.entries.2.1 else k.entries.1)
/-- A thread or front end as it starts (R129, R131, R203, R232). v0:v1 of a formed group's thread is FRAME's 48 bits zero-extended: R203 and R383 do not say whether it is zero- or sign-extended, so this is the model's choice; log entry 52. -/
def State.startAgent (s : State) (ag : Nat) : Agent :=
  let a := s.agent ag
  let t := s.task (s.taskOf ag)
  let l := s.launch t.launch
  let lacks := match a.home.group with
    | none => !l.kernel.fe || t.billet
    | some _ => t.billet && decide (t.starts.length ≤ a.home.idx)
  let frame := (t.starts.getD a.home.idx default).1.frame
  let zeros := List.replicate a.home.budget 0#32
  { home := a.home,
    regs := bif t.billet && !a.isFE then (zeros.set 0 (frame.setWidth 32)).set 1 ((frame.extractLsb' 32 16).setWidth 32) else zeros,
    preds := 0x80#8, pc := s.entryOf ag, status := bif lacks then .ended else .ready, issued := 0, pend := [], outst := [],
    fp := { fstat := 0#5, frm := 0#32,
            rngseed := bif a.isFE then 0#32 else startSeed l.par.seed (bif t.billet then t.id.toNat else t.team) (s.tid ag),
            fpend := [], time := none, clock := none },
    trap := { h := false, cause := 0#32, rpc := 0#64, addr := 0#64, info := 0#32, vec := l.par.tvec, scratch := 0#32 },
    link := [], dqRead := (s.share a.home.share).dqFreed, supp := none, arrived := [],
    xctx := List.replicate (s.ctxCount ag) XCtx.start, halt := none, async := [], skipBp := false, stepOnce := false,
    wHold := false, sliceEnd := false, drains := [], relAt := none }
/-- Start agents afresh. -/
def State.startAgents (s : State) : List Nat → State
  | [] => s
  | a :: rest => (s.modAgent a fun _ => s.startAgent a).startAgents rest
/-- Start an agent in a task trap: H = 1 at its start %tvec, with the fault's cause, address and detail; %trpc is its entry (R237). -/
def State.startTrap (s : State) (f : FaultInfo) (ag : Nat) : State :=
  let a := s.agent ag
  bif a.status != .ready then s else s.takeTrapWith ag f.cause a.pc f.addr f.info f.short 0

/-! ## Fitting and placing shares (R130 to R133, R213, R422) -/

/-- A group still holds its registers: a live thread, or a signature waiting to issue (R148). -/
def State.groupHolds (s : State) (g : Nat) : Bool :=
  (s.group g).members.any fun a => s.live a ||
    (s.task (s.taskOf a)).cvs.any fun c => c.sigs.any fun x => x.1 == a
/-- Shares resident on a core. -/
def State.residents (s : State) (core : Nat) : List Nat :=
  (List.range s.lanes.shares.length).filter fun h => (s.share h).core == core && (s.share h).state == .resident
/-- What a lane of a partition carries: threads, registers and extrapolation contexts (R130, R311). -/
structure Load where
  threads : Nat
  regs : Nat
  /-- By lane: a thread that has ended holds none (R324). -/
  ctxs : List Nat
  deriving DecidableEq, Repr, Inhabited
/-- What a group to be placed needs: its width, its register budget and the contexts of its threads by lane. -/
structure Need where
  width : Nat
  budget : Nat
  ctxs : List Nat
  deriving DecidableEq, Repr, Inhabited
/-- A lane with a group added: the group has width ÷ 32 threads on it. -/
def Load.add (l : Load) (x : Need) : Load :=
  let n := x.width / 32
  ⟨l.threads + n, l.regs + n * occupied x.budget, l.ctxs.zipWith (· + ·) x.ctxs⟩
/-- A lane holds 8 threads, 1,024 registers and 8 contexts (R130, R311). -/
def Load.ok (l : Load) : Bool := decide (l.threads ≤ 8) && decide (l.regs ≤ 1024) && l.ctxs.all fun n => decide (n ≤ 8)
/-- Nothing on a lane. -/
def Load.none : Load := ⟨0, 0, List.replicate 32 0⟩
/-- Contexts by lane of threads that hold c each: thread i lies on lane i mod 32 (R126, R311). -/
def laneCtxs (c : Nat) (idxs : List Nat) : List Nat := (List.range 32).map fun i => c * idxs.countP fun n => n % 32 == i
/-- What a group needs; a thread that has ended has released its contexts (R324). -/
def State.groupShape (s : State) (g : Nat) : Need :=
  let x := s.group g
  let ag := x.members.headD 0
  let k := s.kernelOf ag
  ⟨x.width, (s.agent ag).home.budget,
    laneCtxs (bif x.producer then k.pxc else k.cxc) ((x.members.filter s.live).map fun a => (s.agent a).home.idx)⟩
/-- What the lanes of the six partitions of a core carry. -/
def State.load6 (s : State) (core : Nat) : List Load :=
  (s.residents core).foldl (fun l h => (s.share h).groups.foldl (fun l g =>
    bif s.groupHolds g then l.modify (s.group g).part fun p => p.add (s.groupShape g) else l) l)
    (List.replicate 6 Load.none)
/-- Put groups on the lowest partitions where they fit (R130, R132, R311). -/
def fitGroups : List Load → List Need → Option (List Nat)
  | _, [] => some []
  | load, x :: rest =>
    match load.findIdx? fun p => (p.add x).ok with
    | none => none
    | some p => (fitGroups (load.modify p fun q => q.add x) rest).map (p :: ·)
/-- Accumulator tiles that the resident shares of a core hold (R284). -/
def State.tilesHeld (s : State) (core : Nat) : Nat := ((s.residents core).map fun h => (s.share h).tiles.length).sum
/-- The lowest offset at which a window of n bytes is free within a carve-out of c bytes. -/
def freeOffset (used : List (Nat × Nat)) (n c : Nat) : Option Nat :=
  ((0 :: used.map fun (b, m) => b + m).filter fun o =>
    decide (o + n ≤ c) && used.all fun (b, m) => decide (o + n ≤ b) || decide (b + m ≤ o) || n == 0).min?
/-- The virtual device may use a core: its cluster is in CLMASK (R414), and the core runs no other device's shares (R248). -/
def State.coreOpen (s : State) (v core : Nat) : Bool :=
  let c := s.core core
  s.mayUse v core && (s.vdev v).state == .ready && !(s.vdev v).heldMsg.elem 1 &&
  (c.slice.vd.isNone || c.slice.vd == some v) && c.slice.ending.isNone
/-- Where a share fits on a core: the partitions of its groups and its window's offset (R132, R213, R284, R422). -/
def State.fits (s : State) (v core : Nat) (gs : List Need) (size tiles : Nat) : Option (List Nat × Nat) :=
  let c := s.core core
  let cap := min c.ways (c.waysNext.getD c.ways) * 131072
  bif s.coreOpen v core && decide ((s.residents core).length < 8) && decide (s.tilesHeld core + tiles ≤ 8) then
    match fitGroups (s.load6 core) gs,
      freeOffset ((s.residents core).map fun h => ((s.share h).base, (s.share h).size)) size cap with
    | some ps, some o => some (ps, o)
    | _, _ => none
  else none
/-- What a share's groups need. -/
def State.shapeOf (s : State) (h : Nat) : List Need := (s.share h).groups.map s.groupShape
/-- The core begins to run a virtual device: charged where its bucket holds a slice, else as spare time (R416). -/
def State.beginRun (s : State) (v core : Nat) : State :=
  bif (s.core core).slice.vd.isNone then s.startRun v core (decide (s.sliceNs v ≤ s.bucketOf v core)) none else s
/-- A run of a task starts: later commits are checked against it, and its first run fixes its age (R381, R382). -/
def Task.runs (t : Task) (commits moves : Nat) : Task :=
  { t with ver := { t.ver with since := commits }, born := bif t.born == 0 then moves + 1 else t.born }
/-- Place a waiting share on a core, where it fits. -/
def State.place (s : State) (h core : Nat) : Option State :=
  let x := s.share h
  let v := s.taskVd x.task
  bif x.state != .waiting then none else
  (s.fits v core (s.shapeOf h) x.size x.tiles.length).map fun (ps, o) =>
    let s := (x.groups.zip ps).foldl (fun s (g, p) => s.modGroup g fun y => { y with part := p }) s
    let s := s.modTask x.task fun t => t.runs s.store.commits.length s.moves
    (s.modShare h fun y => { y with core := core, state := .resident, base := o }).beginRun v core

/-- n things in k runs whose sizes differ by at most one, the larger first: the start and size of run j (R133). -/
def runOf (n k j : Nat) : Nat × Nat :=
  let q := n / k
  let r := n % k
  (j * q + min j r, q + bif decide (j < r) then 1 else 0)
/-- Group numbers of share j of k (R133). -/
def Kernel.shareGroups (k : Kernel) (shares j : Nat) : List Nat :=
  let (c0, cn) := runOf k.nc shares j
  let (p0, pn) := runOf k.nprod shares j
  (List.range cn).map (c0 + ·) ++ (List.range pn).map (k.nc + p0 + ·)
/-- What a group number needs. -/
def Kernel.shape (k : Kernel) (g : Nat) : Need :=
  let p := decide (k.nc ≤ g)
  ⟨k.gwidth, k.budget p, laneCtxs (bif p then k.pxc else k.cxc) (List.range k.gwidth)⟩
/-- A value that none of a list holds: the candidate, or the least free number. -/
def unused (used : List Word) (x : Word) : Word :=
  bif used.elem x then
    (((List.range (used.length + 1)).map (BitVec.ofNat 32 ·)).find? fun y => !used.elem y).getD x
  else x
/-- Barriers at team start (R222). -/
def startBars : List Barrier := List.replicate 16 ⟨false, false, 0#7, 0#7, 0#36, 0#32⟩
/-- Convergence registers at team start (R145). -/
def startCvs : List Cv := List.replicate 16 ⟨.idle, 0, 0, 0, [], none, none, 0, 0⟩
/-- Tasks that have not retired, of a partition. -/
def State.liveTasks (s : State) (part : Nat) : List Nat :=
  (List.range s.lanes.tasks.length).filter fun t =>
    (s.task t).state != .retired && partOf (s.taskVd t) == part
/-- Add a group of a share, with its threads. -/
def State.addGroup (s : State) (h gid : Nat) (producer : Bool) (w b : Nat) : State :=
  let g := s.lanes.groups.length
  let a := s.lanes.agents.length
  let as := (List.range w).map fun i => ({ (default : Agent) with home := ⟨h, some g, i, b⟩ } : Agent)
  let x : Group := ⟨h, gid, producer, w, 0, (List.range w).map (a + ·), List.replicate 16 none, [], [], 0, 0⟩
  let s := { s with lanes := { s.lanes with agents := s.lanes.agents ++ as, groups := s.lanes.groups ++ [x] } }
  s.modShare h fun y => { y with groups := y.groups ++ [g] }
/-- Add a share of a task, with its front end; it waits for a core. -/
def State.addShare (s : State) (t core : Nat) : State :=
  let h := s.lanes.shares.length
  let l := s.launch (s.task t).launch
  let a := s.lanes.agents.length
  let tags := (s.lanes.shares.filter fun x => x.state != .retired).map (·.ctxtag)
  let x : Share :=
    { task := t, core := core, state := .waiting, groups := [], fe := a, feSq := [], feLast := 0, base := 0,
      size := l.par.spad, pad := [], absent := [], dq := [], dqFreed := 0,
      tiles := List.replicate l.kernel.tiles [], mstatus := 0#32, sets := [], wloads := 0, current := none,
      ctxtag := unused tags (Config.ctxTag (s.free + h)), saved := Saved.empty }
  let fe : Agent := { (default : Agent) with home := ⟨h, none, 0, 64⟩ }
  let s := { s with lanes := { s.lanes with agents := s.lanes.agents ++ [fe], shares := s.lanes.shares ++ [x] } }
  s.modTask t fun k => { k with shares := k.shares ++ [h] }
/-- Add a task of a launch; its identifier is unique among the live tasks of the partition (R127). -/
def State.addTask (s : State) (l team : Nat) (billet : Bool) (prio : Nat) (starts : List (Billet × Option (Nat × Nat))) : State :=
  let x := s.launch l
  let n := s.lanes.tasks.length
  let ids := (s.liveTasks (partOf x.par.vd)).map fun t => (s.task t).id
  let k : Task :=
    { id := unused ids (Config.taskId (s.free + n)), launch := l, team := team, billet := billet, state := .live,
      settled := x.kernel.mode == 0, ver := Version.empty s.store.commits.length, shares := [], bars := startBars, barSeen := List.replicate 16 none,
      cvs := startCvs, restarts := ⟨0, 0, 0, 0#64, 0⟩, fault := none, missed := none, faultAt := 0, need := [], debug := ⟨0#32, List.replicate 4 0#64⟩,
      prio := prio, born := 0, starts := starts }
  { s with lanes := { s.lanes with tasks := s.lanes.tasks ++ [k] } }
/-- Create a team of a grid with its shares on cores, share 0 first, and start its threads (R129, R133); the shares still wait to be placed. -/
def State.addTeam (s : State) (l team : Nat) (cores : List Nat) : State :=
  let k := (s.launch l).kernel
  let t := s.lanes.tasks.length
  let s := s.addTask l team false (s.launch l).prio []
  let s := cores.zipIdx.foldl (fun s (c, j) =>
    let h := s.lanes.shares.length
    let s := s.addShare t c
    (k.shareGroups cores.length j).foldl (fun s g => s.addGroup h g (decide (k.nc ≤ g)) k.gwidth (k.shape g).budget) s) s
  s.startAgents (s.agentsOfTask t)
/-- Place the waiting shares of a task on their cores; all or none. -/
def State.placeAll (s : State) : List (Nat × Nat) → Option State
  | [] => some s
  | (h, c) :: rest => (s.place h c).bind fun s => s.placeAll rest
/-- The cores of the smallest split of a team that fits a cluster, share 0 first (R133). -/
def State.splitOn (s : State) (v : Nat) (k : Kernel) (size : Nat) (cores : List Nat) : Nat → Option (List Nat)
  | 0 => none
  | fuel + 1 =>
    let n := k.cores - fuel
    let got := (List.range n).foldl (fun (acc : Option (List Nat)) j => acc.bind fun used =>
      ((cores.filter fun c => !used.elem c).find? fun c =>
        (s.fits v c ((k.shareGroups n j).map k.shape) size k.tiles).isSome).map fun c => used ++ [c]) (some [])
    match got with
    | some cs => some cs
    | none => s.splitOn v k size cores fuel
/-- The eight cores of a cluster, counted over both dies. -/
def clusterCores (cluster : Nat) : List Nat := (List.range 8).map (cluster * 8 + ·)

/-! ## The gang former (R201 to R203, R385) -/

/-- Form a group from billets of a launch on a core: a task of one share and one group, waiting for room (R128, R203). -/
def State.formGroup (s : State) (core l : Nat) (bs : List (Billet × Option (Nat × Nat) × Nat)) : State :=
  let k := (s.launch l).kernel
  let t := s.lanes.tasks.length
  let prio := match bs with
    | b :: _ => b.2.2
    | [] => 0
  let s := s.addTask l 0 true prio (bs.map fun b => (b.1, b.2.1))
  let h := s.lanes.shares.length
  let s := (s.addShare t core).addGroup h 0 false k.gwidth k.cregs
  s.startAgents (s.agentsOfTask t)
/-- The bin of a core. -/
def State.binOf (s : State) (core no : Nat) : Option Bin := (s.core core).bins.find? fun b => b.no == no
/-- Replace a bin of a core. -/
def State.setBin (s : State) (core no : Nat) (b : Option Bin) : State :=
  s.modCore core fun c => { c with bins := (c.bins.filter fun x => x.no != no) ++ b.toList }
/-- File a billet in a bin, forming a group from other code's billets first, and a full group at once (R202, R203). A bin is known by its code address alone, whatever the launch: the model's choice, log entry 52. -/
def State.fileBillet (s : State) (core no l : Nat) (b : Billet × Option (Nat × Nat) × Nat) : State :=
  let s := match s.binOf core no with
    | some x =>
      bif x.launch != l || (x.billets.any fun y => y.1.code != b.1.code) then
        (s.formGroup core x.launch x.billets).setBin core no none
      else s
    | none => s
  match s.binOf core no with
  | none => s.setBin core no (some ⟨no, l, [b], (s.core core).clock⟩)
  | some x =>
    if 128 ≤ x.billets.length then s.modCore core fun c => { c with spill := c.spill ++ [(no, l, b.1)] }
    else
      let bs := x.billets ++ [b]
      if (s.launch l).kernel.gwidth ≤ bs.length then (s.formGroup core l bs).setBin core no none
      else s.setBin core no (some { x with billets := bs })

/-! ## The billet store (R384, R386, R391) -/

/-- Change a slot of a launch's billet store. -/
def State.modSlot (s : State) (l n : Nat) (f : Slot → Slot) : State :=
  s.modLaunch l fun x => { x with slots := x.slots.modify n f }
/-- A billet enters its level. -/
def State.makeReady (s : State) (l n : Nat) : State :=
  s.modLaunch l fun x =>
    { x with slots := x.slots.modify n (fun y => { y with state := .ready }), level := x.level ++ [n] }
/-- A reserved or new billet becomes waiting or ready (R384, R389). -/
def State.enterSlot (s : State) (l n : Nat) : State :=
  match (s.launch l).slots[n]? with
  | some x => bif x.billet.join == 0#16 then s.makeReady l n else s.modSlot l n fun y => { y with state := .waiting }
  | none => s
/-- JDEC on a handle (R391): the new count, or the reason of cause 0x05. -/
def State.jdecOn (s : State) (l : Nat) (handle : Word) (n : BitVec 16) : Except Nat (State × BitVec 16) :=
  let k := (handle.extractLsb' 0 24).toNat
  match (s.launch l).slots[k]? with
  | none => .error 20
  | some x =>
    if x.gen ≠ handle.extractLsb' 24 8 ∨ x.state ≠ .waiting then .error 20
    else if x.billet.join < n then .error 21
    else
      let j := x.billet.join - n
      let s := s.modSlot l k fun y => { y with billet := { y.billet with join := j } }
      .ok (bif j == 0#16 then s.makeReady l k else s, j)

/-! ## Commits (R119, R120, R380 to R382, R392) -/

/-- How a commit ends. -/
inductive Commit where
  /-- The task is settled. -/
  | done (s : State)
  /-- The check failed: the version is discarded and the task restarts (R381). -/
  | failed (s : State)
  /-- A hand-over holds a stack of the version (R370). -/
  | held
/-- Two signatures share a set bit. -/
def sharesBit (a b : BitVec 1024) : Bool := a &&& b != 0#1024
/-- The check of R381 and the rule of the commit token (R382). -/
def State.commitOk (s : State) (t : Nat) : Bool :=
  let v := (s.task t).ver
  let holds := s.store.tokens.any fun h => h == some t
  (!s.isolated t || holds || (s.store.commits.drop v.since).all fun w => !sharesBit v.rsig w) &&
  s.store.tokens.all fun h => match h with
    | none => true
    | some x => x == t || !(sharesBit v.wsig (s.task x).ver.rsig || sharesBit v.wsig (s.task x).ver.wsig)
/-- A task gives up the commit token (R382). -/
def State.freeToken (s : State) (t : Nat) : State :=
  s.modStore fun m => { m with tokens := m.tokens.map fun h => bif h == some t then none else h }
/-- Drop every engine command of a share (R237, R419). -/
def State.dropEngines (s : State) (h : Nat) : State :=
  let x := s.core (s.share h).core
  let charged := ((x.copyQ ++ x.copies).filter fun c => c.share == h).flatMap (·.blocks) ++
    (x.mxQ.filter fun e => e.share == h).flatMap MxEntry.blocks ++
    (s.share h).saved.copies.flatMap (·.blocks) ++ (s.share h).saved.mx.flatMap MxEntry.blocks
  let s := s.modShare h fun y => { y with saved := Saved.empty }
  let s := s.modCore (s.share h).core fun c =>
    let gone := ((c.copyQ ++ c.copies).filter fun x => x.share == h).map (·.id)
    { c with
      copyQ := c.copyQ.filter (fun x => x.share != h), copies := c.copies.filter (fun x => x.share != h),
      locks := c.locks.map (fun l => match l with
        | some r => bif gone.elem r.copy then none else some r
        | none => none),
      chains := c.chains.map (fun (u, x) => match x with
        | some y => bif y.share == some h then (u, none) else (u, some y)
        | none => (u, none)),
      mxQ := c.mxQ.filter (fun x => x.share != h),
      xQ := c.xQ.filter (fun x => x.all fun y => s.shareOf y.1 != h),
      fwd := c.fwd.map (fun f => f.filter fun x => x.share != h) }
  s.releaseIdle (distinct charged)
/-- A task is to be restarted by the scheduler: its version is discarded, and its engine commands with it (R121, R237). -/
def State.toRestart (s : State) (t : Nat) : State :=
  (((s.task t).shares.foldl State.dropEngines (s.discard t)).modTask t fun k => { k with state := .restarting, restarts := { k.restarts with n := k.restarts.n + 1 } }).modTele
    fun x => { x with restarts := x.restarts + 1 }
/-- A failed commit: the conflict is counted and the task restarts (R381). -/
def State.conflict (s : State) (t : Nat) : State :=
  (s.toRestart t).modTask t fun k => { k with restarts := { k.restarts with conflicts := k.restarts.conflicts + 1 } }
/-- Perform the work a task held until its commit, in program order (R202, R389, R391). -/
def State.performHeld (s : State) (t : Nat) : List Held → State
  | [] => s
  | w :: rest =>
    let l := (s.task t).launch
    (match w with
     | .rebin core bin b => s.fileBillet core bin l (b, none, (s.task t).prio)
     | .slot n => s.enterSlot l n
     | .jdec h n pc tid =>
       match s.jdecOn l h n with
       | .ok (s, _) => s
       | .error r => s.taskRecord t 0 ⟨0x05, pc, 0#64, BitVec.ofNat 32 r, tid, tid == 0xFFFFFFFF#32, 0⟩ 0 :
      State).performHeld t rest
/-- Commit a task's version: its last values become committed in one step, and the task is settled (R119, R120); a task that is to start again commits nothing (R381). -/
def State.commit (s : State) (t : Nat) : Commit :=
  if (s.task t).settled then .done s
  -- an earlier thread of the fragment has met a failed check
  else if s.stopped t then .failed s
  else
    let (s, ok) := s.drainAgents (s.agentsOfTask t)
    let v := (s.task t).ver
    if !ok || (v.bytes.any fun (a, _) => region a == 0 && s.handing (stackOf a)) then .held
    else if !s.commitOk t then .failed (s.conflict t)
    else
      let s := (runBytes v.bytes).foldl (fun s r => s.writeCommitted (taskMaker t) (some t) r.1 r.2) s
      let s := s.modStore fun m => { m with commits := m.commits ++ [v.wsig] }
      let s := s.modTask t fun k =>
        { k with settled := true, ver := Version.empty s.store.commits.length,
                 restarts := { k.restarts with n := 0, same := 0, conflicts := 0 } }
      let s := v.h11.foldl (fun s b => s.writeback b) s
      let s := (s.freeToken t).performHeld t v.held
      .done (s.releaseIdle v.blocks)
/-- A scope wider than team (R120). -/
def wide (scope : Nat) : Bool := decide (4 ≤ scope)
/-- A body that first commits the version of its task (R120): it waits while the commit is held, and is not performed where the check fails. -/
def State.committing (s : State) (t : Nat) (need : Bool) (k : State → State × Fate) : State × Fate :=
  if need then
    match s.commit t with
    | .done s => k s
    | .failed s => (s, .own)
    | .held => (s, .stall)
  else k s

/-! ## Restarts (R237) -/

/-- A share starts from its beginning: window, queue, tiles and sets as at share start. -/
def Share.fresh (x : Share) : Share :=
  { x with state := .waiting, feSq := [], pad := [], absent := [], dq := [], dqFreed := 0,
           tiles := x.tiles.map (fun _ => []), mstatus := 0#32, sets := [], wloads := 0, current := none,
           saved := Saved.empty }
/-- Take a task off its cores, to start again: barriers, convergence registers, shares, masks and queues as at team start (R224, R237). -/
def State.unwind (s : State) (t : Nat) : State :=
  let hs := (s.task t).shares
  let s := hs.foldl State.dropEngines s
  let s := hs.foldl (fun s h =>
    let s := s.modShare h Share.fresh
    (s.share h).groups.foldl (fun s g => s.modGroup g fun x => { x with masks := List.replicate 16 none, sq := [] }) s) s
  s.modTask t fun k => { k with bars := startBars, cvs := startCvs }
/-- Start a task again on cores; none where its shares do not fit (R237). -/
def State.restart (s : State) (t : Nat) (cores : List Nat) : Option State :=
  let k := s.task t
  let s := s.unwind t
  let unsettled := (s.launch k.launch).kernel.mode != 0
  let s := s.modTask t fun x => { x with settled := !unsettled, ver := Version.empty s.store.commits.length }
  let s := s.startAgents (s.agentsOfTask t)
  (s.placeAll (k.shares.zip cores)).map fun s => s.modTask t fun x => { x with state := .live, need := [] }

end Sys2Proof.Machine
end

