-- ==== Sys2Proof/Machine/MemOps.lean ====
section
/-! DEFINITION. Global and scratchpad accesses of threads: checks, loads, stores, atomics, fences (09 R205 to R221,
05 R98 to R106, 11 R239). -/

namespace Sys2Proof.Machine

/-! ## Checks of a global access (R70, R207, R210, R221) -/

/-- %tinfo of an access cause: size, store, scratchpad (R207). -/
def accInfo (n : Nat) (store pad : Bool) : Word :=
  BitVec.ofNat 32 (n + (bif store then 256 else 0) + bif pad then 512 else 0)
/-- What the checks of an access answer. -/
inductive Acc where
  /-- Allowed: the physical address, reserve-backed, HOME 11. -/
  | ok (pa : Nat) (rb h11 : Bool)
  /-- A fate of the thread. -/
  | fate (k : Fate)
  /-- A page that an LDZ reads as zero. -/
  | absent
  deriving DecidableEq, Repr
/-- Settings of an access check. -/
structure AccKind where
  /-- Permission needed. -/
  perm : Access
  /-- %tinfo of page causes. -/
  info : Word
  /-- LDZ: surrendered and non-resident pages read as zero. -/
  ldz : Bool
  /-- Checked against range locks, and as a store. -/
  lock : Option Bool
  /-- A system-scope atomic, refused on host memory: whether it is an ATOM, and its minor (R106). -/
  host : Option (Bool × Nat)
  deriving DecidableEq, Repr
/-- A system-scope atomic on host memory that is not performed (R106). -/
def hostRefuses (pa : Nat) : Option (Bool × Nat) → Bool
  | none => false
  | some (atom, op) => region pa == 1 && !(atom && (op == 0 || op == 8 || op == 9) && Config.atomicOps)
/-- Checks of one access that lies in one page, in the order of R70. -/
def State.access (s : State) (ag : Nat) (ea : DWord) (n align : Nat) (k : AccKind) : State × Acc :=
  if ea.toNat % align ≠ 0 then (s, .fate (.trap 0x03 ea k.info)) else
  let v := s.vdOf ag
  let c := s.coreOf ag
  let lock := match k.lock with
    | some st => s.lockHit c v ea n st
    | none => none
  let (s, x) := s.translate v c ea k.perm
  match x with
  | .held => (s, .fate .stall)
  | .bad cause =>
    if k.ldz ∧ (cause = 0x06 ∨ cause = 0x07) then
      match lock with
      | some (_, i, d) => (s, .fate (.trap 0x09 ea (lockInfo i d)))
      | none => (s, .absent)
    else (s, .fate (.trap cause ea k.info))
  | .ok pa rb h11 =>
    if hostRefuses pa k.host then (s, .fate (.trap 0x05 ea k.info))
    else
      match lock with
      | some (_, i, d) => (s, .fate (.trap 0x09 ea (lockInfo i d)))
      | none => (s, .ok pa rb h11)
/-- Cause 0x09 names the lowest address of the whole access (R221). -/
def Fate.lockAt (start : DWord) : Fate → Fate
  | .trap 0x09 _ info => .trap 0x09 start info
  | f => f
/-- Checks of a record that may straddle pages: the lowest-addressed faulting part decides (R70, R196). -/
def State.accessParts (s : State) (ag : Nat) (k : AccKind) (start : DWord) :
    List (DWord × Nat) → State × Except Fate (List (Nat × Nat × Bool × Bool))
  | [] => (s, .ok [])
  | (ea, n) :: rest =>
    match s.access ag ea n 1 k with
    | (s, .fate f) => (s, .error (f.lockAt start))
    | (s, .absent) => (s, .ok [])
    | (s, .ok pa rb h11) =>
      match s.accessParts ag k start rest with
      | (s, .error f) => (s, .error f)
      | (s, .ok l) => (s, .ok ((pa, n, rb, h11) :: l))
/-- Read a range part by part as a load of the thread (R97, R99, R118). -/
def State.readParts (s : State) (ag : Nat) : List (Nat × Nat × Bool × Bool) → State × Option (List Byte)
  | [] => (s, some [])
  | (pa, n, _, _) :: rest =>
    match s.readQueued ag pa n with
    | (s, none) => (s, none)
    | (s, some bs) =>
      match s.readParts ag rest with
      | (s, none) => (s, none)
      | (s, some cs) => (s, some (bs ++ cs))
/-- Check and read a record of n bytes, where `lock` against range locks too: its bytes, or a fate. -/
def State.readRecordBy (s : State) (lock : Option Bool) (ag : Nat) (ea : DWord) (n align : Nat) (info : Word) :
    State × Except Fate (List Byte) :=
  if ea.toNat % align ≠ 0 then (s, .error (.trap 0x03 ea info)) else
  match s.accessParts ag ⟨.load, info, false, lock, none⟩ ea (pageParts 3 ea n) with
  | (s, .error f) => (s, .error f)
  | (s, .ok ps) =>
    match s.readParts ag ps with
    | (s, none) => (s, .error .stall)
    | (s, some bs) => (s, .ok bs)

/-- Check and read a record as a load does (R196, R390). -/
def State.readRecord (s : State) (ag : Nat) (ea : DWord) (n align : Nat) (info : Word) : State × Except Fate (List Byte) :=
  s.readRecordBy (some false) ag ea n align info

/-! ## Widths (R206) -/

/-- Size in bytes of a width code. -/
def widthBytes (c : BitVec 3) : Nat :=
  match c.toNat with
  | 0 => 4
  | 1 => 1
  | 2 => 1
  | 3 => 2
  | 4 => 2
  | 5 => 8
  | _ => 16
/-- Words of consecutive registers from bytes, little-endian. -/
def wordsOf : Nat → List Byte → List Word
  | 0, _ => []
  | n + 1, bs => BitVec.ofNat 32 (leNat (bs.take 4)) :: wordsOf n (bs.drop 4)
/-- Bytes of consecutive registers. -/
def bytesOf (ws : List Word) : List Byte := ws.flatMap fun w => natLe 4 w.toNat
/-- The register values of a loaded width. -/
def extend (c : BitVec 3) (bs : List Byte) : List Word :=
  let x := leNat bs
  match c.toNat with
  | 2 => [BitVec.ofInt 32 (sext x 8)]
  | 4 => [BitVec.ofInt 32 (sext x 16)]
  | 5 => wordsOf 2 bs
  | 6 => wordsOf 4 bs
  | _ => [BitVec.ofNat 32 x]
/-- Destinations of a loaded width: one register, which may be vz, or consecutive ones. -/
def loadDst (c : BitVec 3) (d : Reg) (ws : List Word) : List (Option Dst × Word) :=
  match ws with
  | [w] => [toReg d w]
  | ws => bif widthRegs c == 1 then [] else ws.zipIdx.map fun (w, k) => toRegN (d.toNat + k) w
/-- The bytes a store takes from its data registers. -/
def State.storeBytes (s : State) (ag : Nat) (c : BitVec 3) (d : Reg) : List Byte :=
  match widthRegs c with
  | 1 => natLe (widthBytes c) (s.d32 ag d).toNat
  | n => bytesOf ((List.range n).map fun k => s.regN ag (10 + k) (d.toNat + k))

/-! ## Loads (R210, R212) -/

/-- LD: its destinations receive the n bytes at ea with a variable latency. -/
def State.loadGlobal (s : State) (ag : Nat) (ea : DWord) (c : BitVec 3) (d : Reg) : State × Fate :=
  let n := widthBytes c
  match s.access ag ea n n ⟨.load, accInfo n false false, false, some false, none⟩ with
  | (s, .fate f) => (s, f)
  | (s, .absent) => (s, .next)
  | (s, .ok pa _ _) =>
    match s.readQueued ag pa n with
    | (s, none) => (s, .stall)
    | (s, some bs) => (s.out ag true false (loadDst c d (extend c bs)) 0#5, .next)
/-- LDZ: as LD, with pC; zero on a page that is surrendered or non-resident (R210). -/
def State.loadZero (s : State) (ag : Nat) (ea : DWord) (c : BitVec 3) (d : Reg) (pc : BitVec 3) : State × Fate :=
  let n := widthBytes c
  let put := fun (s : State) (bs : List Byte) (ok : Bool) =>
    s.out ag true false (loadDst c d (extend c bs) ++ [toPred pc ok]) 0#5
  match s.access ag ea n n ⟨.load, accInfo n false false, true, some false, none⟩ with
  | (s, .fate f) => (s, f)
  | (s, .absent) => (put s (List.replicate n 0#8) false, .next)
  | (s, .ok pa _ _) =>
    match s.readQueued ag pa n with
    | (s, none) => (s, .stall)
    | (s, some bs) => (put s bs true, .next)
/-- LDC: committed values only, past the store queue (R110, R212). -/
def State.loadConst (s : State) (ag : Nat) (ea : DWord) (c : BitVec 3) (d : Reg) : State × Fate :=
  let n := widthBytes c
  match s.access ag ea n n ⟨.load, accInfo n false false, false, some false, none⟩ with
  | (s, .fate f) => (s, f)
  | (s, .absent) => (s, .next)
  | (s, .ok pa _ _) => (s.out ag true false (loadDst c d (extend c (s.readCommitted pa n))) 0#5, .next)

/-! ## Forwarding tables (R101) -/

/-- Write the forwarding-table entries of a partition of a core that match, in order, to the scratchpad banks. -/
def State.flushFwd (s : State) (core part : Nat) (p : Fwd → Bool) : State :=
  let es := ((s.core core).fwd.getD part []).filter p
  let s := es.foldl (fun s e => s.modShare e.share fun h => { h with pad := h.pad.putN e.off e.bytes }) s
  s.modCore core fun c => { c with fwd := c.fwd.modify part fun l => l.filter fun e => !p e }
/-- Partition of an agent; a front end uses the table of partition 0. -/
def State.partitionOf (s : State) (ag : Nat) : Nat :=
  match (s.agent ag).home.group with
  | some g => (s.group g).part
  | none => 0
/-- The first n entries of a partition's table that belong to a group, written in order to the scratchpad banks: issue order is kept (R101). -/
def State.flushFirst (s : State) (core part n : Nat) (mem : List Nat) : State :=
  let l := (s.core core).fwd.getD part []
  let es := (l.take n).filter fun e => mem.elem e.ag
  let s := es.foldl (fun s e => s.modShare e.share fun h => { h with pad := h.pad.putN e.off e.bytes }) s
  s.modCore core fun c => { c with fwd := c.fwd.modify part fun l => ((l.take n).filter fun e => !mem.elem e.ag) ++ l.drop n }
/-- Threads of an agent's group, or a front end alone. -/
def State.companions (s : State) (ag : Nat) : List Nat :=
  match (s.agent ag).home.group with
  | some g => (s.group g).members
  | none => [ag]
/-- Write a thread's own forwarding-table entries, and before each the older ones of its group (R101, R104). -/
def State.flushOwn (s : State) (ag : Nat) : State :=
  let l := (s.core (s.coreOf ag)).fwd.getD (s.partitionOf ag) []
  let n := (l.zipIdx.filter fun x => x.1.ag == ag).foldl (fun _ x => x.2 + 1) 0
  s.flushFirst (s.coreOf ag) (s.partitionOf ag) n (s.companions ag)

/-! ## Stores that wait to be accepted (R98, R101, R340) -/

/-- The threads of an agent's group whose stores, or STS, wait to be accepted, oldest first: those that stand at them still. -/
def State.lineOf (s : State) (ag : Nat) (pad : Bool) : List Nat :=
  match (s.agent ag).home.group with
  | none => []
  | some g => ((s.group g).line.filter fun (p, a, pc) => p == pad && s.live a && (s.agent a).pc == pc && (match (s.agent a).status with
      | .ready => true
      | .parked (.store _) => true
      | _ => false)).map (·.2.1)
/-- No older store of the group waits to be accepted. -/
def State.inTurn (s : State) (ag : Nat) (pad : Bool) : Bool :=
  match s.lineOf ag pad with
  | [] => true
  | a :: _ => a == ag
/-- A store waits to be accepted, in issue order. -/
def State.lineUp (s : State) (ag : Nat) (pad : Bool) (k : Nat) : State × Fate :=
  match (s.agent ag).home.group with
  | none => (s, .wait (.store k))
  | some g =>
    (bif (s.lineOf ag pad).elem ag then s
      else s.modGroup g fun x => { x with line := (x.line.filter fun e => !(e.1 == pad && e.2.1 == ag)) ++ [(pad, ag, (s.agent ag).pc)] },
      .wait (.store k))
/-- A store that waited has been accepted or refused. -/
def State.leaveLine (s : State) (ag : Nat) (pad : Bool) : State :=
  match (s.agent ag).home.group with
  | none => s
  | some g => bif (s.group g).line.isEmpty then s
    else s.modGroup g fun x => { x with line := x.line.filter fun e => !(e.1 == pad && e.2.1 == ag) }

/-! ## Stores (R98, R210, R239, R332, R379) -/

/-- Lines of the stores of a task that wait to enter its version. -/
def State.waitingLines (s : State) (t : Nat) : List Nat :=
  ((s.task t).shares.flatMap fun h => (s.share h).feSq ++ (s.share h).groups.flatMap fun g => (s.group g).sq).flatMap
    fun e => bif e.vers then linesOf e.pa e.size else []
/-- Lines of a task's version with the stores that wait to enter it, and further lines (R379). -/
def State.linesWith (s : State) (t : Nat) (more : List Nat) : Nat :=
  let held := (s.task t).ver.lineList
  held.length + ((distinct (s.waitingLines t ++ more)).filter fun l => !held.elem l).length
/-- Lines of a task's version with the stores that wait to enter it, and those of n bytes at an address (R379). -/
def State.versionLines (s : State) (t pa n : Nat) : Nat := s.linesWith t (linesOf pa n)
/-- Before a write that would take the version beyond its budget, the version is committed; the thread may take cause 0x10 (R379, R241). -/
def State.withinBudget (s : State) (ag : Nat) (t pa n : Nat) (ea : DWord) (k : State → State × Fate) : State × Fate :=
  if s.unsettled t ∧ (s.launch (s.task t).launch).par.vbudget * 8192 < s.versionLines t pa n then
    match s.commit t with
    | .done s =>
      let s := s.modTele fun x => { x with forced := x.forced + 1 }
      let s := bif (s.policyOf ag).getLsbD 6 then s.addAsync ag ⟨0x10, ea, 0#32⟩ else s
      k s
    | .failed s => (s, .own)
    | .held => (s, .stall)
  else k s
/-- Suppression of one more access (R239). -/
def State.suppress (s : State) (ag : Nat) (ea : DWord) (short : Nat) : State :=
  s.modAgent ag fun a =>
    { a with supp := match a.supp with
        | none => some ⟨ea, 1, short⟩
        | some x => some { x with count := x.count + 1 } }
/-- Charge a checked store and go on where it is accepted (R239, R332, R336, R340). -/
def State.charging (s : State) (ag : Nat) (ea : DWord) (pa : Nat) (rb : Bool) (k : State → State × Fate) : State × Fate :=
  let t := s.taskOf ag
  if (s.agent ag).supp.isSome then (s.suppress ag ea 0, .next)
  else if !s.inTurn ag false then s.lineUp ag false 3
  else
    match s.charge (s.vdOf ag) pa rb with
    | (s, .accepted) => k (s.leaveLine ag false)
    | (s, .held) => s.lineUp ag false 2
    | (s, .refused short) =>
      let s := s.leaveLine ag false
      if s.unsettled t then (s, .capacity ea short) else (s.suppress ag ea short, .next)
/-- Enter a checked store or RED into the thread's store queue (R98, R219). -/
def State.enqueue (s : State) (ag : Nat) (ea : DWord) (pa : Nat) (rb h11 : Bool) (n : Nat) (op : SqOp) : State × Fate :=
  let t := s.taskOf ag
  if 32 ≤ (s.sq ag).length ∧ (s.agent ag).supp = none then s.lineUp ag false 0
  else
    s.withinBudget ag t pa n ea fun s =>
      s.charging ag ea pa rb fun s =>
        (s.setSq ag (s.sq ag ++ [⟨ag, t, pa, op, s.unsettled t, h11⟩]), .next)
/-- Drain what an engine command of an agent is ordered after: its queue and its table entries (R111). -/
def State.drainIssuer (s : State) (ag : Nat) : State × Bool :=
  let (s, ok) := s.drainAll ag
  (s.flushOwn ag, ok)
/-- The write goes over an interface of a partition: every one in unified mode, in split mode the links of its die, and PCIe for partition 0 (R8, R412). -/
def State.postedIn (s : State) (part : Nat) (p : Posted) : Bool :=
  s.hearth.config.unified || match p.link with
  | some n => n / 9 == part
  | none => part == 0
/-- The move up to which an agent waits for posted writes: this one, or that at which the instruction it issues again first waited. -/
def State.postedUpTo (s : State) (ag : Nat) : Nat :=
  match (s.agent ag).relAt with
  | some (n, m) => bif n == (s.agent ag).issued then m else s.moves
  | none => s.moves
/-- A write posted before a release or fence of an agent is not yet acknowledged: its own, its task's, and those of every agent or command of its partition that it may have acquired (R103, R104, R119, R124, R302). -/
def State.posting (s : State) (ag : Nat) : Bool :=
  s.store.posted.any fun p => !p.lost && s.postedIn (partOf (s.vdOf ag)) p && decide (p.no ≤ s.postedUpTo ag)
/-- An agent waits for the writes posted so far, and for no later ones (R124). -/
def State.awaitPosted (s : State) (ag : Nat) : State :=
  let m := s.postedUpTo ag
  s.modAgent ag fun a => { a with relAt := some (a.issued, m) }
/-- A system-scope release waits for the earlier writes to the host and to peers that it covers (R103, R107, R124). -/
def State.releasing (s : State) (ag : Nat) (system : Bool) (k : State → State × Fate) : State × Fate :=
  if !system then k s
  else
    match s.drainIssuer ag with
    | (s, false) => (s, .stall)
    | (s, true) => if s.posting ag then (s.awaitPosted ag, .stall) else k s
/-- ST of bytes at an address; a release at a scope wider than team first commits (R120, R210). -/
def State.storeGlobal (s : State) (ag : Nat) (ea : DWord) (bs : List Byte) (rel : Bool) (scope : Nat) : State × Fate :=
  let n := bs.length
  match s.access ag ea n n ⟨.store, accInfo n true false, false, some true, none⟩ with
  | (s, .fate f) => (s, f)
  | (s, .absent) => (s, .next)
  | (s, .ok pa rb h11) =>
    s.committing (s.taskOf ag) (rel && wide scope) fun s =>
      s.releasing ag (rel && scope == 7) fun s =>
        let s := bif rel then s.flushOwn ag else s
        s.enqueue ag ea pa rb h11 n (.store bs)

/-! ## Atomics (R106, R217 to R219) -/

/-- An atomic commits the version first: at device or system scope, or as a release wider than team (R120, R219). -/
def amoCommits (ord : Bool) (scope : Nat) : Bool := decide (6 ≤ scope) || (ord && wide scope)
/-- ATOM: performed at once, after the queue has drained; d receives the old value (R100, R218). -/
def State.atom (s : State) (ag op : Nat) (ord w64 : Bool) (scope : Nat) (d a : Reg) (b c : DWord) : State × Fate :=
  let n := bif w64 then 8 else 4
  let ea := s.a64 ag a
  match s.access ag ea n n ⟨.store, accInfo n true false, false, some true, bif scope == 7 then some (true, op) else none⟩ with
  | (s, .fate f) => (s, f)
  | (s, .absent) => (s, .next)
  | (s, .ok pa rb h11) =>
    s.committing (s.taskOf ag) (amoCommits ord scope) fun s =>
      s.releasing ag (ord && scope == 7) fun s =>
        match s.drainAll ag with
        | (s, false) => (s, .stall)
        | (s, true) =>
          let s := bif ord then s.flushOwn ag else s
          s.withinBudget ag (s.taskOf ag) pa n ea fun s =>
            s.charging ag ea pa rb fun s =>
              let t := s.taskOf ag
              let old := leNat (s.readAs t pa n)
              let s := s.noteRead t pa n
              let s := s.writeHome t ag pa h11 (natLe n (amoNew op n old b.toNat c.toNat))
              (s.out ag true false (bif w64 then toPair d (BitVec.ofNat 64 old) else [toReg d (BitVec.ofNat 32 old)]) 0#5,
                .next)
/-- RED: enters the store queue (R219). -/
def State.red (s : State) (ag op : Nat) (w64 : Bool) (scope : Nat) (a : Reg) (b : DWord) : State × Fate :=
  let n := bif w64 then 8 else 4
  let ea := s.a64 ag a
  match s.access ag ea n n ⟨.store, accInfo n true false, false, some true, bif scope == 7 then some (false, op) else none⟩ with
  | (s, .fate f) => (s, f)
  | (s, .absent) => (s, .next)
  | (s, .ok pa rb h11) =>
    s.committing (s.taskOf ag) (amoCommits false scope) fun s => s.enqueue ag ea pa rb h11 n (.red op n b)

/-! ## Scratchpad (R101, R115, R213) -/

/-- Checks of a scratchpad access (R213): none where it is allowed. -/
def State.padCheck (s : State) (ag : Nat) (off : Word) (n : Nat) (store : Bool) : Option Fate :=
  let a := off.setWidth 64
  if off.toNat % n ≠ 0 then some (.trap 0x03 a (accInfo n store true))
  else if (s.share (s.shareOf ag)).size < off.toNat + n then some (.trap 0x05 a (accInfo n store true))
  else if (s.share (s.shareOf ag)).absent.elem (off.toNat / 128) then some (.wait (.presence (off.toNat / 128)))
  else none
/-- Entries of a thread's forwarding table, oldest first. -/
def State.ownFwd (s : State) (ag : Nat) : List Fwd :=
  ((s.core (s.coreOf ag)).fwd.getD (s.partitionOf ag) []).filter fun e => e.ag == ag
/-- Bytes of the window as a thread sees them: its own waiting STS first (R101). -/
def State.padRead (s : State) (ag off n : Nat) : List Byte :=
  let m := (s.ownFwd ag).foldl (fun (m : Mem) e => m.putN e.off e.bytes) (s.share (s.shareOf ag)).pad
  m.getN off n
/-- LDS (R213). -/
def State.loadPad (s : State) (ag : Nat) (off : Word) (c : BitVec 3) (d : Reg) : State × Fate :=
  let n := widthBytes c
  match s.padCheck ag off n false with
  | some f => (s, f)
  | none => (s.out ag true false (loadDst c d (extend c (s.padRead ag off.toNat n))) 0#5, .next)
/-- STS: enters the partition's forwarding table of 16 entries (R101, R213). -/
def State.storePad (s : State) (ag : Nat) (off : Word) (bs : List Byte) : State × Fate :=
  match s.padCheck ag off bs.length true with
  | some f => (s, f)
  | none =>
    let c := s.coreOf ag
    let p := s.partitionOf ag
    let h := s.shareOf ag
    if !s.inTurn ag true then s.lineUp ag true 4
    else if 16 ≤ ((s.core c).fwd.getD p []).length then s.lineUp ag true 1
    else
      let s := s.leaveLine ag true
      (s.modCore c fun x => { x with fwd := x.fwd.modify p fun l => l ++ [⟨ag, h, off.toNat, bs⟩] }, .next)

/-! ## Fences (R104, R124, R220) -/

/-- A lost write counts as the thread's, and no fence has told it so yet: its own, or its task's (R119, R124). -/
def State.lostTo (s : State) (ag : Nat) (p : Posted) : Bool :=
  p.lost && (p.ag == ag || p.ag == taskMaker (s.taskOf ag)) && !p.told.elem ag
/-- The links of the lost writes of a thread (R124). -/
def State.lostLinks (s : State) (ag : Nat) : List Nat := (s.store.posted.filter (s.lostTo ag)).filterMap (·.link)
/-- A fence tells its thread of its lost writes: each is forgotten once every thread it counts for has been told (R124). -/
def State.tellLost (s : State) (ag : Nat) : State :=
  let all := (s.agentsOfTask (s.taskOf ag)).filter s.live
  let mark := fun (p : Posted) => bif s.lostTo ag p then { p with told := ag :: p.told } else p
  s.modStore fun m => { m with posted := (m.posted.map mark).filter fun p =>
    !(p.lost && (p.ag == ag || p.ag == taskMaker (s.taskOf ag)) && (p.ag == ag || all.all p.told.elem)) }
/-- %tinfo of a fence that has lost writes on links, the lowest-numbered named (R124). -/
def lostInfo (ls : List Nat) : Word := BitVec.ofNat 32 (2 ^ 31 + (ls.min?.getD 0))
/-- FENCE at a scope (R104, R220): queue and table drained, posted writes waited for at system scope (R124). A fence that completes with every write acknowledged leaves %tinfo as it was, where the table of R124 shows bit 31 as 0 and no rule names a write: DESIGN CHOICE, log entry 6. -/
def State.fenceAt (s : State) (ag scope : Nat) : State × Fate :=
  if scope = 0 then (s, .next)
  else
    match s.drainIssuer ag with
    | (s, false) => (s, .stall)
    | (s, true) =>
      if scope ≠ 7 then (s, .next)
      else if s.posting ag then (s.awaitPosted ag, .stall)
      else
        match s.lostLinks ag with
        | [] => (s.tellLost ag, .next)
        | ls =>
          let s := s.tellLost ag
          if (s.policyOf ag).getLsbD 5 then (s, .trap 0x11 0#64 (lostInfo ls))
          else (s.modAgent ag fun a => { a with trap := { a.trap with info := lostInfo ls } }, .next)

end Sys2Proof.Machine
end

