-- ==== Sys2Proof/Machine/BarCv.lean ====
section
/-! DEFINITION. Barriers and convergence declarations: majors 0x54 and 0x55 (09 R222 to R226, 06 R145, 15 R288). -/

namespace Sys2Proof.Machine

/-! ## Barriers (R222 to R225) -/

/-- %tinfo of a barrier error (R223). -/
def barInfo (b reason : Nat) : Word := BitVec.ofNat 32 (256 * b + reason)
/-- An ARR, SYNC, WAIT or EXPECT on a barrier that can take it; otherwise cause 0x16 (R223). -/
def State.onBar (s : State) (ag b : Nat) (k : State → Nat → Barrier → State × Fate) : State × Fate :=
  let t := s.taskOf ag
  let x := s.bar t b
  if !x.initd then (s, .trap 0x16 0#64 (barInfo b 2))
  else if x.broken then (s, .trap 0x16 0#64 (barInfo b 4))
  else k s t x
/-- The arrival of a thread or front end, a release at team scope (R114, R223); `k` goes on with the phase of the arrival. -/
def State.arrive (s : State) (ag b : Nat) (k : State → Word → State × Fate) : State × Fate :=
  s.onBar ag b fun s t x =>
    if (s.agent ag).hasArrived b x.ph then (s, .trap 0x16 0#64 (barInfo b 3))
    else
      match s.drainIssuer ag with
      | (s, false) => (s, .stall)
      | (s, true) => k (s.barArrive t b ag) x.ph
/-- BAR.ARR of one thread. -/
def State.barArr1 (s : State) (ag : Nat) (d : Reg) (b : Nat) : State × Fate :=
  s.arrive ag b fun s ph => (s.out ag true false [toReg d ph] 0#5, .next)
/-- BAR.SYNC of one thread. -/
def State.barSync1 (s : State) (ag : Nat) (d : Reg) (b : Nat) : State × Fate :=
  s.arrive ag b fun s ph => (s.out ag true false [toReg d ph] 0#5, .atBarrier b ph)
/-- BAR.WAIT of one thread. -/
def State.barWait1 (s : State) (ag b : Nat) (ph : Word) : State × Fate :=
  s.onBar ag b fun s _ _ => (s, .atBarrier b ph)
/-- BAR.EXPECT of one thread. -/
def State.barExpect1 (s : State) (ag b : Nat) (n : Word) : State × Fate :=
  s.onBar ag b fun s t x =>
    if x.p.toInt + n.toNat ≤ 2 ^ 35 - 1 then
      ((s.modBar t b fun y => { y with p := y.p + n.setWidth 36 }).barTest t b, .next)
    else (s, .trap 0x16 0#64 (barInfo b 4))
/-- BAR.INIT of one thread (R223). -/
def State.barInit1 (s : State) (ag b : Nat) (n : Word) : State × Fate :=
  let t := s.taskOf ag
  if n = 0#32 ∨ 104#32 < n then (s, .trap 0x16 0#64 (barInfo b 1))
  else
    let s := s.modBar t b fun _ => ⟨true, false, n.setWidth 7, 0#7, 0#36, 0#32⟩
    let s := s.modAgents (fun a => { a with arrived := a.arrived.filter fun x => x.1 != b }) (s.agentsOfTask t)
    ((s.barTrap t b (barInfo b 5)).barTest t b, .next)
/-- A credit of an engine in bytes (R223, R224). -/
def State.barCredit (s : State) (t b n : Nat) : State :=
  let x := s.bar t b
  if !x.initd then s else
  let s := s.noteBar t b (2 ^ 32)
  if -(2 ^ 35 : Int) ≤ x.p.toInt - n then (s.modBar t b fun y => { y with p := y.p - BitVec.ofNat 36 n }).barTest t b
  else (s.modBar t b fun y => { y with broken := true }).barTrap t b (barInfo b 4)

/-- BAR.ARR (R225). -/
def execBarArr (c0 : Ctl) (d : Reg) (bar : BitVec 4) (s : State) : Result :=
  .next (s.issue (.barArr c0 d bar) (perThread fun ag s => s.barArr1 ag d bar.toNat))
/-- BAR.WAIT (R225). -/
def execBarWait (c0 : Ctl) (bar : BitVec 4) (b : Src) (s : State) : Result :=
  .next (s.issue (.barWait c0 bar b) (perThread fun ag s => s.barWait1 ag bar.toNat (s.b32 ag b)))
/-- BAR.SYNC (R225). -/
def execBarSync (c0 : Ctl) (d : Reg) (bar : BitVec 4) (s : State) : Result :=
  .next (s.issue (.barSync c0 d bar) (perThread fun ag s => s.barSync1 ag d bar.toNat))
/-- BAR.EXPECT (R225). -/
def execBarExpect (c0 : Ctl) (bar : BitVec 4) (b : Src) (s : State) : Result :=
  .next (s.issue (.barExpect c0 bar b) (perThread fun ag s => s.barExpect1 ag bar.toNat (s.b32 ag b)))
/-- BAR.INIT (R223). -/
def execBarInit (c0 : Ctl) (bar : BitVec 4) (b : Src) (s : State) : Result :=
  .next (s.issue (.barInit c0 bar b) (perThread fun ag s => s.barInit1 ag bar.toNat (s.b32 ag b)))

/-! ## Convergence declarations (R145, R226, R288) -/

/-- The agent of a %tid in a task. -/
def State.agentOfTid (s : State) (t tid : Nat) : Option Nat :=
  ((s.task t).shares.flatMap fun h => (s.share h).groups).findSome? fun g =>
    let x := s.group g
    bif x.gid * x.width ≤ tid && tid < (x.gid + 1) * x.width then x.members[tid - x.gid * x.width]? else none
/-- The WLOAD that a CVSET binds to: the share's most recent one that is neither retired nor lost (R288). -/
def State.currentSet (s : State) (h : Nat) : Option Nat := (s.share h).current
/-- CVSET of one thread (R145, R226): reasons 1, 2, 3 in that order. -/
def State.cvset1 (s : State) (ag c n : Nat) (t0 : Word) : State × Fate :=
  let t := s.taskOf ag
  let x := s.cv t c
  let set := (List.range n).map fun k => s.agentOfTid t (t0.toNat + k)
  let h := match set.headD none with
    | some a => s.shareOf a
    | none => 0
  if x.state = .issuing ∨ (x.state = .declared ∧ x.sigs ≠ []) then (s, .trap 0x0A 0#64 (cvInfo c 1))
  else if set.any Option.isNone ∨ set.any (fun a => (a.map s.shareOf) != some h) then (s, .trap 0x0A 0#64 (cvInfo c 2))
  else if set.any (fun a => !(a.map s.live).getD false) then (s, .trap 0x0A 0#64 (cvInfo c 3))
  else (s.modCv t c fun _ => ⟨.declared, t0.toNat, n, h, [], none, s.currentSet h, (s.core (s.share h).core).clock, 0⟩, .next)

/-- CVSET (R226): MOD holds n − 1. -/
def execCvset (c0 : Ctl) (n1 : BitVec 7) (cv : BitVec 4) (b : Src) (s : State) : Result :=
  .next (s.issue (.cvset c0 n1 cv b) (perThread fun ag s => s.cvset1 ag cv.toNat (n1.toNat + 1) (s.b32 ag b)))

end Sys2Proof.Machine
end

