-- ==== Sys2Proof/Machine/Engine.lean ====
section
/-! DEFINITION. What every engine command shares: the order after its issuer, the page checks of an issue, charges
for a range, reads and writes of a running command, and completion counters (05 R111 to R116, 13 R264, R269, R271). -/

namespace Sys2Proof.Machine

/-! ## At issue -/

/-- A range of bytes that an engine command reads or writes. -/
structure Touch where
  va : DWord
  n : Nat
  store : Bool
  deriving DecidableEq, Repr
/-- Drain what an elected command of an agent is ordered after: its group's queue and the table entries of its group (R111, R263). -/
def State.drainGroup (s : State) (ag : Nat) : State × Bool :=
  let (s, ok) := s.drainAll ag
  let mem := match (s.agent ag).home.group with
    | some g => (s.group g).members
    | none => [ag]
  (s.flushFwd (s.coreOf ag) (s.partitionOf ag) fun e => mem.elem e.ag, ok)
/-- Insert a page's lowest address and kind of access where it stands in address order, a read before a write at one address. -/
def insertSpot (va : DWord) (st : Bool) : List (DWord × Bool) → List (DWord × Bool)
  | [] => [(va, st)]
  | (x, b) :: rest => if va < x ∨ (va = x ∧ st = false) then (va, st) :: (x, b) :: rest else (x, b) :: insertSpot va st rest
/-- Note an access to a page: the lowest address touched in it, for reads and for writes. -/
def insertPage (va : DWord) (st : Bool) (l : List (DWord × Bool)) : List (DWord × Bool) :=
  let same := fun (p : DWord × Bool) => p.1.toNat / 65536 == va.toNat / 65536 && p.2 == st
  match l.find? same with
  | none => insertSpot va st l
  | some p => bif decide (va < p.1) then insertSpot va st (l.filter fun q => !same q) else l
/-- The pages of a list of ranges, each by the lowest address read and the lowest written in it, in ascending address order (R264 step 6). -/
def pagesOf (ts : List Touch) : List (DWord × Bool) :=
  ts.foldl (fun l t => (pageParts (t.n / 65536 + 2) t.va t.n).foldl (fun l p => insertPage p.1 t.store l) l) []
/-- %tinfo of a page cause at an engine command's issue: [8] for cause 0x05 of a written page (R264). -/
def pageInfo (c : Nat) (st : Bool) : Word := bif st && c == 0x05 then 0x100#32 else 0#32
/-- Translate each page: the lowest faulting address decides (R70, R264). -/
def State.checkPages (s : State) (ag : Nat) : List (DWord × Bool) → State × Option Fate
  | [] => (s, none)
  | (va, st) :: rest =>
    match s.translate (s.vdOf ag) (s.coreOf ag) va (bif st then .store else .load) with
    | (s, .held) => (s, some .stall)
    | (s, .bad c) => (s.modTask (s.taskOf ag) fun k => { k with missed := bif st && c == 0x06 then some va else none }, some (.trap c va (pageInfo c st)))
    | (s, .ok _ _ _) => s.checkPages ag rest
/-- The lowest locked byte that a list of ranges meets, and the fate there: %taddr is the lowest address of its range (R70, R221). -/
def State.checkLocks (s : State) (ag : Nat) : List Touch → Option (DWord × Fate)
  | [] => none
  | t :: rest =>
    let here := (s.lockHit (s.coreOf ag) (s.vdOf ag) t.va t.n t.store).map fun (at_, k, d) => (at_, Fate.trap 0x09 t.va (lockInfo k d))
    match here, s.checkLocks ag rest with
    | some x, some y => some (bif decide (y.1 < x.1) then y else x)
    | some x, none => some x
    | none, y => y
/-- Checks of WLOAD, MMAM and ADRAIN: pages and range locks, the lowest faulting byte deciding (R70, R292, R295, R301). -/
def State.checkRanges (s : State) (ag : Nat) (ts : List Touch) : State × Option Fate :=
  match s.checkLocks ag ts with
  | none => s.checkPages ag (pagesOf ts)
  | some (at_, f) =>
    match s.checkPages ag ((pagesOf ts).filter fun p => decide (p.1 ≤ at_)) with
    | (s, some g) => (s, some g)
    | (s, none) => (s, some f)
/-- Cause 0x05 with a reason code (R264). -/
def reason5 (r : Nat) : Fate := .trap 0x05 0#64 (BitVec.ofNat 32 (2 ^ 31 + r))

/-- 1,024-byte blocks of the written ranges, ascending, each as a block-aligned virtual address. -/
def blocksOf (ts : List Touch) : List DWord :=
  let ns := ts.flatMap fun t => bif t.store && decide (0 < t.n) then
    (List.range ((t.va.toNat + t.n - 1) / 1024 - t.va.toNat / 1024 + 1)).map (t.va.toNat / 1024 + ·) else []
  (ns.foldl (fun l n => insertOnce n l) []).map fun n => BitVec.ofNat 64 (n * 1024)
/-- How a list of charges ends. -/
inductive Charges where
  /-- All taken; the physical block numbers. -/
  | taken (blocks : List Nat)
  /-- The charge of this block is refused, with its shortfall. -/
  | refused (va : DWord) (short : Nat)
  /-- Held while the charge path is suspended (R340), or by a hand-over. -/
  | held
  deriving DecidableEq, Repr
/-- Take charges in ascending address order (R264 step 7). -/
def State.chargeBlocks (s : State) (v core : Nat) : List DWord → State × Charges
  | [] => (s, .taken [])
  | va :: rest =>
    match s.translate v core va .store with
    | (s, .ok pa rb _) =>
      match s.charge v pa rb with
      | (s, .held) => (s, .held)
      | (s, .refused short) => (s, .refused va short)
      | (s, .accepted) =>
        match s.chargeBlocks v core rest with
        | (s, .taken bs) => (s, .taken (blockOf pa :: bs))
        | r => r
    | (s, _) => s.chargeBlocks v core rest
/-- Charge every destination block or none: a refusal refunds, and is cause 0x08, or a task fault in an unsettled task (R264 step 7, R336); a held one parks the whole fragment, which issues the command again together (R280, R340). -/
def State.charged (s : State) (ag : Nat) (ts : List Touch) (k : State → List Nat → State × Fate) : State × Fate :=
  let v := s.vdOf ag
  match s.chargeBlocks v (s.coreOf ag) (blocksOf ts) with
  | (s, .taken bs) => k s bs
  | (_, .held) => (s, .wait (.engine 4))
  | (_, .refused va short) =>
    let st := match (s.translate v (s.coreOf ag) va .store).2 with
      | .ok pa _ _ => stackOf pa
      | _ => 0
    let s := s.refusedOn v st
    if s.unsettled (s.taskOf ag) then (s, .capacity va short)
    else (s, .trap 0x08 va (BitVec.ofNat 32 (short % 2 ^ 24)))
/-! ## While a command runs: it takes no fault (R264); bytes it can no longer reach read as free values and are not written -/

/-- A hand-over holds some page that a command is about to touch: it waits (R369, R370). -/
def State.engHeld (s : State) (t core : Nat) (pages : List (DWord × Bool)) : Bool :=
  pages.any fun p => (s.translate (s.taskVd t) core p.1 (bif p.2 then .store else .load)).2 == .held
/-- A block that a command is about to write cannot be charged: it waits until the reserve covers it (R332; log entry 49). -/
def State.engShort (s : State) (t core : Nat) (ts : List Touch) : Bool :=
  match (s.chargeBlocks (s.taskVd t) core (blocksOf ts)).2 with
  | .taken _ => false
  | _ => true
/-- Lines of memory that the written ranges of a command touch. -/
def State.engLines (s : State) (t core : Nat) (ts : List Touch) : List Nat :=
  distinct ((ts.filter (·.store)).flatMap fun x => (pageParts (x.n / 65536 + 2) x.va x.n).flatMap fun p =>
    match (s.translate (s.taskVd t) core p.1 .store).2 with
    | .ok pa _ _ => linesOf pa p.2
    | _ => [])
/-- A thread's version is committed because a write of an engine command would take it beyond its budget: counted, with cause 0x10 where VOVF = 1 (R241, R379). -/
def State.forcedBy (s : State) (ag : Option Nat) (va : DWord) : State :=
  let s := s.modTele fun x => { x with forced := x.forced + 1 }
  match ag with
  | some a => bif (s.policyOf a).getLsbD 6 then s.addAsync a ⟨0x10, va, 0#32⟩ else s
  | none => s
/-- Before a command of a task writes lines that, with the stores that wait, would take its version beyond its budget, the version is committed (R379). -/
def State.engBudget (s : State) (t : Nat) (ag : Option Nat) (lines : List Nat) (va : DWord) : Commit :=
  if s.unsettled t ∧ (s.launch (s.task t).launch).par.vbudget * 8192 < s.linesWith t lines then
    match s.commit t with
    | .done s => .done (s.forcedBy ag va)
    | r => r
  else .done s
/-- Read n bytes at a virtual address for a command of a task, by an engine of a core. -/
def State.engRead (s : State) (t : Nat) (who : Seeker) : List (DWord × Nat) → State × List Byte
  | [] => (s, [])
  | (va, n) :: rest =>
    let (s, x) := s.xlat (s.taskVd t) who va .load
    let (s, bs) := match x with
      | .ok pa _ _ => (s.noteRead t pa n, s.readAs t pa n)
      | _ => (s, (List.range n).map fun k => Config.freeByte s.free (va.toNat + k))
    let (s, cs) := s.engRead t who rest
    (s, bs ++ cs)
/-- Write bytes at a virtual address for a command of a task on a core. A block that its charge has left since is charged again where the reserve covers it (R332). -/
def State.engWrite (s : State) (t maker core : Nat) : List (DWord × Nat) → List Byte → State
  | [], _ => s
  | (va, n) :: rest, bs =>
    let (s, x) := s.translate (s.taskVd t) core va .store
    let s := match x with
      | .ok pa rb h11 =>
        let s := (blocksIn pa n).foldl (fun (s : State) b => s.chargeAs (s.taskVd t) (b * 1024) rb) s
        s.writeHome t maker pa h11 (bs.take n)
      | _ => s
    s.engWrite t maker core rest (bs.drop n)
/-- Read a range. -/
def State.engReadN (s : State) (t : Nat) (who : Seeker) (va : DWord) (n : Nat) : State × List Byte :=
  s.engRead t who (pageParts (n / 65536 + 2) va n)
/-- Write a range. -/
def State.engWriteN (s : State) (t maker core : Nat) (va : DWord) (bs : List Byte) : State :=
  s.engWrite t maker core (pageParts (bs.length / 65536 + 2) va bs.length) bs

/-! ## Scratchpad and counters -/

/-- Lines of a scratchpad range. -/
def padLines (off n : Nat) : List Nat := linesOf off n
/-- Clear the presence bits of a range (R115). -/
def State.padAbsent (s : State) (h off n : Nat) : State :=
  s.modShare h fun x =>
    { x with absent := x.absent ++ (padLines off n).filter (fun l => !x.absent.elem l),
             saved := { x.saved with fill := x.saved.fill.filter fun l => !(padLines off n).elem l } }
/-- Write a range of the window and set its presence bits (R115). -/
def State.padWrite (s : State) (h off : Nat) (bs : List Byte) : State :=
  s.modShare h fun x =>
    { x with pad := x.pad.putN off bs, absent := x.absent.filter fun l => !(padLines off bs.length).elem l }
/-- Add to a counter of 64 bits in the window, atomically (R269). -/
def State.padAdd (s : State) (h off : Nat) (x : DWord) : State :=
  s.modShare h fun y => { y with pad := y.pad.putN off (natLe 8 (leNat (y.pad.getN off 8) + x.toNat)) }
/-- Add to a counter of 64 bits in global memory (R269). -/
def State.engAdd (s : State) (t maker core : Nat) (va x : DWord) : State :=
  let (s, bs) := s.engReadN t (.core core) va 8
  s.engWriteN t maker core va (natLe 8 (leNat bs + x.toNat))
/-- The counter of TCOPY and CHAIN, as CMODE gives it (R262). -/
def State.counterOf (s : State) (ag cmode : Nat) (c : Reg) : DWord :=
  match cmode with
  | 0 => s.c64 ag c
  | 1 => (s.c32 ag c).setWidth 64
  | _ => c.setWidth 64
/-- Step 5 of R264. -/
def State.counterCheck (s : State) (ag cmode : Nat) (x : DWord) : Option Fate :=
  match cmode with
  | 2 =>
    bif (s.bar (s.taskOf ag) (x.toNat % 16)).initd then none
    else some (.trap 0x16 0#64 (barInfo (x.toNat % 16) 2))
  | m =>
    if x.toNat % 8 ≠ 0 then some (.trap 0x03 x 0#32)
    else if m = 1 ∧ (s.share (s.shareOf ag)).size < x.toNat + 8 then some (reason5 6)
    else none
/-- The page of a global counter is checked as for ST (R264 step 6). -/
def counterTouch (cmode : Nat) (x : DWord) : List Touch := bif cmode == 0 then [⟨x, 8, true⟩] else []

end Sys2Proof.Machine
end

