-- ==== Sys2Proof/Machine/CopyEng.lean ====
section
/-! DEFINITION. Tensor copies: the shape record, TCOPY, CTWAIT, and the start and completion of a copy (13 R260 to R271). -/

namespace Sys2Proof.Machine

/-! ## The tensor shape record (R260, R261) -/

/-- A record's fields. -/
structure Shape where
  base : DWord
  fmt : Nat
  tgt : Nat
  sparse : Nat
  fill : Nat
  sat : Bool
  dims : Nat
  size : List Nat
  scale : Word
  /-- Byte strides of dimensions 0 to 4; dimension 0 is dense. -/
  stride : List Nat
  /-- Box extents. -/
  box : List Nat
  perm : List Nat
  deriving DecidableEq, Repr, Inhabited
/-- Size in bytes of an element of a format a record may name. -/
def eltBytes (c : Nat) : Nat := max 1 (widthOf c / 8)
/-- Read the fields of a record (R260). BOXd is one byte, against the 512 of the listing of R308: the model's choice, log entry 24. -/
def Shape.parse (r : ShapeRec) : Shape :=
  let ctl := field r 7 1
  let f := field r 6 1 % 16
  { base := canon (field r 0 6), fmt := f, tgt := field r 6 1 / 16, sparse := ctl / 64, fill := ctl / 16 % 4,
    sat := ctl / 8 % 2 == 1, dims := ctl % 8, size := (List.range 5).map fun d => field r (8 + 4 * d) 4,
    scale := BitVec.ofNat 32 (field r 28 4),
    stride := eltBytes f :: (List.range 4).map fun d => field r (32 + 6 * d) 6,
    box := (List.range 5).map fun d => field r (56 + d) 1 + 1,
    perm := (List.range 5).map fun j => bits (field r 61 2) (3 * j) 3 }
/-- Extents of the tile's dimensions. -/
def Shape.extents (x : Shape) : List Nat := (List.range x.dims).map fun j => x.box.getD (x.perm.getD j 0) 1
/-- Number of tile elements. -/
def Shape.count (x : Shape) : Nat := x.extents.foldl (· * ·) 1
/-- Elements of one selection group. -/
def Shape.groupOf (x : Shape) : Nat := bif x.sparse == 1 then 4 else 8
/-- Bytes of the tile's values. -/
def Shape.valueBytes (x : Shape) : Nat :=
  x.count * eltBytes x.tgt / bif x.sparse == 0 then 1 else 2
/-- The tile's size in bytes (R261). -/
def Shape.tileBytes (x : Shape) : Nat :=
  bif x.sparse == 0 then x.valueBytes
  else (x.valueBytes + 127) / 128 * 128 + (x.count / x.groupOf + 1) / 2
/-- A format code a record may name. -/
def shapeFmt (c : Nat) : Bool := [0, 1, 2, 3, 4, 5, 7, 8].elem c
/-- A float format of a record. -/
def floatFmt (c : Nat) : Bool := decide (c ≤ 4)
/-- The lowest reason that rejects a record for a copy's direction (R261). -/
def shapeReason (r : ShapeRec) (dir : Nat) : Option Nat :=
  let x := Shape.parse r
  let ds := List.range x.dims
  let up := (List.range 5).drop x.dims
  let eb := eltBytes x.fmt
  let ex := bits x.scale.toNat 23 8
  if x.dims = 0 ∨ 5 < x.dims ∨ x.sparse = 3 ∨ 2 ≤ x.fill ∨ field r 63 1 ≠ 0 ∨ bits (field r 61 2) 15 1 = 1 then some 1
  else if ds.any (fun d => x.size.getD d 0 == 0 || decide (2 ^ 31 ≤ x.size.getD d 0) || x.stride.getD d 0 % eb != 0) ∨
      up.any (fun d => x.size.getD d 0 != 0 || (d != 0 && x.stride.getD d 0 != 0) || x.box.getD d 1 != 1 || x.perm.getD d 0 != 0) ∨
      x.base.toNat % eb ≠ 0 ∨ 2 ^ 24 < x.tileBytes then some 2
  else if ds.any (fun d => !(x.perm.take x.dims).elem d) then some 3
  else if !shapeFmt x.fmt ∨ !shapeFmt x.tgt ∨
      (x.tgt ≠ x.fmt ∧ !(floatFmt x.fmt && (floatFmt x.tgt || x.tgt == 7))) ∨
      (x.tgt = x.fmt ∧ x.scale ≠ 0x3F800000#32) ∨ ex = 0 ∨ ex = 255 ∨ (x.fill = 1 ∧ !floatFmt x.tgt) ∨
      (x.sparse ≠ 0 ∧ (x.tgt = 0 ∨ 5 < x.tgt ∨ dir = 1 ∨ (x.extents.headD 0) % x.groupOf ≠ 0)) then some 4
  else none

/-! ## The elements of a copy (R265, R266) -/

/-- Tile coordinates of element k. -/
def coordsOf : List Nat → Nat → List Nat
  | [], _ => []
  | e :: rest, k => k % e :: coordsOf rest (k / e)
/-- Tensor coordinates of tile element k for a box origin. -/
def Shape.at_ (x : Shape) (coord : List Int) (k : Nat) : List Int :=
  let ts := coordsOf x.extents k
  (List.range x.dims).map fun d =>
    coord.getD d 0 + (match (x.perm.take x.dims).idxOf? d with
      | some j => (ts.getD j 0 : Int)
      | none => 0)
/-- The address of tile element k in the tensor, where it lies inside (R265), modulo 2^64: the model's choice, log entry 24. -/
def Shape.elemAt (x : Shape) (coord : List Int) (k : Nat) : Option DWord :=
  let cs := x.at_ coord k
  if cs.zipIdx.all fun (c, d) => decide (0 ≤ c) && decide (c < x.size.getD d 0) then
    some (x.base + BitVec.ofInt 64 ((cs.zipIdx.map fun (c, d) => c * (x.stride.getD d 0 : Int)).foldl (· + ·) 0))
  else none
/-- The addresses of every tile element. -/
def Shape.elems (x : Shape) (coord : List Int) : List (Option DWord) := (List.range x.count).map (x.elemAt coord)
/-- What a fill element holds (R265). -/
def Shape.fillBits (x : Shape) : Nat :=
  if x.fill = 1 then (fmtOf x.tgt).nanBits else if x.tgt = 7 then 0x77 else 0
/-- The exact value y × SCALE of an element of a format. -/
def Shape.scaled (x : Shape) (c y : Nat) : FV := (fmulV (elemValue c y) (fp32 x.scale)).getD (.nan false)
/-- An element converted from one format to another, scaled; the bits pass where they are the same (R265). -/
def Shape.conv (x : Shape) (src dst y : Nat) : Nat :=
  bif x.tgt == x.fmt then y else (convert dst (x.scaled src y) .rne x.sat 0).1
/-- Bytes of elements of a format. -/
def elemBytes (c : Nat) (ys : List Nat) : List Byte := ys.flatMap (natLe (eltBytes c))
/-- Nibbles packed two to a byte, the first lower (R74). -/
def packNibbles : List Nat → List Byte
  | [] => []
  | [a] => [BitVec.ofNat 8 a]
  | a :: b :: rest => BitVec.ofNat 8 (a + 16 * b) :: packNibbles rest
/-- Cut a list into runs of n. -/
def chunksOf {α : Type} : Nat → Nat → List α → List (List α)
  | 0, _, _ => []
  | fuel + 1, n, xs => bif xs.isEmpty then [] else xs.take n :: chunksOf fuel n (xs.drop n)
/-- The bytes of a tile from its elements: none is fill (R265, R266). -/
def Shape.tileOf (x : Shape) (ys : List (Option Nat)) : List Byte :=
  let out : Option Nat → Nat := fun y => match y with
    | some y => x.conv x.fmt x.tgt y
    | none => x.fillBits
  if x.sparse = 0 then elemBytes x.tgt (ys.map out)
  else
    let gs := chunksOf ys.length x.groupOf ys
    let picked := gs.map fun g =>
      let vals := g.map fun y => match y with
        | some y => x.scaled x.fmt y
        | none => elemValue x.tgt x.fillBits
      -- a group of fill alone keeps its first elements (R266)
      let (keep, nib) := bif g.all Option.isNone then (List.range (x.groupOf / 2), 4) else sparseGroup (x.sparse == 2) vals
      (keep.map fun k => out (g.getD k none), nib)
    let values := elemBytes x.tgt (picked.flatMap (·.1))
    values ++ List.replicate ((values.length + 127) / 128 * 128 - values.length) 0#8 ++ packNibbles (picked.map (·.2))

/-- What a copy reads and writes in global memory: the elements inside the tensor, and a tile in global memory. -/
def Shape.touches (x : Shape) (dir : Nat) (coord : List Int) (tile : DWord) : List Touch :=
  (((x.elems coord).filterMap id).map fun p => Touch.mk p (eltBytes x.fmt) (dir == 1)) ++
  bif dir == 2 then [⟨tile, x.tileBytes, true⟩] else []

/-! ## TCOPY (R262 to R264) -/

/-- Insert a copy's range into the first free entry of a lock table. -/
def takeLock (r : RLock) : List (Option RLock) → List (Option RLock)
  | [] => []
  | none :: rest => some r :: rest
  | some x :: rest => some x :: takeLock r rest
/-- Lowest and highest byte of a list of elements. -/
def intervalOf (n : Nat) (as : List DWord) : Option (DWord × DWord) :=
  match as with
  | [] => none
  | a :: rest =>
    some (rest.foldl (fun m x => bif x < m then x else m) a,
      rest.foldl (fun m x => bif m < x then x else m) a + BitVec.ofNat 64 (n - 1))
/-- Ranges overlap. -/
def rangesMeet (a b : DWord × DWord) : Bool := decide (a.1 ≤ b.2) && decide (b.1 ≤ a.2)
/-- Step 8 of R264: range locks, presence bits, the queue entry. -/
def State.enterCopy (s : State) (ag : Nat) (x : Copy) (tens : Option (DWord × DWord)) (tile : DWord × DWord) (bytes : Nat) : State :=
  let c := s.coreOf ag
  let v := s.vdOf ag
  let ranges := (match tens with
      | some (lo, hi) => [RLock.mk x.id v lo hi (x.dir == 1)]
      | none => []) ++ (bif x.dir == 2 then [⟨x.id, v, tile.1, tile.2, true⟩] else [])
  let s := s.modCore c fun k =>
    { k with copyQ := k.copyQ ++ [x], copyNo := k.copyNo + 1, locks := ranges.foldl (fun l r => takeLock r l) k.locks }
  bif x.dir == 0 then s.padAbsent x.share x.tile.toNat bytes else s
/-- Steps 3 to 8 of R264, on a record that is valid; a coordinate register whose result is outstanding is waited for (R59, R262). -/
def State.tcopySteps (s : State) (ag dir cmode scope : Nat) (d b c : Reg) (r : ShapeRec) : State × Fate :=
  let x := Shape.parse r
  let a := s.agent ag
  let h := s.shareOf ag
  let bytes := x.tileBytes
  if a.home.budget < b.toNat + x.dims then (s, reason5 5)
  else if a.outst.any fun o => o.writes.any fun w => (List.range x.dims).any fun k => w.1 == .reg (b.toNat + k) then (s, .stall)
  else
    let tile := bif dir == 2 then s.d64 ag d else (s.d32 ag d).setWidth 64
    if tile.toNat % (if dir = 2 then 16 else 128) ≠ 0 then (s, .trap 0x03 tile 0#32)
    else if dir ≠ 2 ∧ (s.share h).size < tile.toNat + bytes then (s, reason5 6)
    else
      let ctr := s.counterOf ag cmode c
      match s.counterCheck ag cmode ctr with
      | some f => (s, f)
      | none =>
        let coord := (List.range x.dims).map fun k => (s.regN ag (10 + k) (b.toNat + k)).toInt
        let ins := (x.elems coord).filterMap id
        let eb := eltBytes x.fmt
        let data := x.touches dir coord tile
        match s.checkPages ag (pagesOf (data ++ counterTouch cmode ctr)) with
        | (s, some f) => (s, f)
        | (s, none) =>
          let tens := intervalOf eb ins
          let out := (tile, tile + BitVec.ofNat 64 (bytes - 1))
          let clash := match tens with
            | some t => dir == 2 && !s.unsettled (s.taskOf ag) && rangesMeet t out
            | none => false
          if clash then (s, reason5 7)
          else
            s.charged ag data fun s blocks =>
              (s.enterCopy ag
                { id := (s.core (s.coreOf ag)).copyNo, share := h, dir := dir, shape := r, coord := coord, tile := tile,
                  cmode := cmode, counter := ctr, blocks := blocks, ag := ag, sys := cmode == 0 && scope == 7, since := s.moves, moved := none }
                tens out bytes, .next)
/-- TCOPY by its elected thread (R264). -/
def State.tcopy1 (s : State) (ag dir cmode scope : Nat) (d a b c : Reg) : State × Fate :=
  let k := s.core (s.coreOf ag)
  if 16 ≤ k.copyQ.length ∨ (k.locks.filter Option.isNone).length < (if dir = 2 then 2 else 1) then (s, .wait (.engine 0))
  else
    match s.drainGroup ag with
    | (s, false) => (s, .stall)
    | (s, true) =>
      s.committing (s.taskOf ag) (cmode == 0 && wide scope) fun s =>
        let ea := s.a64 ag a
        if ea.toNat % 64 ≠ 0 then (s, .trap 0x03 ea 0#32)
        else
          match s.accessParts ag ⟨.load, 0#32, false, none, none⟩ ea [(ea, 64)] with
          | (s, .error f) => (s, f)
          | (s, .ok ps) =>
            match s.readParts ag ps with
            | (s, none) => (s, .stall)
            | (s, some r) =>
              match shapeReason r dir with
              | some n => (s, reason5 n)
              | none => s.tcopySteps ag dir cmode scope d b c r

/-- TCOPY (R262). -/
def execTcopy (c0 : Ctl) (dir : BitVec 2) (cmode : BitVec 2) (scope : BitVec 3) (d : Reg) (a : Reg) (b : Reg) (c : Reg) (s : State) : Result :=
  .next (s.issue (.tcopy c0 dir cmode scope d a b c) (elected fun ag s => s.tcopy1 ag dir.toNat cmode.toNat scope.toNat d a b c))

/-! ## Running a copy (R265 to R268) -/

/-- COPY_START on a core: the oldest queued copy starts while fewer than four run (R267); none where it cannot. -/
def State.startCopy (s : State) (core : Nat) : Option State :=
  let k := s.core core
  match k.copyQ with
  | x :: rest =>
    bif decide (k.copies.length < 4) then some (s.modCore core fun k => { k with copyQ := rest, copies := k.copies ++ [x] })
    else none
  | [] => none
/-- Read the elements of a tensor that lie inside. -/
def State.readElems (s : State) (t core eb : Nat) : List (Option DWord) → State × List (Option Nat)
  | [] => (s, [])
  | none :: rest =>
    let (s, ys) := s.readElems t core eb rest
    (s, none :: ys)
  | some a :: rest =>
    let (s, bs) := s.engRead t (.core core) [(a, eb)]
    let (s, ys) := s.readElems t core eb rest
    (s, some (leNat bs) :: ys)
/-- Write the elements of a tensor that lie inside; how many. -/
def State.writeElems (s : State) (t maker core eb : Nat) : List (Option DWord × Nat) → State
  | [] => s
  | (none, _) :: rest => s.writeElems t maker core eb rest
  | (some a, y) :: rest => (s.engWrite t maker core [(a, eb)] (natLe eb y)).writeElems t maker core eb rest
/-- Move a copy's data; the bytes it is credited with (R265, R267). -/
def State.moveCopy (s : State) (t core : Nat) (x : Copy) : State × Nat :=
  let p := Shape.parse x.shape
  let as := p.elems x.coord
  let eb := eltBytes p.fmt
  if x.dir = 1 then
    let tb := eltBytes p.tgt
    let pad := (s.share x.share).pad
    let ys := (List.range as.length).map fun k => p.conv p.tgt p.fmt (leNat (pad.getN (x.tile.toNat + tb * k) tb))
    (s.writeElems t (copyMaker core x.id) core eb (as.zip ys), (as.filter Option.isSome).length * eb)
  else
    let (s, ys) := s.readElems t core eb as
    let bs := p.tileOf ys
    (bif x.dir == 0 then s.padWrite x.share x.tile.toNat bs else s.engWriteN t (copyMaker core x.id) core x.tile bs, bs.length)
/-- A completed copy reports: an increment of its counter, or a credit of its barrier (R267, R269). -/
def State.report (s : State) (t core : Nat) (x : Copy) (bytes : Nat) : State :=
  match x.cmode with
  | 0 => s.engAdd t (copyMaker core x.id) core x.counter 1#64
  | 1 => s.padAdd x.share x.counter.toNat 1#64
  | _ => s.barCredit t (x.counter.toNat % 16) bytes
/-- A lock-table entry without the locks of a copy. -/
def unlock (id : Nat) : Option RLock → Option RLock
  | some r => bif r.copy == id then none else some r
  | none => none
/-- The increment of a copy at system scope has to wait: for the copy's own posted writes, and those that came before its issue in its partition (R103, R113, R124). -/
def State.copyPosts (s : State) (core : Nat) (x : Copy) : Bool :=
  x.sys && (s.postingOf (copyMaker core x.id) || s.postedBy (partOf (s.taskVd (s.share x.share).task)) x.since)
/-- A copy whose data has moved reports, unless its increment at system scope waits for its posted writes (R113); its locks and charges go (R116, R271). -/
def State.reportCopy (s : State) (core k : Nat) (x : Copy) (bytes : Nat) : State :=
  bif s.copyPosts core x then
    s.modCore core fun y => { y with copies := y.copies.set k { x with moved := some bytes } }
  else
    let s := s.report (s.share x.share).task core x bytes
    let s := s.modCore core fun y =>
      { y with copies := y.copies.eraseIdx k, locks := y.locks.map (unlock x.id) }
    s.releaseIdle x.blocks
/-- COPY_COMPLETE of the k-th running copy of a core: its data, then its report (R116, R267, R271, R379); none while a hand-over holds a page of it (R370), its counter cannot be charged (R332) or its writes wait for a commit. -/
def State.finishCopy (s : State) (core k : Nat) : Option State :=
  ((s.core core).copies[k]?).bind fun x =>
    let t := (s.share x.share).task
    let p := Shape.parse x.shape
    let ts := bif x.moved.isNone then p.touches x.dir x.coord x.tile else []
    let all := ts ++ counterTouch x.cmode x.counter
    bif s.stopped t || s.engHeld t core (pagesOf all) || s.engShort t core all then none else
    match x.moved, s.engBudget t (some x.ag) (s.engLines t core all) ((all.find? (·.store)).map (·.va) |>.getD 0#64) with
    | some n, .done s => some (s.reportCopy core k x n)
    | none, .done s =>
      let (s, n) := s.moveCopy t core x
      some (s.reportCopy core k x n)
    | _, .failed s => some s
    | _, .held => none
/-- COPY_START (R267). -/
def execCopyStart (core : Nat) (s : State) : Result := .next ((s.startCopy core).getD s)
/-- COPY_COMPLETE (R267). -/
def execCopyComplete (core k : Nat) (s : State) : Result := .next ((s.finishCopy core k).getD s)

/-! ## CTWAIT (R270) -/

/-- CTWAIT's B operand: a pair, IMM16 zero-extended, or a literal (R270). -/
def State.bZero (s : State) (ag : Nat) : Src → DWord
  | .reg r => s.pair ag 2 r
  | .imm i => i.setWidth 64
  | .lit x => x
  | .blit x => x
/-- CTWAIT of one thread: the value read, or a park until it is met (R270). -/
def State.ctwait1 (s : State) (ag : Nat) (sp : Bool) (d a : Reg) (b : DWord) : State × Fate :=
  let done := fun (s : State) (bs : List Byte) =>
    let x := BitVec.ofNat 64 (leNat bs)
    if b ≤ x then (s.out ag true false (toPair d x) 0#5, Fate.next) else (s, .wait .counter)
  if sp then
    let off := s.a32 ag a
    match s.padCheck ag off 8 false with
    | some f => (s, f)
    | none => done s (s.padRead ag off.toNat 8)
  else
    match s.access ag (s.a64 ag a) 8 8 ⟨.load, accInfo 8 false false, false, some false, none⟩ with
    | (s, .fate f) => (s, f)
    | (s, .absent) => (s, .next)
    | (s, .ok pa _ _) =>
      match s.readQueued ag pa 8 with
      | (s, none) => (s, .stall)
      | (s, some bs) => done s bs

/-- CTWAIT (R270). -/
def execCtwait (c0 : Ctl) (sp : Bool) (scope : BitVec 3) (d : Reg) (a : Reg) (b : Src) (s : State) : Result :=
  .next (s.issue (.ctwait c0 sp scope d a b) (perThread fun ag s => s.ctwait1 ag sp d a (s.bZero ag b)))

end Sys2Proof.Machine
end

