-- ==== Sys2Proof/Machine/Chains.lean ====
section
/-! DEFINITION. Command chains: CHAIN, CHKILL, and the entries and end of a chain on a core or on the hearth's port
(13 R272 to R277, 23 R402). -/

namespace Sys2Proof.Machine

/-! ## Entries (R272, R273) -/

/-- A chain entry's fields. -/
structure Entry where
  type : Nat
  flags : Nat
  aux : Nat
  len : Nat
  x : DWord
  y : DWord
  z : DWord
  deriving DecidableEq, Repr, Inhabited
/-- Read an entry's 32 bytes. -/
def Entry.parse (bs : List Byte) : Entry :=
  let f := fun i n => field bs i n
  ⟨f 0 1, f 1 1, f 2 2, f 4 4, BitVec.ofNat 64 (f 8 8), BitVec.ofNat 64 (f 16 8), BitVec.ofNat 64 (f 24 8)⟩
/-- An address operand (R272). -/
inductive CAddr where
  | pad (off : Nat)
  | virt (va : DWord)
  | phys (pa : Nat)
  deriving DecidableEq, Repr
/-- Decode an address operand; none where a reserved bit is set. -/
def CAddr.of (phys : Bool) (x : DWord) : Option CAddr :=
  if x.getLsbD 63 then (if bits x.toNat 32 31 = 0 then some (.pad (x.toNat % 2 ^ 32)) else none)
  else if phys then (if bits x.toNat 52 12 = 0 then some (.phys x.toNat) else none)
  else (if bits x.toNat 48 15 = 0 then some (.virt (canon (x.toNat % 2 ^ 48))) else none)
/-- A port of R273. -/
def portOk (p : Nat) : Bool := decide (p < 18) || p == 32 || p == 33
/-- An entry's reserved fields are zero, and its codes are of R273. -/
def Entry.ok (e : Entry) : Bool :=
  let f := fun mask => e.flags &&& (255 - mask) == 0
  match e.type with
  | 0 => f 0 && e.aux == 0 && e.len == 0 && e.x == 0#64 && e.y == 0#64 && e.z == 0#64
  | 1 => f 128 && e.aux == 0 && e.len != 0 && e.z == 0#64
  | 2 =>
    f 255 && e.aux == 0 && e.len != 0 && e.z == 0#64 && decide (bits e.flags 4 3 < 3) && [0, 2, 8].elem (bits e.flags 0 4) &&
    e.len % eltBytes (bits e.flags 0 4) == 0
  | 3 => f 0 && portOk e.aux && e.len != 0 && (decide (32 ≤ e.aux) || e.z == 0#64) && (CAddr.of false e.y).isSome
  | 4 => f 0 && e.aux == 0 && e.len == 0 && e.z == 0#64
  | 5 =>
    f 143 && e.len == 0 &&
    (bif bits e.flags 3 1 == 1 then portOk e.aux && (decide (32 ≤ e.aux) || e.z == 0#64) && (CAddr.of (bits e.flags 7 1 == 1) e.x).isSome else e.aux == 0 && e.z == 0#64)
  | 6 => f 0 && e.aux != 0 && e.len != 0 && e.x == 0#64 && e.y == 0#64 && e.z == 0#64
  | 7 => f 3 && e.len == 0 && e.z == 0#64
  | _ => false

/-! ## Chains in their slots (R275, R402) -/

/-- The chain in a slot. -/
def State.chainAt (s : State) (u : ChainRef) : Option Chain :=
  match u with
  | .core c k => ((s.core c).chains.getD k (0, none)).2
  | .hearth d k => s.hearth.chains.getD (4 * d + k) none
/-- Replace the chain in a slot. -/
def State.setChain (s : State) (u : ChainRef) (x : Option Chain) : State :=
  match u with
  | .core c k => s.modCore c fun y => { y with chains := y.chains.modify k fun p => (p.1, x) }
  | .hearth d k => s.modHearth fun h => { h with chains := h.chains.set (4 * d + k) x }
/-- Who runs a chain: its core and share where it has them, its task, its virtual device. -/
structure Runner where
  core : Nat
  share : Option Nat
  task : Option Nat
  vd : Nat
  priv : Bool
  /-- Who its posted writes and its budget's cause 0x10 belong to. -/
  maker : Nat
  ag : Option Nat
  deriving DecidableEq, Repr
/-- The runner of a chain. -/
def State.runner (s : State) (u : ChainRef) (x : Chain) : Runner :=
  match u, x.share with
  | .core c _, some h => ⟨c, some h, some (s.share h).task, s.taskVd (s.share h).task, x.priv, chainMaker u, x.ag⟩
  | .core c _, none => ⟨c, none, none, x.vd, x.priv, chainMaker u, none⟩
  | .hearth _ _, _ => ⟨0, none, none, x.vd, x.priv, chainMaker u, none⟩
/-- A part of an operand that lies in one page: its address as the operand gives it, its place, its length, RB and HOME 11. -/
structure Part where
  at_ : DWord
  pa : Nat
  n : Nat
  rb : Bool
  h11 : Bool
  deriving DecidableEq, Repr
/-- Why an entry is not performed. -/
inductive CStop where
  /-- The chain faults with a cause, an address, and the shortfall of a refused charge (R276). -/
  | fault (cause : Nat) (addr : DWord) (short : Nat)
  /-- A refused charge of an unsettled task, at a physical address (R237, R337). -/
  | capacity (addr : DWord) (pa short : Nat)
  /-- The task restarts: the commit that its budget asked for failed (R379, R381). -/
  | gone
  /-- Not yet: a hand-over, a suspended charge path, or a condition that does not hold. -/
  | wait
  deriving DecidableEq, Repr
/-- Translate for a chain: of its core, or of the hearth's port (R402). -/
def State.chainXlat (s : State) (r : Runner) (phys : Bool) (a : DWord) (k : Access) : State × Xlat :=
  if phys then (s, s.physAt r.vd a.toNat) else s.xlat r.vd (bif r.share.isSome then .core r.core else .hearth) a k
/-- Parts of a range, or what stops the access. -/
def State.chainParts (s : State) (r : Runner) (phys : Bool) (k : Access) : List (DWord × Nat) → State × Except CStop (List Part)
  | [] => (s, .ok [])
  | (a, n) :: rest =>
    match s.chainXlat r phys a k with
    | (s, .held) => (s, .error .wait)
    | (s, .bad c) => (s, .error (.fault c a 0))
    | (s, .ok pa rb h11) =>
      match s.chainParts r phys k rest with
      | (s, .error e) => (s, .error e)
      | (s, .ok l) => (s, .ok (⟨a, pa, n, rb, h11⟩ :: l))
/-- Where an operand of n bytes lies: a range of the window, or parts of memory. -/
def State.chainPlace (s : State) (r : Runner) (k : Access) (n : Nat) : CAddr → State × Except CStop (Sum Nat (List Part))
  | .pad off =>
    match r.share with
    | some h => (s, bif off + n ≤ (s.share h).size then .ok (.inl off) else .error (.fault 0x05 (BitVec.ofNat 64 off) 0))
    | none => (s, .error (.fault 0x05 (BitVec.ofNat 64 off) 0))
  | .virt va =>
    match s.chainParts r false k (pageParts (n / 65536 + 2) va n) with
    | (s, .error e) => (s, .error e)
    | (s, .ok l) => (s, .ok (.inr l))
  | .phys pa =>
    match s.chainParts r true k (pageParts (n / 65536 + 2) (BitVec.ofNat 64 pa) n) with
    | (s, .error e) => (s, .error e)
    | (s, .ok l) => (s, .ok (.inr l))
/-- Read what a place holds, as the chain's task sees it. -/
def State.chainRead (s : State) (r : Runner) (n : Nat) : Sum Nat (List Part) → State × List Byte
  | .inl off => (s, (s.share (r.share.getD 0)).pad.getN off n)
  | .inr ps =>
    match r.task with
    | some t => (ps.foldl (fun s p => s.noteRead t p.pa p.n) s, ps.flatMap fun p => s.readAs t p.pa p.n)
    | none => (s, ps.flatMap fun p => s.readCommitted p.pa p.n)
/-- The blocks of parts, each at its lowest byte written: the operand's address, the place, RB. -/
def partBlocks (ps : List Part) : List (DWord × Nat × Bool) :=
  ps.flatMap fun p => (blocksIn p.pa p.n).map fun b =>
    let x := max (b * 1024) p.pa
    (p.at_ + BitVec.ofNat 64 (x - p.pa), x, p.rb)
/-- How a list of charges of a chain ends. -/
inductive ChainCharge where
  | taken (s : State)
  | held
  /-- Refused: the operand's address, the block, the shortfall. -/
  | refused (a : DWord) (pa short : Nat)
/-- Charge blocks in order (R276). -/
def State.chainCharge (s : State) (v : Nat) : List (DWord × Nat × Bool) → ChainCharge
  | [] => .taken s
  | (a, pa, rb) :: rest =>
    match s.charge v pa rb with
    | (s, .accepted) => s.chainCharge v rest
    | (_, .held) => .held
    | (_, .refused short) => .refused a pa short
/-- Write bytes at parts. -/
def State.chainPut (s : State) (r : Runner) : List Part → List Byte → State
  | [], _ => s
  | p :: rest, bs =>
    let s := match r.task with
      | some t => s.writeHome t r.maker p.pa p.h11 (bs.take p.n)
      | none => (s.writeCommitted r.maker none p.pa (bs.take p.n)).settleHome p.h11 p.pa p.n
    s.chainPut r rest (bs.drop p.n)
/-- Write a place, its budget and its charges first; nothing is written or charged where it stops, and a refusal is noted (R331, R379). -/
def State.chainWrite (s : State) (r : Runner) (bs : List Byte) : Sum Nat (List Part) → State × Option CStop
  | .inl off => (s.padWrite (r.share.getD 0) off bs, none)
  | .inr ps =>
    let go := fun (s : State) =>
      let uns := match r.task with
        | some t => s.unsettled t
        | none => false
      match s.chainCharge r.vd (partBlocks ps) with
      | .taken s => (s.chainPut r ps bs, none)
      | .held => (s, some CStop.wait)
      | .refused a pa n => (s.refusedOn r.vd (stackOf pa), some (bif uns then CStop.capacity a pa n else CStop.fault 0x08 a n))
    match r.task with
    | some t =>
      match s.engBudget t r.ag (distinct (ps.flatMap fun p => linesOf p.pa p.n)) (ps.headD ⟨0#64, 0, 0, false, false⟩).at_ with
      | .done s => go s
      | .failed s => (s, some .gone)
      | .held => (s, some .wait)
    | none => go s

/-! ## Performing an entry (R273, R274, R276) -/

/-- dest op source of two encodings of a format (R273). -/
def redElem (op c x y : Nat) : Nat :=
  if c = 8 then
    match op with
    | 0 => (x + y) % 2 ^ 32
    | 1 => bif decide (sext x 32 ≤ sext y 32) then x else y
    | _ => bif decide (sext x 32 ≤ sext y 32) then y else x
  else
    match op with
    | 0 => (convert c (fsumV [elemValue c x, elemValue c y] .rne).1 .rne false 0).1
    | 1 => (fminmax c x y false).1
    | _ => (fminmax c x y true).1
/-- REDCOPY of byte lists, element by element. -/
def redBytes (op c : Nat) : List (List Byte) → List (List Byte) → List Byte
  | x :: xs, y :: ys => natLe (eltBytes c) (redElem op c (leNat x) (leNat y)) ++ redBytes op c xs ys
  | _, _ => []
/-- An operand that may be read or written: its place, or what stops the entry; PHYS needs the privilege wherever the operand lies (R276). -/
def State.operand (s : State) (r : Runner) (phys : Bool) (k : Access) (n align : Nat) (x : DWord) :
    State × Except CStop (Sum Nat (List Part)) :=
  match CAddr.of phys x with
  | none => (s, .error (.fault 0x05 x 0))
  | some a =>
    bif phys && !r.priv then (s, .error (.fault 0x02 x 0))
    else bif x.toNat % align == 0 then s.chainPlace r k n a else (s, .error (.fault 0x03 x 0))
/-- COPY and REDCOPY (R273). The whole source is read before the destination is written: the model's choice where they overlap, log entry 25. -/
def State.chainCopy (s : State) (r : Runner) (e : Entry) (red : Bool) : State × Option CStop :=
  let phys := bits e.flags 7 1 == 1
  match s.operand r phys .load e.len 1 e.x with
  | (s, .error c) => (s, some c)
  | (s, .ok src) =>
    match s.operand r phys .store e.len 1 e.y with
    | (s, .error c) => (s, some c)
    | (s, .ok dst) =>
      let (s, bs) := s.chainRead r e.len src
      let (s, old) := bif red then s.chainRead r e.len dst else (s, [])
      let n := eltBytes (bits e.flags 0 4)
      let out := bif red then redBytes (bits e.flags 4 3) (bits e.flags 0 4) (chunksOf old.length n old) (chunksOf bs.length n bs) else bs
      s.chainWrite r out dst
/-- Read a counter operand. -/
def State.chainCounter (s : State) (r : Runner) (phys : Bool) (k : Access) (x : DWord) :
    State × Except CStop (Sum Nat (List Part) × DWord) :=
  match s.operand r phys k 8 8 x with
  | (s, .error c) => (s, .error c)
  | (s, .ok p) =>
    let (s, bs) := s.chainRead r 8 p
    (s, .ok (p, BitVec.ofNat 64 (leNat bs)))
/-- Whether a SKIPIF condition holds. -/
def skipHolds (cond : Nat) (c v : DWord) : Bool :=
  match cond with
  | 0 => c == v
  | 1 => c != v
  | 2 => decide (c < v)
  | _ => decide (v ≤ c)
/-- A port that a runner may use: in split mode its partition's own links and Ethernet port (R8, R412); another is a PORT value that its partition does not have (log entry 50). -/
def State.ownPort (s : State) (r : Runner) (port : Nat) : Bool :=
  s.hearth.config.unified || (bif decide (port < 18) then port / 9 else port % 2) == partOf r.vd
/-- A link can carry a SEND now, has been lost, or is not ready. -/
def State.portState (s : State) (port : Nat) : LinkState := bif decide (18 ≤ port) then .up else s.hearth.links.getD port .down
/-- A release at system scope of a chain has to wait: for the chain's own posted writes, and those that came before it in its partition (R103, R113, R124). -/
def State.chainPosts (s : State) (r : Runner) (x : Chain) : Bool := s.postingOf r.maker || s.postedBy (partOf r.vd) x.since
/-- What an entry does to its chain. -/
inductive CStep where
  /-- Performed; go on at an address. -/
  | go (s : State) (x : Chain)
  /-- Not performed. -/
  | stop (s : State) (e : CStop)
/-- Perform the entry at the chain's position. -/
def State.chainDo (s : State) (r : Runner) (x : Chain) (e : Entry) : CStep :=
  let nxt := { x with pos := x.pos + 32#64 }
  if x.sends ≠ [] ∧ e.type ≠ 3 then .stop s .wait
  else if !e.ok then .stop s (.fault 0x05 0#64 0)
  else
    match e.type with
    | 0 => .go s { x with ending := some 1#64 }
    | 1 => match s.chainCopy r e false with
      | (s, some c) => .stop s c
      | (s, none) => .go s nxt
    | 2 => match s.chainCopy r e true with
      | (s, some c) => .stop s c
      | (s, none) => .go s nxt
    | 3 => match s.operand r false .load e.len 1 e.x with
      | (s, .error c) => .stop s c
      | (s, .ok _) =>
        if !s.ownPort r e.aux then .stop s (.fault 0x05 0#64 0)
        else match s.portState e.aux with
          | .up => .go s { nxt with sends := x.sends ++ [(e.aux, x.pos)] }
          | .down => .stop s (.fault 0x11 0#64 0)
          | _ => .stop s .wait
    | 4 => match s.chainCounter r false .load e.x with
      | (s, .error c) => .stop s c
      | (s, .ok _) => .stop s .wait
    | 5 =>
      if bits e.flags 3 1 = 1 then
        if !s.ownPort r e.aux then .stop s (.fault 0x05 0#64 0)
        else if bits e.flags 7 1 = 1 ∧ r.priv = false then .stop s (.fault 0x02 e.x 0)
        else if e.x.toNat % 8 ≠ 0 then .stop s (.fault 0x03 e.x 0)
        else match s.portState e.aux with
          | .up => bif s.chainPosts r x then .stop s .wait else .go s nxt
          | .down => .stop s (.fault 0x11 0#64 0)
          | _ => .stop s .wait
      else
        match s.chainCounter r (bits e.flags 7 1 == 1) .store e.x with
        | (s, .error c) => .stop s c
        | (s, .ok (p, v)) =>
          if bits e.flags 0 3 = 7 ∧ s.chainPosts r x then .stop s .wait
          else match s.chainWrite r (natLe 8 (v + e.y).toNat) p with
            | (s, some c) => .stop s c
            | (s, none) => .go s nxt
    | 6 =>
      let n := (x.loops.lookup x.pos).getD 0
      let others := x.loops.filter fun l => l.1 != x.pos
      if n + 1 < e.len then
        if others.length = 4 then .stop s (.fault 0x05 0#64 0)
        else .go s { x with pos := x.pos - BitVec.ofNat 64 (32 * e.aux), loops := (x.pos, n + 1) :: others }
      else .go s { nxt with loops := others }
    | _ => match s.chainCounter r false .load e.x with
      | (s, .error c) => .stop s c
      | (s, .ok (_, v)) =>
        .go s (bif skipHolds (bits e.flags 0 2) v e.y then { nxt with pos := nxt.pos + BitVec.ofNat 64 (32 * e.aux) } else nxt)
/-- The entry at a chain's position, or what stops it: the window, the head, or the access (R274, R276, R402). -/
def State.fetchEntry (s : State) (r : Runner) (x : Chain) : State × Except CStop Entry :=
  let back := decide ((x.pos - x.head).toInt < 0)
  match r.share with
  | some h =>
    if back ∨ (s.share h).size < x.pos.toNat + 32 then (s, .error (.fault 0x05 x.pos 0))
    else (s, .ok (Entry.parse ((s.share h).pad.getN x.pos.toNat 32)))
  | none =>
    if back then (s, .error (.fault 0x05 x.pos 0))
    else if x.pos.toNat % 32 ≠ 0 then (s, .error (.fault 0x03 x.pos 0))
    else
      match s.chainParts r false .load [(x.pos, 32)] with
      | (s, .error e) => (s, .error e)
      | (s, .ok ps) =>
        let (s, bs) := s.chainRead r 32 (.inr ps)
        (s, .ok (Entry.parse bs))
/-- The record of a fault of a CHAINRUN chain (R402). -/
def State.chainrunRecord (s : State) (r : Runner) (x : Chain) (cause : Nat) (addr : DWord) (short : Nat) : List Byte :=
  FaultRecord.bytes
    { flags := cause, task := 0#32, pc := x.pos, addr := addr, info := 0#32, tid := 0xFFFFFFFF#32, team := 0,
      short := short, supp := 0, time := s.guest r.vd, nrest := 0 }
/-- The record of a chain fault cannot be written yet: the chain's end waits for it (R402, R409, R410). -/
def State.chainRecordHeld (s : State) (r : Runner) (x : Chain) : Bool :=
  match r.task with
  | some t => s.recordHeld (s.task t).launch
  | none => s.hearth.restart.elem 4 || (x.frec != 0#64 && s.hearthHeld r.vd x.frec (.store (List.replicate 64 0#8)))
/-- A chain fault: the entry is not performed, the record is written and the chain ends (R276, R402); it waits while its record is held. -/
def State.chainFault (s : State) (u : ChainRef) (r : Runner) (x : Chain) (cause : Nat) (addr : DWord) (short : Nat) : State :=
  bif s.chainRecordHeld r x then s.setChain u (some { x with failing := some (cause, addr, short), sends := [] }) else
  let s := match r.task with
    | some t => s.taskRecord t 0 ⟨cause, x.pos, addr, 0#32, x.tid, x.fe, short⟩ 0
    | none =>
      if x.frec = 0#64 then s.modTele fun t => { t with unwritten := t.unwritten + 1 }
      else
        let bs := s.chainrunRecord r x cause addr short
        (s.modVdev r.vd fun d => { d with records := (bs :: d.records).take 64 }).hearthPost r.vd 1 x.frec (.store bs)
  s.setChain u (some { x with ending := some 0x8000000000000001#64, sends := [], failing := none })
/-- What stops an entry does to the machine. -/
def State.chainStop (s : State) (u : ChainRef) (r : Runner) (x : Chain) : CStop → State
  | .wait => s
  | .gone => s
  | .fault c a short => s.chainFault u r x c a short
  | .capacity a pa short =>
    match r.task with
    | some t => s.markCapacity t ⟨0x08, x.pos, a, 0#32, x.tid, x.fe, short⟩ (some pa)
    | none => s
/-- The SENDs of a chain that a CHKILL leaves in progress: those on links that are up are performed first, one on a link that has been declared down faults, and those on a retraining link end at once (R276, R277). -/
def State.sendsLeft (s : State) (x : Chain) : List (Nat × DWord) :=
  x.sends.filter fun p => match s.portState p.1 with
    | .up => true
    | _ => false
/-- The port that stands for a SEND whose link has been declared down. -/
def lostPort : Nat := 255
/-- A chain whose oldest unacknowledged SEND was on a link declared down faults there, all SENDs before it being acknowledged (R276). -/
def State.lostTest (s : State) (u : ChainRef) (x : Chain) : State :=
  match x.sends with
  | (p, a) :: _ => bif p == lostPort then s.chainFault u (s.runner u x) { x with pos := a } 0x11 0#64 0 else s
  | [] => s
/-- A wide SIGNAL, or a SEND, of an unsettled task commits its version first (R120). -/
def Entry.commits (e : Entry) : Bool := e.type == 3 || (e.type == 5 && (bits e.flags 3 1 == 1 || wide (bits e.flags 0 3)))
/-- A virtual device is frozen or being cleared: its chains perform no further entry (R402, R411, R419). -/
def State.frozenFor (s : State) (v : Nat) : Bool := (s.vdev v).state == .frozen || (s.vdev v).state == .clearing
/-- CHAIN_ENTRY: a chain reaches its next entry and performs it; a fault there waits until the SENDs before it are acknowledged (R113, R274, R276). -/
def State.chainNext (s : State) (u : ChainRef) : State :=
  match s.chainAt u with
  | none => s
  | some x =>
    let r := s.runner u x
    let stopped := match r.task with
      | some t => s.stopped t
      | none => false
    if x.ending.isSome || stopped || s.frozenFor r.vd then s
    else match x.failing with
    | some (c, a, n) => s.chainFault u r x c a n
    | none =>
    if x.stop then
      let left := s.sendsLeft x
      let y := { x with sends := left, ending := bif left.isEmpty then some 0x4000000000000001#64 else none }
      (s.setChain u (some y)).lostTest u y
    else
      match s.fetchEntry r x with
      | (s, .error e) => bif x.sends.isEmpty then s.chainStop u r x e else s
      | (s, .ok e) =>
        let go := fun (s : State) =>
          match s.chainDo r x e with
          | .go s y => s.setChain u (some y)
          | .stop s c => bif x.sends.isEmpty then s.chainStop u r x c else s
        match r.task with
        | some t =>
          if e.commits && s.unsettled t then
            match s.commit t with
            | .done s => go s
            | .failed s => s
            | .held => s
          else go s
        | none => go s
/-- The SENDs on a link that is declared down are lost; the chain faults at the first of them once the SENDs before it are acknowledged (R113, R276). -/
def State.chainLost (s : State) (u : ChainRef) (link : Nat) : State :=
  match s.chainAt u with
  | none => s
  | some x =>
    let y := { x with sends := x.sends.map fun p => bif p.1 == link then (lostPort, p.2) else p }
    (s.setChain u (some y)).lostTest u y
/-- CHAIN_SEND_ACK: a peer acknowledges the oldest SEND, or rejects it with cause 0x05 (R274, R276). That peers on different links answer overlapping SENDs in the order of the entries is the model's choice, which the spec leaves open: log entry 25. -/
def State.chainAck (s : State) (u : ChainRef) (accept : Bool) : State :=
  match s.chainAt u with
  | none => s
  | some x =>
    match x.sends with
    | [] => s
    | p :: rest =>
      if accept then (s.setChain u (some { x with sends := rest })).lostTest u { x with sends := rest }
      else s.chainFault u (s.runner u x) { x with pos := p.2 } 0x05 0#64 0
/-- CHAIN_RECVWAIT_MET: the counter of the RECVWAIT reached has its value (R273). -/
def State.chainRecv (s : State) (u : ChainRef) : State :=
  match s.chainAt u with
  | none => s
  | some x =>
    let r := s.runner u x
    if x.ending.isSome ∨ x.stop ∨ x.sends ≠ [] ∨ x.failing ≠ none ∨ s.frozenFor r.vd then s
    else
      match s.fetchEntry r x with
      | (s, .error _) => s
      | (s, .ok e) =>
        if e.type = 4 ∧ e.ok then
          match s.chainCounter r false .load e.x with
          | (s, .ok (_, v)) => bif e.y ≤ v then s.setChain u (some { x with pos := x.pos + 32#64, since := s.moves }) else s
          | (s, .error _) => s
        else s
/-- CHAIN_END on a core: the end value is added to the counter and the slot frees (R275), once no hand-over holds the counter's page and, at system scope, its posted writes are acknowledged (R113, R370). -/
def State.chainEndCore (s : State) (u : ChainRef) : State :=
  match s.chainAt u with
  | none => s
  | some x =>
    match x.ending, s.runner u x with
    | some v, ⟨c, some h, some t, vd, _, m, ag⟩ =>
      let ts := counterTouch x.cmode x.counter
      bif s.stopped t || s.engHeld t c (pagesOf ts) || s.engShort t c ts || (x.sys && (s.postingOf m || s.postedBy (partOf vd) x.since)) then s
      else match s.engBudget t ag (s.engLines t c ts) x.counter with
        | .done s => (bif x.cmode == 0 then s.engAdd t m c x.counter v else s.padAdd h x.counter.toNat v : State).setChain u none
        | .failed s => s
        | .held => s
    | _, _ => s

/-- CHAIN_ENTRY (R274). -/
def execChainEntry (u : ChainRef) (s : State) : Result := .next (s.chainNext u)
/-- CHAIN_SEND_ACK (R274). -/
def execChainSendAck (u : ChainRef) (accept : Bool) (s : State) : Result := .next (s.chainAck u accept)
/-- CHAIN_RECVWAIT_MET (R273). -/
def execChainRecvwaitMet (u : ChainRef) (s : State) : Result := .next (s.chainRecv u)

/-! ## CHAIN and CHKILL (R275, R277) -/

/-- The entries from an offset on, up to an END or the window's edge, hold a SEND. -/
def holdsSend (pad : Mem) (size : Nat) : Nat → Nat → Bool
  | 0, _ => false
  | fuel + 1, off =>
    if size < off + 32 then false
    else
      match (pad.get off).toNat with
      | 0 => false
      | 3 => true
      | _ => holdsSend pad size fuel (off + 32)
/-- The lowest free chain slot of a core. -/
def Core.freeChain (c : Core) : Option Nat := c.chains.findIdx? fun p => p.2.isNone
/-- The handle of a slot's chain: the slot in [2:0], its use count above (R275). -/
def chainHandle (slot uses : Nat) : Word := BitVec.ofNat 32 (slot + 8 * uses)
/-- CHAIN by its elected thread (R275). -/
def State.chain1 (s : State) (ag cmode scope : Nat) (d a c : Reg) : State × Fate :=
  match s.drainGroup ag with
  | (s, false) => (s, .stall)
  | (s, true) =>
    let h := s.shareOf ag
    let x := s.share h
    let head := (s.a32 ag a).toNat
    if head % 32 ≠ 0 then (s, .trap 0x03 (BitVec.ofNat 64 head) 0#32)
    else if x.size < head + 32 then (s, reason5 6)
    else
      let ctr := s.counterOf ag cmode c
      match s.counterCheck ag cmode ctr with
      | some f => (s, f)
      | none =>
        match s.checkPages ag (pagesOf (counterTouch cmode ctr)) with
        | (s, some f) => (s, f)
        | (s, none) =>
          let send := holdsSend x.pad x.size (x.size / 32 + 1) head
          s.committing (s.taskOf ag) (send || (cmode == 0 && wide scope)) fun s =>
            let core := s.coreOf ag
            match (s.core core).freeChain with
            | none => (s, .wait (.engine 1))
            | some k =>
              let uses := ((s.core core).chains.getD k (0, none)).1 + 1
              let y : Chain :=
                { share := some h, vd := s.vdOf ag, priv := (s.launch (s.launchOf ag)).par.priv, packet := (0, 0),
                  head := BitVec.ofNat 64 head, pos := BitVec.ofNat 64 head, loops := [], cmode := cmode, counter := ctr,
                  sends := [], stop := false, ending := none, tid := s.tidWord ag, fe := (s.agent ag).isFE, ag := some ag,
                  sys := cmode == 0 && scope == 7, since := s.moves, frec := 0#64, failing := none }
              let s := s.modCore core fun z => { z with chains := z.chains.set k (uses, some y) }
              (s.out ag true false [toReg d (chainHandle k uses)] 0#5, .next)
/-- CHKILL of one thread (R277). -/
def State.chkill1 (s : State) (ag : Nat) (handle : Word) : State :=
  let core := s.coreOf ag
  let k := handle.toNat % 8
  match (s.core core).chains.getD k (0, none) with
  | (uses, some x) =>
    bif chainHandle k uses == handle && x.share == some (s.shareOf ag) then s.setChain (.core core k) (some { x with stop := true })
    else s
  | _ => s

/-- CHAIN (R275). -/
def execChain (c0 : Ctl) (cmode : BitVec 1) (scope : BitVec 3) (d : Reg) (a : Reg) (c : Reg) (s : State) : Result :=
  .next (s.issue (.chain c0 cmode scope d a c) (elected fun ag s => s.chain1 ag cmode.toNat scope.toNat d a c))
/-- CHKILL (R277). -/
def execChkill (c0 : Ctl) (a : Reg) (s : State) : Result :=
  .next (s.issue (.chkill c0 a) (plain fun ag s => s.chkill1 ag (s.a32 ag a)))

end Sys2Proof.Machine
end

