-- ==== Sys2Proof/Machine/Control.lean ====
section
/-! DEFINITION. Control flow, rejoin masks, exit, yield, software traps, the decision queue and SRET: majors 0x38 to
0x46 (08 R179 to R190, 06 R142 to R148). -/

namespace Sys2Proof.Machine

/-! ## Branches and calls (R180 to R183) -/

/-- A byte displacement from a word offset (R49, R50). -/
def words4 {n : Nat} (off : BitVec n) : DWord := off.signExtend 64 <<< 2
/-- The pc of an agent. -/
def State.pcOf (s : State) (ag : Nat) : DWord := (s.agent ag).pc
/-- %tinfo of a link-stack trap (R182): the instruction's length, 1 for overflow or 2 for underflow. -/
def linkInfo (len kind : Nat) : Word := BitVec.ofNat 32 (2 ^ 31 + len * 65536 + kind)
/-- CALL (R182). -/
def State.call1 (s : State) (ag : Nat) (target : DWord) : State × Fate :=
  if 16 ≤ (s.agent ag).link.length then (s, .trap 0x0C 0#64 (linkInfo 4 1))
  else (s.modAgent ag fun a => { a with link := (a.pc + 4#64) :: a.link }, .jump target)
/-- RET (R182). -/
def State.ret1 (s : State) (ag len : Nat) : State × Fate :=
  match (s.agent ag).link with
  | [] => (s, .trap 0x0C 0#64 (linkInfo len 2))
  | r :: rest => (s.modAgent ag fun a => { a with link := rest }, .jump r)
/-- Pop the next entry of the share's decision queue for a thread (R142, R143); none while it has read every entry. -/
def State.pop (s : State) (ag : Nat) : Option (State × Word) :=
  let h := s.shareOf ag
  let x := s.share h
  (x.dq[(s.agent ag).dqRead - x.dqFreed]?).map fun w =>
    ((s.modAgent ag fun a => { a with dqRead := a.dqRead + 1 }).dqFree h, w)

/-- BRA (R181). -/
def execBra (w : Bool) (off : BitVec 22) (s : State) : Result :=
  .next (s.issue (.bra w off) (perThread fun ag s => (s, .jump (s.pcOf ag + words4 off))))
/-- BRC (R181). -/
def execBrc (w : Bool) (off : BitVec 18) (n : Bool) (p : BitVec 3) (s : State) : Result :=
  .next (s.issue (.brc w off n p) (perThread fun ag s =>
    (s, bif xor (s.pred ag 1 p) n then .jump (s.pcOf ag + words4 off) else .next)))
/-- BRQ (R183). -/
def execBrq (w : Bool) (off : BitVec 22) (s : State) : Result :=
  .next (s.issue (.brq w off) (perThread fun ag s =>
    match s.pop ag with
    | none => (s, .wait .queue)
    | some (s, w) => (s, bif w == 0#32 then .next else .jump (s.pcOf ag + words4 off))))
/-- CALL (R182). -/
def execCall (w : Bool) (off : BitVec 22) (s : State) : Result :=
  .next (s.issue (.call w off) (perThread fun ag s => s.call1 ag (s.pcOf ag + words4 off)))
/-- RET (R182). -/
def execRet (w : Bool) (s : State) : Result :=
  .next (s.issue (.ret w) (perThread fun ag s => s.ret1 ag 4))
/-- RET, extended (R182). -/
def execRetExt (c0 : Ctl) (s : State) : Result :=
  .next (s.issue (.retExt c0) (perThread fun ag s => s.ret1 ag 12))

/-! ## Rejoin masks (R184) -/

/-- The set of live threads of a group. -/
def State.liveSet (s : State) (g : Nat) : BitVec 128 :=
  (s.liveOf g).foldl (fun x i => x ||| (1#128 <<< i)) 0#128
/-- JARM (R184). -/
def State.jarm1 (s : State) (ag m : Nat) : State :=
  let g := s.groupOf ag
  (s.modGroup g fun x => { x with masks := x.masks.set m (some (s.liveSet g)) }).maskTest g m
/-- JWAIT (R184): a member arrives once its results are written. -/
def State.jwait1 (s : State) (ag m len : Nat) : State × Fate :=
  if !s.inMask ag m then (s, .next)
  else if !(s.agent ag).settleable then (s, .stall)
  else
    let s := s.modAgent ag fun a => { a.settle with status := .parked (.mask m), pc := a.pc + BitVec.ofNat 64 len }
    (s.maskTest (s.groupOf ag) m, .own)
/-- JDROP (R184). -/
def State.jdrop1 (s : State) (ag m : Nat) : State :=
  bif s.inMask ag m then s.maskDrop (s.groupOf ag) m (s.agent ag).home.idx else s

/-- JARM (R184). -/
def execJarm (w : Bool) (m : BitVec 4) (s : State) : Result :=
  .next (s.issue (.jarm w m) (plain fun ag s => s.jarm1 ag m.toNat))
/-- JWAIT (R184). -/
def execJwait (w : Bool) (m : BitVec 4) (s : State) : Result :=
  .next (s.issue (.jwait w m) (perThread fun ag s => s.jwait1 ag m.toNat 4))
/-- JDROP (R184). -/
def execJdrop (w : Bool) (m : BitVec 4) (s : State) : Result :=
  .next (s.issue (.jdrop w m) (plain fun ag s => s.jdrop1 ag m.toNat))
/-- JARM, extended (R184). -/
def execJarmExt (c0 : Ctl) (m : BitVec 4) (s : State) : Result :=
  .next (s.issue (.jarmExt c0 m) (plain fun ag s => s.jarm1 ag m.toNat))
/-- JWAIT, extended (R184). -/
def execJwaitExt (c0 : Ctl) (m : BitVec 4) (s : State) : Result :=
  .next (s.issue (.jwaitExt c0 m) (perThread fun ag s => s.jwait1 ag m.toNat 12))
/-- JDROP, extended (R184). -/
def execJdropExt (c0 : Ctl) (m : BitVec 4) (s : State) : Result :=
  .next (s.issue (.jdropExt c0 m) (plain fun ag s => s.jdrop1 ag m.toNat))

/-! ## Ending and interrupting a thread (R186 to R189) -/

/-- Go on once every outstanding result of the thread is written (R61). -/
def State.onceSettled (s : State) (ag : Nat) (k : State → State × Fate) : State × Fate :=
  if (s.agent ag).settleable then k (s.modAgent ag Agent.settle) else (s, .stall)
/-- EXIT (R186). -/
def State.exit1 (s : State) (ag : Nat) : State × Fate := s.onceSettled ag fun s => (s.endAgent ag, .own)
/-- YIELD (R187). -/
def State.yield1 (s : State) (ag : Nat) : State × Fate :=
  s.onceSettled ag fun s =>
    let a := s.agent ag
    match a.home.group with
    | some g => (s.modGroup g fun x => { x with lastF := s.moves + 1, lastG := s.moves + 1 }, .next)
    | none =>
      if a.sliceEnd then (s.modAgent ag fun a => { a with sliceEnd := false }, .past .switch)
      else (s.modShare a.home.share fun x => { x with feLast := s.moves + 1 }, .next)
/-- %tinfo of TRAP and BRK (R188). -/
def trapInfo (b : Word) (len : Nat) : Word := (b &&& 0xFFFF#32) ||| BitVec.ofNat 32 (len * 65536)
/-- SRET (R189, R234). -/
def State.sret1 (s : State) (ag : Nat) : State × Fate :=
  let pc := s.rd ag 1 (.csr 0x36) ++ s.rd ag 1 (.csr 0x31)
  (s.modAgent ag fun a => a.sret pc, .jump pc)

/-- EXIT (R186). -/
def execExit (w : Bool) (s : State) : Result :=
  .next (s.issue (.exit w) (perThread fun ag s => s.exit1 ag))
/-- YIELD (R187). -/
def execYield (w : Bool) (s : State) : Result :=
  .next (s.issue (.yield w) (perThread fun ag s => s.yield1 ag))
/-- TRAP (R188). -/
def execTrap (w : Bool) (b : Src7) (s : State) : Result :=
  .next (s.issue (.trap w b) (perThread fun ag s => (s, .trap 0x0C 0#64 (trapInfo (s.b7 ag b) 4))))
/-- BRK (R188). -/
def execBrk (w : Bool) (b : Src7) (s : State) : Result :=
  .next (s.issue (.brk w b) (perThread fun ag s => (s, .trap 0x0B 0#64 (trapInfo (s.b7 ag b) 4))))
/-- SRET (R234). -/
def execSret (w : Bool) (s : State) : Result :=
  .next (s.issue (.sret w) (perThread fun ag s => s.sret1 ag))
/-- EXIT, extended (R186). -/
def execExitExt (c0 : Ctl) (s : State) : Result :=
  .next (s.issue (.exitExt c0) (perThread fun ag s => s.exit1 ag))
/-- YIELD, extended (R187). -/
def execYieldExt (c0 : Ctl) (s : State) : Result :=
  .next (s.issue (.yieldExt c0) (perThread fun ag s => s.yield1 ag))
/-- TRAP, extended (R188). -/
def execTrapExt (c0 : Ctl) (b : Src) (s : State) : Result :=
  .next (s.issue (.trapExt c0 b) (perThread fun ag s => (s, .trap 0x0C 0#64 (trapInfo (s.b32 ag b) b.len))))
/-- BRK, extended (R188). -/
def execBrkExt (c0 : Ctl) (b : Src) (s : State) : Result :=
  .next (s.issue (.brkExt c0 b) (perThread fun ag s => (s, .trap 0x0B 0#64 (trapInfo (s.b32 ag b) b.len))))
/-- SRET, extended (R234). -/
def execSretExt (c0 : Ctl) (s : State) : Result :=
  .next (s.issue (.sretExt c0) (perThread fun ag s => s.sret1 ag))

/-! ## The decision queue (R142, R143, R190) -/

/-- DQPUSH: the threads parked on the queue are released; an entry that no live thread has to read is freed at once. -/
def State.push1 (s : State) (ag : Nat) (x : Word) : State × Fate :=
  let h := s.shareOf ag
  if 64 ≤ (s.share h).dq.length then (s, .wait .queue)
  else
    let s := s.modShare h fun y => { y with dq := y.dq ++ [x] }
    let s := s.modAgents (unparkIf .queue) ((s.share h).groups.flatMap fun g => (s.group g).members)
    (s.dqFree h, .next)
/-- DQPOP: a variable-latency result (R190). -/
def State.pop1 (s : State) (ag : Nat) (d : Reg) : State × Fate :=
  match s.pop ag with
  | none => (s, .wait .queue)
  | some (s, w) => (s.out ag true false [toReg d w] 0#5, .next)

/-- DQPUSH (R190). -/
def execDqpush (w : Bool) (b : Src7) (s : State) : Result :=
  .next (s.issue (.dqpush w b) (perThread fun ag s => s.push1 ag (s.b7 ag b)))
/-- DQPUSH, extended (R190). -/
def execDqpushExt (c0 : Ctl) (b : Src) (s : State) : Result :=
  .next (s.issue (.dqpushExt c0 b) (perThread fun ag s => s.push1 ag (s.b32 ag b)))
/-- DQPOP (R190). -/
def execDqpop (w : Bool) (d : Reg) (s : State) : Result :=
  .next (s.issue (.dqpop w d) (perThread fun ag s => s.pop1 ag d))
/-- DQPOP, extended (R190). -/
def execDqpopExt (c0 : Ctl) (d : Reg) (s : State) : Result :=
  .next (s.issue (.dqpopExt c0 d) (perThread fun ag s => s.pop1 ag d))

end Sys2Proof.Machine
end

