-- ==== Sys2Proof/Machine/Cross.lean ====
section
/-! DEFINITION. Cross-lane instructions: majors 0x33 to 0x35 (08 R191 to R195). The participating set is the
fragment's threads whose guard is true; operands are read from the state before any destination is written. -/

namespace Sys2Proof.Machine

/-- Index of a thread in its group. -/
def State.idx (s : State) (ag : Nat) : Nat := (s.agent ag).home.idx
/-- Threads of a segment: sw of the segment code (R192). -/
def segWidth (seg : BitVec 3) (gw : Nat) : Nat := bif seg == 0#3 then gw else 2 ^ seg.toNat
/-- The participating thread of an index. -/
def State.withIdx (s : State) (ags : List Nat) (k : Nat) : Option Nat := ags.find? fun a => s.idx a == k
/-- The members of a thread's segment that participate, in ascending index (R192). -/
def State.segOf (s : State) (ags : List Nat) (seg : BitVec 3) (ag : Nat) : List Nat :=
  let sw := segWidth seg (s.gwidth ag)
  ags.filter fun a => s.idx a / sw == s.idx ag / sw

/-! ## SHFL (R193) -/

/-- The source index of SHFL, where it exists: mode 0 IDX, 1 UP, 2 DOWN, 3 XOR. -/
def shflSource (mode sw i b : Nat) : Option Nat :=
  let pos := i % sw
  match mode with
  | 0 => some (i - pos + b % sw)
  | 1 => bif decide (b ≤ pos) then some (i - b) else none
  | 2 => bif decide (pos + b < sw) then some (i + b) else none
  | _ => some (i - pos + (pos ^^^ (b % sw)))
/-- SHFL of one thread: d and pC, from the operands of the issue (R193). -/
def State.shfl1 (s0 : State) (ags : List Nat) (mode : Nat) (seg : BitVec 3) (d a : Reg) (b : Src) (pc : BitVec 3)
    (ag : Nat) (s : State) : State :=
  let src := (shflSource mode (segWidth seg (s0.gwidth ag)) (s0.idx ag) (s0.b32 ag b).toNat).bind (s0.withIdx ags)
  s.out ag true false [toReg d (s0.a32 (src.getD ag) a), toPred pc src.isSome] 0#5
/-- SHFL for the participating set. -/
def shflBody (mode : Nat) (seg : BitVec 3) (d a : Reg) (b : Src) (pc : BitVec 3) (ags : List Nat) (s0 : State) :
    State × List (Nat × Fate) :=
  plain (s0.shfl1 ags mode seg d a b pc) ags s0

/-- SHFL.IDX (R193). -/
def execShflIdx (c0 : Ctl) (seg : BitVec 3) (d : Reg) (a : Reg) (b : Src) (pc : BitVec 3) (s : State) : Result :=
  .next (s.issue (.shflIdx c0 seg d a b pc) (shflBody 0 seg d a b pc))
/-- SHFL.UP (R193). -/
def execShflUp (c0 : Ctl) (seg : BitVec 3) (d : Reg) (a : Reg) (b : Src) (pc : BitVec 3) (s : State) : Result :=
  .next (s.issue (.shflUp c0 seg d a b pc) (shflBody 1 seg d a b pc))
/-- SHFL.DOWN (R193). -/
def execShflDown (c0 : Ctl) (seg : BitVec 3) (d : Reg) (a : Reg) (b : Src) (pc : BitVec 3) (s : State) : Result :=
  .next (s.issue (.shflDown c0 seg d a b pc) (shflBody 2 seg d a b pc))
/-- SHFL.XOR (R193). -/
def execShflXor (c0 : Ctl) (seg : BitVec 3) (d : Reg) (a : Reg) (b : Src) (pc : BitVec 3) (s : State) : Result :=
  .next (s.issue (.shflXor c0 seg d a b pc) (shflBody 3 seg d a b pc))

/-! ## VOTE (R194) -/

/-- The ballot words of the participating threads: bit j mod 32 of word j div 32 is pa of thread j. -/
def State.ballot (s : State) (ags : List Nat) (pa : BitVec 3) (word : Nat) : Word :=
  ags.foldl (fun w a => bif s.idx a / 32 == word && s.pred a 1 pa then w ||| (1#32 <<< (s.idx a % 32)) else w) 0#32
/-- VOTE.BALLOT of one thread: its %gwidth ÷ 32 registers. -/
def State.ballot1 (s0 : State) (ags : List Nat) (d : Reg) (pa : BitVec 3) (ag : Nat) (s : State) : State :=
  (List.range (s0.gwidth ag / 32)).foldl (fun s k =>
    s.wr ag 2 (some (.reg (d.toNat + k))) (s0.ballot ags pa k)) s
/-- A vote written to pd of each participating thread. -/
def voteBody (pd : BitVec 3) (f : List Nat → State → Bool) (ags : List Nat) (s0 : State) : State × List (Nat × Fate) :=
  plain (fun ag s => s.wrPred ag 2 pd (f ags s0)) ags s0

/-- VOTE.ANY (R194). -/
def execVoteAny (c0 : Ctl) (pd : BitVec 3) (pa : BitVec 3) (s : State) : Result :=
  .next (s.issue (.voteAny c0 pd pa) (voteBody pd fun ags s => ags.any fun x => s.pred x 1 pa))
/-- VOTE.ALL (R194). -/
def execVoteAll (c0 : Ctl) (pd : BitVec 3) (pa : BitVec 3) (s : State) : Result :=
  .next (s.issue (.voteAll c0 pd pa) (voteBody pd fun ags s => ags.all fun x => s.pred x 1 pa))
/-- VOTE.BALLOT (R194). -/
def execVoteBallot (c0 : Ctl) (d : Reg) (pa : BitVec 3) (s : State) : Result :=
  .next (s.issue (.voteBallot c0 d pa) (fun ags s0 => plain (s0.ballot1 ags d pa) ags s0))
/-- VOTE.EQ (R194). -/
def execVoteEq (c0 : Ctl) (pd : BitVec 3) (a : Reg) (s : State) : Result :=
  .next (s.issue (.voteEq c0 pd a) (voteBody pd fun ags s => ags.all fun x => s.a32 x a == s.a32 (ags.headD 0) a))

/-! ## GRED (R195) -/

/-- Combine words, first to last; 0 for none. -/
def combine (f : Word → Word → Word) : List Word → Word
  | [] => 0#32
  | x :: xs => xs.foldl f x
/-- The exact sum of FP32 values, rounded once (R195). -/
def gredSum (m : RMode) (xs : List Word) : Word × FFlags :=
  let (x, f) := fdotV [] (xs.map fp32) m
  let (r, g) := toFp32 x m
  (r, f ||| g)
/-- FMIN or FMAX of FP32 values, pairwise; a value alone is combined with itself, so that a NaN is canonical (R86, R167, R195). -/
def gredMinmax (big : Bool) : List Word → Word × FFlags
  | [] => (0#32, 0#5)
  | x :: xs => (x :: xs).foldl (fun (r, f) y =>
      let (z, g) := fminmax 0 r.toNat y.toNat big
      (BitVec.ofNat 32 z, f ||| g)) (x, 0#5)
/-- GRED for the participating set: each thread receives the combination over its segment, and traps alone where it enables a flag raised (R195). -/
def gredBody (seg : BitVec 3) (d a : Reg) (f : State → Nat → List Word → Word × FFlags) (ags : List Nat) (s0 : State) :
    State × List (Nat × Fate) :=
  perThread (fun ag s =>
    let mem := s0.segOf ags seg ag
    let r := f s0 (mem.headD ag) (mem.map fun x => s0.a32 x a)
    s.fpGuard ag r.2 fun s => s.out ag true false [toReg d r.1] r.2) ags s0
/-- An integer GRED: no flag. -/
def gredInt (f : Word → Word → Word) (_ : State) (_ : Nat) (xs : List Word) : Word × FFlags := (combine f xs, 0#5)

/-- GRED.ADD (R195). -/
def execGredAdd (c0 : Ctl) (seg : BitVec 3) (d : Reg) (a : Reg) (s : State) : Result :=
  .next (s.issue (.gredAdd c0 seg d a) (gredBody seg d a (gredInt (· + ·))))
/-- GRED.MIN (R195). -/
def execGredMin (c0 : Ctl) (u : Bool) (seg : BitVec 3) (d : Reg) (a : Reg) (s : State) : Result :=
  .next (s.issue (.gredMin c0 u seg d a) (gredBody seg d a (gredInt (vMin u))))
/-- GRED.MAX (R195). -/
def execGredMax (c0 : Ctl) (u : Bool) (seg : BitVec 3) (d : Reg) (a : Reg) (s : State) : Result :=
  .next (s.issue (.gredMax c0 u seg d a) (gredBody seg d a (gredInt (vMax u))))
/-- GRED.AND (R195). -/
def execGredAnd (c0 : Ctl) (seg : BitVec 3) (d : Reg) (a : Reg) (s : State) : Result :=
  .next (s.issue (.gredAnd c0 seg d a) (gredBody seg d a (gredInt (· &&& ·))))
/-- GRED.OR (R195). -/
def execGredOr (c0 : Ctl) (seg : BitVec 3) (d : Reg) (a : Reg) (s : State) : Result :=
  .next (s.issue (.gredOr c0 seg d a) (gredBody seg d a (gredInt (· ||| ·))))
/-- GRED.XOR (R195). -/
def execGredXor (c0 : Ctl) (seg : BitVec 3) (d : Reg) (a : Reg) (s : State) : Result :=
  .next (s.issue (.gredXor c0 seg d a) (gredBody seg d a (gredInt (· ^^^ ·))))
/-- GRED.FADD: code 0 takes the mode of the lowest participating thread of the segment (R195). -/
def execGredFadd (c0 : Ctl) (rm : BitVec 3) (seg : BitVec 3) (d : Reg) (a : Reg) (s : State) : Result :=
  .next (s.issue (.gredFadd c0 rm seg d a) (gredBody seg d a fun s lead xs => gredSum (s.mode lead rm) xs))
/-- GRED.FMIN (R195). -/
def execGredFmin (c0 : Ctl) (seg : BitVec 3) (d : Reg) (a : Reg) (s : State) : Result :=
  .next (s.issue (.gredFmin c0 seg d a) (gredBody seg d a fun _ _ xs => gredMinmax false xs))
/-- GRED.FMAX (R195). -/
def execGredFmax (c0 : Ctl) (seg : BitVec 3) (d : Reg) (a : Reg) (s : State) : Result :=
  .next (s.issue (.gredFmax c0 seg d a) (gredBody seg d a fun _ _ xs => gredMinmax true xs))

end Sys2Proof.Machine
end

