-- ==== Sys2Proof/WellFormed.lean ====
section
/-! DEFINITION. Which instruction terms the encodings can hold (R38, R46 to R56 and the rule of each row). -/

namespace Sys2Proof


/-- Each operand of an instruction is one its encoding can hold and its description admits (R38, R46 to R54 and the rule each row names). An event row is well formed when its operands name something the package has. -/
def Instr.wf : Instr → Bool
  | .ill _ _ _ => true
  | .mov _ d b => baseReg d && b.wf
  | .movExt c0 d b => b.wf true false && (!b.isBase || (c0.g == 7#4 && baseReg d))
  | .add _ d a b => baseReg d && baseReg a && b.wf
  | .addExt c0 sat d a b => b.wf true false && (!b.isBase || (c0.g == 7#4 && baseReg d && baseReg a && !sat))
  | .sub _ d a b => baseReg d && baseReg a && b.wf
  | .subExt c0 sat d a b => b.wf true false && (!b.isBase || (c0.g == 7#4 && baseReg d && baseReg a && !sat))
  | .mul _ d a b => baseReg d && baseReg a && b.wf
  | .mulExt c0 d a b => b.wf true false && (!b.isBase || (c0.g == 7#4 && baseReg d && baseReg a))
  | .mulh _ d a b => baseReg d && baseReg a && b.wf
  | .mulhExt c0 u d a b => b.wf true false && (!b.isBase || (c0.g == 7#4 && baseReg d && baseReg a && !u))
  | .mad _ _ _ b _ => b.wf false false
  | .min _ d a b => baseReg d && baseReg a && b.wf
  | .minExt c0 u d a b => b.wf true false && (!b.isBase || (c0.g == 7#4 && baseReg d && baseReg a && !u))
  | .max _ d a b => baseReg d && baseReg a && b.wf
  | .maxExt c0 u d a b => b.wf true false && (!b.isBase || (c0.g == 7#4 && baseReg d && baseReg a && !u))
  | .and _ d a b => baseReg d && baseReg a && b.wf
  | .andExt c0 d a b => b.wf true false && (!b.isBase || (c0.g == 7#4 && baseReg d && baseReg a))
  | .or _ d a b => baseReg d && baseReg a && b.wf
  | .orExt c0 d a b => b.wf true false && (!b.isBase || (c0.g == 7#4 && baseReg d && baseReg a))
  | .xor _ d a b => baseReg d && baseReg a && b.wf
  | .xorExt c0 d a b => b.wf true false && (!b.isBase || (c0.g == 7#4 && baseReg d && baseReg a))
  | .shl _ d a b => baseReg d && baseReg a && b.wf
  | .shlExt c0 d a b => b.wf true false && (!b.isBase || (c0.g == 7#4 && baseReg d && baseReg a))
  | .shr _ d a b => baseReg d && baseReg a && b.wf
  | .shrExt c0 d a b => b.wf true false && (!b.isBase || (c0.g == 7#4 && baseReg d && baseReg a))
  | .sar _ d a b => baseReg d && baseReg a && b.wf
  | .sarExt c0 d a b => b.wf true false && (!b.isBase || (c0.g == 7#4 && baseReg d && baseReg a))
  | .rot _ d a b => baseReg d && baseReg a && b.wf
  | .rotExt c0 d a b => b.wf true false && (!b.isBase || (c0.g == 7#4 && baseReg d && baseReg a))
  | .bfx _ d a b => baseReg d && baseReg a && b.wf
  | .bfxExt c0 s d a b => b.wf true false && (!b.isBase || (c0.g == 7#4 && baseReg d && baseReg a && !s))
  | .bfi _ _ _ b _ => b.wf false false
  | .sel _ _ _ _ b _ => b.wf false false
  | .cmp _ cc _ _ b => b.wf false false && codeIn 0x03FF#16 (cc.setWidth 4)
  | .plog _ _ _ _ _ _ => true
  | .lea _ d a b => (baseReg d && pairOk d) && (baseReg a && pairOk a) && b.wf
  | .leaExt c0 sh u d a b => pairOk d && pairOk a && b.wf true false && (!b.isBase || (c0.g == 7#4 && baseReg d && baseReg a && sh == 0#3 && !u))
  | .add64 _ d a b => pairOk d && pairOk a && b.wf false true && b.pairOk
  | .sub64 _ d a b => pairOk d && pairOk a && b.wf false true && b.pairOk
  | .shl64 _ d a b => pairOk d && pairOk a && b.wf false false
  | .shr64 _ d a b => pairOk d && pairOk a && b.wf false false
  | .cmp64 _ cc _ a b => pairOk a && b.wf false true && b.pairOk && codeIn 0x03FF#16 (cc.setWidth 4)
  | .abs _ _ _ _ => true
  | .neg _ _ _ _ => true
  | .not _ _ _ => true
  | .popc _ _ _ => true
  | .clz _ _ _ => true
  | .brev _ _ _ => true
  | .sext8 _ _ _ => true
  | .sext16 _ _ _ => true
  | .zext8 _ _ _ => true
  | .zext16 _ _ _ => true
  | .csrr _ d _ => baseReg d
  | .csrrExt _ _ _ => true
  | .csrw _ a _ => baseReg a
  | .csrwExt _ _ _ => true
  | .nop _ => true
  | .fadd _ d a b => baseReg d && baseReg a && b.wf
  | .faddExt c0 rm d a b => b.wf true false && codeIn 0x001F#16 (rm.setWidth 4) && (!b.isBase || (c0.g == 7#4 && baseReg d && baseReg a && rm == 0#3))
  | .fsub _ d a b => baseReg d && baseReg a && b.wf
  | .fsubExt c0 rm d a b => b.wf true false && codeIn 0x001F#16 (rm.setWidth 4) && (!b.isBase || (c0.g == 7#4 && baseReg d && baseReg a && rm == 0#3))
  | .fmul _ d a b => baseReg d && baseReg a && b.wf
  | .fmulExt c0 rm d a b => b.wf true false && codeIn 0x001F#16 (rm.setWidth 4) && (!b.isBase || (c0.g == 7#4 && baseReg d && baseReg a && rm == 0#3))
  | .ffma _ rm _ _ b _ => b.wf false false && codeIn 0x001F#16 (rm.setWidth 4)
  | .fmin _ d a b => baseReg d && baseReg a && b.wf
  | .fminExt c0 d a b => b.wf true false && (!b.isBase || (c0.g == 7#4 && baseReg d && baseReg a))
  | .fmax _ d a b => baseReg d && baseReg a && b.wf
  | .fmaxExt c0 d a b => b.wf true false && (!b.isBase || (c0.g == 7#4 && baseReg d && baseReg a))
  | .fcmp _ cc _ _ b => b.wf false false && codeIn 0x00FF#16 (cc.setWidth 4)
  | .fabs _ _ _ => true
  | .fneg _ _ _ => true
  | .fclass _ _ _ => true
  | .frint _ rm _ _ => codeIn 0x001F#16 (rm.setWidth 4)
  | .frcp _ _ _ => true
  | .frsq _ _ _ => true
  | .fsqrt _ rm _ _ => codeIn 0x001F#16 (rm.setWidth 4)
  | .fexp2 _ _ _ => true
  | .flog2 _ _ _ => true
  | .fsin _ _ _ => true
  | .fcos _ _ _ => true
  | .hadd2 _ rm fmt _ _ _ => codeIn 0x001F#16 (rm.setWidth 4) && codeIn 0x0006#16 (fmt.setWidth 4)
  | .hmul2 _ rm fmt _ _ _ => codeIn 0x001F#16 (rm.setWidth 4) && codeIn 0x0006#16 (fmt.setWidth 4)
  | .hfma2 _ rm fmt _ _ _ _ => codeIn 0x001F#16 (rm.setWidth 4) && codeIn 0x0006#16 (fmt.setWidth 4)
  | .hmin2 _ fmt _ _ _ => codeIn 0x0006#16 (fmt.setWidth 4)
  | .hmax2 _ fmt _ _ _ => codeIn 0x0006#16 (fmt.setWidth 4)
  | .fdot2 _ rm fmt _ _ _ _ => codeIn 0x001F#16 (rm.setWidth 4) && codeIn 0x0006#16 (fmt.setWidth 4)
  | .fcvt _ sat dir elt rm fmt _ _ => codeIn 0x003F#16 (rm.setWidth 4) && codeIn 0x001E#16 (fmt.setWidth 4) && !((fmt ≤ 2#4) && elt.getLsbD 1) && !(dir && (sat || rm != 0#3))
  | .i2f _ rm _ _ => codeIn 0x001F#16 (rm.setWidth 4)
  | .u2f _ rm _ _ => codeIn 0x001F#16 (rm.setWidth 4)
  | .f2i _ _ rm _ _ => codeIn 0x001F#16 (rm.setWidth 4)
  | .f2u _ _ rm _ _ => codeIn 0x001F#16 (rm.setWidth 4)
  | .qnt _ sat rm fmt _ a b => b.wf false false && codeIn 0x003F#16 (rm.setWidth 4) && codeIn 0x02F8#16 (fmt.setWidth 4) && !((fmt == 9#4) && sat) && !((fmt == 7#4) && (rm == 5#3)) && !((fmt == 9#4) && (rm != 0#3)) && !(a.toNat % qntCount fmt != 0)
  | .dqnt _ _ rm fmt d _ b => b.wf false false && codeIn 0x001F#16 (rm.setWidth 4) && codeIn 0x00F8#16 (fmt.setWidth 4) && !(d.toNat % qntCount fmt != 0)
  | .had _ sz rm fmt d a => codeIn 0x001F#16 (rm.setWidth 4) && codeIn 0x0007#16 (fmt.setWidth 4) && !(sz == 3#2) && !(a.toNat % 8 != 0 || d.toNat % 8 != 0 || !rangesOk d a (hadSpan sz fmt) (hadSpan sz fmt))
  | .cmpr _ _ fmt d a c => codeIn 0x003E#16 (fmt.setWidth 4) && !(a.toNat % cmprSpan fmt != 0 || d.toNat % (cmprSpan fmt / 2) != 0 || !rangesOk d a (cmprSpan fmt / 2) (cmprSpan fmt) || inRange c a (cmprSpan fmt) || inRange c d (cmprSpan fmt / 2))
  | .boxt _ d a b => pairOk b && !(a.toNat % 8 != 0 || !disjoint d 5 a 8)
  | .trit _ _ d a b _ => pairOk b && !(a.toNat % 8 != 0 || !disjoint d 4 a 8)
  | .rebin _ _ a off => pairOk a && off.wf false
  | .shflIdx _ _ _ _ b _ => b.wf false false
  | .shflUp _ _ _ _ b _ => b.wf false false
  | .shflDown _ _ _ _ b _ => b.wf false false
  | .shflXor _ _ _ _ b _ => b.wf false false
  | .voteAny _ _ _ => true
  | .voteAll _ _ _ => true
  | .voteBallot _ _ _ => true
  | .voteEq _ _ _ => true
  | .gredAdd _ _ _ _ => true
  | .gredMin _ _ _ _ _ => true
  | .gredMax _ _ _ _ _ => true
  | .gredAnd _ _ _ _ => true
  | .gredOr _ _ _ _ => true
  | .gredXor _ _ _ _ => true
  | .gredFadd _ rm _ _ _ => codeIn 0x001F#16 (rm.setWidth 4)
  | .gredFmin _ _ _ _ => true
  | .gredFmax _ _ _ _ => true
  | .bra _ _ => true
  | .brc _ _ _ _ => true
  | .brq _ _ => true
  | .call _ _ => true
  | .ret _ => true
  | .retExt _ => true
  | .jarm _ _ => true
  | .jarmExt _ _ => true
  | .jwait _ _ => true
  | .jwaitExt _ _ => true
  | .jdrop _ _ => true
  | .jdropExt _ _ => true
  | .exit _ => true
  | .exitExt _ => true
  | .yield _ => true
  | .yieldExt _ => true
  | .trap _ b => b.wf
  | .trapExt c0 b => b.wf true false && (!b.isBase || (c0.g == 7#4))
  | .brk _ b => b.wf
  | .brkExt c0 b => b.wf true false && (!b.isBase || (c0.g == 7#4))
  | .dqpush _ b => b.wf
  | .dqpushExt c0 b => b.wf true false && (!b.isBase || (c0.g == 7#4))
  | .dqpop _ d => baseReg d
  | .dqpopExt _ _ => true
  | .sret _ => true
  | .sretExt _ => true
  | .ld _ d a _ => baseReg d && (baseReg a && pairOk a)
  | .ldExt c0 ord width scope hint d a disp => widthRegOk width d && pairOk a && disp.wf true && codeIn 0x007F#16 (width.setWidth 4) && (ord || scope == 0#3) && (!disp.isBase || (c0.g == 7#4 && baseReg d && baseReg a && !ord && width == 0#3 && scope == 0#3 && hint == 0#2))
  | .ldz _ width _ d _ a disp => widthRegOk width d && pairOk a && disp.wf false && codeIn 0x007F#16 (width.setWidth 4)
  | .st _ d a _ => baseReg d && (baseReg a && pairOk a)
  | .stExt c0 ord width scope hint d a disp => widthRegOk width d && pairOk a && disp.wf true && codeIn 0x006B#16 (width.setWidth 4) && (ord || scope == 0#3) && (!disp.isBase || (c0.g == 7#4 && baseReg d && baseReg a && !ord && width == 0#3 && scope == 0#3 && hint == 0#2))
  | .lds _ d a _ => baseReg d && baseReg a
  | .ldsExt c0 width d a disp => widthRegOk width d && disp.wf true && codeIn 0x007F#16 (width.setWidth 4) && (!disp.isBase || (c0.g == 7#4 && baseReg d && baseReg a && width == 0#3))
  | .sts _ d a _ => baseReg d && baseReg a
  | .stsExt c0 width d a disp => widthRegOk width d && disp.wf true && codeIn 0x006B#16 (width.setWidth 4) && (!disp.isBase || (c0.g == 7#4 && baseReg d && baseReg a && width == 0#3))
  | .ldc _ d a _ => baseReg d && (baseReg a && pairOk a)
  | .ldcExt c0 width hint d a disp => widthRegOk width d && pairOk a && disp.wf true && codeIn 0x007F#16 (width.setWidth 4) && (!disp.isBase || (c0.g == 7#4 && baseReg d && baseReg a && width == 0#3 && hint == 0#2))
  | .atomAdd _ _ w64 _ d a b => (!w64 || pairOk d) && pairOk a && b.wf false w64 && (!w64 || b.pairOk)
  | .atomMin _ _ w64 _ d a b => (!w64 || pairOk d) && pairOk a && b.wf false w64 && (!w64 || b.pairOk)
  | .atomMax _ _ w64 _ d a b => (!w64 || pairOk d) && pairOk a && b.wf false w64 && (!w64 || b.pairOk)
  | .atomUmin _ _ w64 _ d a b => (!w64 || pairOk d) && pairOk a && b.wf false w64 && (!w64 || b.pairOk)
  | .atomUmax _ _ w64 _ d a b => (!w64 || pairOk d) && pairOk a && b.wf false w64 && (!w64 || b.pairOk)
  | .atomAnd _ _ w64 _ d a b => (!w64 || pairOk d) && pairOk a && b.wf false w64 && (!w64 || b.pairOk)
  | .atomOr _ _ w64 _ d a b => (!w64 || pairOk d) && pairOk a && b.wf false w64 && (!w64 || b.pairOk)
  | .atomXor _ _ w64 _ d a b => (!w64 || pairOk d) && pairOk a && b.wf false w64 && (!w64 || b.pairOk)
  | .atomExch _ _ w64 _ d a b => (!w64 || pairOk d) && pairOk a && b.wf false w64 && (!w64 || b.pairOk)
  | .atomCas _ _ w64 _ d a b c => (!w64 || pairOk d) && pairOk a && b.wf false w64 && (!w64 || b.pairOk) && (!w64 || pairOk c)
  | .atomFadd _ _ _ _ a b => pairOk a && b.wf false false
  | .redAdd _ w64 _ a b => pairOk a && b.wf false w64 && (!w64 || b.pairOk)
  | .redMin _ w64 _ a b => pairOk a && b.wf false w64 && (!w64 || b.pairOk)
  | .redMax _ w64 _ a b => pairOk a && b.wf false w64 && (!w64 || b.pairOk)
  | .redUmin _ w64 _ a b => pairOk a && b.wf false w64 && (!w64 || b.pairOk)
  | .redUmax _ w64 _ a b => pairOk a && b.wf false w64 && (!w64 || b.pairOk)
  | .redAnd _ w64 _ a b => pairOk a && b.wf false w64 && (!w64 || b.pairOk)
  | .redOr _ w64 _ a b => pairOk a && b.wf false w64 && (!w64 || b.pairOk)
  | .redXor _ w64 _ a b => pairOk a && b.wf false w64 && (!w64 || b.pairOk)
  | .redFadd _ _ a b => pairOk a && b.wf false false
  | .fence _ _ => true
  | .pref _ lvl _ a disp => pairOk a && disp.wf false && codeIn 0x0007#16 (lvl.setWidth 4)
  | .spres _ _ _ disp => disp.wf false
  | .pgreq _ _ _ a disp => pairOk a && disp.wf false
  | .barArr _ _ _ => true
  | .barWait _ _ b => b.wf false false
  | .barSync _ _ _ => true
  | .barExpect _ _ b => b.wf false false
  | .barInit _ _ b => b.wf false false
  | .cvset _ _ _ b => b.wf false false
  | .rsvqFree _ stk d => pairOk d && !(stk != 0#4 && stk < 8#4)
  | .rsvqPend _ stk d => pairOk d && !(stk != 0#4 && stk < 8#4)
  | .rsvqNominal _ stk d => pairOk d && !(stk != 0#4 && stk < 8#4)
  | .rsvqSurr _ stk d => pairOk d && !(stk != 0#4 && stk < 8#4)
  | .blksz _ _ _ a disp => pairOk a && disp.wf false
  | .blkfill _ a disp c => pairOk a && disp.wf false && (c == 255#8 || pairOk c)
  | .balq _ d => pairOk d
  | .pgsurr _ a disp => pairOk a && disp.wf false
  | .pgrecl _ a disp => pairOk a && disp.wf false
  | .wload _ sparse hadn fmt a b c => pairOk a && b.wf false false && (c == 255#8 || pairOk c) && codeIn 0x00BE#16 (fmt.setWidth 4) && !(sparse == 3#2) && !(hadn != 0#2 && (sparse != 0#2 || fmt == 7#4))
  | .mma _ _ _ _ ksz kh fmt _ a _ => codeIn 0x003E#16 (fmt.setWidth 4) && !(ksz == 3#2) && !((fmt ≤ 2#4) && ksz == 2#2) && !(!(fmt ≤ 2#4) && ksz == 0#2) && !(kh && ksz != 2#2) && !(a.toNat % 4 != 0)
  | .mmam _ _ _ _ ksz sp fmt _ a _ disp => (sp || pairOk a) && disp.wf false && codeIn 0x003E#16 (fmt.setWidth 4) && !((fmt ≤ 2#4) && (ksz == 2#2 || ksz == 3#2)) && !(!(fmt ≤ 2#4) && ksz == 0#2)
  | .aclr _ _ => true
  | .ard _ _ d _ b => b.wf false false && !(d.toNat % 8 != 0)
  | .awr _ _ _ a b => b.wf false false && !(a.toNat % 8 != 0)
  | .adrain _ _ _ sp scale fmt _ a b _ => (sp || pairOk a) && b.wf false false && codeIn 0x003F#16 (fmt.setWidth 4) && !(scale == 0xFF#8)
  | .wrel _ => true
  | .mstat _ _ _ => true
  | .xcfg _ depth meth _ _ b _ => b.wf false false && codeIn 0x0007#16 (meth.setWidth 4) && !(depth < 2#4 || 8#4 < depth)
  | .xpush _ _ _ _ => true
  | .xest _ d _ _ => pairOk d
  | .xclr _ _ => true
  | .xstat _ _ _ => true
  | .tcopy _ dir cmode scope d a _ c => (dir != 2#2 || pairOk d) && pairOk a && counterRegOk cmode c && tcopyScopeOk cmode (scope.setWidth 4) && !(dir == 3#2) && !(cmode == 3#2)
  | .chain _ cmode scope _ _ c => counterRegOk (cmode.setWidth 2) c && tcopyScopeOk (cmode.setWidth 2) (scope.setWidth 4)
  | .ctwait _ sp scope d a b => pairOk d && (sp || pairOk a) && b.wf false true && b.pairOk && (bif sp then scope == 2#3 else 2#3 ≤ scope)
  | .chkill _ _ => true
  | .spawn _ _ a _ _ off => pairOk a && off.wf false
  | .enqn _ a b => pairOk a && b.wf false false
  | .jdec _ _ _ b => b.wf false false
  | .settle _ => true
  | .taskqPrio _ _ b => b.wf false false
  | .taskqRestart _ _ b => b.wf false false
  | .taskqSettled _ _ b => b.wf false false
  | .taskqVlines _ _ b => b.wf false false
  | .taskqBqueue _ _ b => b.wf false false
  | .taskqNqueue _ _ b => b.wf false false
  | .taskqCursor _ _ b => b.wf false false
  | .stkho _ _ scope a b => pairOk a && b.wf false false && codeIn 0x00FC#16 (scope.setWidth 4)
  | .tlbiPage _ scope a b => pairOk a && b.wf false false && codeIn 0x0074#16 (scope.setWidth 4)
  | .tlbiVdev _ scope b => b.wf false false && codeIn 0x0074#16 (scope.setWidth 4)
  | .tlbiVdevn _ scope b => b.wf false false && codeIn 0x0074#16 (scope.setWidth 4)
  | .tlbiAll _ scope b => b.wf false false && codeIn 0x0074#16 (scope.setWidth 4)
  | .cflushClean _ scope a b => pairOk a && b.wf false false && codeIn 0x0074#16 (scope.setWidth 4)
  | .cflushInv _ scope a b => pairOk a && b.wf false false && codeIn 0x0074#16 (scope.setWidth 4)
  | .cflushDiscard _ scope a b => pairOk a && b.wf false false && codeIn 0x0074#16 (scope.setWidth 4)
  | .ctxsw _ _ scope d a b => pairOk d && pairOk a && b.wf false false && codeIn 0x00FC#16 (scope.setWidth 4)
  | .resultWriteback _ _ => true
  | .storeQueueDrain _ => true
  | .stsBankWrite core part => decide (core < 192) && decide (part < 6)
  | .parkRelease _ => true
  | .sliceNomination _ => true
  | .threadKill _ => true
  | .shareRetire _ => true
  | .sharePlacement _ core => decide (core < 192)
  | .copyStart core => decide (core < 192)
  | .copyComplete core _ => decide (core < 192)
  | .chainEntry _ => true
  | .chainSendAck _ _ => true
  | .chainRecvwaitMet _ => true
  | .chainEnd _ => true
  | .weightLatch _ => true
  | .matrixOperation core => decide (core < 192)
  | .tilePathEntry core _ => decide (core < 192)
  | .adrainComplete core _ => decide (core < 192)
  | .matrixEngineReset core => decide (core < 192)
  | .matrixResetEnd core => decide (core < 192)
  | .blockWriteback _ => true
  | .heldChargeDecided _ => true
  | .grantMove vd stack => decide (vd < 32) && decide (stack < 8)
  | .balloonRequestOpen vd => decide (vd < 32)
  | .balloonDeadlineExpiry vd => decide (vd < 32)
  | .capacityWaitRestart _ => true
  | .taskFault _ => true
  | .taskRestart _ _ => true
  | .versionCommit _ => true
  | .commitRequest _ => true
  | .commitTokenGrant part => decide (part < 2)
  | .teamRetire _ => true
  | .launchWatchdogExpiry _ => true
  | .dieDistributorRequest die _ => decide (die < 2)
  | .clusterRangeHandout die cluster _ => decide (die < 2) && decide (cluster < 12)
  | .teamPlacement die cluster _ => decide (die < 2) && decide (cluster < 12)
  | .rangeSteal _ _ _ => true
  | .gangFormerPop core _ => decide (core < 192)
  | .binTimeout core bin => decide (core < 192) && decide (bin < 64)
  | .cordScheduleWalk vd => decide (vd < 32)
  | .cordAgeingTick vd => decide (vd < 32)
  | .sliceEnd core => decide (core < 192)
  | .contextSwap core => decide (core < 192)
  | .handlerBudgetExpiry core => decide (core < 192)
  | .spillComplete core => decide (core < 192)
  | .budgetRefill vd core => decide (vd < 32) && decide (core < 192)
  | .runEnd core => decide (core < 192)
  | .ctxswRunEnd core => decide (core < 192)
  | .carveoutChange core ways => decide (core < 192) && decide (ways ≤ 6)
  | .carveoutChangeEffect core => decide (core < 192)
  | .pageWalk core vd _ _ => decide (core < 192) && decide (vd < 32)
  | .makeResident vd _ die _ => decide (vd < 32) && decide (die < 2)
  | .replicaCreate vd _ die => decide (vd < 32) && decide (die < 2)
  | .replicaCollapse vd _ die => decide (vd < 32) && decide (die < 2)
  | .stackHandover stack => decide (stack < 8)
  | .loanAgreement stack borrower seconds => decide (stack < 8) && decide (borrower < 2) && decide (1 ≤ seconds ∧ seconds ≤ 60)
  | .loanEnd stack _ => decide (stack < 8)
  | .loanDeadlineExpiry stack => decide (stack < 8)
  | .mailboxMessage target _ msg => decide (target < 8) && decide (msg.length = 64)
  | .queueCreate _ desc => decide (desc.length = 64)
  | .queueReset _ _ => true
  | .queueDestroy _ => true
  | .queueDestroyComplete _ => true
  | .doorbellWrite _ _ => true
  | .writeIndexNotice _ => true
  | .packetNop _ => true
  | .packetLaunch _ => true
  | .launchBilletStep _ => true
  | .launchDispatch _ => true
  | .packetCord _ => true
  | .packetWait _ => true
  | .waitConditionMet _ => true
  | .packetWrite _ => true
  | .packetSignal _ => true
  | .packetWrsigWrite _ => true
  | .packetWrsigSignal _ => true
  | .packetChainrun _ => true
  | .packetRanges _ => true
  | .kindling _ => true
  | .packetCompletion _ _ => true
  | .vdevDescriptor part desc => decide (part < 2) && decide (desc.length = 64)
  | .grantMessage vd stack _ => decide (vd < 32) && decide (stack < 8)
  | .tenantPause vd => decide (vd < 32)
  | .tenantResume vd => decide (vd < 32)
  | .tenantReset vd => decide (vd < 32)
  | .tenantClear vd => decide (vd < 32)
  | .clearingDone vd => decide (vd < 32)
  | .tenantExport vd _ => decide (vd < 32)
  | .tenantImport vd _ => decide (vd < 32)
  | .tenantUndefine vd => decide (vd < 32)
  | .checkpoint (.vdev v) => decide (v < 32)
  | .checkpoint (.partition p) => decide (p < 2)
  | .debugAccess _ _ => true
  | .debugResume _ => true
  | .debugStep _ => true
  | .debugKill _ => true
  | .debugDropMask _ _ => true
  | .hearthCoreTimeout k => decide (k < 8)
  | .supervisionTimerExpiry _ => true
  | .memoryError _ => true
  | .softError stack channel => decide (stack < 8) && decide (channel < 64)
  | .dieLinkLoss => true
  | .linkEnable link => decide (link < 18)
  | .linkTrained link => decide (link < 18)
  | .linkTrainingTimeout link => decide (link < 18)
  | .linkLostLock link => decide (link < 18)
  | .linkRetrained link => decide (link < 18)
  | .linkRecoveryExpiry link => decide (link < 18)
  | .securityAlarmL2 => true
  | .securityAlarmL3 => true
  | .thermalThrottle _ => true
  | .junctionOvertemp => true
  | .packageResetBoot _ => true
  | .recovery _ => true
  | .configRecordUpdate _ _ => true
  | .identityRequest part => decide (part < 2)
  | .telemetryRecord => true
  | .telemetryRequest part => decide (part < 2)
  | .applicationCoreAccess hart _ => decide (hart < 32)
  | .pcieHostAccess _ => true
  | .inboundFabricWrite _ _ => true
  | .postedWriteAck _ => true
  | .extrapolationEntry core => decide (core < 192)
  | .chargePathLift vd => decide (vd < 32)
  | .ptpCorrection _ => true
  | .enrollment _ => true

end Sys2Proof
end

