-- ==== Sys2Proof/Decode.lean ====
section
/-! DEFINITION. The decoder, total on any bytes, and the encoder (chapters 02 and 03, and the fields each description gives). -/

namespace Sys2Proof

/-- The fields of R44 to R51 before their meaning is known. `top` is word 0 bits [31:10]. -/
structure Raw where
  l : BitVec 2
  w : Bool
  op : BitVec 7
  top : BitVec 22
  w1 : Word
  w2 : Word
  lit : DWord
  deriving DecidableEq, Repr

/-- A 7-bit register field: 127 names vz or sz (R47). -/
def reg7 (f : BitVec 7) : Reg := bif f == 127#7 then 255#8 else f.setWidth 8
/-- Bit I of a base form. -/
def Raw.bi (r : Raw) : Bool := r.top.getLsbD 21
/-- Field B of a base form. -/
def Raw.bb (r : Raw) : BitVec 7 := r.top.extractLsb' 14 7
/-- Field A of a base form. -/
def Raw.ba (r : Raw) : BitVec 7 := r.top.extractLsb' 7 7
/-- Field D of a base form. -/
def Raw.bd (r : Raw) : BitVec 7 := r.top.extractLsb' 0 7
/-- A base form with a literal. -/
def Raw.isBase (r : Raw) : Bool := r.l == 1#2
/-- MOD, with word 0's bit positions from 16; every modifier at its default in a base form (R48). -/
def Raw.mod (r : Raw) : BitVec 16 := bif r.isBase then 0#16 else r.top.extractLsb' 6 16
/-- MINOR. -/
def Raw.minor (r : Raw) : BitVec 6 := bif r.isBase then 0#6 else r.top.extractLsb' 0 6
/-- Field D. -/
def Raw.rd (r : Raw) : Reg := bif r.isBase then reg7 r.bd else r.w1.extractLsb' 0 8
/-- Field A. -/
def Raw.ra (r : Raw) : Reg := bif r.isBase then reg7 r.ba else r.w1.extractLsb' 8 8
/-- Field B. -/
def Raw.xb (r : Raw) : Reg := bif r.isBase then 255#8 else r.w1.extractLsb' 16 8
/-- Field C. -/
def Raw.xc (r : Raw) : Reg := bif r.isBase then 255#8 else r.w1.extractLsb' 24 8
/-- IMM16. -/
def Raw.ximm (r : Raw) : BitVec 16 := bif r.isBase then 0#16 else r.w2.extractLsb' 16 16
/-- F0. -/
def Raw.xf0 (r : Raw) : BitVec 4 := bif r.isBase then 0#4 else r.w2.extractLsb' 4 4
/-- F1. -/
def Raw.xf1 (r : Raw) : BitVec 4 := bif r.isBase then 0#4 else r.w2.extractLsb' 8 4
/-- F2. -/
def Raw.xf2 (r : Raw) : BitVec 4 := bif r.isBase then 0#4 else r.w2.extractLsb' 12 4
/-- W and G; a base form is unguarded (R48). -/
def Raw.ctl (r : Raw) : Ctl := ⟨r.w, bif r.isBase then 7#4 else r.w2.extractLsb' 0 4⟩
/-- IB, MOD[31]. -/
def Raw.ib (r : Raw) : Bool := r.mod.getLsbD 15
/-- The B operand of an extended row (R46, R52). -/
def Raw.srcB (r : Raw) : Src :=
  match r.l.toNat with
  | 1 => .blit r.lit
  | 3 => .lit r.lit
  | _ => bif r.ib then .imm r.ximm else .reg r.xb
/-- The B operand of a base row (R47). -/
def Raw.src7 (r : Raw) : Src7 := bif r.bi then .imm r.bb else .reg (reg7 r.bb)
/-- A displacement or offset (R205, R46); that the literal's low 32 bits supply a branch offset is log entry 10. -/
def Raw.disp (r : Raw) : Disp :=
  match r.l.toNat with
  | 1 => .blit (r.lit.setWidth 32)
  | 3 => .lit (r.lit.setWidth 32)
  | _ => .imm r.ximm
/-- L = 0b11 without IB, for a row whose base form takes a literal (R46: reason 4). -/
def Raw.l4Base (r : Raw) : Bool := r.l == 3#2 && !r.ib
/-- L = 0b01, or L = 0b11 without IB, for an extended-only row with an immediate B (reason 4). -/
def Raw.l4Ib (r : Raw) : Bool := r.l == 1#2 || (r.l == 3#2 && !r.ib)
/-- L = 0b01 for an extended-only row that takes an operand from IMM16 without IB (reason 4). -/
def Raw.l4Lit (r : Raw) : Bool := r.l == 1#2
/-- Any literal, for an extended-only row without one (reason 4). -/
def Raw.l4Ext (r : Raw) : Bool := r.l != 2#2
/-- A MOD bit outside the row's mask (reason 5). -/
def Raw.m5 (r : Raw) (mask : BitVec 16) : Bool := r.mod &&& ~~~mask != 0#16
/-- Nonzero IMM16 with L = 0b11 (reason 6). -/
def Raw.k6Imm (r : Raw) : Bool := r.l == 3#2 && r.ximm != 0#16
/-- Nonzero word 0 bits [31:24] with L = 0b01 (reason 6). -/
def Raw.k6Base (r : Raw) : Bool := r.isBase && r.top.extractLsb' 14 8 != 0#8
/-- Nonzero literal bits [63:32] for a 32-bit operand (reason 6). -/
def Raw.k6Hi (r : Raw) : Bool := r.l.getLsbD 0 && r.lit.extractLsb' 32 32 != 0#32
/-- Nonzero IMM16 where it is zero unless IB = 1 (reason 6). -/
def Raw.k6Src (r : Raw) : Bool := !r.isBase && !r.ib && r.ximm != 0#16
/-- An extended memory access with IB = 0 (R205: reason 6). -/
def Raw.k6Disp (r : Raw) : Bool := !r.isBase && !r.ib

/-- The lowest reason of R71 whose check fails, or the instruction. The checks stand in ascending order. -/
def firstBad : List (Nat × Bool) → Instr → Except Nat Instr
  | [], i => .ok i
  | (n, bad) :: rest, i => bif bad then .error n else firstBad rest i

/-- One field of MOD, at its bit. -/
def flagBit (n : Nat) (x : Bool) : BitVec 16 := (bif x then 1#16 else 0#16) <<< n
/-- A register as a 7-bit field. -/
def reg8to7 (r : Reg) : BitVec 7 := bif r == 255#8 then 127#7 else r.setWidth 7
/-- Field B of a base form. -/
def Src7.field : Src7 → BitVec 7
  | .reg r => reg8to7 r
  | .imm i => i
/-- Bit I of a base form. -/
def Src7.isImm : Src7 → Bool
  | .reg _ => false
  | .imm _ => true
/-- How an operand fills L, IB, the B field, IMM16 and the literal. -/
structure Xf where
  l : BitVec 2
  ib : Bool
  b : Option Reg
  imm : BitVec 16
  lit : DWord
  deriving DecidableEq, Repr
/-- No operand in IMM16, or a number there. -/
def Xf.plain (n : BitVec 16) : Xf := ⟨2#2, false, none, n, 0#64⟩
/-- The B operand's fields. -/
def Src.xf : Src → Xf
  | .reg r => ⟨2#2, false, some r, 0#16, 0#64⟩
  | .imm i => ⟨2#2, true, none, i, 0#64⟩
  | .lit x => ⟨3#2, true, none, 0#16, x⟩
  | .blit x => ⟨1#2, false, none, 0#16, x⟩
/-- A displacement's fields, with IB (R205). -/
def Disp.xf : Disp → Xf
  | .imm i => ⟨2#2, true, none, i, 0#64⟩
  | .lit x => ⟨3#2, true, none, 0#16, x.setWidth 64⟩
  | .blit x => ⟨1#2, false, none, 0#16, x.setWidth 64⟩
/-- An offset's fields, in a row without IB. -/
def Disp.xfPlain : Disp → Xf
  | .imm i => ⟨2#2, false, none, i, 0#64⟩
  | .lit x => ⟨3#2, false, none, 0#16, x.setWidth 64⟩
  | .blit x => ⟨1#2, false, none, 0#16, x.setWidth 64⟩
/-- The words of an extended row, or of a base form with a literal where the operand asks for it (R38, R46, R51). -/
def encX (maj : BitVec 7) (mi : BitVec 6) (c : Ctl) (mod : BitVec 16) (d a b cc : Reg) (x : Xf)
    (f2 f1 f0 : BitVec 4) : Raw :=
  bif x.l == 1#2 then
    { l := 1#2, w := c.w, op := maj, top := 0#8 ++ reg8to7 a ++ reg8to7 d, w1 := 0#32, w2 := 0#32, lit := x.lit }
  else
    { l := x.l, w := c.w, op := maj, top := (mod ||| flagBit 15 x.ib) ++ mi,
      w1 := cc ++ (x.b.getD b) ++ a ++ d, w2 := x.imm ++ f2 ++ f1 ++ f0 ++ c.g, lit := x.lit }
/-- A base form of one word. -/
def encTop (maj : BitVec 7) (w : Bool) (top : BitVec 22) : Raw :=
  { l := 0#2, w := w, op := maj, top := top, w1 := 0#32, w2 := 0#32, lit := 0#64 }

/-- MOV: fields and fates of R152. -/
def decMov (r : Raw) : Except Nat Instr :=
  .ok (.mov r.w (reg7 r.bd) r.src7)

/-- MOV_EXT: fields and fates of R152. -/
def decMovExt (r : Raw) : Except Nat Instr :=
  firstBad [(4, r.l4Base), (5, r.m5 0x8000#16), (6, r.k6Imm || r.k6Base || r.k6Hi), (7, r.xf0 != 0#4), (7, r.xf1 != 0#4), (7, r.xf2 != 0#4)]
    (.movExt r.ctl r.rd r.srcB)

/-- ADD: fields and fates of R152. -/
def decAdd (r : Raw) : Except Nat Instr :=
  .ok (.add r.w (reg7 r.bd) (reg7 r.ba) r.src7)

/-- ADD_EXT: fields and fates of R152. -/
def decAddExt (r : Raw) : Except Nat Instr :=
  firstBad [(4, r.l4Base), (5, r.m5 0x8001#16), (6, r.k6Imm || r.k6Base || r.k6Hi), (7, r.xf0 != 0#4), (7, r.xf1 != 0#4), (7, r.xf2 != 0#4)]
    (.addExt r.ctl (r.mod.getLsbD 0) r.rd r.ra r.srcB)

/-- SUB: fields and fates of R152. -/
def decSub (r : Raw) : Except Nat Instr :=
  .ok (.sub r.w (reg7 r.bd) (reg7 r.ba) r.src7)

/-- SUB_EXT: fields and fates of R152. -/
def decSubExt (r : Raw) : Except Nat Instr :=
  firstBad [(4, r.l4Base), (5, r.m5 0x8001#16), (6, r.k6Imm || r.k6Base || r.k6Hi), (7, r.xf0 != 0#4), (7, r.xf1 != 0#4), (7, r.xf2 != 0#4)]
    (.subExt r.ctl (r.mod.getLsbD 0) r.rd r.ra r.srcB)

/-- MUL: fields and fates of R152. -/
def decMul (r : Raw) : Except Nat Instr :=
  .ok (.mul r.w (reg7 r.bd) (reg7 r.ba) r.src7)

/-- MUL_EXT: fields and fates of R152. -/
def decMulExt (r : Raw) : Except Nat Instr :=
  firstBad [(4, r.l4Base), (5, r.m5 0x8000#16), (6, r.k6Imm || r.k6Base || r.k6Hi), (7, r.xf0 != 0#4), (7, r.xf1 != 0#4), (7, r.xf2 != 0#4)]
    (.mulExt r.ctl r.rd r.ra r.srcB)

/-- MULH: fields and fates of R152. -/
def decMulh (r : Raw) : Except Nat Instr :=
  .ok (.mulh r.w (reg7 r.bd) (reg7 r.ba) r.src7)

/-- MULH_EXT: fields and fates of R152. -/
def decMulhExt (r : Raw) : Except Nat Instr :=
  firstBad [(4, r.l4Base), (5, r.m5 0x8001#16), (6, r.k6Imm || r.k6Base || r.k6Hi), (7, r.xf0 != 0#4), (7, r.xf1 != 0#4), (7, r.xf2 != 0#4)]
    (.mulhExt r.ctl (r.mod.getLsbD 0) r.rd r.ra r.srcB)

/-- MAD: fields and fates of R152. -/
def decMad (r : Raw) : Except Nat Instr :=
  firstBad [(4, r.l4Ib), (5, r.m5 0x8000#16), (6, r.k6Imm || r.k6Hi), (7, r.xf0 != 0#4), (7, r.xf1 != 0#4), (7, r.xf2 != 0#4)]
    (.mad r.ctl r.rd r.ra r.srcB r.xc)

/-- MIN: fields and fates of R152. -/
def decMin (r : Raw) : Except Nat Instr :=
  .ok (.min r.w (reg7 r.bd) (reg7 r.ba) r.src7)

/-- MIN_EXT: fields and fates of R152. -/
def decMinExt (r : Raw) : Except Nat Instr :=
  firstBad [(4, r.l4Base), (5, r.m5 0x8001#16), (6, r.k6Imm || r.k6Base || r.k6Hi), (7, r.xf0 != 0#4), (7, r.xf1 != 0#4), (7, r.xf2 != 0#4)]
    (.minExt r.ctl (r.mod.getLsbD 0) r.rd r.ra r.srcB)

/-- MAX: fields and fates of R152. -/
def decMax (r : Raw) : Except Nat Instr :=
  .ok (.max r.w (reg7 r.bd) (reg7 r.ba) r.src7)

/-- MAX_EXT: fields and fates of R152. -/
def decMaxExt (r : Raw) : Except Nat Instr :=
  firstBad [(4, r.l4Base), (5, r.m5 0x8001#16), (6, r.k6Imm || r.k6Base || r.k6Hi), (7, r.xf0 != 0#4), (7, r.xf1 != 0#4), (7, r.xf2 != 0#4)]
    (.maxExt r.ctl (r.mod.getLsbD 0) r.rd r.ra r.srcB)

/-- AND: fields and fates of R152. -/
def decAnd (r : Raw) : Except Nat Instr :=
  .ok (.and r.w (reg7 r.bd) (reg7 r.ba) r.src7)

/-- AND_EXT: fields and fates of R152. -/
def decAndExt (r : Raw) : Except Nat Instr :=
  firstBad [(4, r.l4Base), (5, r.m5 0x8000#16), (6, r.k6Imm || r.k6Base || r.k6Hi), (7, r.xf0 != 0#4), (7, r.xf1 != 0#4), (7, r.xf2 != 0#4)]
    (.andExt r.ctl r.rd r.ra r.srcB)

/-- OR: fields and fates of R152. -/
def decOr (r : Raw) : Except Nat Instr :=
  .ok (.or r.w (reg7 r.bd) (reg7 r.ba) r.src7)

/-- OR_EXT: fields and fates of R152. -/
def decOrExt (r : Raw) : Except Nat Instr :=
  firstBad [(4, r.l4Base), (5, r.m5 0x8000#16), (6, r.k6Imm || r.k6Base || r.k6Hi), (7, r.xf0 != 0#4), (7, r.xf1 != 0#4), (7, r.xf2 != 0#4)]
    (.orExt r.ctl r.rd r.ra r.srcB)

/-- XOR: fields and fates of R152. -/
def decXor (r : Raw) : Except Nat Instr :=
  .ok (.xor r.w (reg7 r.bd) (reg7 r.ba) r.src7)

/-- XOR_EXT: fields and fates of R152. -/
def decXorExt (r : Raw) : Except Nat Instr :=
  firstBad [(4, r.l4Base), (5, r.m5 0x8000#16), (6, r.k6Imm || r.k6Base || r.k6Hi), (7, r.xf0 != 0#4), (7, r.xf1 != 0#4), (7, r.xf2 != 0#4)]
    (.xorExt r.ctl r.rd r.ra r.srcB)

/-- SHL: fields and fates of R153. -/
def decShl (r : Raw) : Except Nat Instr :=
  .ok (.shl r.w (reg7 r.bd) (reg7 r.ba) r.src7)

/-- SHL_EXT: fields and fates of R153. -/
def decShlExt (r : Raw) : Except Nat Instr :=
  firstBad [(4, r.l4Base), (5, r.m5 0x8000#16), (6, r.k6Imm || r.k6Base || r.k6Hi), (7, r.xf0 != 0#4), (7, r.xf1 != 0#4), (7, r.xf2 != 0#4)]
    (.shlExt r.ctl r.rd r.ra r.srcB)

/-- SHR: fields and fates of R153. -/
def decShr (r : Raw) : Except Nat Instr :=
  .ok (.shr r.w (reg7 r.bd) (reg7 r.ba) r.src7)

/-- SHR_EXT: fields and fates of R153. -/
def decShrExt (r : Raw) : Except Nat Instr :=
  firstBad [(4, r.l4Base), (5, r.m5 0x8000#16), (6, r.k6Imm || r.k6Base || r.k6Hi), (7, r.xf0 != 0#4), (7, r.xf1 != 0#4), (7, r.xf2 != 0#4)]
    (.shrExt r.ctl r.rd r.ra r.srcB)

/-- SAR: fields and fates of R153. -/
def decSar (r : Raw) : Except Nat Instr :=
  .ok (.sar r.w (reg7 r.bd) (reg7 r.ba) r.src7)

/-- SAR_EXT: fields and fates of R153. -/
def decSarExt (r : Raw) : Except Nat Instr :=
  firstBad [(4, r.l4Base), (5, r.m5 0x8000#16), (6, r.k6Imm || r.k6Base || r.k6Hi), (7, r.xf0 != 0#4), (7, r.xf1 != 0#4), (7, r.xf2 != 0#4)]
    (.sarExt r.ctl r.rd r.ra r.srcB)

/-- ROT: fields and fates of R153. -/
def decRot (r : Raw) : Except Nat Instr :=
  .ok (.rot r.w (reg7 r.bd) (reg7 r.ba) r.src7)

/-- ROT_EXT: fields and fates of R153. -/
def decRotExt (r : Raw) : Except Nat Instr :=
  firstBad [(4, r.l4Base), (5, r.m5 0x8000#16), (6, r.k6Imm || r.k6Base || r.k6Hi), (7, r.xf0 != 0#4), (7, r.xf1 != 0#4), (7, r.xf2 != 0#4)]
    (.rotExt r.ctl r.rd r.ra r.srcB)

/-- BFX: fields and fates of R154. -/
def decBfx (r : Raw) : Except Nat Instr :=
  .ok (.bfx r.w (reg7 r.bd) (reg7 r.ba) r.src7)

/-- BFX_EXT: fields and fates of R154. -/
def decBfxExt (r : Raw) : Except Nat Instr :=
  firstBad [(4, r.l4Base), (5, r.m5 0x8001#16), (6, r.k6Imm || r.k6Base || r.k6Hi), (7, r.xf0 != 0#4), (7, r.xf1 != 0#4), (7, r.xf2 != 0#4)]
    (.bfxExt r.ctl (r.mod.getLsbD 0) r.rd r.ra r.srcB)

/-- BFI: fields and fates of R154. -/
def decBfi (r : Raw) : Except Nat Instr :=
  firstBad [(4, r.l4Ib), (5, r.m5 0x8000#16), (6, r.k6Imm || r.k6Hi), (7, r.xf0 != 0#4), (7, r.xf1 != 0#4), (7, r.xf2 != 0#4)]
    (.bfi r.ctl r.rd r.ra r.srcB r.xc)

/-- SEL: fields and fates of R155. -/
def decSel (r : Raw) : Except Nat Instr :=
  firstBad [(4, r.l4Ib), (5, r.m5 0x8001#16), (6, r.k6Imm || r.k6Hi), (7, r.xf0 != 0#4), (7, r.xf1 != 0#4), (7, r.xf2 != 0#4), (8, !(r.xc < 8#8))]
    (.sel r.ctl (r.mod.getLsbD 0) r.rd r.ra r.srcB (r.xc.extractLsb' 0 3))

/-- CMP: fields and fates of R156. -/
def decCmp (r : Raw) : Except Nat Instr :=
  firstBad [(4, r.l4Ib), (5, r.m5 0x8000#16), (6, r.k6Imm || r.k6Hi), (7, !codeIn 0x03FF#16 r.xf0), (7, r.xf1 != 0#4), (7, r.xf2 != 0#4), (8, !(r.rd < 8#8))]
    (.cmp r.ctl r.xf0 (r.rd.extractLsb' 0 3) r.ra r.srcB)

/-- PLOG: fields and fates of R157. -/
def decPlog (r : Raw) : Except Nat Instr :=
  firstBad [(4, r.l4Ext), (5, r.m5 0x00FF#16), (7, r.xf0 != 0#4), (7, r.xf1 != 0#4), (7, r.xf2 != 0#4), (8, !(r.rd < 8#8)), (8, !(r.ra < 8#8)), (8, !(r.xb < 8#8)), (8, !(r.xc < 8#8))]
    (.plog r.ctl (r.mod.extractLsb' 0 8) (r.rd.extractLsb' 0 3) (r.ra.extractLsb' 0 3) (r.xb.extractLsb' 0 3) (r.xc.extractLsb' 0 3))

/-- LEA: fields and fates of R158. -/
def decLea (r : Raw) : Except Nat Instr :=
  firstBad [(8, !pairOk (reg7 r.bd)), (8, !pairOk (reg7 r.ba))]
    (.lea r.w (reg7 r.bd) (reg7 r.ba) r.src7)

/-- LEA_EXT: fields and fates of R158. -/
def decLeaExt (r : Raw) : Except Nat Instr :=
  firstBad [(4, r.l4Base), (5, r.m5 0x800F#16), (6, r.k6Imm || r.k6Base || r.k6Hi), (7, r.xf0 != 0#4), (7, r.xf1 != 0#4), (7, r.xf2 != 0#4), (8, !pairOk r.rd), (8, !pairOk r.ra)]
    (.leaExt r.ctl (r.mod.extractLsb' 0 3) (r.mod.getLsbD 3) r.rd r.ra r.srcB)

/-- ADD64: fields and fates of R159. -/
def decAdd64 (r : Raw) : Except Nat Instr :=
  firstBad [(4, r.l4Ib), (5, r.m5 0x8000#16), (6, r.k6Imm), (7, r.xf0 != 0#4), (7, r.xf1 != 0#4), (7, r.xf2 != 0#4), (8, !pairOk r.rd), (8, !pairOk r.ra), (8, !r.srcB.pairOk)]
    (.add64 r.ctl r.rd r.ra r.srcB)

/-- SUB64: fields and fates of R159. -/
def decSub64 (r : Raw) : Except Nat Instr :=
  firstBad [(4, r.l4Ib), (5, r.m5 0x8000#16), (6, r.k6Imm), (7, r.xf0 != 0#4), (7, r.xf1 != 0#4), (7, r.xf2 != 0#4), (8, !pairOk r.rd), (8, !pairOk r.ra), (8, !r.srcB.pairOk)]
    (.sub64 r.ctl r.rd r.ra r.srcB)

/-- SHL64: fields and fates of R159. -/
def decShl64 (r : Raw) : Except Nat Instr :=
  firstBad [(4, r.l4Ib), (5, r.m5 0x8000#16), (6, r.k6Imm || r.k6Hi), (7, r.xf0 != 0#4), (7, r.xf1 != 0#4), (7, r.xf2 != 0#4), (8, !pairOk r.rd), (8, !pairOk r.ra)]
    (.shl64 r.ctl r.rd r.ra r.srcB)

/-- SHR64: fields and fates of R159. -/
def decShr64 (r : Raw) : Except Nat Instr :=
  firstBad [(4, r.l4Ib), (5, r.m5 0x8000#16), (6, r.k6Imm || r.k6Hi), (7, r.xf0 != 0#4), (7, r.xf1 != 0#4), (7, r.xf2 != 0#4), (8, !pairOk r.rd), (8, !pairOk r.ra)]
    (.shr64 r.ctl r.rd r.ra r.srcB)

/-- CMP64: fields and fates of R159. -/
def decCmp64 (r : Raw) : Except Nat Instr :=
  firstBad [(4, r.l4Ib), (5, r.m5 0x8000#16), (6, r.k6Imm), (7, !codeIn 0x03FF#16 r.xf0), (7, r.xf1 != 0#4), (7, r.xf2 != 0#4), (8, !(r.rd < 8#8)), (8, !pairOk r.ra), (8, !r.srcB.pairOk)]
    (.cmp64 r.ctl r.xf0 (r.rd.extractLsb' 0 3) r.ra r.srcB)

/-- ABS: fields and fates of R160. -/
def decAbs (r : Raw) : Except Nat Instr :=
  firstBad [(4, r.l4Ext), (5, r.m5 0x0001#16), (7, r.xf0 != 0#4), (7, r.xf1 != 0#4), (7, r.xf2 != 0#4)]
    (.abs r.ctl (r.mod.getLsbD 0) r.rd r.ra)

/-- NEG: fields and fates of R160. -/
def decNeg (r : Raw) : Except Nat Instr :=
  firstBad [(4, r.l4Ext), (5, r.m5 0x0001#16), (7, r.xf0 != 0#4), (7, r.xf1 != 0#4), (7, r.xf2 != 0#4)]
    (.neg r.ctl (r.mod.getLsbD 0) r.rd r.ra)

/-- NOT: fields and fates of R160. -/
def decNot (r : Raw) : Except Nat Instr :=
  firstBad [(4, r.l4Ext), (5, r.m5 0x0000#16), (7, r.xf0 != 0#4), (7, r.xf1 != 0#4), (7, r.xf2 != 0#4)]
    (.not r.ctl r.rd r.ra)

/-- POPC: fields and fates of R160. -/
def decPopc (r : Raw) : Except Nat Instr :=
  firstBad [(4, r.l4Ext), (5, r.m5 0x0000#16), (7, r.xf0 != 0#4), (7, r.xf1 != 0#4), (7, r.xf2 != 0#4)]
    (.popc r.ctl r.rd r.ra)

/-- CLZ: fields and fates of R160. -/
def decClz (r : Raw) : Except Nat Instr :=
  firstBad [(4, r.l4Ext), (5, r.m5 0x0000#16), (7, r.xf0 != 0#4), (7, r.xf1 != 0#4), (7, r.xf2 != 0#4)]
    (.clz r.ctl r.rd r.ra)

/-- BREV: fields and fates of R160. -/
def decBrev (r : Raw) : Except Nat Instr :=
  firstBad [(4, r.l4Ext), (5, r.m5 0x0000#16), (7, r.xf0 != 0#4), (7, r.xf1 != 0#4), (7, r.xf2 != 0#4)]
    (.brev r.ctl r.rd r.ra)

/-- SEXT8: fields and fates of R160. -/
def decSext8 (r : Raw) : Except Nat Instr :=
  firstBad [(4, r.l4Ext), (5, r.m5 0x0000#16), (7, r.xf0 != 0#4), (7, r.xf1 != 0#4), (7, r.xf2 != 0#4)]
    (.sext8 r.ctl r.rd r.ra)

/-- SEXT16: fields and fates of R160. -/
def decSext16 (r : Raw) : Except Nat Instr :=
  firstBad [(4, r.l4Ext), (5, r.m5 0x0000#16), (7, r.xf0 != 0#4), (7, r.xf1 != 0#4), (7, r.xf2 != 0#4)]
    (.sext16 r.ctl r.rd r.ra)

/-- ZEXT8: fields and fates of R160. -/
def decZext8 (r : Raw) : Except Nat Instr :=
  firstBad [(4, r.l4Ext), (5, r.m5 0x0000#16), (7, r.xf0 != 0#4), (7, r.xf1 != 0#4), (7, r.xf2 != 0#4)]
    (.zext8 r.ctl r.rd r.ra)

/-- ZEXT16: fields and fates of R160. -/
def decZext16 (r : Raw) : Except Nat Instr :=
  firstBad [(4, r.l4Ext), (5, r.m5 0x0000#16), (7, r.xf0 != 0#4), (7, r.xf1 != 0#4), (7, r.xf2 != 0#4)]
    (.zext16 r.ctl r.rd r.ra)

/-- CSRR: fields and fates of R162. -/
def decCsrr (r : Raw) : Except Nat Instr :=
  .ok (.csrr r.w (reg7 r.bd) (r.top.extractLsb' 7 15))

/-- CSRR_EXT: fields and fates of R162. -/
def decCsrrExt (r : Raw) : Except Nat Instr :=
  firstBad [(4, r.l4Ext), (5, r.m5 0x0000#16), (7, r.xf0 != 0#4), (7, r.xf1 != 0#4), (7, r.xf2 != 0#4)]
    (.csrrExt r.ctl r.rd r.ximm)

/-- CSRW: fields and fates of R162. -/
def decCsrw (r : Raw) : Except Nat Instr :=
  .ok (.csrw r.w (reg7 r.bd) (r.top.extractLsb' 7 15))

/-- CSRW_EXT: fields and fates of R162. -/
def decCsrwExt (r : Raw) : Except Nat Instr :=
  firstBad [(4, r.l4Ext), (5, r.m5 0x0000#16), (7, r.xf0 != 0#4), (7, r.xf1 != 0#4), (7, r.xf2 != 0#4)]
    (.csrwExt r.ctl r.ra r.ximm)

/-- NOP: fields and fates of R163. -/
def decNop (r : Raw) : Except Nat Instr :=
  firstBad [(6, r.top != 0#22)]
    (.nop r.w)

/-- FADD: fields and fates of R166. -/
def decFadd (r : Raw) : Except Nat Instr :=
  .ok (.fadd r.w (reg7 r.bd) (reg7 r.ba) r.src7)

/-- FADD_EXT: fields and fates of R166. -/
def decFaddExt (r : Raw) : Except Nat Instr :=
  firstBad [(4, r.l4Base), (5, r.m5 0x8000#16), (6, r.k6Imm || r.k6Base || r.k6Hi), (7, !codeIn 0x001F#16 r.xf0), (7, r.xf1 != 0#4), (7, r.xf2 != 0#4)]
    (.faddExt r.ctl (r.xf0.extractLsb' 0 3) r.rd r.ra r.srcB)

/-- FSUB: fields and fates of R166. -/
def decFsub (r : Raw) : Except Nat Instr :=
  .ok (.fsub r.w (reg7 r.bd) (reg7 r.ba) r.src7)

/-- FSUB_EXT: fields and fates of R166. -/
def decFsubExt (r : Raw) : Except Nat Instr :=
  firstBad [(4, r.l4Base), (5, r.m5 0x8000#16), (6, r.k6Imm || r.k6Base || r.k6Hi), (7, !codeIn 0x001F#16 r.xf0), (7, r.xf1 != 0#4), (7, r.xf2 != 0#4)]
    (.fsubExt r.ctl (r.xf0.extractLsb' 0 3) r.rd r.ra r.srcB)

/-- FMUL: fields and fates of R166. -/
def decFmul (r : Raw) : Except Nat Instr :=
  .ok (.fmul r.w (reg7 r.bd) (reg7 r.ba) r.src7)

/-- FMUL_EXT: fields and fates of R166. -/
def decFmulExt (r : Raw) : Except Nat Instr :=
  firstBad [(4, r.l4Base), (5, r.m5 0x8000#16), (6, r.k6Imm || r.k6Base || r.k6Hi), (7, !codeIn 0x001F#16 r.xf0), (7, r.xf1 != 0#4), (7, r.xf2 != 0#4)]
    (.fmulExt r.ctl (r.xf0.extractLsb' 0 3) r.rd r.ra r.srcB)

/-- FFMA: fields and fates of R166. -/
def decFfma (r : Raw) : Except Nat Instr :=
  firstBad [(4, r.l4Ib), (5, r.m5 0x8000#16), (6, r.k6Imm || r.k6Hi), (7, !codeIn 0x001F#16 r.xf0), (7, r.xf1 != 0#4), (7, r.xf2 != 0#4)]
    (.ffma r.ctl (r.xf0.extractLsb' 0 3) r.rd r.ra r.srcB r.xc)

/-- FMIN: fields and fates of R167. -/
def decFmin (r : Raw) : Except Nat Instr :=
  .ok (.fmin r.w (reg7 r.bd) (reg7 r.ba) r.src7)

/-- FMIN_EXT: fields and fates of R167. -/
def decFminExt (r : Raw) : Except Nat Instr :=
  firstBad [(4, r.l4Base), (5, r.m5 0x8000#16), (6, r.k6Imm || r.k6Base || r.k6Hi), (7, r.xf0 != 0#4), (7, r.xf1 != 0#4), (7, r.xf2 != 0#4)]
    (.fminExt r.ctl r.rd r.ra r.srcB)

/-- FMAX: fields and fates of R167. -/
def decFmax (r : Raw) : Except Nat Instr :=
  .ok (.fmax r.w (reg7 r.bd) (reg7 r.ba) r.src7)

/-- FMAX_EXT: fields and fates of R167. -/
def decFmaxExt (r : Raw) : Except Nat Instr :=
  firstBad [(4, r.l4Base), (5, r.m5 0x8000#16), (6, r.k6Imm || r.k6Base || r.k6Hi), (7, r.xf0 != 0#4), (7, r.xf1 != 0#4), (7, r.xf2 != 0#4)]
    (.fmaxExt r.ctl r.rd r.ra r.srcB)

/-- FCMP: fields and fates of R168. -/
def decFcmp (r : Raw) : Except Nat Instr :=
  firstBad [(4, r.l4Ib), (5, r.m5 0x8000#16), (6, r.k6Imm || r.k6Hi), (7, !codeIn 0x00FF#16 r.xf0), (7, r.xf1 != 0#4), (7, r.xf2 != 0#4), (8, !(r.rd < 8#8))]
    (.fcmp r.ctl r.xf0 (r.rd.extractLsb' 0 3) r.ra r.srcB)

/-- FABS: fields and fates of R169. -/
def decFabs (r : Raw) : Except Nat Instr :=
  firstBad [(4, r.l4Ext), (5, r.m5 0x0000#16), (7, r.xf0 != 0#4), (7, r.xf1 != 0#4), (7, r.xf2 != 0#4)]
    (.fabs r.ctl r.rd r.ra)

/-- FNEG: fields and fates of R169. -/
def decFneg (r : Raw) : Except Nat Instr :=
  firstBad [(4, r.l4Ext), (5, r.m5 0x0000#16), (7, r.xf0 != 0#4), (7, r.xf1 != 0#4), (7, r.xf2 != 0#4)]
    (.fneg r.ctl r.rd r.ra)

/-- FCLASS: fields and fates of R169. -/
def decFclass (r : Raw) : Except Nat Instr :=
  firstBad [(4, r.l4Ext), (5, r.m5 0x0000#16), (7, r.xf0 != 0#4), (7, r.xf1 != 0#4), (7, r.xf2 != 0#4)]
    (.fclass r.ctl r.rd r.ra)

/-- FRINT: fields and fates of R169. -/
def decFrint (r : Raw) : Except Nat Instr :=
  firstBad [(4, r.l4Ext), (5, r.m5 0x0000#16), (7, !codeIn 0x001F#16 r.xf0), (7, r.xf1 != 0#4), (7, r.xf2 != 0#4)]
    (.frint r.ctl (r.xf0.extractLsb' 0 3) r.rd r.ra)

/-- FRCP: fields and fates of R170. -/
def decFrcp (r : Raw) : Except Nat Instr :=
  firstBad [(4, r.l4Ext), (5, r.m5 0x0000#16), (7, r.xf0 != 0#4), (7, r.xf1 != 0#4), (7, r.xf2 != 0#4)]
    (.frcp r.ctl r.rd r.ra)

/-- FRSQ: fields and fates of R170. -/
def decFrsq (r : Raw) : Except Nat Instr :=
  firstBad [(4, r.l4Ext), (5, r.m5 0x0000#16), (7, r.xf0 != 0#4), (7, r.xf1 != 0#4), (7, r.xf2 != 0#4)]
    (.frsq r.ctl r.rd r.ra)

/-- FSQRT: fields and fates of R170. -/
def decFsqrt (r : Raw) : Except Nat Instr :=
  firstBad [(4, r.l4Ext), (5, r.m5 0x0000#16), (7, !codeIn 0x001F#16 r.xf0), (7, r.xf1 != 0#4), (7, r.xf2 != 0#4)]
    (.fsqrt r.ctl (r.xf0.extractLsb' 0 3) r.rd r.ra)

/-- FEXP2: fields and fates of R170. -/
def decFexp2 (r : Raw) : Except Nat Instr :=
  firstBad [(4, r.l4Ext), (5, r.m5 0x0000#16), (7, r.xf0 != 0#4), (7, r.xf1 != 0#4), (7, r.xf2 != 0#4)]
    (.fexp2 r.ctl r.rd r.ra)

/-- FLOG2: fields and fates of R170. -/
def decFlog2 (r : Raw) : Except Nat Instr :=
  firstBad [(4, r.l4Ext), (5, r.m5 0x0000#16), (7, r.xf0 != 0#4), (7, r.xf1 != 0#4), (7, r.xf2 != 0#4)]
    (.flog2 r.ctl r.rd r.ra)

/-- FSIN: fields and fates of R170. -/
def decFsin (r : Raw) : Except Nat Instr :=
  firstBad [(4, r.l4Ext), (5, r.m5 0x0000#16), (7, r.xf0 != 0#4), (7, r.xf1 != 0#4), (7, r.xf2 != 0#4)]
    (.fsin r.ctl r.rd r.ra)

/-- FCOS: fields and fates of R170. -/
def decFcos (r : Raw) : Except Nat Instr :=
  firstBad [(4, r.l4Ext), (5, r.m5 0x0000#16), (7, r.xf0 != 0#4), (7, r.xf1 != 0#4), (7, r.xf2 != 0#4)]
    (.fcos r.ctl r.rd r.ra)

/-- HADD2: fields and fates of R171. -/
def decHadd2 (r : Raw) : Except Nat Instr :=
  firstBad [(4, r.l4Ext), (5, r.m5 0x0000#16), (7, !codeIn 0x001F#16 r.xf0), (7, !codeIn 0x0006#16 r.xf1), (7, r.xf2 != 0#4)]
    (.hadd2 r.ctl (r.xf0.extractLsb' 0 3) r.xf1 r.rd r.ra r.xb)

/-- HMUL2: fields and fates of R171. -/
def decHmul2 (r : Raw) : Except Nat Instr :=
  firstBad [(4, r.l4Ext), (5, r.m5 0x0000#16), (7, !codeIn 0x001F#16 r.xf0), (7, !codeIn 0x0006#16 r.xf1), (7, r.xf2 != 0#4)]
    (.hmul2 r.ctl (r.xf0.extractLsb' 0 3) r.xf1 r.rd r.ra r.xb)

/-- HFMA2: fields and fates of R171. -/
def decHfma2 (r : Raw) : Except Nat Instr :=
  firstBad [(4, r.l4Ext), (5, r.m5 0x0000#16), (7, !codeIn 0x001F#16 r.xf0), (7, !codeIn 0x0006#16 r.xf1), (7, r.xf2 != 0#4)]
    (.hfma2 r.ctl (r.xf0.extractLsb' 0 3) r.xf1 r.rd r.ra r.xb r.xc)

/-- HMIN2: fields and fates of R171. -/
def decHmin2 (r : Raw) : Except Nat Instr :=
  firstBad [(4, r.l4Ext), (5, r.m5 0x0000#16), (7, r.xf0 != 0#4), (7, !codeIn 0x0006#16 r.xf1), (7, r.xf2 != 0#4)]
    (.hmin2 r.ctl r.xf1 r.rd r.ra r.xb)

/-- HMAX2: fields and fates of R171. -/
def decHmax2 (r : Raw) : Except Nat Instr :=
  firstBad [(4, r.l4Ext), (5, r.m5 0x0000#16), (7, r.xf0 != 0#4), (7, !codeIn 0x0006#16 r.xf1), (7, r.xf2 != 0#4)]
    (.hmax2 r.ctl r.xf1 r.rd r.ra r.xb)

/-- FDOT2: fields and fates of R172. -/
def decFdot2 (r : Raw) : Except Nat Instr :=
  firstBad [(4, r.l4Ext), (5, r.m5 0x0000#16), (7, !codeIn 0x001F#16 r.xf0), (7, !codeIn 0x0006#16 r.xf1), (7, r.xf2 != 0#4)]
    (.fdot2 r.ctl (r.xf0.extractLsb' 0 3) r.xf1 r.rd r.ra r.xb r.xc)

/-- FCVT: fields and fates of R173. -/
def decFcvt (r : Raw) : Except Nat Instr :=
  firstBad [(4, r.l4Ext), (5, r.m5 0x0035#16), (7, !codeIn 0x003F#16 r.xf0), (7, !codeIn 0x001E#16 r.xf1), (7, r.xf2 != 0#4), (7, (r.xf1 ≤ 2#4) && (r.mod.extractLsb' 4 2).getLsbD 1), (7, (r.mod.getLsbD 2) && ((r.mod.getLsbD 0) || (r.xf0.extractLsb' 0 3) != 0#3))]
    (.fcvt r.ctl (r.mod.getLsbD 0) (r.mod.getLsbD 2) (r.mod.extractLsb' 4 2) (r.xf0.extractLsb' 0 3) r.xf1 r.rd r.ra)

/-- I2F: fields and fates of R174. -/
def decI2f (r : Raw) : Except Nat Instr :=
  firstBad [(4, r.l4Ext), (5, r.m5 0x0000#16), (7, !codeIn 0x001F#16 r.xf0), (7, r.xf1 != 0#4), (7, r.xf2 != 0#4)]
    (.i2f r.ctl (r.xf0.extractLsb' 0 3) r.rd r.ra)

/-- U2F: fields and fates of R174. -/
def decU2f (r : Raw) : Except Nat Instr :=
  firstBad [(4, r.l4Ext), (5, r.m5 0x0000#16), (7, !codeIn 0x001F#16 r.xf0), (7, r.xf1 != 0#4), (7, r.xf2 != 0#4)]
    (.u2f r.ctl (r.xf0.extractLsb' 0 3) r.rd r.ra)

/-- F2I: fields and fates of R174. -/
def decF2i (r : Raw) : Except Nat Instr :=
  firstBad [(4, r.l4Ext), (5, r.m5 0x0001#16), (7, !codeIn 0x001F#16 r.xf0), (7, r.xf1 != 0#4), (7, r.xf2 != 0#4)]
    (.f2i r.ctl (r.mod.getLsbD 0) (r.xf0.extractLsb' 0 3) r.rd r.ra)

/-- F2U: fields and fates of R174. -/
def decF2u (r : Raw) : Except Nat Instr :=
  firstBad [(4, r.l4Ext), (5, r.m5 0x0001#16), (7, !codeIn 0x001F#16 r.xf0), (7, r.xf1 != 0#4), (7, r.xf2 != 0#4)]
    (.f2u r.ctl (r.mod.getLsbD 0) (r.xf0.extractLsb' 0 3) r.rd r.ra)

/-- QNT: fields and fates of R175. -/
def decQnt (r : Raw) : Except Nat Instr :=
  firstBad [(4, r.l4Ib), (5, r.m5 0x8001#16), (5, (r.xf1 == 9#4) && (r.mod.getLsbD 0)), (6, r.k6Imm || r.k6Hi), (7, !codeIn 0x003F#16 r.xf0), (7, !codeIn 0x02F8#16 r.xf1), (7, r.xf2 != 0#4), (7, (r.xf1 == 7#4) && ((r.xf0.extractLsb' 0 3) == 5#3)), (7, (r.xf1 == 9#4) && ((r.xf0.extractLsb' 0 3) != 0#3)), (8, r.ra.toNat % qntCount r.xf1 != 0)]
    (.qnt r.ctl (r.mod.getLsbD 0) (r.xf0.extractLsb' 0 3) r.xf1 r.rd r.ra r.srcB)

/-- DQNT: fields and fates of R176. -/
def decDqnt (r : Raw) : Except Nat Instr :=
  firstBad [(4, r.l4Ib), (5, r.m5 0x8001#16), (6, r.k6Imm || r.k6Hi), (7, !codeIn 0x001F#16 r.xf0), (7, !codeIn 0x00F8#16 r.xf1), (7, r.xf2 != 0#4), (8, r.rd.toNat % qntCount r.xf1 != 0)]
    (.dqnt r.ctl (r.mod.getLsbD 0) (r.xf0.extractLsb' 0 3) r.xf1 r.rd r.ra r.srcB)

/-- HAD: fields and fates of R177. -/
def decHad (r : Raw) : Except Nat Instr :=
  firstBad [(4, r.l4Ext), (5, r.m5 0x0003#16), (7, !codeIn 0x001F#16 r.xf0), (7, !codeIn 0x0007#16 r.xf1), (7, r.xf2 != 0#4), (7, (r.mod.extractLsb' 0 2) == 3#2), (8, r.ra.toNat % 8 != 0 || r.rd.toNat % 8 != 0 || !rangesOk r.rd r.ra (hadSpan (r.mod.extractLsb' 0 2) r.xf1) (hadSpan (r.mod.extractLsb' 0 2) r.xf1))]
    (.had r.ctl (r.mod.extractLsb' 0 2) (r.xf0.extractLsb' 0 3) r.xf1 r.rd r.ra)

/-- CMPR: fields and fates of R178. -/
def decCmpr (r : Raw) : Except Nat Instr :=
  firstBad [(4, r.l4Ext), (5, r.m5 0x0001#16), (7, r.xf0 != 0#4), (7, !codeIn 0x003E#16 r.xf1), (7, r.xf2 != 0#4), (8, r.ra.toNat % cmprSpan r.xf1 != 0 || r.rd.toNat % (cmprSpan r.xf1 / 2) != 0 || !rangesOk r.rd r.ra (cmprSpan r.xf1 / 2) (cmprSpan r.xf1) || inRange r.xc r.ra (cmprSpan r.xf1) || inRange r.xc r.rd (cmprSpan r.xf1 / 2))]
    (.cmpr r.ctl (r.mod.getLsbD 0) r.xf1 r.rd r.ra r.xc)

/-- BOXT: fields and fates of R198. -/
def decBoxt (r : Raw) : Except Nat Instr :=
  firstBad [(4, r.l4Ext), (5, r.m5 0x0000#16), (6, (r.ximm != 0#16)), (7, r.xf0 != 0#4), (7, r.xf1 != 0#4), (7, r.xf2 != 0#4), (8, !pairOk r.xb), (8, r.ra.toNat % 8 != 0 || !disjoint r.rd 5 r.ra 8)]
    (.boxt r.ctl r.rd r.ra r.xb)

/-- TRIT: fields and fates of R200. -/
def decTrit (r : Raw) : Except Nat Instr :=
  firstBad [(4, r.l4Ext), (5, r.m5 0x0001#16), (7, r.xf0 != 0#4), (7, r.xf1 != 0#4), (7, r.xf2 != 0#4), (8, !pairOk r.xb), (8, !(r.xc < 8#8)), (8, r.ra.toNat % 8 != 0 || !disjoint r.rd 4 r.ra 8)]
    (.trit r.ctl (r.mod.getLsbD 0) r.rd r.ra r.xb (r.xc.extractLsb' 0 3))

/-- REBIN: fields and fates of R201. With L = 0b11 its word offset is literal[31:0], sign-extended, and literal[63:32] is 0 (else reason 6): R46 says only that the literal supplies the operand at full width, and no rule gives an offset's width. DESIGN CHOICE (log entry 10), unsafe. -/
def decRebin (r : Raw) : Except Nat Instr :=
  firstBad [(4, r.l4Lit), (5, r.m5 0x0000#16), (6, r.k6Imm || r.k6Hi), (7, r.xf0 != 0#4), (7, r.xf1 != 0#4), (7, r.xf2 != 0#4), (8, !pairOk r.ra)]
    (.rebin r.ctl r.xb r.ra r.disp)

/-- SHFL_IDX: fields and fates of R193. -/
def decShflIdx (r : Raw) : Except Nat Instr :=
  firstBad [(4, r.l4Ib), (5, r.m5 0x8000#16), (6, r.k6Imm || r.k6Hi), (7, r.xf0 != 0#4), (7, r.xf1 != 0#4), (7, !codeIn 0x00FF#16 r.xf2), (8, !(r.xc < 8#8))]
    (.shflIdx r.ctl (r.xf2.extractLsb' 0 3) r.rd r.ra r.srcB (r.xc.extractLsb' 0 3))

/-- SHFL_UP: fields and fates of R193. -/
def decShflUp (r : Raw) : Except Nat Instr :=
  firstBad [(4, r.l4Ib), (5, r.m5 0x8000#16), (6, r.k6Imm || r.k6Hi), (7, r.xf0 != 0#4), (7, r.xf1 != 0#4), (7, !codeIn 0x00FF#16 r.xf2), (8, !(r.xc < 8#8))]
    (.shflUp r.ctl (r.xf2.extractLsb' 0 3) r.rd r.ra r.srcB (r.xc.extractLsb' 0 3))

/-- SHFL_DOWN: fields and fates of R193. -/
def decShflDown (r : Raw) : Except Nat Instr :=
  firstBad [(4, r.l4Ib), (5, r.m5 0x8000#16), (6, r.k6Imm || r.k6Hi), (7, r.xf0 != 0#4), (7, r.xf1 != 0#4), (7, !codeIn 0x00FF#16 r.xf2), (8, !(r.xc < 8#8))]
    (.shflDown r.ctl (r.xf2.extractLsb' 0 3) r.rd r.ra r.srcB (r.xc.extractLsb' 0 3))

/-- SHFL_XOR: fields and fates of R193. -/
def decShflXor (r : Raw) : Except Nat Instr :=
  firstBad [(4, r.l4Ib), (5, r.m5 0x8000#16), (6, r.k6Imm || r.k6Hi), (7, r.xf0 != 0#4), (7, r.xf1 != 0#4), (7, !codeIn 0x00FF#16 r.xf2), (8, !(r.xc < 8#8))]
    (.shflXor r.ctl (r.xf2.extractLsb' 0 3) r.rd r.ra r.srcB (r.xc.extractLsb' 0 3))

/-- VOTE_ANY: fields and fates of R194. -/
def decVoteAny (r : Raw) : Except Nat Instr :=
  firstBad [(4, r.l4Ext), (5, r.m5 0x0000#16), (7, r.xf0 != 0#4), (7, r.xf1 != 0#4), (7, r.xf2 != 0#4), (8, !(r.rd < 8#8)), (8, !(r.ra < 8#8))]
    (.voteAny r.ctl (r.rd.extractLsb' 0 3) (r.ra.extractLsb' 0 3))

/-- VOTE_ALL: fields and fates of R194. -/
def decVoteAll (r : Raw) : Except Nat Instr :=
  firstBad [(4, r.l4Ext), (5, r.m5 0x0000#16), (7, r.xf0 != 0#4), (7, r.xf1 != 0#4), (7, r.xf2 != 0#4), (8, !(r.rd < 8#8)), (8, !(r.ra < 8#8))]
    (.voteAll r.ctl (r.rd.extractLsb' 0 3) (r.ra.extractLsb' 0 3))

/-- VOTE_BALLOT: fields and fates of R194. -/
def decVoteBallot (r : Raw) : Except Nat Instr :=
  firstBad [(4, r.l4Ext), (5, r.m5 0x0000#16), (7, r.xf0 != 0#4), (7, r.xf1 != 0#4), (7, r.xf2 != 0#4), (8, !(r.ra < 8#8))]
    (.voteBallot r.ctl r.rd (r.ra.extractLsb' 0 3))

/-- VOTE_EQ: fields and fates of R194. -/
def decVoteEq (r : Raw) : Except Nat Instr :=
  firstBad [(4, r.l4Ext), (5, r.m5 0x0000#16), (7, r.xf0 != 0#4), (7, r.xf1 != 0#4), (7, r.xf2 != 0#4), (8, !(r.rd < 8#8))]
    (.voteEq r.ctl (r.rd.extractLsb' 0 3) r.ra)

/-- GRED_ADD: fields and fates of R195. -/
def decGredAdd (r : Raw) : Except Nat Instr :=
  firstBad [(4, r.l4Ext), (5, r.m5 0x0000#16), (7, r.xf0 != 0#4), (7, r.xf1 != 0#4), (7, !codeIn 0x00FF#16 r.xf2)]
    (.gredAdd r.ctl (r.xf2.extractLsb' 0 3) r.rd r.ra)

/-- GRED_MIN: fields and fates of R195. -/
def decGredMin (r : Raw) : Except Nat Instr :=
  firstBad [(4, r.l4Ext), (5, r.m5 0x0001#16), (7, r.xf0 != 0#4), (7, r.xf1 != 0#4), (7, !codeIn 0x00FF#16 r.xf2)]
    (.gredMin r.ctl (r.mod.getLsbD 0) (r.xf2.extractLsb' 0 3) r.rd r.ra)

/-- GRED_MAX: fields and fates of R195. -/
def decGredMax (r : Raw) : Except Nat Instr :=
  firstBad [(4, r.l4Ext), (5, r.m5 0x0001#16), (7, r.xf0 != 0#4), (7, r.xf1 != 0#4), (7, !codeIn 0x00FF#16 r.xf2)]
    (.gredMax r.ctl (r.mod.getLsbD 0) (r.xf2.extractLsb' 0 3) r.rd r.ra)

/-- GRED_AND: fields and fates of R195. -/
def decGredAnd (r : Raw) : Except Nat Instr :=
  firstBad [(4, r.l4Ext), (5, r.m5 0x0000#16), (7, r.xf0 != 0#4), (7, r.xf1 != 0#4), (7, !codeIn 0x00FF#16 r.xf2)]
    (.gredAnd r.ctl (r.xf2.extractLsb' 0 3) r.rd r.ra)

/-- GRED_OR: fields and fates of R195. -/
def decGredOr (r : Raw) : Except Nat Instr :=
  firstBad [(4, r.l4Ext), (5, r.m5 0x0000#16), (7, r.xf0 != 0#4), (7, r.xf1 != 0#4), (7, !codeIn 0x00FF#16 r.xf2)]
    (.gredOr r.ctl (r.xf2.extractLsb' 0 3) r.rd r.ra)

/-- GRED_XOR: fields and fates of R195. -/
def decGredXor (r : Raw) : Except Nat Instr :=
  firstBad [(4, r.l4Ext), (5, r.m5 0x0000#16), (7, r.xf0 != 0#4), (7, r.xf1 != 0#4), (7, !codeIn 0x00FF#16 r.xf2)]
    (.gredXor r.ctl (r.xf2.extractLsb' 0 3) r.rd r.ra)

/-- GRED_FADD: fields and fates of R195. -/
def decGredFadd (r : Raw) : Except Nat Instr :=
  firstBad [(4, r.l4Ext), (5, r.m5 0x0000#16), (7, !codeIn 0x001F#16 r.xf0), (7, r.xf1 != 0#4), (7, !codeIn 0x00FF#16 r.xf2)]
    (.gredFadd r.ctl (r.xf0.extractLsb' 0 3) (r.xf2.extractLsb' 0 3) r.rd r.ra)

/-- GRED_FMIN: fields and fates of R195. -/
def decGredFmin (r : Raw) : Except Nat Instr :=
  firstBad [(4, r.l4Ext), (5, r.m5 0x0000#16), (7, r.xf0 != 0#4), (7, r.xf1 != 0#4), (7, !codeIn 0x00FF#16 r.xf2)]
    (.gredFmin r.ctl (r.xf2.extractLsb' 0 3) r.rd r.ra)

/-- GRED_FMAX: fields and fates of R195. -/
def decGredFmax (r : Raw) : Except Nat Instr :=
  firstBad [(4, r.l4Ext), (5, r.m5 0x0000#16), (7, r.xf0 != 0#4), (7, r.xf1 != 0#4), (7, !codeIn 0x00FF#16 r.xf2)]
    (.gredFmax r.ctl (r.xf2.extractLsb' 0 3) r.rd r.ra)

/-- BRA: fields and fates of R181. -/
def decBra (r : Raw) : Except Nat Instr :=
  .ok (.bra r.w r.top)

/-- BRC: fields and fates of R181. -/
def decBrc (r : Raw) : Except Nat Instr :=
  .ok (.brc r.w (r.top.extractLsb' 4 18) (r.top.getLsbD 3) (r.top.extractLsb' 0 3))

/-- BRQ: fields and fates of R183. -/
def decBrq (r : Raw) : Except Nat Instr :=
  .ok (.brq r.w r.top)

/-- CALL: fields and fates of R182. -/
def decCall (r : Raw) : Except Nat Instr :=
  .ok (.call r.w r.top)

/-- RET: fields and fates of R182. -/
def decRet (r : Raw) : Except Nat Instr :=
  firstBad [(6, r.bi)]
    (.ret r.w)

/-- RET_EXT: fields and fates of R182. -/
def decRetExt (r : Raw) : Except Nat Instr :=
  firstBad [(4, r.l4Ext), (5, r.m5 0x0000#16), (6, (r.ximm != 0#16)), (7, r.xf0 != 0#4), (7, r.xf1 != 0#4), (7, r.xf2 != 0#4)]
    (.retExt r.ctl)

/-- JARM: fields and fates of R184. -/
def decJarm (r : Raw) : Except Nat Instr :=
  firstBad [(6, r.bi), (8, !(r.ba < 16#7))]
    (.jarm r.w (r.ba.extractLsb' 0 4))

/-- JARM_EXT: fields and fates of R184. -/
def decJarmExt (r : Raw) : Except Nat Instr :=
  firstBad [(4, r.l4Ext), (5, r.m5 0x0000#16), (6, (r.ximm != 0#16)), (7, r.xf0 != 0#4), (7, r.xf1 != 0#4), (7, r.xf2 != 0#4), (8, !(r.ra < 16#8))]
    (.jarmExt r.ctl (r.ra.extractLsb' 0 4))

/-- JWAIT: fields and fates of R184. -/
def decJwait (r : Raw) : Except Nat Instr :=
  firstBad [(6, r.bi), (8, !(r.ba < 16#7))]
    (.jwait r.w (r.ba.extractLsb' 0 4))

/-- JWAIT_EXT: fields and fates of R184. -/
def decJwaitExt (r : Raw) : Except Nat Instr :=
  firstBad [(4, r.l4Ext), (5, r.m5 0x0000#16), (6, (r.ximm != 0#16)), (7, r.xf0 != 0#4), (7, r.xf1 != 0#4), (7, r.xf2 != 0#4), (8, !(r.ra < 16#8))]
    (.jwaitExt r.ctl (r.ra.extractLsb' 0 4))

/-- JDROP: fields and fates of R184. -/
def decJdrop (r : Raw) : Except Nat Instr :=
  firstBad [(6, r.bi), (8, !(r.ba < 16#7))]
    (.jdrop r.w (r.ba.extractLsb' 0 4))

/-- JDROP_EXT: fields and fates of R184. -/
def decJdropExt (r : Raw) : Except Nat Instr :=
  firstBad [(4, r.l4Ext), (5, r.m5 0x0000#16), (6, (r.ximm != 0#16)), (7, r.xf0 != 0#4), (7, r.xf1 != 0#4), (7, r.xf2 != 0#4), (8, !(r.ra < 16#8))]
    (.jdropExt r.ctl (r.ra.extractLsb' 0 4))

/-- EXIT: fields and fates of R186. -/
def decExit (r : Raw) : Except Nat Instr :=
  firstBad [(6, r.bi)]
    (.exit r.w)

/-- EXIT_EXT: fields and fates of R186. -/
def decExitExt (r : Raw) : Except Nat Instr :=
  firstBad [(4, r.l4Ext), (5, r.m5 0x0000#16), (6, (r.ximm != 0#16)), (7, r.xf0 != 0#4), (7, r.xf1 != 0#4), (7, r.xf2 != 0#4)]
    (.exitExt r.ctl)

/-- YIELD: fields and fates of R187. -/
def decYield (r : Raw) : Except Nat Instr :=
  firstBad [(6, r.bi)]
    (.yield r.w)

/-- YIELD_EXT: fields and fates of R187. -/
def decYieldExt (r : Raw) : Except Nat Instr :=
  firstBad [(4, r.l4Ext), (5, r.m5 0x0000#16), (6, (r.ximm != 0#16)), (7, r.xf0 != 0#4), (7, r.xf1 != 0#4), (7, r.xf2 != 0#4)]
    (.yieldExt r.ctl)

/-- TRAP: fields and fates of R188. -/
def decTrap (r : Raw) : Except Nat Instr :=
  .ok (.trap r.w r.src7)

/-- TRAP_EXT: fields and fates of R188. -/
def decTrapExt (r : Raw) : Except Nat Instr :=
  firstBad [(4, r.l4Base), (5, r.m5 0x8000#16), (6, r.k6Imm || r.k6Base || r.k6Hi || r.k6Src), (7, r.xf0 != 0#4), (7, r.xf1 != 0#4), (7, r.xf2 != 0#4)]
    (.trapExt r.ctl r.srcB)

/-- BRK: fields and fates of R188. -/
def decBrk (r : Raw) : Except Nat Instr :=
  .ok (.brk r.w r.src7)

/-- BRK_EXT: fields and fates of R188. -/
def decBrkExt (r : Raw) : Except Nat Instr :=
  firstBad [(4, r.l4Base), (5, r.m5 0x8000#16), (6, r.k6Imm || r.k6Base || r.k6Hi || r.k6Src), (7, r.xf0 != 0#4), (7, r.xf1 != 0#4), (7, r.xf2 != 0#4)]
    (.brkExt r.ctl r.srcB)

/-- DQPUSH: fields and fates of R190. -/
def decDqpush (r : Raw) : Except Nat Instr :=
  .ok (.dqpush r.w r.src7)

/-- DQPUSH_EXT: fields and fates of R190. -/
def decDqpushExt (r : Raw) : Except Nat Instr :=
  firstBad [(4, r.l4Base), (5, r.m5 0x8000#16), (6, r.k6Imm || r.k6Base || r.k6Hi || r.k6Src), (7, r.xf0 != 0#4), (7, r.xf1 != 0#4), (7, r.xf2 != 0#4)]
    (.dqpushExt r.ctl r.srcB)

/-- DQPOP: fields and fates of R190. -/
def decDqpop (r : Raw) : Except Nat Instr :=
  firstBad [(6, r.bi)]
    (.dqpop r.w (reg7 r.bd))

/-- DQPOP_EXT: fields and fates of R190. -/
def decDqpopExt (r : Raw) : Except Nat Instr :=
  firstBad [(4, r.l4Ext), (5, r.m5 0x0000#16), (6, (r.ximm != 0#16)), (7, r.xf0 != 0#4), (7, r.xf1 != 0#4), (7, r.xf2 != 0#4)]
    (.dqpopExt r.ctl r.rd)

/-- SRET: fields and fates of R234. -/
def decSret (r : Raw) : Except Nat Instr :=
  firstBad [(6, r.bi)]
    (.sret r.w)

/-- SRET_EXT: fields and fates of R234. -/
def decSretExt (r : Raw) : Except Nat Instr :=
  firstBad [(4, r.l4Ext), (5, r.m5 0x0000#16), (6, (r.ximm != 0#16)), (7, r.xf0 != 0#4), (7, r.xf1 != 0#4), (7, r.xf2 != 0#4)]
    (.sretExt r.ctl)

/-- LD: fields and fates of R210. -/
def decLd (r : Raw) : Except Nat Instr :=
  firstBad [(6, !r.bi), (8, !pairOk (reg7 r.ba))]
    (.ld r.w (reg7 r.bd) (reg7 r.ba) r.bb)

/-- LD_EXT: fields and fates of R210. -/
def decLdExt (r : Raw) : Except Nat Instr :=
  firstBad [(4, r.l4Base), (5, r.m5 0x8003#16), (6, r.k6Imm || r.k6Base || r.k6Hi || r.k6Disp), (7, r.mod.getLsbD 1), (7, !codeIn 0x007F#16 r.xf0), (7, bif r.mod.getLsbD 0 then r.xf1.getLsbD 3 else r.xf1 != 0#4), (7, !codeIn 0x000F#16 r.xf2), (8, !widthRegOk (r.xf0.extractLsb' 0 3) r.rd), (8, !pairOk r.ra)]
    (.ldExt r.ctl (r.mod.getLsbD 0) (r.xf0.extractLsb' 0 3) (r.xf1.extractLsb' 0 3) (r.xf2.extractLsb' 0 2) r.rd r.ra r.disp)

/-- LDZ: fields and fates of R210. -/
def decLdz (r : Raw) : Except Nat Instr :=
  firstBad [(4, r.l4Ib), (5, r.m5 0x8000#16), (6, r.k6Imm || r.k6Hi || r.k6Disp), (7, !codeIn 0x007F#16 r.xf0), (7, r.xf1 != 0#4), (7, !codeIn 0x000F#16 r.xf2), (8, !widthRegOk (r.xf0.extractLsb' 0 3) r.rd), (8, !(r.xc < 8#8)), (8, !pairOk r.ra)]
    (.ldz r.ctl (r.xf0.extractLsb' 0 3) (r.xf2.extractLsb' 0 2) r.rd (r.xc.extractLsb' 0 3) r.ra r.disp)

/-- ST: fields and fates of R210. -/
def decSt (r : Raw) : Except Nat Instr :=
  firstBad [(6, !r.bi), (8, !pairOk (reg7 r.ba))]
    (.st r.w (reg7 r.bd) (reg7 r.ba) r.bb)

/-- ST_EXT: fields and fates of R210. -/
def decStExt (r : Raw) : Except Nat Instr :=
  firstBad [(4, r.l4Base), (5, r.m5 0x8003#16), (6, r.k6Imm || r.k6Base || r.k6Hi || r.k6Disp), (7, r.mod.getLsbD 1), (7, !codeIn 0x006B#16 r.xf0), (7, bif r.mod.getLsbD 0 then r.xf1.getLsbD 3 else r.xf1 != 0#4), (7, !codeIn 0x000F#16 r.xf2), (8, !widthRegOk (r.xf0.extractLsb' 0 3) r.rd), (8, !pairOk r.ra)]
    (.stExt r.ctl (r.mod.getLsbD 0) (r.xf0.extractLsb' 0 3) (r.xf1.extractLsb' 0 3) (r.xf2.extractLsb' 0 2) r.rd r.ra r.disp)

/-- LDS: fields and fates of R213. -/
def decLds (r : Raw) : Except Nat Instr :=
  firstBad [(6, !r.bi)]
    (.lds r.w (reg7 r.bd) (reg7 r.ba) r.bb)

/-- LDS_EXT: fields and fates of R213. -/
def decLdsExt (r : Raw) : Except Nat Instr :=
  firstBad [(4, r.l4Base), (5, r.m5 0x8000#16), (6, r.k6Imm || r.k6Base || r.k6Hi || r.k6Disp), (7, !codeIn 0x007F#16 r.xf0), (7, r.xf1 != 0#4), (7, r.xf2 != 0#4), (8, !widthRegOk (r.xf0.extractLsb' 0 3) r.rd)]
    (.ldsExt r.ctl (r.xf0.extractLsb' 0 3) r.rd r.ra r.disp)

/-- STS: fields and fates of R213. -/
def decSts (r : Raw) : Except Nat Instr :=
  firstBad [(6, !r.bi)]
    (.sts r.w (reg7 r.bd) (reg7 r.ba) r.bb)

/-- STS_EXT: fields and fates of R213. -/
def decStsExt (r : Raw) : Except Nat Instr :=
  firstBad [(4, r.l4Base), (5, r.m5 0x8000#16), (6, r.k6Imm || r.k6Base || r.k6Hi || r.k6Disp), (7, !codeIn 0x006B#16 r.xf0), (7, r.xf1 != 0#4), (7, r.xf2 != 0#4), (8, !widthRegOk (r.xf0.extractLsb' 0 3) r.rd)]
    (.stsExt r.ctl (r.xf0.extractLsb' 0 3) r.rd r.ra r.disp)

/-- LDC: fields and fates of R212. -/
def decLdc (r : Raw) : Except Nat Instr :=
  firstBad [(6, !r.bi), (8, !pairOk (reg7 r.ba))]
    (.ldc r.w (reg7 r.bd) (reg7 r.ba) r.bb)

/-- LDC_EXT: fields and fates of R212. -/
def decLdcExt (r : Raw) : Except Nat Instr :=
  firstBad [(4, r.l4Base), (5, r.m5 0x8000#16), (6, r.k6Imm || r.k6Base || r.k6Hi || r.k6Disp), (7, !codeIn 0x007F#16 r.xf0), (7, r.xf1 != 0#4), (7, !codeIn 0x000F#16 r.xf2), (8, !widthRegOk (r.xf0.extractLsb' 0 3) r.rd), (8, !pairOk r.ra)]
    (.ldcExt r.ctl (r.xf0.extractLsb' 0 3) (r.xf2.extractLsb' 0 2) r.rd r.ra r.disp)

/-- ATOM_ADD: fields and fates of R218. -/
def decAtomAdd (r : Raw) : Except Nat Instr :=
  firstBad [(4, r.l4Ib), (5, r.m5 0x8003#16), (6, r.k6Imm || (r.xf0 != 5#4 && r.k6Hi) || r.k6Src), (7, r.mod.getLsbD 1), (7, r.xf0 != 0#4 && r.xf0 != 5#4), (7, !codeIn 0x00FF#16 r.xf1), (7, r.xf2 != 0#4), (8, (r.xf0 == 5#4) && !pairOk r.rd), (8, !pairOk r.ra), (8, (r.xf0 == 5#4) && !r.srcB.pairOk)]
    (.atomAdd r.ctl (r.mod.getLsbD 0) (r.xf0 == 5#4) (r.xf1.extractLsb' 0 3) r.rd r.ra r.srcB)

/-- ATOM_MIN: fields and fates of R218. -/
def decAtomMin (r : Raw) : Except Nat Instr :=
  firstBad [(4, r.l4Ib), (5, r.m5 0x8003#16), (6, r.k6Imm || (r.xf0 != 5#4 && r.k6Hi) || r.k6Src), (7, r.mod.getLsbD 1), (7, r.xf0 != 0#4 && r.xf0 != 5#4), (7, !codeIn 0x00FF#16 r.xf1), (7, r.xf2 != 0#4), (8, (r.xf0 == 5#4) && !pairOk r.rd), (8, !pairOk r.ra), (8, (r.xf0 == 5#4) && !r.srcB.pairOk)]
    (.atomMin r.ctl (r.mod.getLsbD 0) (r.xf0 == 5#4) (r.xf1.extractLsb' 0 3) r.rd r.ra r.srcB)

/-- ATOM_MAX: fields and fates of R218. -/
def decAtomMax (r : Raw) : Except Nat Instr :=
  firstBad [(4, r.l4Ib), (5, r.m5 0x8003#16), (6, r.k6Imm || (r.xf0 != 5#4 && r.k6Hi) || r.k6Src), (7, r.mod.getLsbD 1), (7, r.xf0 != 0#4 && r.xf0 != 5#4), (7, !codeIn 0x00FF#16 r.xf1), (7, r.xf2 != 0#4), (8, (r.xf0 == 5#4) && !pairOk r.rd), (8, !pairOk r.ra), (8, (r.xf0 == 5#4) && !r.srcB.pairOk)]
    (.atomMax r.ctl (r.mod.getLsbD 0) (r.xf0 == 5#4) (r.xf1.extractLsb' 0 3) r.rd r.ra r.srcB)

/-- ATOM_UMIN: fields and fates of R218. -/
def decAtomUmin (r : Raw) : Except Nat Instr :=
  firstBad [(4, r.l4Ib), (5, r.m5 0x8003#16), (6, r.k6Imm || (r.xf0 != 5#4 && r.k6Hi) || r.k6Src), (7, r.mod.getLsbD 1), (7, r.xf0 != 0#4 && r.xf0 != 5#4), (7, !codeIn 0x00FF#16 r.xf1), (7, r.xf2 != 0#4), (8, (r.xf0 == 5#4) && !pairOk r.rd), (8, !pairOk r.ra), (8, (r.xf0 == 5#4) && !r.srcB.pairOk)]
    (.atomUmin r.ctl (r.mod.getLsbD 0) (r.xf0 == 5#4) (r.xf1.extractLsb' 0 3) r.rd r.ra r.srcB)

/-- ATOM_UMAX: fields and fates of R218. -/
def decAtomUmax (r : Raw) : Except Nat Instr :=
  firstBad [(4, r.l4Ib), (5, r.m5 0x8003#16), (6, r.k6Imm || (r.xf0 != 5#4 && r.k6Hi) || r.k6Src), (7, r.mod.getLsbD 1), (7, r.xf0 != 0#4 && r.xf0 != 5#4), (7, !codeIn 0x00FF#16 r.xf1), (7, r.xf2 != 0#4), (8, (r.xf0 == 5#4) && !pairOk r.rd), (8, !pairOk r.ra), (8, (r.xf0 == 5#4) && !r.srcB.pairOk)]
    (.atomUmax r.ctl (r.mod.getLsbD 0) (r.xf0 == 5#4) (r.xf1.extractLsb' 0 3) r.rd r.ra r.srcB)

/-- ATOM_AND: fields and fates of R218. -/
def decAtomAnd (r : Raw) : Except Nat Instr :=
  firstBad [(4, r.l4Ib), (5, r.m5 0x8003#16), (6, r.k6Imm || (r.xf0 != 5#4 && r.k6Hi) || r.k6Src), (7, r.mod.getLsbD 1), (7, r.xf0 != 0#4 && r.xf0 != 5#4), (7, !codeIn 0x00FF#16 r.xf1), (7, r.xf2 != 0#4), (8, (r.xf0 == 5#4) && !pairOk r.rd), (8, !pairOk r.ra), (8, (r.xf0 == 5#4) && !r.srcB.pairOk)]
    (.atomAnd r.ctl (r.mod.getLsbD 0) (r.xf0 == 5#4) (r.xf1.extractLsb' 0 3) r.rd r.ra r.srcB)

/-- ATOM_OR: fields and fates of R218. -/
def decAtomOr (r : Raw) : Except Nat Instr :=
  firstBad [(4, r.l4Ib), (5, r.m5 0x8003#16), (6, r.k6Imm || (r.xf0 != 5#4 && r.k6Hi) || r.k6Src), (7, r.mod.getLsbD 1), (7, r.xf0 != 0#4 && r.xf0 != 5#4), (7, !codeIn 0x00FF#16 r.xf1), (7, r.xf2 != 0#4), (8, (r.xf0 == 5#4) && !pairOk r.rd), (8, !pairOk r.ra), (8, (r.xf0 == 5#4) && !r.srcB.pairOk)]
    (.atomOr r.ctl (r.mod.getLsbD 0) (r.xf0 == 5#4) (r.xf1.extractLsb' 0 3) r.rd r.ra r.srcB)

/-- ATOM_XOR: fields and fates of R218. -/
def decAtomXor (r : Raw) : Except Nat Instr :=
  firstBad [(4, r.l4Ib), (5, r.m5 0x8003#16), (6, r.k6Imm || (r.xf0 != 5#4 && r.k6Hi) || r.k6Src), (7, r.mod.getLsbD 1), (7, r.xf0 != 0#4 && r.xf0 != 5#4), (7, !codeIn 0x00FF#16 r.xf1), (7, r.xf2 != 0#4), (8, (r.xf0 == 5#4) && !pairOk r.rd), (8, !pairOk r.ra), (8, (r.xf0 == 5#4) && !r.srcB.pairOk)]
    (.atomXor r.ctl (r.mod.getLsbD 0) (r.xf0 == 5#4) (r.xf1.extractLsb' 0 3) r.rd r.ra r.srcB)

/-- ATOM_EXCH: fields and fates of R218. -/
def decAtomExch (r : Raw) : Except Nat Instr :=
  firstBad [(4, r.l4Ib), (5, r.m5 0x8003#16), (6, r.k6Imm || (r.xf0 != 5#4 && r.k6Hi) || r.k6Src), (7, r.mod.getLsbD 1), (7, r.xf0 != 0#4 && r.xf0 != 5#4), (7, !codeIn 0x00FF#16 r.xf1), (7, r.xf2 != 0#4), (8, (r.xf0 == 5#4) && !pairOk r.rd), (8, !pairOk r.ra), (8, (r.xf0 == 5#4) && !r.srcB.pairOk)]
    (.atomExch r.ctl (r.mod.getLsbD 0) (r.xf0 == 5#4) (r.xf1.extractLsb' 0 3) r.rd r.ra r.srcB)

/-- ATOM_CAS: fields and fates of R218. -/
def decAtomCas (r : Raw) : Except Nat Instr :=
  firstBad [(4, r.l4Ib), (5, r.m5 0x8003#16), (6, r.k6Imm || (r.xf0 != 5#4 && r.k6Hi) || r.k6Src), (7, r.mod.getLsbD 1), (7, r.xf0 != 0#4 && r.xf0 != 5#4), (7, !codeIn 0x00FF#16 r.xf1), (7, r.xf2 != 0#4), (8, (r.xf0 == 5#4) && !pairOk r.rd), (8, !pairOk r.ra), (8, (r.xf0 == 5#4) && !r.srcB.pairOk), (8, (r.xf0 == 5#4) && !pairOk r.xc)]
    (.atomCas r.ctl (r.mod.getLsbD 0) (r.xf0 == 5#4) (r.xf1.extractLsb' 0 3) r.rd r.ra r.srcB r.xc)

/-- ATOM_FADD: fields and fates of R218. -/
def decAtomFadd (r : Raw) : Except Nat Instr :=
  firstBad [(4, r.l4Ib), (5, r.m5 0x8003#16), (6, r.k6Imm || r.k6Hi || r.k6Src), (7, r.mod.getLsbD 1), (7, r.xf0 != 0#4), (7, !codeIn 0x00FF#16 r.xf1), (7, r.xf2 != 0#4), (8, !pairOk r.ra)]
    (.atomFadd r.ctl (r.mod.getLsbD 0) (r.xf1.extractLsb' 0 3) r.rd r.ra r.srcB)

/-- RED_ADD: fields and fates of R218. -/
def decRedAdd (r : Raw) : Except Nat Instr :=
  firstBad [(4, r.l4Ib), (5, r.m5 0x8003#16), (6, r.k6Imm || (r.xf0 != 5#4 && r.k6Hi) || r.k6Src), (7, r.xf0 != 0#4 && r.xf0 != 5#4), (7, !codeIn 0x00FF#16 r.xf1), (7, r.xf2 != 0#4), (7, r.mod.extractLsb' 0 2 != 0#2), (8, !pairOk r.ra), (8, (r.xf0 == 5#4) && !r.srcB.pairOk)]
    (.redAdd r.ctl (r.xf0 == 5#4) (r.xf1.extractLsb' 0 3) r.ra r.srcB)

/-- RED_MIN: fields and fates of R218. -/
def decRedMin (r : Raw) : Except Nat Instr :=
  firstBad [(4, r.l4Ib), (5, r.m5 0x8003#16), (6, r.k6Imm || (r.xf0 != 5#4 && r.k6Hi) || r.k6Src), (7, r.xf0 != 0#4 && r.xf0 != 5#4), (7, !codeIn 0x00FF#16 r.xf1), (7, r.xf2 != 0#4), (7, r.mod.extractLsb' 0 2 != 0#2), (8, !pairOk r.ra), (8, (r.xf0 == 5#4) && !r.srcB.pairOk)]
    (.redMin r.ctl (r.xf0 == 5#4) (r.xf1.extractLsb' 0 3) r.ra r.srcB)

/-- RED_MAX: fields and fates of R218. -/
def decRedMax (r : Raw) : Except Nat Instr :=
  firstBad [(4, r.l4Ib), (5, r.m5 0x8003#16), (6, r.k6Imm || (r.xf0 != 5#4 && r.k6Hi) || r.k6Src), (7, r.xf0 != 0#4 && r.xf0 != 5#4), (7, !codeIn 0x00FF#16 r.xf1), (7, r.xf2 != 0#4), (7, r.mod.extractLsb' 0 2 != 0#2), (8, !pairOk r.ra), (8, (r.xf0 == 5#4) && !r.srcB.pairOk)]
    (.redMax r.ctl (r.xf0 == 5#4) (r.xf1.extractLsb' 0 3) r.ra r.srcB)

/-- RED_UMIN: fields and fates of R218. -/
def decRedUmin (r : Raw) : Except Nat Instr :=
  firstBad [(4, r.l4Ib), (5, r.m5 0x8003#16), (6, r.k6Imm || (r.xf0 != 5#4 && r.k6Hi) || r.k6Src), (7, r.xf0 != 0#4 && r.xf0 != 5#4), (7, !codeIn 0x00FF#16 r.xf1), (7, r.xf2 != 0#4), (7, r.mod.extractLsb' 0 2 != 0#2), (8, !pairOk r.ra), (8, (r.xf0 == 5#4) && !r.srcB.pairOk)]
    (.redUmin r.ctl (r.xf0 == 5#4) (r.xf1.extractLsb' 0 3) r.ra r.srcB)

/-- RED_UMAX: fields and fates of R218. -/
def decRedUmax (r : Raw) : Except Nat Instr :=
  firstBad [(4, r.l4Ib), (5, r.m5 0x8003#16), (6, r.k6Imm || (r.xf0 != 5#4 && r.k6Hi) || r.k6Src), (7, r.xf0 != 0#4 && r.xf0 != 5#4), (7, !codeIn 0x00FF#16 r.xf1), (7, r.xf2 != 0#4), (7, r.mod.extractLsb' 0 2 != 0#2), (8, !pairOk r.ra), (8, (r.xf0 == 5#4) && !r.srcB.pairOk)]
    (.redUmax r.ctl (r.xf0 == 5#4) (r.xf1.extractLsb' 0 3) r.ra r.srcB)

/-- RED_AND: fields and fates of R218. -/
def decRedAnd (r : Raw) : Except Nat Instr :=
  firstBad [(4, r.l4Ib), (5, r.m5 0x8003#16), (6, r.k6Imm || (r.xf0 != 5#4 && r.k6Hi) || r.k6Src), (7, r.xf0 != 0#4 && r.xf0 != 5#4), (7, !codeIn 0x00FF#16 r.xf1), (7, r.xf2 != 0#4), (7, r.mod.extractLsb' 0 2 != 0#2), (8, !pairOk r.ra), (8, (r.xf0 == 5#4) && !r.srcB.pairOk)]
    (.redAnd r.ctl (r.xf0 == 5#4) (r.xf1.extractLsb' 0 3) r.ra r.srcB)

/-- RED_OR: fields and fates of R218. -/
def decRedOr (r : Raw) : Except Nat Instr :=
  firstBad [(4, r.l4Ib), (5, r.m5 0x8003#16), (6, r.k6Imm || (r.xf0 != 5#4 && r.k6Hi) || r.k6Src), (7, r.xf0 != 0#4 && r.xf0 != 5#4), (7, !codeIn 0x00FF#16 r.xf1), (7, r.xf2 != 0#4), (7, r.mod.extractLsb' 0 2 != 0#2), (8, !pairOk r.ra), (8, (r.xf0 == 5#4) && !r.srcB.pairOk)]
    (.redOr r.ctl (r.xf0 == 5#4) (r.xf1.extractLsb' 0 3) r.ra r.srcB)

/-- RED_XOR: fields and fates of R218. -/
def decRedXor (r : Raw) : Except Nat Instr :=
  firstBad [(4, r.l4Ib), (5, r.m5 0x8003#16), (6, r.k6Imm || (r.xf0 != 5#4 && r.k6Hi) || r.k6Src), (7, r.xf0 != 0#4 && r.xf0 != 5#4), (7, !codeIn 0x00FF#16 r.xf1), (7, r.xf2 != 0#4), (7, r.mod.extractLsb' 0 2 != 0#2), (8, !pairOk r.ra), (8, (r.xf0 == 5#4) && !r.srcB.pairOk)]
    (.redXor r.ctl (r.xf0 == 5#4) (r.xf1.extractLsb' 0 3) r.ra r.srcB)

/-- RED_FADD: fields and fates of R218. -/
def decRedFadd (r : Raw) : Except Nat Instr :=
  firstBad [(4, r.l4Ib), (5, r.m5 0x8003#16), (6, r.k6Imm || r.k6Hi || r.k6Src), (7, r.xf0 != 0#4), (7, !codeIn 0x00FF#16 r.xf1), (7, r.xf2 != 0#4), (7, r.mod.extractLsb' 0 2 != 0#2), (8, !pairOk r.ra)]
    (.redFadd r.ctl (r.xf1.extractLsb' 0 3) r.ra r.srcB)

/-- FENCE: fields and fates of R220. -/
def decFence (r : Raw) : Except Nat Instr :=
  firstBad [(4, r.l4Ext), (5, r.m5 0x0000#16), (7, r.xf0 != 0#4), (7, !codeIn 0x00FF#16 r.xf1), (7, r.xf2 != 0#4)]
    (.fence r.ctl (r.xf1.extractLsb' 0 3))

/-- PREF: fields and fates of R215. -/
def decPref (r : Raw) : Except Nat Instr :=
  firstBad [(4, r.l4Ib), (5, r.m5 0x8000#16), (6, r.k6Imm || r.k6Hi || r.k6Disp), (7, !codeIn 0x0007#16 r.xf0), (7, r.xf1 != 0#4), (7, !codeIn 0x000F#16 r.xf2), (8, !pairOk r.ra)]
    (.pref r.ctl (r.xf0.extractLsb' 0 2) (r.xf2.extractLsb' 0 2) r.ra r.disp)

/-- SPRES: fields and fates of R216. -/
def decSpres (r : Raw) : Except Nat Instr :=
  firstBad [(4, r.l4Ib), (5, r.m5 0x8000#16), (6, r.k6Imm || r.k6Hi || r.k6Disp), (7, r.xf0 != 0#4), (7, r.xf1 != 0#4), (7, r.xf2 != 0#4), (8, !(r.rd < 8#8))]
    (.spres r.ctl (r.rd.extractLsb' 0 3) r.ra r.disp)

/-- PGREQ: fields and fates of R214. -/
def decPgreq (r : Raw) : Except Nat Instr :=
  firstBad [(4, r.l4Ib), (5, r.m5 0x8001#16), (6, r.k6Imm || r.k6Hi || r.k6Disp), (7, r.xf0 != 0#4), (7, r.xf1 != 0#4), (7, r.xf2 != 0#4), (8, !(r.rd < 8#8)), (8, !pairOk r.ra)]
    (.pgreq r.ctl (r.mod.getLsbD 0) (r.rd.extractLsb' 0 3) r.ra r.disp)

/-- BAR_ARR: fields and fates of R225. -/
def decBarArr (r : Raw) : Except Nat Instr :=
  firstBad [(4, r.l4Ext), (5, r.m5 0x0000#16), (6, (r.ximm != 0#16)), (7, r.xf0 != 0#4), (7, r.xf1 != 0#4), (7, r.xf2 != 0#4), (8, !(r.ra < 16#8))]
    (.barArr r.ctl r.rd (r.ra.extractLsb' 0 4))

/-- BAR_WAIT: fields and fates of R225. -/
def decBarWait (r : Raw) : Except Nat Instr :=
  firstBad [(4, r.l4Ib), (5, r.m5 0x8000#16), (6, r.k6Imm || r.k6Hi || r.k6Src), (7, r.xf0 != 0#4), (7, r.xf1 != 0#4), (7, r.xf2 != 0#4), (8, !(r.ra < 16#8))]
    (.barWait r.ctl (r.ra.extractLsb' 0 4) r.srcB)

/-- BAR_SYNC: fields and fates of R225. -/
def decBarSync (r : Raw) : Except Nat Instr :=
  firstBad [(4, r.l4Ext), (5, r.m5 0x0000#16), (6, (r.ximm != 0#16)), (7, r.xf0 != 0#4), (7, r.xf1 != 0#4), (7, r.xf2 != 0#4), (8, !(r.ra < 16#8))]
    (.barSync r.ctl r.rd (r.ra.extractLsb' 0 4))

/-- BAR_EXPECT: fields and fates of R225. -/
def decBarExpect (r : Raw) : Except Nat Instr :=
  firstBad [(4, r.l4Ib), (5, r.m5 0x8000#16), (6, r.k6Imm || r.k6Hi || r.k6Src), (7, r.xf0 != 0#4), (7, r.xf1 != 0#4), (7, r.xf2 != 0#4), (8, !(r.ra < 16#8))]
    (.barExpect r.ctl (r.ra.extractLsb' 0 4) r.srcB)

/-- BAR_INIT: fields and fates of R223. -/
def decBarInit (r : Raw) : Except Nat Instr :=
  firstBad [(4, r.l4Ib), (5, r.m5 0x8000#16), (6, r.k6Imm || r.k6Hi || r.k6Src), (7, r.xf0 != 0#4), (7, r.xf1 != 0#4), (7, r.xf2 != 0#4), (8, !(r.ra < 16#8))]
    (.barInit r.ctl (r.ra.extractLsb' 0 4) r.srcB)

/-- CVSET: fields and fates of R226. -/
def decCvset (r : Raw) : Except Nat Instr :=
  firstBad [(4, r.l4Ib), (5, r.m5 0x807F#16), (6, r.k6Imm || r.k6Hi), (7, r.xf0 != 0#4), (7, r.xf1 != 0#4), (7, r.xf2 != 0#4), (8, !(r.ra < 16#8))]
    (.cvset r.ctl (r.mod.extractLsb' 0 7) (r.ra.extractLsb' 0 4) r.srcB)

/-- RSVQ_FREE: fields and fates of R342. -/
def decRsvqFree (r : Raw) : Except Nat Instr :=
  firstBad [(4, r.l4Ext), (5, r.m5 0x000F#16), (6, (r.ximm != 0#16)), (7, r.xf0 != 0#4), (7, r.xf1 != 0#4), (7, r.xf2 != 0#4), (7, (r.mod.extractLsb' 0 4) != 0#4 && (r.mod.extractLsb' 0 4) < 8#4), (8, !pairOk r.rd)]
    (.rsvqFree r.ctl (r.mod.extractLsb' 0 4) r.rd)

/-- RSVQ_PEND: fields and fates of R342. -/
def decRsvqPend (r : Raw) : Except Nat Instr :=
  firstBad [(4, r.l4Ext), (5, r.m5 0x000F#16), (6, (r.ximm != 0#16)), (7, r.xf0 != 0#4), (7, r.xf1 != 0#4), (7, r.xf2 != 0#4), (7, (r.mod.extractLsb' 0 4) != 0#4 && (r.mod.extractLsb' 0 4) < 8#4), (8, !pairOk r.rd)]
    (.rsvqPend r.ctl (r.mod.extractLsb' 0 4) r.rd)

/-- RSVQ_NOMINAL: fields and fates of R342. -/
def decRsvqNominal (r : Raw) : Except Nat Instr :=
  firstBad [(4, r.l4Ext), (5, r.m5 0x000F#16), (6, (r.ximm != 0#16)), (7, r.xf0 != 0#4), (7, r.xf1 != 0#4), (7, r.xf2 != 0#4), (7, (r.mod.extractLsb' 0 4) != 0#4 && (r.mod.extractLsb' 0 4) < 8#4), (8, !pairOk r.rd)]
    (.rsvqNominal r.ctl (r.mod.extractLsb' 0 4) r.rd)

/-- RSVQ_SURR: fields and fates of R342. -/
def decRsvqSurr (r : Raw) : Except Nat Instr :=
  firstBad [(4, r.l4Ext), (5, r.m5 0x000F#16), (6, (r.ximm != 0#16)), (7, r.xf0 != 0#4), (7, r.xf1 != 0#4), (7, r.xf2 != 0#4), (7, (r.mod.extractLsb' 0 4) != 0#4 && (r.mod.extractLsb' 0 4) < 8#4), (8, !pairOk r.rd)]
    (.rsvqSurr r.ctl (r.mod.extractLsb' 0 4) r.rd)

/-- BLKSZ: fields and fates of R343. -/
def decBlksz (r : Raw) : Except Nat Instr :=
  firstBad [(4, r.l4Ib), (5, r.m5 0x8001#16), (6, r.k6Imm || r.k6Hi || r.k6Disp), (7, r.xf0 != 0#4), (7, r.xf1 != 0#4), (7, r.xf2 != 0#4), (8, !pairOk r.ra)]
    (.blksz r.ctl (r.mod.getLsbD 0) r.rd r.ra r.disp)

/-- BLKFILL: fields and fates of R344. -/
def decBlkfill (r : Raw) : Except Nat Instr :=
  firstBad [(4, r.l4Ib), (5, r.m5 0x8000#16), (6, r.k6Imm || r.k6Hi || r.k6Disp), (7, r.xf0 != 0#4), (7, r.xf1 != 0#4), (7, r.xf2 != 0#4), (8, !pairOk r.ra), (8, (r.xc != 255#8) && !pairOk r.xc)]
    (.blkfill r.ctl r.ra r.disp r.xc)

/-- BALQ: fields and fates of R347. -/
def decBalq (r : Raw) : Except Nat Instr :=
  firstBad [(4, r.l4Ext), (5, r.m5 0x0000#16), (6, (r.ximm != 0#16)), (7, r.xf0 != 0#4), (7, r.xf1 != 0#4), (7, r.xf2 != 0#4), (8, !pairOk r.rd)]
    (.balq r.ctl r.rd)

/-- PGSURR: fields and fates of R345. -/
def decPgsurr (r : Raw) : Except Nat Instr :=
  firstBad [(4, r.l4Ib), (5, r.m5 0x8000#16), (6, r.k6Imm || r.k6Hi || r.k6Disp), (7, r.xf0 != 0#4), (7, r.xf1 != 0#4), (7, r.xf2 != 0#4), (8, !pairOk r.ra)]
    (.pgsurr r.ctl r.ra r.disp)

/-- PGRECL: fields and fates of R346. -/
def decPgrecl (r : Raw) : Except Nat Instr :=
  firstBad [(4, r.l4Ib), (5, r.m5 0x8000#16), (6, r.k6Imm || r.k6Hi || r.k6Disp), (7, r.xf0 != 0#4), (7, r.xf1 != 0#4), (7, r.xf2 != 0#4), (8, !pairOk r.ra)]
    (.pgrecl r.ctl r.ra r.disp)

/-- WLOAD: fields and fates of R292. -/
def decWload (r : Raw) : Except Nat Instr :=
  firstBad [(4, r.l4Ib), (5, r.m5 0x800F#16), (6, r.k6Imm || r.k6Hi), (7, !codeIn 0x00BE#16 r.xf0), (7, r.xf1 != 0#4), (7, r.xf2 != 0#4), (7, (r.mod.extractLsb' 0 2) == 3#2), (7, (r.mod.extractLsb' 2 2) != 0#2 && ((r.mod.extractLsb' 0 2) != 0#2 || r.xf0 == 7#4)), (8, !pairOk r.ra), (8, (r.xc != 255#8) && !pairOk r.xc)]
    (.wload r.ctl (r.mod.extractLsb' 0 2) (r.mod.extractLsb' 2 2) r.xf0 r.ra r.srcB r.xc)

/-- MMA: fields and fates of R294. -/
def decMma (r : Raw) : Except Nat Instr :=
  firstBad [(4, r.l4Ext), (5, r.m5 0x0FFF#16), (6, (r.ximm != 0#16)), (7, !codeIn 0x003E#16 r.xf0), (7, r.xf1 != 0#4), (7, r.xf2 != 0#4), (7, (r.mod.extractLsb' 9 2) == 3#2), (7, (r.xf0 ≤ 2#4) && (r.mod.extractLsb' 9 2) == 2#2), (7, !(r.xf0 ≤ 2#4) && (r.mod.extractLsb' 9 2) == 0#2), (7, (r.mod.getLsbD 11) && (r.mod.extractLsb' 9 2) != 2#2), (8, !(r.rd < 8#8)), (8, !(r.xb < 16#8)), (8, r.ra.toNat % 4 != 0)]
    (.mma r.ctl (r.mod.extractLsb' 0 7) (r.mod.getLsbD 7) (r.mod.getLsbD 8) (r.mod.extractLsb' 9 2) (r.mod.getLsbD 11) r.xf0 (r.rd.extractLsb' 0 3) r.ra (r.xb.extractLsb' 0 4))

/-- MMAM: fields and fates of R295. -/
def decMmam (r : Raw) : Except Nat Instr :=
  firstBad [(4, r.l4Lit), (5, r.m5 0x17FF#16), (6, r.k6Imm || r.k6Hi), (7, !codeIn 0x003E#16 r.xf0), (7, r.xf1 != 0#4), (7, r.xf2 != 0#4), (7, (r.xf0 ≤ 2#4) && ((r.mod.extractLsb' 9 2) == 2#2 || (r.mod.extractLsb' 9 2) == 3#2)), (7, !(r.xf0 ≤ 2#4) && (r.mod.extractLsb' 9 2) == 0#2), (8, !(r.rd < 8#8)), (8, !(r.mod.getLsbD 12) && !pairOk r.ra), (8, !(r.xb < 16#8))]
    (.mmam r.ctl (r.mod.extractLsb' 0 7) (r.mod.getLsbD 7) (r.mod.getLsbD 8) (r.mod.extractLsb' 9 2) (r.mod.getLsbD 12) r.xf0 (r.rd.extractLsb' 0 3) r.ra (r.xb.extractLsb' 0 4) r.disp)

/-- ACLR: fields and fates of R299. -/
def decAclr (r : Raw) : Except Nat Instr :=
  firstBad [(4, r.l4Ext), (5, r.m5 0x0000#16), (6, (r.ximm != 0#16)), (7, r.xf0 != 0#4), (7, r.xf1 != 0#4), (7, r.xf2 != 0#4), (8, !(r.rd < 8#8))]
    (.aclr r.ctl (r.rd.extractLsb' 0 3))

/-- ARD: fields and fates of R299. -/
def decArd (r : Raw) : Except Nat Instr :=
  firstBad [(4, r.l4Ib), (5, r.m5 0x8007#16), (6, r.k6Imm || r.k6Hi || r.k6Src), (7, r.xf0 != 0#4), (7, r.xf1 != 0#4), (7, r.xf2 != 0#4), (8, !(r.ra < 8#8)), (8, r.rd.toNat % 8 != 0)]
    (.ard r.ctl (r.mod.extractLsb' 0 3) r.rd (r.ra.extractLsb' 0 3) r.srcB)

/-- AWR: fields and fates of R299. -/
def decAwr (r : Raw) : Except Nat Instr :=
  firstBad [(4, r.l4Ib), (5, r.m5 0x8007#16), (6, r.k6Imm || r.k6Hi || r.k6Src), (7, r.xf0 != 0#4), (7, r.xf1 != 0#4), (7, r.xf2 != 0#4), (8, !(r.rd < 8#8)), (8, r.ra.toNat % 8 != 0)]
    (.awr r.ctl (r.mod.extractLsb' 0 3) (r.rd.extractLsb' 0 3) r.ra r.srcB)

/-- ADRAIN: fields and fates of R301. -/
def decAdrain (r : Raw) : Except Nat Instr :=
  firstBad [(4, r.l4Ib), (5, r.m5 0x8FFB#16), (6, r.k6Imm || r.k6Hi), (7, !codeIn 0x003F#16 r.xf0), (7, r.xf1 != 0#4), (7, r.xf2 != 0#4), (7, (r.mod.extractLsb' 4 8) == 0xFF#8), (8, !(r.rd < 8#8)), (8, !(r.mod.getLsbD 3) && !pairOk r.ra)]
    (.adrain r.ctl (r.mod.getLsbD 0) (r.mod.getLsbD 1) (r.mod.getLsbD 3) (r.mod.extractLsb' 4 8) r.xf0 (r.rd.extractLsb' 0 3) r.ra r.srcB r.xc)

/-- WREL: fields and fates of R303. -/
def decWrel (r : Raw) : Except Nat Instr :=
  firstBad [(4, r.l4Ext), (5, r.m5 0x0000#16), (6, (r.ximm != 0#16)), (7, r.xf0 != 0#4), (7, r.xf1 != 0#4), (7, r.xf2 != 0#4)]
    (.wrel r.ctl)

/-- MSTAT: fields and fates of R303. -/
def decMstat (r : Raw) : Except Nat Instr :=
  firstBad [(4, r.l4Ext), (5, r.m5 0x0001#16), (6, (r.ximm != 0#16)), (7, r.xf0 != 0#4), (7, r.xf1 != 0#4), (7, r.xf2 != 0#4)]
    (.mstat r.ctl (r.mod.getLsbD 0) r.rd)

/-- XCFG: fields and fates of R315. -/
def decXcfg (r : Raw) : Except Nat Instr :=
  firstBad [(4, r.l4Ib), (5, r.m5 0x800F#16), (6, r.k6Imm || r.k6Hi), (7, !codeIn 0x0007#16 r.xf0), (7, r.xf1 != 0#4), (7, r.xf2 != 0#4), (7, (r.mod.extractLsb' 0 4) < 2#4 || 8#4 < (r.mod.extractLsb' 0 4)), (8, !(r.rd < 8#8))]
    (.xcfg r.ctl (r.mod.extractLsb' 0 4) (r.xf0.extractLsb' 0 2) (r.rd.extractLsb' 0 3) r.ra r.srcB r.xc)

/-- XPUSH: fields and fates of R316. -/
def decXpush (r : Raw) : Except Nat Instr :=
  firstBad [(4, r.l4Ext), (5, r.m5 0x0000#16), (7, r.xf0 != 0#4), (7, r.xf1 != 0#4), (7, r.xf2 != 0#4), (8, !(r.rd < 8#8)), (8, !(r.xc < 8#8))]
    (.xpush r.ctl (r.rd.extractLsb' 0 3) r.ra (r.xc.extractLsb' 0 3))

/-- XEST: fields and fates of R321. -/
def decXest (r : Raw) : Except Nat Instr :=
  firstBad [(4, r.l4Ext), (5, r.m5 0x0000#16), (7, r.xf0 != 0#4), (7, r.xf1 != 0#4), (7, r.xf2 != 0#4), (8, !pairOk r.rd), (8, !(r.ra < 8#8)), (8, !(r.xc < 8#8))]
    (.xest r.ctl r.rd (r.ra.extractLsb' 0 3) (r.xc.extractLsb' 0 3))

/-- XCLR: fields and fates of R315. -/
def decXclr (r : Raw) : Except Nat Instr :=
  firstBad [(4, r.l4Ext), (5, r.m5 0x0000#16), (7, r.xf0 != 0#4), (7, r.xf1 != 0#4), (7, r.xf2 != 0#4), (8, !(r.rd < 8#8))]
    (.xclr r.ctl (r.rd.extractLsb' 0 3))

/-- XSTAT: fields and fates of R323. -/
def decXstat (r : Raw) : Except Nat Instr :=
  firstBad [(4, r.l4Ext), (5, r.m5 0x0000#16), (7, r.xf0 != 0#4), (7, r.xf1 != 0#4), (7, r.xf2 != 0#4), (8, !(r.ra < 8#8))]
    (.xstat r.ctl r.rd (r.ra.extractLsb' 0 3))

/-- TCOPY: fields and fates of R264. -/
def decTcopy (r : Raw) : Except Nat Instr :=
  firstBad [(4, r.l4Ext), (5, r.m5 0x000F#16), (6, (r.ximm != 0#16)), (7, r.xf0 != 0#4), (7, !tcopyScopeOk (r.mod.extractLsb' 2 2) r.xf1), (7, r.xf2 != 0#4), (7, (r.mod.extractLsb' 0 2) == 3#2), (7, (r.mod.extractLsb' 2 2) == 3#2), (8, ((r.mod.extractLsb' 0 2) == 2#2) && !pairOk r.rd), (8, !pairOk r.ra), (8, !counterRegOk (r.mod.extractLsb' 2 2) r.xc)]
    (.tcopy r.ctl (r.mod.extractLsb' 0 2) (r.mod.extractLsb' 2 2) (r.xf1.extractLsb' 0 3) r.rd r.ra r.xb r.xc)

/-- CHAIN: fields and fates of R275. -/
def decChain (r : Raw) : Except Nat Instr :=
  firstBad [(4, r.l4Ext), (5, r.m5 0x000C#16), (7, r.xf0 != 0#4), (7, !tcopyScopeOk (r.mod.extractLsb' 2 2) r.xf1), (7, r.xf2 != 0#4), (7, r.mod.getLsbD 3), (8, !counterRegOk (r.mod.extractLsb' 2 2) r.xc)]
    (.chain r.ctl (r.mod.extractLsb' 2 1) (r.xf1.extractLsb' 0 3) r.rd r.ra r.xc)

/-- CTWAIT: fields and fates of R270. -/
def decCtwait (r : Raw) : Except Nat Instr :=
  firstBad [(4, r.l4Ib), (5, r.m5 0x8004#16), (6, r.k6Imm), (7, r.xf0 != 0#4), (7, bif r.mod.getLsbD 2 then r.xf1 != 2#4 else !codeIn 0x00FC#16 r.xf1), (7, r.xf2 != 0#4), (8, !pairOk r.rd), (8, !(r.mod.getLsbD 2) && !pairOk r.ra), (8, !r.srcB.pairOk)]
    (.ctwait r.ctl (r.mod.getLsbD 2) (r.xf1.extractLsb' 0 3) r.rd r.ra r.srcB)

/-- CHKILL: fields and fates of R277. -/
def decChkill (r : Raw) : Except Nat Instr :=
  firstBad [(4, r.l4Ext), (5, r.m5 0x0000#16), (6, (r.ximm != 0#16)), (7, r.xf0 != 0#4), (7, r.xf1 != 0#4), (7, r.xf2 != 0#4)]
    (.chkill r.ctl r.ra)

/-- SPAWN: fields and fates of R389. -/
def decSpawn (r : Raw) : Except Nat Instr :=
  firstBad [(4, r.l4Lit), (5, r.m5 0x0000#16), (6, r.k6Imm || r.k6Hi), (7, r.xf0 != 0#4), (7, r.xf1 != 0#4), (7, r.xf2 != 0#4), (8, !pairOk r.ra)]
    (.spawn r.ctl r.rd r.ra r.xb r.xc r.disp)

/-- ENQN: fields and fates of R390. -/
def decEnqn (r : Raw) : Except Nat Instr :=
  firstBad [(4, r.l4Ib), (5, r.m5 0x8000#16), (6, r.k6Imm || r.k6Hi), (7, r.xf0 != 0#4), (7, r.xf1 != 0#4), (7, r.xf2 != 0#4), (8, !pairOk r.ra)]
    (.enqn r.ctl r.ra r.srcB)

/-- JDEC: fields and fates of R391. -/
def decJdec (r : Raw) : Except Nat Instr :=
  firstBad [(4, r.l4Ib), (5, r.m5 0x8000#16), (6, r.k6Imm || r.k6Hi), (7, r.xf0 != 0#4), (7, r.xf1 != 0#4), (7, r.xf2 != 0#4)]
    (.jdec r.ctl r.rd r.ra r.srcB)

/-- SETTLE: fields and fates of R392. -/
def decSettle (r : Raw) : Except Nat Instr :=
  firstBad [(4, r.l4Ext), (5, r.m5 0x0000#16), (6, (r.ximm != 0#16)), (7, r.xf0 != 0#4), (7, r.xf1 != 0#4), (7, r.xf2 != 0#4)]
    (.settle r.ctl)

/-- TASKQ_PRIO: fields and fates of R393. -/
def decTaskqPrio (r : Raw) : Except Nat Instr :=
  firstBad [(4, r.l4Ib), (5, r.m5 0x8000#16), (6, r.k6Imm || r.k6Hi), (7, r.xf1 != 0#4), (7, r.xf2 != 0#4)]
    (.taskqPrio r.ctl r.rd r.srcB)

/-- TASKQ_RESTART: fields and fates of R393. -/
def decTaskqRestart (r : Raw) : Except Nat Instr :=
  firstBad [(4, r.l4Ib), (5, r.m5 0x8000#16), (6, r.k6Imm || r.k6Hi), (7, r.xf1 != 0#4), (7, r.xf2 != 0#4)]
    (.taskqRestart r.ctl r.rd r.srcB)

/-- TASKQ_SETTLED: fields and fates of R393. -/
def decTaskqSettled (r : Raw) : Except Nat Instr :=
  firstBad [(4, r.l4Ib), (5, r.m5 0x8000#16), (6, r.k6Imm || r.k6Hi), (7, r.xf1 != 0#4), (7, r.xf2 != 0#4)]
    (.taskqSettled r.ctl r.rd r.srcB)

/-- TASKQ_VLINES: fields and fates of R393. -/
def decTaskqVlines (r : Raw) : Except Nat Instr :=
  firstBad [(4, r.l4Ib), (5, r.m5 0x8000#16), (6, r.k6Imm || r.k6Hi), (7, r.xf1 != 0#4), (7, r.xf2 != 0#4)]
    (.taskqVlines r.ctl r.rd r.srcB)

/-- TASKQ_BQUEUE: fields and fates of R393. -/
def decTaskqBqueue (r : Raw) : Except Nat Instr :=
  firstBad [(4, r.l4Ib), (5, r.m5 0x8000#16), (6, r.k6Imm || r.k6Hi), (7, r.xf1 != 0#4), (7, r.xf2 != 0#4)]
    (.taskqBqueue r.ctl r.rd r.srcB)

/-- TASKQ_NQUEUE: fields and fates of R393. -/
def decTaskqNqueue (r : Raw) : Except Nat Instr :=
  firstBad [(4, r.l4Ib), (5, r.m5 0x8000#16), (6, r.k6Imm || r.k6Hi), (7, r.xf1 != 0#4), (7, r.xf2 != 0#4)]
    (.taskqNqueue r.ctl r.rd r.srcB)

/-- TASKQ_CURSOR: fields and fates of R393. -/
def decTaskqCursor (r : Raw) : Except Nat Instr :=
  firstBad [(4, r.l4Ib), (5, r.m5 0x8000#16), (6, r.k6Imm || r.k6Hi), (7, r.xf1 != 0#4), (7, r.xf2 != 0#4)]
    (.taskqCursor r.ctl r.rd r.srcB)

/-- STKHO: fields and fates of R253. -/
def decStkho (r : Raw) : Except Nat Instr :=
  firstBad [(4, r.l4Ib), (5, r.m5 0x8001#16), (6, r.k6Imm || r.k6Hi), (7, r.xf0 != 0#4), (7, !codeIn 0x00FC#16 r.xf1), (7, r.xf2 != 0#4), (8, !pairOk r.ra)]
    (.stkho r.ctl (r.mod.extractLsb' 0 1) (r.xf1.extractLsb' 0 3) r.ra r.srcB)

/-- TLBI_PAGE: fields and fates of R254. -/
def decTlbiPage (r : Raw) : Except Nat Instr :=
  firstBad [(4, r.l4Ib), (5, r.m5 0x8000#16), (6, r.k6Imm || r.k6Hi), (7, !codeIn 0x0074#16 r.xf1), (7, r.xf2 != 0#4), (8, !pairOk r.ra)]
    (.tlbiPage r.ctl (r.xf1.extractLsb' 0 3) r.ra r.srcB)

/-- TLBI_VDEV: fields and fates of R254. -/
def decTlbiVdev (r : Raw) : Except Nat Instr :=
  firstBad [(4, r.l4Ib), (5, r.m5 0x8000#16), (6, r.k6Imm || r.k6Hi), (7, !codeIn 0x0074#16 r.xf1), (7, r.xf2 != 0#4)]
    (.tlbiVdev r.ctl (r.xf1.extractLsb' 0 3) r.srcB)

/-- TLBI_VDEVN: fields and fates of R254. -/
def decTlbiVdevn (r : Raw) : Except Nat Instr :=
  firstBad [(4, r.l4Ib), (5, r.m5 0x8000#16), (6, r.k6Imm || r.k6Hi), (7, !codeIn 0x0074#16 r.xf1), (7, r.xf2 != 0#4)]
    (.tlbiVdevn r.ctl (r.xf1.extractLsb' 0 3) r.srcB)

/-- TLBI_ALL: fields and fates of R254. -/
def decTlbiAll (r : Raw) : Except Nat Instr :=
  firstBad [(4, r.l4Ib), (5, r.m5 0x8000#16), (6, r.k6Imm || r.k6Hi), (7, !codeIn 0x0074#16 r.xf1), (7, r.xf2 != 0#4)]
    (.tlbiAll r.ctl (r.xf1.extractLsb' 0 3) r.srcB)

/-- CFLUSH_CLEAN: fields and fates of R255. -/
def decCflushClean (r : Raw) : Except Nat Instr :=
  firstBad [(4, r.l4Ib), (5, r.m5 0x8000#16), (6, r.k6Imm || r.k6Hi), (7, !codeIn 0x0074#16 r.xf1), (7, r.xf2 != 0#4), (8, !pairOk r.ra)]
    (.cflushClean r.ctl (r.xf1.extractLsb' 0 3) r.ra r.srcB)

/-- CFLUSH_INV: fields and fates of R255. -/
def decCflushInv (r : Raw) : Except Nat Instr :=
  firstBad [(4, r.l4Ib), (5, r.m5 0x8000#16), (6, r.k6Imm || r.k6Hi), (7, !codeIn 0x0074#16 r.xf1), (7, r.xf2 != 0#4), (8, !pairOk r.ra)]
    (.cflushInv r.ctl (r.xf1.extractLsb' 0 3) r.ra r.srcB)

/-- CFLUSH_DISCARD: fields and fates of R255. -/
def decCflushDiscard (r : Raw) : Except Nat Instr :=
  firstBad [(4, r.l4Ib), (5, r.m5 0x8000#16), (6, r.k6Imm || r.k6Hi), (7, !codeIn 0x0074#16 r.xf1), (7, r.xf2 != 0#4), (8, !pairOk r.ra)]
    (.cflushDiscard r.ctl (r.xf1.extractLsb' 0 3) r.ra r.srcB)

/-- CTXSW: fields and fates of R256. -/
def decCtxsw (r : Raw) : Except Nat Instr :=
  firstBad [(4, r.l4Ib), (5, r.m5 0x8001#16), (6, r.k6Imm || r.k6Hi), (7, r.xf0 != 0#4), (7, !codeIn 0x00FC#16 r.xf1), (7, r.xf2 != 0#4), (8, !pairOk r.rd), (8, !pairOk r.ra)]
    (.ctxsw r.ctl (r.mod.getLsbD 0) (r.xf1.extractLsb' 0 3) r.rd r.ra r.srcB)

/-- A major that holds one instruction: in the extended form MINOR is zero (reason 3, R63). -/
def Raw.single (r : Raw) (x : Except Nat Instr) : Except Nat Instr :=
  bif r.minor != 0#6 then .error 3 else x
/-- A major of extended forms only: L = 0b00 and 0b01 have no MINOR field and are reason 4 (R62). -/
def Raw.extOnly (r : Raw) (x : Except Nat Instr) : Except Nat Instr :=
  bif r.l.getLsbD 1 then x else .error 4
/-- A base-only row in an extended form (R49, R50, R163): reason 3 for a nonzero MINOR, else 4. -/
def Raw.baseOnly (r : Raw) (x : Except Nat Instr) : Except Nat Instr :=
  bif r.l == 0#2 then x else bif r.l.getLsbD 1 && r.minor != 0#6 then .error 3 else .error 4
/-- An unlisted kind in F0 of TASKQ, TLBI or CFLUSH (reason 7), unless a lower reason applies as well. -/
def Raw.badKind (r : Raw) (mask : BitVec 16) : Except Nat Instr :=
  bif r.l4Ib then .error 4 else bif r.m5 mask then .error 5
  else bif r.k6Imm || r.k6Hi then .error 6 else .error 7

/-- The opcode map of R62 and R63: which row a word belongs to, reasons 1 to 4 of R71 where it belongs to none. -/
def decodeRaw (r : Raw) : Except Nat Instr :=
  match r.op.toNat with
  | 0x00 => .ok (.ill r.top r.w r.l)
  | 0x01 => if r.l = 0#2 then decMov r else r.single (decMovExt r)
  | 0x02 => if r.l = 0#2 then decAdd r else r.single (decAddExt r)
  | 0x03 => if r.l = 0#2 then decSub r else r.single (decSubExt r)
  | 0x04 => if r.l = 0#2 then decMul r else r.single (decMulExt r)
  | 0x05 => if r.l = 0#2 then decMulh r else r.single (decMulhExt r)
  | 0x06 => r.extOnly (r.single (decMad r))
  | 0x07 => if r.l = 0#2 then decMin r else r.single (decMinExt r)
  | 0x08 => if r.l = 0#2 then decMax r else r.single (decMaxExt r)
  | 0x09 => if r.l = 0#2 then decAnd r else r.single (decAndExt r)
  | 0x0A => if r.l = 0#2 then decOr r else r.single (decOrExt r)
  | 0x0B => if r.l = 0#2 then decXor r else r.single (decXorExt r)
  | 0x0C => if r.l = 0#2 then decShl r else r.single (decShlExt r)
  | 0x0D => if r.l = 0#2 then decShr r else r.single (decShrExt r)
  | 0x0E => if r.l = 0#2 then decSar r else r.single (decSarExt r)
  | 0x0F => if r.l = 0#2 then decRot r else r.single (decRotExt r)
  | 0x10 => if r.l = 0#2 then decBfx r else r.single (decBfxExt r)
  | 0x11 => r.extOnly (r.single (decBfi r))
  | 0x12 => r.extOnly (r.single (decSel r))
  | 0x13 => r.extOnly (r.single (decCmp r))
  | 0x14 => r.extOnly (r.single (decPlog r))
  | 0x15 => if r.l = 0#2 then decLea r else r.single (decLeaExt r)
  | 0x16 => r.extOnly (match r.minor.toNat with | 0 => decAdd64 r | 1 => decSub64 r | 2 => decShl64 r | 3 => decShr64 r | 4 => decCmp64 r | _ => .error 3)
  | 0x17 => r.extOnly (match r.minor.toNat with | 0 => decAbs r | 1 => decNeg r | 2 => decNot r | 3 => decPopc r | 4 => decClz r | 5 => decBrev r | 6 => decSext8 r | 7 => decSext16 r | 8 => decZext8 r | 9 => decZext16 r | _ => .error 3)
  | 0x18 => if r.l = 0#2 then decCsrr r else r.single (decCsrrExt r)
  | 0x19 => if r.l = 0#2 then decCsrw r else r.single (decCsrwExt r)
  | 0x1A => r.baseOnly (decNop r)
  | 0x20 => if r.l = 0#2 then decFadd r else r.single (decFaddExt r)
  | 0x21 => if r.l = 0#2 then decFsub r else r.single (decFsubExt r)
  | 0x22 => if r.l = 0#2 then decFmul r else r.single (decFmulExt r)
  | 0x23 => r.extOnly (r.single (decFfma r))
  | 0x24 => if r.l = 0#2 then decFmin r else r.single (decFminExt r)
  | 0x25 => if r.l = 0#2 then decFmax r else r.single (decFmaxExt r)
  | 0x26 => r.extOnly (r.single (decFcmp r))
  | 0x27 => r.extOnly (match r.minor.toNat with | 0 => decFabs r | 1 => decFneg r | 2 => decFclass r | 3 => decFrint r | _ => .error 3)
  | 0x28 => r.extOnly (match r.minor.toNat with | 0 => decFrcp r | 1 => decFrsq r | 2 => decFsqrt r | 3 => decFexp2 r | 4 => decFlog2 r | 5 => decFsin r | 6 => decFcos r | _ => .error 3)
  | 0x29 => r.extOnly (match r.minor.toNat with | 0 => decHadd2 r | 1 => decHmul2 r | 2 => decHfma2 r | 3 => decHmin2 r | 4 => decHmax2 r | _ => .error 3)
  | 0x2A => r.extOnly (r.single (decFdot2 r))
  | 0x2B => r.extOnly (r.single (decFcvt r))
  | 0x2C => r.extOnly (match r.minor.toNat with | 0 => decI2f r | 1 => decU2f r | 2 => decF2i r | 3 => decF2u r | _ => .error 3)
  | 0x2D => r.extOnly (match r.minor.toNat with | 0 => decQnt r | 1 => decDqnt r | _ => .error 3)
  | 0x2E => r.extOnly (r.single (decHad r))
  | 0x2F => r.extOnly (r.single (decCmpr r))
  | 0x30 => r.extOnly (r.single (decBoxt r))
  | 0x31 => r.extOnly (r.single (decTrit r))
  | 0x32 => r.extOnly (r.single (decRebin r))
  | 0x33 => r.extOnly (match r.minor.toNat with | 0 => decShflIdx r | 1 => decShflUp r | 2 => decShflDown r | 3 => decShflXor r | _ => .error 3)
  | 0x34 => r.extOnly (match r.minor.toNat with | 0 => decVoteAny r | 1 => decVoteAll r | 2 => decVoteBallot r | 3 => decVoteEq r | _ => .error 3)
  | 0x35 => r.extOnly (match r.minor.toNat with | 0 => decGredAdd r | 1 => decGredMin r | 2 => decGredMax r | 3 => decGredAnd r | 4 => decGredOr r | 5 => decGredXor r | 6 => decGredFadd r | 7 => decGredFmin r | 8 => decGredFmax r | _ => .error 3)
  | 0x38 => r.baseOnly (decBra r)
  | 0x39 => r.baseOnly (decBrc r)
  | 0x3A => r.baseOnly (decBrq r)
  | 0x3B => r.baseOnly (decCall r)
  | 0x3C => if r.l = 0#2 then decRet r else r.single (decRetExt r)
  | 0x3D => if r.l = 0#2 then decJarm r else r.single (decJarmExt r)
  | 0x3E => if r.l = 0#2 then decJwait r else r.single (decJwaitExt r)
  | 0x3F => if r.l = 0#2 then decJdrop r else r.single (decJdropExt r)
  | 0x40 => if r.l = 0#2 then decExit r else r.single (decExitExt r)
  | 0x41 => if r.l = 0#2 then decYield r else r.single (decYieldExt r)
  | 0x42 => if r.l = 0#2 then decTrap r else r.single (decTrapExt r)
  | 0x43 => if r.l = 0#2 then decBrk r else r.single (decBrkExt r)
  | 0x44 => if r.l = 0#2 then decDqpush r else r.single (decDqpushExt r)
  | 0x45 => if r.l = 0#2 then decDqpop r else r.single (decDqpopExt r)
  | 0x46 => if r.l = 0#2 then decSret r else r.single (decSretExt r)
  | 0x48 => if r.l = 0#2 then decLd r else r.single (decLdExt r)
  | 0x49 => r.extOnly (r.single (decLdz r))
  | 0x4A => if r.l = 0#2 then decSt r else r.single (decStExt r)
  | 0x4B => if r.l = 0#2 then decLds r else r.single (decLdsExt r)
  | 0x4C => if r.l = 0#2 then decSts r else r.single (decStsExt r)
  | 0x4D => if r.l = 0#2 then decLdc r else r.single (decLdcExt r)
  | 0x4E => r.extOnly (match r.minor.toNat with | 0 => decAtomAdd r | 1 => decAtomMin r | 2 => decAtomMax r | 3 => decAtomUmin r | 4 => decAtomUmax r | 5 => decAtomAnd r | 6 => decAtomOr r | 7 => decAtomXor r | 8 => decAtomExch r | 9 => decAtomCas r | 10 => decAtomFadd r | _ => .error 3)
  | 0x4F => r.extOnly (match r.minor.toNat with | 0 => decRedAdd r | 1 => decRedMin r | 2 => decRedMax r | 3 => decRedUmin r | 4 => decRedUmax r | 5 => decRedAnd r | 6 => decRedOr r | 7 => decRedXor r | 8 => decRedFadd r | _ => .error 3)
  | 0x50 => r.extOnly (r.single (decFence r))
  | 0x51 => r.extOnly (r.single (decPref r))
  | 0x52 => r.extOnly (r.single (decSpres r))
  | 0x53 => r.extOnly (r.single (decPgreq r))
  | 0x54 => r.extOnly (match r.minor.toNat with | 0 => decBarArr r | 1 => decBarWait r | 2 => decBarSync r | 3 => decBarExpect r | 4 => decBarInit r | _ => .error 3)
  | 0x55 => r.extOnly (r.single (decCvset r))
  | 0x58 => r.extOnly (match r.minor.toNat with | 0 => decRsvqFree r | 1 => decRsvqPend r | 2 => decRsvqNominal r | 3 => decRsvqSurr r | _ => .error 3)
  | 0x59 => r.extOnly (r.single (decBlksz r))
  | 0x5A => r.extOnly (r.single (decBlkfill r))
  | 0x5B => r.extOnly (r.single (decBalq r))
  | 0x5C => r.extOnly (r.single (decPgsurr r))
  | 0x5D => r.extOnly (r.single (decPgrecl r))
  | 0x60 => r.extOnly (r.single (decWload r))
  | 0x61 => r.extOnly (r.single (decMma r))
  | 0x62 => r.extOnly (r.single (decMmam r))
  | 0x63 => r.extOnly (r.single (decAclr r))
  | 0x64 => r.extOnly (r.single (decArd r))
  | 0x65 => r.extOnly (r.single (decAwr r))
  | 0x66 => r.extOnly (r.single (decAdrain r))
  | 0x67 => r.extOnly (r.single (decWrel r))
  | 0x68 => r.extOnly (r.single (decMstat r))
  | 0x6C => r.extOnly (r.single (decXcfg r))
  | 0x6D => r.extOnly (r.single (decXpush r))
  | 0x6E => r.extOnly (r.single (decXest r))
  | 0x6F => r.extOnly (match r.minor.toNat with | 0 => decXclr r | 1 => decXstat r | _ => .error 3)
  | 0x70 => r.extOnly (r.single (decTcopy r))
  | 0x71 => r.extOnly (r.single (decChain r))
  | 0x72 => r.extOnly (r.single (decCtwait r))
  | 0x73 => r.extOnly (r.single (decChkill r))
  | 0x74 => r.extOnly (r.single (decSpawn r))
  | 0x75 => r.extOnly (r.single (decEnqn r))
  | 0x76 => r.extOnly (r.single (decJdec r))
  | 0x77 => r.extOnly (r.single (decSettle r))
  | 0x78 => r.extOnly (r.single (match r.xf0.toNat with | 0 => decTaskqPrio r | 1 => decTaskqRestart r | 2 => decTaskqSettled r | 3 => decTaskqVlines r | 4 => decTaskqBqueue r | 5 => decTaskqNqueue r | 6 => decTaskqCursor r | _ => r.badKind 0x8000#16))
  | 0x79 => r.extOnly (r.single (decStkho r))
  | 0x7A => r.extOnly (r.single (match r.xf0.toNat with | 0 => decTlbiPage r | 1 => decTlbiVdev r | 2 => decTlbiVdevn r | 3 => decTlbiAll r | _ => r.badKind 0x8000#16))
  | 0x7B => r.extOnly (r.single (match r.xf0.toNat with | 0 => decCflushClean r | 1 => decCflushInv r | 2 => decCflushDiscard r | _ => r.badKind 0x8000#16))
  | 0x7C => r.extOnly (r.single (decCtxsw r))
  | _ => .error 1

/-- The words of an instruction as raw fields, from R47 to R51 and each description; none for an event row, which has no encoding. -/
def Instr.raw : Instr → Option Raw
  | .ill x w l => some { l := l, w := w, op := 0#7, top := x, w1 := 0#32, w2 := 0#32, lit := 0#64 }
  | .mov w d b => some (encTop 0x01 w (BitVec.ofBool b.isImm ++ b.field ++ 127#7 ++ (reg8to7 d)))
  | .movExt c0 d b => some (encX 0x01 0 c0 (0#16) d 255#8 255#8 255#8 b.xf 0#4 0#4 0#4)
  | .add w d a b => some (encTop 0x02 w (BitVec.ofBool b.isImm ++ b.field ++ (reg8to7 a) ++ (reg8to7 d)))
  | .addExt c0 sat d a b => some (encX 0x02 0 c0 ((flagBit 0 sat)) d a 255#8 255#8 b.xf 0#4 0#4 0#4)
  | .sub w d a b => some (encTop 0x03 w (BitVec.ofBool b.isImm ++ b.field ++ (reg8to7 a) ++ (reg8to7 d)))
  | .subExt c0 sat d a b => some (encX 0x03 0 c0 ((flagBit 0 sat)) d a 255#8 255#8 b.xf 0#4 0#4 0#4)
  | .mul w d a b => some (encTop 0x04 w (BitVec.ofBool b.isImm ++ b.field ++ (reg8to7 a) ++ (reg8to7 d)))
  | .mulExt c0 d a b => some (encX 0x04 0 c0 (0#16) d a 255#8 255#8 b.xf 0#4 0#4 0#4)
  | .mulh w d a b => some (encTop 0x05 w (BitVec.ofBool b.isImm ++ b.field ++ (reg8to7 a) ++ (reg8to7 d)))
  | .mulhExt c0 u d a b => some (encX 0x05 0 c0 ((flagBit 0 u)) d a 255#8 255#8 b.xf 0#4 0#4 0#4)
  | .mad c0 d a b c => some (encX 0x06 0 c0 (0#16) d a 255#8 c b.xf 0#4 0#4 0#4)
  | .min w d a b => some (encTop 0x07 w (BitVec.ofBool b.isImm ++ b.field ++ (reg8to7 a) ++ (reg8to7 d)))
  | .minExt c0 u d a b => some (encX 0x07 0 c0 ((flagBit 0 u)) d a 255#8 255#8 b.xf 0#4 0#4 0#4)
  | .max w d a b => some (encTop 0x08 w (BitVec.ofBool b.isImm ++ b.field ++ (reg8to7 a) ++ (reg8to7 d)))
  | .maxExt c0 u d a b => some (encX 0x08 0 c0 ((flagBit 0 u)) d a 255#8 255#8 b.xf 0#4 0#4 0#4)
  | .and w d a b => some (encTop 0x09 w (BitVec.ofBool b.isImm ++ b.field ++ (reg8to7 a) ++ (reg8to7 d)))
  | .andExt c0 d a b => some (encX 0x09 0 c0 (0#16) d a 255#8 255#8 b.xf 0#4 0#4 0#4)
  | .or w d a b => some (encTop 0x0A w (BitVec.ofBool b.isImm ++ b.field ++ (reg8to7 a) ++ (reg8to7 d)))
  | .orExt c0 d a b => some (encX 0x0A 0 c0 (0#16) d a 255#8 255#8 b.xf 0#4 0#4 0#4)
  | .xor w d a b => some (encTop 0x0B w (BitVec.ofBool b.isImm ++ b.field ++ (reg8to7 a) ++ (reg8to7 d)))
  | .xorExt c0 d a b => some (encX 0x0B 0 c0 (0#16) d a 255#8 255#8 b.xf 0#4 0#4 0#4)
  | .shl w d a b => some (encTop 0x0C w (BitVec.ofBool b.isImm ++ b.field ++ (reg8to7 a) ++ (reg8to7 d)))
  | .shlExt c0 d a b => some (encX 0x0C 0 c0 (0#16) d a 255#8 255#8 b.xf 0#4 0#4 0#4)
  | .shr w d a b => some (encTop 0x0D w (BitVec.ofBool b.isImm ++ b.field ++ (reg8to7 a) ++ (reg8to7 d)))
  | .shrExt c0 d a b => some (encX 0x0D 0 c0 (0#16) d a 255#8 255#8 b.xf 0#4 0#4 0#4)
  | .sar w d a b => some (encTop 0x0E w (BitVec.ofBool b.isImm ++ b.field ++ (reg8to7 a) ++ (reg8to7 d)))
  | .sarExt c0 d a b => some (encX 0x0E 0 c0 (0#16) d a 255#8 255#8 b.xf 0#4 0#4 0#4)
  | .rot w d a b => some (encTop 0x0F w (BitVec.ofBool b.isImm ++ b.field ++ (reg8to7 a) ++ (reg8to7 d)))
  | .rotExt c0 d a b => some (encX 0x0F 0 c0 (0#16) d a 255#8 255#8 b.xf 0#4 0#4 0#4)
  | .bfx w d a b => some (encTop 0x10 w (BitVec.ofBool b.isImm ++ b.field ++ (reg8to7 a) ++ (reg8to7 d)))
  | .bfxExt c0 s d a b => some (encX 0x10 0 c0 ((flagBit 0 s)) d a 255#8 255#8 b.xf 0#4 0#4 0#4)
  | .bfi c0 d a b c => some (encX 0x11 0 c0 (0#16) d a 255#8 c b.xf 0#4 0#4 0#4)
  | .sel c0 n d a b p => some (encX 0x12 0 c0 ((flagBit 0 n)) d a 255#8 (p.setWidth 8) b.xf 0#4 0#4 0#4)
  | .cmp c0 cc pd a b => some (encX 0x13 0 c0 (0#16) (pd.setWidth 8) a 255#8 255#8 b.xf 0#4 0#4 cc)
  | .plog c0 lut pd pa pb pc => some (encX 0x14 0 c0 ((lut.setWidth 16 <<< 0)) (pd.setWidth 8) (pa.setWidth 8) (pb.setWidth 8) (pc.setWidth 8) (Xf.plain 0#16) 0#4 0#4 0#4)
  | .lea w d a b => some (encTop 0x15 w (BitVec.ofBool b.isImm ++ b.field ++ (reg8to7 a) ++ (reg8to7 d)))
  | .leaExt c0 sh u d a b => some (encX 0x15 0 c0 ((sh.setWidth 16 <<< 0) ||| (flagBit 3 u)) d a 255#8 255#8 b.xf 0#4 0#4 0#4)
  | .add64 c0 d a b => some (encX 0x16 0 c0 (0#16) d a 255#8 255#8 b.xf 0#4 0#4 0#4)
  | .sub64 c0 d a b => some (encX 0x16 1 c0 (0#16) d a 255#8 255#8 b.xf 0#4 0#4 0#4)
  | .shl64 c0 d a b => some (encX 0x16 2 c0 (0#16) d a 255#8 255#8 b.xf 0#4 0#4 0#4)
  | .shr64 c0 d a b => some (encX 0x16 3 c0 (0#16) d a 255#8 255#8 b.xf 0#4 0#4 0#4)
  | .cmp64 c0 cc pd a b => some (encX 0x16 4 c0 (0#16) (pd.setWidth 8) a 255#8 255#8 b.xf 0#4 0#4 cc)
  | .abs c0 sat d a => some (encX 0x17 0 c0 ((flagBit 0 sat)) d a 255#8 255#8 (Xf.plain 0#16) 0#4 0#4 0#4)
  | .neg c0 sat d a => some (encX 0x17 1 c0 ((flagBit 0 sat)) d a 255#8 255#8 (Xf.plain 0#16) 0#4 0#4 0#4)
  | .not c0 d a => some (encX 0x17 2 c0 (0#16) d a 255#8 255#8 (Xf.plain 0#16) 0#4 0#4 0#4)
  | .popc c0 d a => some (encX 0x17 3 c0 (0#16) d a 255#8 255#8 (Xf.plain 0#16) 0#4 0#4 0#4)
  | .clz c0 d a => some (encX 0x17 4 c0 (0#16) d a 255#8 255#8 (Xf.plain 0#16) 0#4 0#4 0#4)
  | .brev c0 d a => some (encX 0x17 5 c0 (0#16) d a 255#8 255#8 (Xf.plain 0#16) 0#4 0#4 0#4)
  | .sext8 c0 d a => some (encX 0x17 6 c0 (0#16) d a 255#8 255#8 (Xf.plain 0#16) 0#4 0#4 0#4)
  | .sext16 c0 d a => some (encX 0x17 7 c0 (0#16) d a 255#8 255#8 (Xf.plain 0#16) 0#4 0#4 0#4)
  | .zext8 c0 d a => some (encX 0x17 8 c0 (0#16) d a 255#8 255#8 (Xf.plain 0#16) 0#4 0#4 0#4)
  | .zext16 c0 d a => some (encX 0x17 9 c0 (0#16) d a 255#8 255#8 (Xf.plain 0#16) 0#4 0#4 0#4)
  | .csrr w d num => some (encTop 0x18 w (num ++ reg8to7 d))
  | .csrrExt c0 d num => some (encX 0x18 0 c0 (0#16) d 255#8 255#8 255#8 (Xf.plain num) 0#4 0#4 0#4)
  | .csrw w a num => some (encTop 0x19 w (num ++ reg8to7 a))
  | .csrwExt c0 a num => some (encX 0x19 0 c0 (0#16) 255#8 a 255#8 255#8 (Xf.plain num) 0#4 0#4 0#4)
  | .nop w => some (encTop 0x1A w 0#22)
  | .fadd w d a b => some (encTop 0x20 w (BitVec.ofBool b.isImm ++ b.field ++ (reg8to7 a) ++ (reg8to7 d)))
  | .faddExt c0 rm d a b => some (encX 0x20 0 c0 (0#16) d a 255#8 255#8 b.xf 0#4 0#4 (rm.setWidth 4))
  | .fsub w d a b => some (encTop 0x21 w (BitVec.ofBool b.isImm ++ b.field ++ (reg8to7 a) ++ (reg8to7 d)))
  | .fsubExt c0 rm d a b => some (encX 0x21 0 c0 (0#16) d a 255#8 255#8 b.xf 0#4 0#4 (rm.setWidth 4))
  | .fmul w d a b => some (encTop 0x22 w (BitVec.ofBool b.isImm ++ b.field ++ (reg8to7 a) ++ (reg8to7 d)))
  | .fmulExt c0 rm d a b => some (encX 0x22 0 c0 (0#16) d a 255#8 255#8 b.xf 0#4 0#4 (rm.setWidth 4))
  | .ffma c0 rm d a b c => some (encX 0x23 0 c0 (0#16) d a 255#8 c b.xf 0#4 0#4 (rm.setWidth 4))
  | .fmin w d a b => some (encTop 0x24 w (BitVec.ofBool b.isImm ++ b.field ++ (reg8to7 a) ++ (reg8to7 d)))
  | .fminExt c0 d a b => some (encX 0x24 0 c0 (0#16) d a 255#8 255#8 b.xf 0#4 0#4 0#4)
  | .fmax w d a b => some (encTop 0x25 w (BitVec.ofBool b.isImm ++ b.field ++ (reg8to7 a) ++ (reg8to7 d)))
  | .fmaxExt c0 d a b => some (encX 0x25 0 c0 (0#16) d a 255#8 255#8 b.xf 0#4 0#4 0#4)
  | .fcmp c0 cc pd a b => some (encX 0x26 0 c0 (0#16) (pd.setWidth 8) a 255#8 255#8 b.xf 0#4 0#4 cc)
  | .fabs c0 d a => some (encX 0x27 0 c0 (0#16) d a 255#8 255#8 (Xf.plain 0#16) 0#4 0#4 0#4)
  | .fneg c0 d a => some (encX 0x27 1 c0 (0#16) d a 255#8 255#8 (Xf.plain 0#16) 0#4 0#4 0#4)
  | .fclass c0 d a => some (encX 0x27 2 c0 (0#16) d a 255#8 255#8 (Xf.plain 0#16) 0#4 0#4 0#4)
  | .frint c0 rm d a => some (encX 0x27 3 c0 (0#16) d a 255#8 255#8 (Xf.plain 0#16) 0#4 0#4 (rm.setWidth 4))
  | .frcp c0 d a => some (encX 0x28 0 c0 (0#16) d a 255#8 255#8 (Xf.plain 0#16) 0#4 0#4 0#4)
  | .frsq c0 d a => some (encX 0x28 1 c0 (0#16) d a 255#8 255#8 (Xf.plain 0#16) 0#4 0#4 0#4)
  | .fsqrt c0 rm d a => some (encX 0x28 2 c0 (0#16) d a 255#8 255#8 (Xf.plain 0#16) 0#4 0#4 (rm.setWidth 4))
  | .fexp2 c0 d a => some (encX 0x28 3 c0 (0#16) d a 255#8 255#8 (Xf.plain 0#16) 0#4 0#4 0#4)
  | .flog2 c0 d a => some (encX 0x28 4 c0 (0#16) d a 255#8 255#8 (Xf.plain 0#16) 0#4 0#4 0#4)
  | .fsin c0 d a => some (encX 0x28 5 c0 (0#16) d a 255#8 255#8 (Xf.plain 0#16) 0#4 0#4 0#4)
  | .fcos c0 d a => some (encX 0x28 6 c0 (0#16) d a 255#8 255#8 (Xf.plain 0#16) 0#4 0#4 0#4)
  | .hadd2 c0 rm fmt d a b => some (encX 0x29 0 c0 (0#16) d a b 255#8 (Xf.plain 0#16) 0#4 fmt (rm.setWidth 4))
  | .hmul2 c0 rm fmt d a b => some (encX 0x29 1 c0 (0#16) d a b 255#8 (Xf.plain 0#16) 0#4 fmt (rm.setWidth 4))
  | .hfma2 c0 rm fmt d a b c => some (encX 0x29 2 c0 (0#16) d a b c (Xf.plain 0#16) 0#4 fmt (rm.setWidth 4))
  | .hmin2 c0 fmt d a b => some (encX 0x29 3 c0 (0#16) d a b 255#8 (Xf.plain 0#16) 0#4 fmt 0#4)
  | .hmax2 c0 fmt d a b => some (encX 0x29 4 c0 (0#16) d a b 255#8 (Xf.plain 0#16) 0#4 fmt 0#4)
  | .fdot2 c0 rm fmt d a b c => some (encX 0x2A 0 c0 (0#16) d a b c (Xf.plain 0#16) 0#4 fmt (rm.setWidth 4))
  | .fcvt c0 sat dir elt rm fmt d a => some (encX 0x2B 0 c0 ((flagBit 0 sat) ||| (flagBit 2 dir) ||| (elt.setWidth 16 <<< 4)) d a 255#8 255#8 (Xf.plain 0#16) 0#4 fmt (rm.setWidth 4))
  | .i2f c0 rm d a => some (encX 0x2C 0 c0 (0#16) d a 255#8 255#8 (Xf.plain 0#16) 0#4 0#4 (rm.setWidth 4))
  | .u2f c0 rm d a => some (encX 0x2C 1 c0 (0#16) d a 255#8 255#8 (Xf.plain 0#16) 0#4 0#4 (rm.setWidth 4))
  | .f2i c0 sat rm d a => some (encX 0x2C 2 c0 ((flagBit 0 sat)) d a 255#8 255#8 (Xf.plain 0#16) 0#4 0#4 (rm.setWidth 4))
  | .f2u c0 sat rm d a => some (encX 0x2C 3 c0 ((flagBit 0 sat)) d a 255#8 255#8 (Xf.plain 0#16) 0#4 0#4 (rm.setWidth 4))
  | .qnt c0 sat rm fmt d a b => some (encX 0x2D 0 c0 ((flagBit 0 sat)) d a 255#8 255#8 b.xf 0#4 fmt (rm.setWidth 4))
  | .dqnt c0 sat rm fmt d a b => some (encX 0x2D 1 c0 ((flagBit 0 sat)) d a 255#8 255#8 b.xf 0#4 fmt (rm.setWidth 4))
  | .had c0 sz rm fmt d a => some (encX 0x2E 0 c0 ((sz.setWidth 16 <<< 0)) d a 255#8 255#8 (Xf.plain 0#16) 0#4 fmt (rm.setWidth 4))
  | .cmpr c0 s48 fmt d a c => some (encX 0x2F 0 c0 ((flagBit 0 s48)) d a 255#8 c (Xf.plain 0#16) 0#4 fmt 0#4)
  | .boxt c0 d a b => some (encX 0x30 0 c0 (0#16) d a b 255#8 (Xf.plain 0#16) 0#4 0#4 0#4)
  | .trit c0 clip d a b pc => some (encX 0x31 0 c0 ((flagBit 0 clip)) d a b (pc.setWidth 8) (Xf.plain 0#16) 0#4 0#4 0#4)
  | .rebin c0 b a off => some (encX 0x32 0 c0 (0#16) 255#8 a b 255#8 off.xfPlain 0#4 0#4 0#4)
  | .shflIdx c0 seg d a b pc => some (encX 0x33 0 c0 (0#16) d a 255#8 (pc.setWidth 8) b.xf (seg.setWidth 4) 0#4 0#4)
  | .shflUp c0 seg d a b pc => some (encX 0x33 1 c0 (0#16) d a 255#8 (pc.setWidth 8) b.xf (seg.setWidth 4) 0#4 0#4)
  | .shflDown c0 seg d a b pc => some (encX 0x33 2 c0 (0#16) d a 255#8 (pc.setWidth 8) b.xf (seg.setWidth 4) 0#4 0#4)
  | .shflXor c0 seg d a b pc => some (encX 0x33 3 c0 (0#16) d a 255#8 (pc.setWidth 8) b.xf (seg.setWidth 4) 0#4 0#4)
  | .voteAny c0 pd pa => some (encX 0x34 0 c0 (0#16) (pd.setWidth 8) (pa.setWidth 8) 255#8 255#8 (Xf.plain 0#16) 0#4 0#4 0#4)
  | .voteAll c0 pd pa => some (encX 0x34 1 c0 (0#16) (pd.setWidth 8) (pa.setWidth 8) 255#8 255#8 (Xf.plain 0#16) 0#4 0#4 0#4)
  | .voteBallot c0 d pa => some (encX 0x34 2 c0 (0#16) d (pa.setWidth 8) 255#8 255#8 (Xf.plain 0#16) 0#4 0#4 0#4)
  | .voteEq c0 pd a => some (encX 0x34 3 c0 (0#16) (pd.setWidth 8) a 255#8 255#8 (Xf.plain 0#16) 0#4 0#4 0#4)
  | .gredAdd c0 seg d a => some (encX 0x35 0 c0 (0#16) d a 255#8 255#8 (Xf.plain 0#16) (seg.setWidth 4) 0#4 0#4)
  | .gredMin c0 u seg d a => some (encX 0x35 1 c0 ((flagBit 0 u)) d a 255#8 255#8 (Xf.plain 0#16) (seg.setWidth 4) 0#4 0#4)
  | .gredMax c0 u seg d a => some (encX 0x35 2 c0 ((flagBit 0 u)) d a 255#8 255#8 (Xf.plain 0#16) (seg.setWidth 4) 0#4 0#4)
  | .gredAnd c0 seg d a => some (encX 0x35 3 c0 (0#16) d a 255#8 255#8 (Xf.plain 0#16) (seg.setWidth 4) 0#4 0#4)
  | .gredOr c0 seg d a => some (encX 0x35 4 c0 (0#16) d a 255#8 255#8 (Xf.plain 0#16) (seg.setWidth 4) 0#4 0#4)
  | .gredXor c0 seg d a => some (encX 0x35 5 c0 (0#16) d a 255#8 255#8 (Xf.plain 0#16) (seg.setWidth 4) 0#4 0#4)
  | .gredFadd c0 rm seg d a => some (encX 0x35 6 c0 (0#16) d a 255#8 255#8 (Xf.plain 0#16) (seg.setWidth 4) 0#4 (rm.setWidth 4))
  | .gredFmin c0 seg d a => some (encX 0x35 7 c0 (0#16) d a 255#8 255#8 (Xf.plain 0#16) (seg.setWidth 4) 0#4 0#4)
  | .gredFmax c0 seg d a => some (encX 0x35 8 c0 (0#16) d a 255#8 255#8 (Xf.plain 0#16) (seg.setWidth 4) 0#4 0#4)
  | .bra w off => some (encTop 0x38 w off)
  | .brc w off n p => some (encTop 0x39 w (off ++ BitVec.ofBool n ++ p))
  | .brq w off => some (encTop 0x3A w off)
  | .call w off => some (encTop 0x3B w off)
  | .ret w => some (encTop 0x3C w (BitVec.ofBool false ++ 127#7 ++ 127#7 ++ 127#7))
  | .retExt c0 => some (encX 0x3C 0 c0 (0#16) 255#8 255#8 255#8 255#8 (Xf.plain 0#16) 0#4 0#4 0#4)
  | .jarm w m => some (encTop 0x3D w (BitVec.ofBool false ++ 127#7 ++ (m.setWidth 7) ++ 127#7))
  | .jarmExt c0 m => some (encX 0x3D 0 c0 (0#16) 255#8 (m.setWidth 8) 255#8 255#8 (Xf.plain 0#16) 0#4 0#4 0#4)
  | .jwait w m => some (encTop 0x3E w (BitVec.ofBool false ++ 127#7 ++ (m.setWidth 7) ++ 127#7))
  | .jwaitExt c0 m => some (encX 0x3E 0 c0 (0#16) 255#8 (m.setWidth 8) 255#8 255#8 (Xf.plain 0#16) 0#4 0#4 0#4)
  | .jdrop w m => some (encTop 0x3F w (BitVec.ofBool false ++ 127#7 ++ (m.setWidth 7) ++ 127#7))
  | .jdropExt c0 m => some (encX 0x3F 0 c0 (0#16) 255#8 (m.setWidth 8) 255#8 255#8 (Xf.plain 0#16) 0#4 0#4 0#4)
  | .exit w => some (encTop 0x40 w (BitVec.ofBool false ++ 127#7 ++ 127#7 ++ 127#7))
  | .exitExt c0 => some (encX 0x40 0 c0 (0#16) 255#8 255#8 255#8 255#8 (Xf.plain 0#16) 0#4 0#4 0#4)
  | .yield w => some (encTop 0x41 w (BitVec.ofBool false ++ 127#7 ++ 127#7 ++ 127#7))
  | .yieldExt c0 => some (encX 0x41 0 c0 (0#16) 255#8 255#8 255#8 255#8 (Xf.plain 0#16) 0#4 0#4 0#4)
  | .trap w b => some (encTop 0x42 w (BitVec.ofBool b.isImm ++ b.field ++ 127#7 ++ 127#7))
  | .trapExt c0 b => some (encX 0x42 0 c0 (0#16) 255#8 255#8 255#8 255#8 b.xf 0#4 0#4 0#4)
  | .brk w b => some (encTop 0x43 w (BitVec.ofBool b.isImm ++ b.field ++ 127#7 ++ 127#7))
  | .brkExt c0 b => some (encX 0x43 0 c0 (0#16) 255#8 255#8 255#8 255#8 b.xf 0#4 0#4 0#4)
  | .dqpush w b => some (encTop 0x44 w (BitVec.ofBool b.isImm ++ b.field ++ 127#7 ++ 127#7))
  | .dqpushExt c0 b => some (encX 0x44 0 c0 (0#16) 255#8 255#8 255#8 255#8 b.xf 0#4 0#4 0#4)
  | .dqpop w d => some (encTop 0x45 w (BitVec.ofBool false ++ 127#7 ++ 127#7 ++ (reg8to7 d)))
  | .dqpopExt c0 d => some (encX 0x45 0 c0 (0#16) d 255#8 255#8 255#8 (Xf.plain 0#16) 0#4 0#4 0#4)
  | .sret w => some (encTop 0x46 w (BitVec.ofBool false ++ 127#7 ++ 127#7 ++ 127#7))
  | .sretExt c0 => some (encX 0x46 0 c0 (0#16) 255#8 255#8 255#8 255#8 (Xf.plain 0#16) 0#4 0#4 0#4)
  | .ld w d a disp => some (encTop 0x48 w (BitVec.ofBool true ++ disp ++ (reg8to7 a) ++ (reg8to7 d)))
  | .ldExt c0 ord width scope hint d a disp => some (encX 0x48 0 c0 ((flagBit 0 ord)) d a 255#8 255#8 disp.xf (hint.setWidth 4) (scope.setWidth 4) (width.setWidth 4))
  | .ldz c0 width hint d pc a disp => some (encX 0x49 0 c0 (0#16) d a 255#8 (pc.setWidth 8) disp.xf (hint.setWidth 4) 0#4 (width.setWidth 4))
  | .st w d a disp => some (encTop 0x4A w (BitVec.ofBool true ++ disp ++ (reg8to7 a) ++ (reg8to7 d)))
  | .stExt c0 ord width scope hint d a disp => some (encX 0x4A 0 c0 ((flagBit 0 ord)) d a 255#8 255#8 disp.xf (hint.setWidth 4) (scope.setWidth 4) (width.setWidth 4))
  | .lds w d a disp => some (encTop 0x4B w (BitVec.ofBool true ++ disp ++ (reg8to7 a) ++ (reg8to7 d)))
  | .ldsExt c0 width d a disp => some (encX 0x4B 0 c0 (0#16) d a 255#8 255#8 disp.xf 0#4 0#4 (width.setWidth 4))
  | .sts w d a disp => some (encTop 0x4C w (BitVec.ofBool true ++ disp ++ (reg8to7 a) ++ (reg8to7 d)))
  | .stsExt c0 width d a disp => some (encX 0x4C 0 c0 (0#16) d a 255#8 255#8 disp.xf 0#4 0#4 (width.setWidth 4))
  | .ldc w d a disp => some (encTop 0x4D w (BitVec.ofBool true ++ disp ++ (reg8to7 a) ++ (reg8to7 d)))
  | .ldcExt c0 width hint d a disp => some (encX 0x4D 0 c0 (0#16) d a 255#8 255#8 disp.xf (hint.setWidth 4) 0#4 (width.setWidth 4))
  | .atomAdd c0 ord w64 scope d a b => some (encX 0x4E 0 c0 ((flagBit 0 ord)) d a 255#8 255#8 b.xf 0#4 (scope.setWidth 4) (bif w64 then 5#4 else 0#4))
  | .atomMin c0 ord w64 scope d a b => some (encX 0x4E 1 c0 ((flagBit 0 ord)) d a 255#8 255#8 b.xf 0#4 (scope.setWidth 4) (bif w64 then 5#4 else 0#4))
  | .atomMax c0 ord w64 scope d a b => some (encX 0x4E 2 c0 ((flagBit 0 ord)) d a 255#8 255#8 b.xf 0#4 (scope.setWidth 4) (bif w64 then 5#4 else 0#4))
  | .atomUmin c0 ord w64 scope d a b => some (encX 0x4E 3 c0 ((flagBit 0 ord)) d a 255#8 255#8 b.xf 0#4 (scope.setWidth 4) (bif w64 then 5#4 else 0#4))
  | .atomUmax c0 ord w64 scope d a b => some (encX 0x4E 4 c0 ((flagBit 0 ord)) d a 255#8 255#8 b.xf 0#4 (scope.setWidth 4) (bif w64 then 5#4 else 0#4))
  | .atomAnd c0 ord w64 scope d a b => some (encX 0x4E 5 c0 ((flagBit 0 ord)) d a 255#8 255#8 b.xf 0#4 (scope.setWidth 4) (bif w64 then 5#4 else 0#4))
  | .atomOr c0 ord w64 scope d a b => some (encX 0x4E 6 c0 ((flagBit 0 ord)) d a 255#8 255#8 b.xf 0#4 (scope.setWidth 4) (bif w64 then 5#4 else 0#4))
  | .atomXor c0 ord w64 scope d a b => some (encX 0x4E 7 c0 ((flagBit 0 ord)) d a 255#8 255#8 b.xf 0#4 (scope.setWidth 4) (bif w64 then 5#4 else 0#4))
  | .atomExch c0 ord w64 scope d a b => some (encX 0x4E 8 c0 ((flagBit 0 ord)) d a 255#8 255#8 b.xf 0#4 (scope.setWidth 4) (bif w64 then 5#4 else 0#4))
  | .atomCas c0 ord w64 scope d a b c => some (encX 0x4E 9 c0 ((flagBit 0 ord)) d a 255#8 c b.xf 0#4 (scope.setWidth 4) (bif w64 then 5#4 else 0#4))
  | .atomFadd c0 ord scope d a b => some (encX 0x4E 10 c0 ((flagBit 0 ord)) d a 255#8 255#8 b.xf 0#4 (scope.setWidth 4) 0#4)
  | .redAdd c0 w64 scope a b => some (encX 0x4F 0 c0 (0#16) 255#8 a 255#8 255#8 b.xf 0#4 (scope.setWidth 4) (bif w64 then 5#4 else 0#4))
  | .redMin c0 w64 scope a b => some (encX 0x4F 1 c0 (0#16) 255#8 a 255#8 255#8 b.xf 0#4 (scope.setWidth 4) (bif w64 then 5#4 else 0#4))
  | .redMax c0 w64 scope a b => some (encX 0x4F 2 c0 (0#16) 255#8 a 255#8 255#8 b.xf 0#4 (scope.setWidth 4) (bif w64 then 5#4 else 0#4))
  | .redUmin c0 w64 scope a b => some (encX 0x4F 3 c0 (0#16) 255#8 a 255#8 255#8 b.xf 0#4 (scope.setWidth 4) (bif w64 then 5#4 else 0#4))
  | .redUmax c0 w64 scope a b => some (encX 0x4F 4 c0 (0#16) 255#8 a 255#8 255#8 b.xf 0#4 (scope.setWidth 4) (bif w64 then 5#4 else 0#4))
  | .redAnd c0 w64 scope a b => some (encX 0x4F 5 c0 (0#16) 255#8 a 255#8 255#8 b.xf 0#4 (scope.setWidth 4) (bif w64 then 5#4 else 0#4))
  | .redOr c0 w64 scope a b => some (encX 0x4F 6 c0 (0#16) 255#8 a 255#8 255#8 b.xf 0#4 (scope.setWidth 4) (bif w64 then 5#4 else 0#4))
  | .redXor c0 w64 scope a b => some (encX 0x4F 7 c0 (0#16) 255#8 a 255#8 255#8 b.xf 0#4 (scope.setWidth 4) (bif w64 then 5#4 else 0#4))
  | .redFadd c0 scope a b => some (encX 0x4F 8 c0 (0#16) 255#8 a 255#8 255#8 b.xf 0#4 (scope.setWidth 4) 0#4)
  | .fence c0 scope => some (encX 0x50 0 c0 (0#16) 255#8 255#8 255#8 255#8 (Xf.plain 0#16) 0#4 (scope.setWidth 4) 0#4)
  | .pref c0 lvl hint a disp => some (encX 0x51 0 c0 (0#16) 255#8 a 255#8 255#8 disp.xf (hint.setWidth 4) 0#4 (lvl.setWidth 4))
  | .spres c0 pd a disp => some (encX 0x52 0 c0 (0#16) (pd.setWidth 8) a 255#8 255#8 disp.xf 0#4 0#4 0#4)
  | .pgreq c0 blk pd a disp => some (encX 0x53 0 c0 ((flagBit 0 blk)) (pd.setWidth 8) a 255#8 255#8 disp.xf 0#4 0#4 0#4)
  | .barArr c0 d bar => some (encX 0x54 0 c0 (0#16) d (bar.setWidth 8) 255#8 255#8 (Xf.plain 0#16) 0#4 0#4 0#4)
  | .barWait c0 bar b => some (encX 0x54 1 c0 (0#16) 255#8 (bar.setWidth 8) 255#8 255#8 b.xf 0#4 0#4 0#4)
  | .barSync c0 d bar => some (encX 0x54 2 c0 (0#16) d (bar.setWidth 8) 255#8 255#8 (Xf.plain 0#16) 0#4 0#4 0#4)
  | .barExpect c0 bar b => some (encX 0x54 3 c0 (0#16) 255#8 (bar.setWidth 8) 255#8 255#8 b.xf 0#4 0#4 0#4)
  | .barInit c0 bar b => some (encX 0x54 4 c0 (0#16) 255#8 (bar.setWidth 8) 255#8 255#8 b.xf 0#4 0#4 0#4)
  | .cvset c0 n1 cv b => some (encX 0x55 0 c0 ((n1.setWidth 16 <<< 0)) 255#8 (cv.setWidth 8) 255#8 255#8 b.xf 0#4 0#4 0#4)
  | .rsvqFree c0 stk d => some (encX 0x58 0 c0 ((stk.setWidth 16 <<< 0)) d 255#8 255#8 255#8 (Xf.plain 0#16) 0#4 0#4 0#4)
  | .rsvqPend c0 stk d => some (encX 0x58 1 c0 ((stk.setWidth 16 <<< 0)) d 255#8 255#8 255#8 (Xf.plain 0#16) 0#4 0#4 0#4)
  | .rsvqNominal c0 stk d => some (encX 0x58 2 c0 ((stk.setWidth 16 <<< 0)) d 255#8 255#8 255#8 (Xf.plain 0#16) 0#4 0#4 0#4)
  | .rsvqSurr c0 stk d => some (encX 0x58 3 c0 ((stk.setWidth 16 <<< 0)) d 255#8 255#8 255#8 (Xf.plain 0#16) 0#4 0#4 0#4)
  | .blksz c0 wb d a disp => some (encX 0x59 0 c0 ((flagBit 0 wb)) d a 255#8 255#8 disp.xf 0#4 0#4 0#4)
  | .blkfill c0 a disp c => some (encX 0x5A 0 c0 (0#16) 255#8 a 255#8 c disp.xf 0#4 0#4 0#4)
  | .balq c0 d => some (encX 0x5B 0 c0 (0#16) d 255#8 255#8 255#8 (Xf.plain 0#16) 0#4 0#4 0#4)
  | .pgsurr c0 a disp => some (encX 0x5C 0 c0 (0#16) 255#8 a 255#8 255#8 disp.xf 0#4 0#4 0#4)
  | .pgrecl c0 a disp => some (encX 0x5D 0 c0 (0#16) 255#8 a 255#8 255#8 disp.xf 0#4 0#4 0#4)
  | .wload c0 sparse hadn fmt a b c => some (encX 0x60 0 c0 ((sparse.setWidth 16 <<< 0) ||| (hadn.setWidth 16 <<< 2)) 255#8 a 255#8 c b.xf 0#4 0#4 fmt)
  | .mma c0 row0 z as ksz kh fmt t a cv => some (encX 0x61 0 c0 ((row0.setWidth 16 <<< 0) ||| (flagBit 7 z) ||| (flagBit 8 as) ||| (ksz.setWidth 16 <<< 9) ||| (flagBit 11 kh)) (t.setWidth 8) a (cv.setWidth 8) 255#8 (Xf.plain 0#16) 0#4 0#4 fmt)
  | .mmam c0 row0 z as ksz sp fmt t a cv disp => some (encX 0x62 0 c0 ((row0.setWidth 16 <<< 0) ||| (flagBit 7 z) ||| (flagBit 8 as) ||| (ksz.setWidth 16 <<< 9) ||| (flagBit 12 sp)) (t.setWidth 8) a (cv.setWidth 8) 255#8 disp.xfPlain 0#4 0#4 fmt)
  | .aclr c0 t => some (encX 0x63 0 c0 (0#16) (t.setWidth 8) 255#8 255#8 255#8 (Xf.plain 0#16) 0#4 0#4 0#4)
  | .ard c0 chunk d t b => some (encX 0x64 0 c0 ((chunk.setWidth 16 <<< 0)) d (t.setWidth 8) 255#8 255#8 b.xf 0#4 0#4 0#4)
  | .awr c0 chunk t a b => some (encX 0x65 0 c0 ((chunk.setWidth 16 <<< 0)) (t.setWidth 8) a 255#8 255#8 b.xf 0#4 0#4 0#4)
  | .adrain c0 sat clr sp scale fmt t a b c => some (encX 0x66 0 c0 ((flagBit 0 sat) ||| (flagBit 1 clr) ||| (flagBit 3 sp) ||| (scale.setWidth 16 <<< 4)) (t.setWidth 8) a 255#8 c b.xf 0#4 0#4 fmt)
  | .wrel c0 => some (encX 0x67 0 c0 (0#16) 255#8 255#8 255#8 255#8 (Xf.plain 0#16) 0#4 0#4 0#4)
  | .mstat c0 keep d => some (encX 0x68 0 c0 ((flagBit 0 keep)) d 255#8 255#8 255#8 (Xf.plain 0#16) 0#4 0#4 0#4)
  | .xcfg c0 depth meth x a b c => some (encX 0x6C 0 c0 ((depth.setWidth 16 <<< 0)) (x.setWidth 8) a 255#8 c b.xf 0#4 0#4 (meth.setWidth 4))
  | .xpush c0 x a pc => some (encX 0x6D 0 c0 (0#16) (x.setWidth 8) a 255#8 (pc.setWidth 8) (Xf.plain 0#16) 0#4 0#4 0#4)
  | .xest c0 d x pc => some (encX 0x6E 0 c0 (0#16) d (x.setWidth 8) 255#8 (pc.setWidth 8) (Xf.plain 0#16) 0#4 0#4 0#4)
  | .xclr c0 x => some (encX 0x6F 0 c0 (0#16) (x.setWidth 8) 255#8 255#8 255#8 (Xf.plain 0#16) 0#4 0#4 0#4)
  | .xstat c0 d x => some (encX 0x6F 1 c0 (0#16) d (x.setWidth 8) 255#8 255#8 (Xf.plain 0#16) 0#4 0#4 0#4)
  | .tcopy c0 dir cmode scope d a b c => some (encX 0x70 0 c0 ((dir.setWidth 16 <<< 0) ||| (cmode.setWidth 16 <<< 2)) d a b c (Xf.plain 0#16) 0#4 (scope.setWidth 4) 0#4)
  | .chain c0 cmode scope d a c => some (encX 0x71 0 c0 ((cmode.setWidth 16 <<< 2)) d a 255#8 c (Xf.plain 0#16) 0#4 (scope.setWidth 4) 0#4)
  | .ctwait c0 sp scope d a b => some (encX 0x72 0 c0 ((flagBit 2 sp)) d a 255#8 255#8 b.xf 0#4 (scope.setWidth 4) 0#4)
  | .chkill c0 a => some (encX 0x73 0 c0 (0#16) 255#8 a 255#8 255#8 (Xf.plain 0#16) 0#4 0#4 0#4)
  | .spawn c0 d a b c off => some (encX 0x74 0 c0 (0#16) d a b c off.xfPlain 0#4 0#4 0#4)
  | .enqn c0 a b => some (encX 0x75 0 c0 (0#16) 255#8 a 255#8 255#8 b.xf 0#4 0#4 0#4)
  | .jdec c0 d a b => some (encX 0x76 0 c0 (0#16) d a 255#8 255#8 b.xf 0#4 0#4 0#4)
  | .settle c0 => some (encX 0x77 0 c0 (0#16) 255#8 255#8 255#8 255#8 (Xf.plain 0#16) 0#4 0#4 0#4)
  | .taskqPrio c0 d b => some (encX 0x78 0 c0 (0#16) d 255#8 255#8 255#8 b.xf 0#4 0#4 0#4)
  | .taskqRestart c0 d b => some (encX 0x78 0 c0 (0#16) d 255#8 255#8 255#8 b.xf 0#4 0#4 1#4)
  | .taskqSettled c0 d b => some (encX 0x78 0 c0 (0#16) d 255#8 255#8 255#8 b.xf 0#4 0#4 2#4)
  | .taskqVlines c0 d b => some (encX 0x78 0 c0 (0#16) d 255#8 255#8 255#8 b.xf 0#4 0#4 3#4)
  | .taskqBqueue c0 d b => some (encX 0x78 0 c0 (0#16) d 255#8 255#8 255#8 b.xf 0#4 0#4 4#4)
  | .taskqNqueue c0 d b => some (encX 0x78 0 c0 (0#16) d 255#8 255#8 255#8 b.xf 0#4 0#4 5#4)
  | .taskqCursor c0 d b => some (encX 0x78 0 c0 (0#16) d 255#8 255#8 255#8 b.xf 0#4 0#4 6#4)
  | .stkho c0 die scope a b => some (encX 0x79 0 c0 ((die.setWidth 16 <<< 0)) 255#8 a 255#8 255#8 b.xf 0#4 (scope.setWidth 4) 0#4)
  | .tlbiPage c0 scope a b => some (encX 0x7A 0 c0 (0#16) 255#8 a 255#8 255#8 b.xf 0#4 (scope.setWidth 4) 0#4)
  | .tlbiVdev c0 scope b => some (encX 0x7A 0 c0 (0#16) 255#8 255#8 255#8 255#8 b.xf 0#4 (scope.setWidth 4) 1#4)
  | .tlbiVdevn c0 scope b => some (encX 0x7A 0 c0 (0#16) 255#8 255#8 255#8 255#8 b.xf 0#4 (scope.setWidth 4) 2#4)
  | .tlbiAll c0 scope b => some (encX 0x7A 0 c0 (0#16) 255#8 255#8 255#8 255#8 b.xf 0#4 (scope.setWidth 4) 3#4)
  | .cflushClean c0 scope a b => some (encX 0x7B 0 c0 (0#16) 255#8 a 255#8 255#8 b.xf 0#4 (scope.setWidth 4) 0#4)
  | .cflushInv c0 scope a b => some (encX 0x7B 0 c0 (0#16) 255#8 a 255#8 255#8 b.xf 0#4 (scope.setWidth 4) 1#4)
  | .cflushDiscard c0 scope a b => some (encX 0x7B 0 c0 (0#16) 255#8 a 255#8 255#8 b.xf 0#4 (scope.setWidth 4) 2#4)
  | .ctxsw c0 force scope d a b => some (encX 0x7C 0 c0 ((flagBit 0 force)) d a 255#8 255#8 b.xf 0#4 (scope.setWidth 4) 0#4)
  | .resultWriteback _ _ => none
  | .storeQueueDrain _ => none
  | .stsBankWrite _ _ => none
  | .parkRelease _ => none
  | .sliceNomination _ => none
  | .threadKill _ => none
  | .shareRetire _ => none
  | .sharePlacement _ _ => none
  | .copyStart _ => none
  | .copyComplete _ _ => none
  | .chainEntry _ => none
  | .chainSendAck _ _ => none
  | .chainRecvwaitMet _ => none
  | .chainEnd _ => none
  | .weightLatch _ => none
  | .matrixOperation _ => none
  | .tilePathEntry _ _ => none
  | .adrainComplete _ _ => none
  | .matrixEngineReset _ => none
  | .matrixResetEnd _ => none
  | .blockWriteback _ => none
  | .heldChargeDecided _ => none
  | .grantMove _ _ => none
  | .balloonRequestOpen _ => none
  | .balloonDeadlineExpiry _ => none
  | .capacityWaitRestart _ => none
  | .taskFault _ => none
  | .taskRestart _ _ => none
  | .versionCommit _ => none
  | .commitRequest _ => none
  | .commitTokenGrant _ => none
  | .teamRetire _ => none
  | .launchWatchdogExpiry _ => none
  | .dieDistributorRequest _ _ => none
  | .clusterRangeHandout _ _ _ => none
  | .teamPlacement _ _ _ => none
  | .rangeSteal _ _ _ => none
  | .gangFormerPop _ _ => none
  | .binTimeout _ _ => none
  | .cordScheduleWalk _ => none
  | .cordAgeingTick _ => none
  | .sliceEnd _ => none
  | .contextSwap _ => none
  | .handlerBudgetExpiry _ => none
  | .spillComplete _ => none
  | .budgetRefill _ _ => none
  | .runEnd _ => none
  | .ctxswRunEnd _ => none
  | .carveoutChange _ _ => none
  | .carveoutChangeEffect _ => none
  | .pageWalk _ _ _ _ => none
  | .makeResident _ _ _ _ => none
  | .replicaCreate _ _ _ => none
  | .replicaCollapse _ _ _ => none
  | .stackHandover _ => none
  | .loanAgreement _ _ _ => none
  | .loanEnd _ _ => none
  | .loanDeadlineExpiry _ => none
  | .mailboxMessage _ _ _ => none
  | .queueCreate _ _ => none
  | .queueReset _ _ => none
  | .queueDestroy _ => none
  | .queueDestroyComplete _ => none
  | .doorbellWrite _ _ => none
  | .writeIndexNotice _ => none
  | .packetNop _ => none
  | .packetLaunch _ => none
  | .launchBilletStep _ => none
  | .launchDispatch _ => none
  | .packetCord _ => none
  | .packetWait _ => none
  | .waitConditionMet _ => none
  | .packetWrite _ => none
  | .packetSignal _ => none
  | .packetWrsigWrite _ => none
  | .packetWrsigSignal _ => none
  | .packetChainrun _ => none
  | .packetRanges _ => none
  | .kindling _ => none
  | .packetCompletion _ _ => none
  | .vdevDescriptor _ _ => none
  | .grantMessage _ _ _ => none
  | .tenantPause _ => none
  | .tenantResume _ => none
  | .tenantReset _ => none
  | .tenantClear _ => none
  | .clearingDone _ => none
  | .tenantExport _ _ => none
  | .tenantImport _ _ => none
  | .tenantUndefine _ => none
  | .checkpoint _ => none
  | .debugAccess _ _ => none
  | .debugResume _ => none
  | .debugStep _ => none
  | .debugKill _ => none
  | .debugDropMask _ _ => none
  | .hearthCoreTimeout _ => none
  | .supervisionTimerExpiry _ => none
  | .memoryError _ => none
  | .softError _ _ => none
  | .dieLinkLoss => none
  | .linkEnable _ => none
  | .linkTrained _ => none
  | .linkTrainingTimeout _ => none
  | .linkLostLock _ => none
  | .linkRetrained _ => none
  | .linkRecoveryExpiry _ => none
  | .securityAlarmL2 => none
  | .securityAlarmL3 => none
  | .thermalThrottle _ => none
  | .junctionOvertemp => none
  | .packageResetBoot _ => none
  | .recovery _ => none
  | .configRecordUpdate _ _ => none
  | .identityRequest _ => none
  | .telemetryRecord => none
  | .telemetryRequest _ => none
  | .applicationCoreAccess _ _ => none
  | .pcieHostAccess _ => none
  | .inboundFabricWrite _ _ => none
  | .postedWriteAck _ => none
  | .extrapolationEntry _ => none
  | .chargePathLift _ => none
  | .ptpCorrection _ => none
  | .enrollment _ => none
/-- The words of an instruction in address order (R45). -/
def Raw.words (r : Raw) : List Word :=
  let w0 : Word := r.top ++ r.op ++ BitVec.ofBool r.w ++ r.l
  let lo : Word := r.lit.extractLsb' 0 32
  let hi : Word := r.lit.extractLsb' 32 32
  match r.l.toNat with
  | 0 => [w0]
  | 1 => [w0, lo, hi]
  | 2 => [w0, r.w1, r.w2]
  | _ => [w0, r.w1, r.w2, lo, hi]

/-- The words of an instruction; none for an event row. -/
def encode (i : Instr) : Option (List Word) := i.raw.map Raw.words

/-- A word's bytes, little-endian (R37). -/
def wordBytes (w : Word) : List Byte :=
  [w.extractLsb' 0 8, w.extractLsb' 8 8, w.extractLsb' 16 8, w.extractLsb' 24 8]

/-- A word from four bytes, little-endian (R37). -/
def wordOf (a b c d : Byte) : Word := d ++ c ++ b ++ a

/-- Whole words of a byte string; a shorter rest is dropped. -/
def wordsOfBytes : List Byte → List Word
  | a :: b :: c :: d :: rest => wordOf a b c d :: wordsOfBytes rest
  | _ => []

/-- How many words follow word 0 (R45). -/
def extraWords (w0 : Word) : Nat :=
  match (w0.extractLsb' 0 2).toNat with
  | 0 => 0
  | 1 => 2
  | 2 => 2
  | _ => 4

/-- The fields of an instruction from its words; a missing word reads as zero. -/
def rawOfWords (ws : List Word) : Raw :=
  let w0 := ws.getD 0 0#32
  let l : BitVec 2 := w0.extractLsb' 0 2
  let ext := l.getLsbD 1
  let lo := ws.getD (bif ext then 3 else 1) 0#32
  let hi := ws.getD (bif ext then 4 else 2) 0#32
  { l := l, w := w0.getLsbD 2, op := w0.extractLsb' 3 7, top := w0.extractLsb' 10 22,
    w1 := bif ext then ws.getD 1 0#32 else 0#32, w2 := bif ext then ws.getD 2 0#32 else 0#32,
    lit := bif l.getLsbD 0 then hi ++ lo else 0#64 }

/-- The instruction in a list of words, or the lowest reason of R71. -/
def decodeWords (ws : List Word) : Except Nat Instr := decodeRaw (rawOfWords ws)

/-- Why bytes are no instruction: too few, or a reason of R71. -/
inductive DecodeError where
  | short
  | illegal (reason : Nat)
  deriving DecidableEq, Repr

/-- Decode the first instruction of a byte string, and give the bytes that follow it. -/
def decode (bs : List Byte) : Except DecodeError (Instr × List Byte) :=
  let ws := wordsOfBytes bs
  match ws with
  | [] => .error .short
  | w0 :: rest =>
    let n := extraWords w0
    bif rest.length < n then .error .short
    else match decodeWords (ws.take (n + 1)) with
      | .ok i => .ok (i, bs.drop (4 * (n + 1)))
      | .error k => .error (.illegal k)

/-- The bytes of a table word: `nbits` as the table gives them, then zeros to the longest instruction. -/
def tableBytes (nbits w : Nat) : List Byte :=
  (List.range 20).map fun k => BitVec.ofNat 8 ((w % 2 ^ nbits) >>> (8 * k))

/-- What the decoder reads from a word numbered as the opcode table numbers it. -/
def decodeTableWord (nbits w : Nat) : Option Instr :=
  match decode (tableBytes nbits w) with
  | .ok (i, _) => some i
  | .error _ => none

end Sys2Proof
end

