-- ==== Sys2Proof/Machine/KilnOps.lean ====
section
/-! DEFINITION. The kiln's instructions and events: counters, block and page operations, ballooning, grant moves
(19 R331 to R348). -/

namespace Sys2Proof.Machine

/-! ## Grant and reserve of a virtual device (R331, R338) -/

/-- The shares of a virtual device that have counters. -/
def State.ksharesOf (s : State) (v : Nat) : List KCount := (List.range 8).map (s.kshare v)
/-- Total GRANT (R331). -/
def State.grantOf (s : State) (v : Nat) : Nat := ((s.ksharesOf v).map (·.grant)).sum
/-- The reserve: the sum of RES (R338). -/
def State.reserveOf (s : State) (v : Nat) : Nat := ((s.ksharesOf v).map KCount.res).sum
/-- Low-water mark L: LOW, or GRANT ÷ 64 (R338, R414). -/
def State.lowWater (s : State) (v : Nat) : Nat :=
  let x := field (s.vdev v).desc 48 4
  bif x == 0 then s.grantOf v / 64 else x
/-- High-water mark Hw: HIGH, or 2 × L (R338, R414). -/
def State.highWater (s : State) (v : Nat) : Nat :=
  let x := field (s.vdev v).desc 52 4
  bif x == 0 then 2 * s.lowWater v else x
/-- The balloon deadline in ns (R338, R414). -/
def State.balloonLimit (s : State) (v : Nat) : Nat :=
  let x := field (s.vdev v).desc 22 2
  (bif x == 0 then 100 else x) * 1000000
/-- Change a virtual device's balloon state. -/
def State.modBalloon (s : State) (v : Nat) (f : Balloon → Balloon) : State :=
  s.modVdev v fun d => { d with balloon := f d.balloon }
/-- A request closes: Q is 0, the deadline stops, the charge path resumes (R339, R340). -/
def Balloon.closed : Balloon := ⟨0, none, false, false⟩
/-- Close an open request whose count is 0 or whose reserve has reached Hw (R339). -/
def State.balloonTest (s : State) (v : Nat) : State :=
  let b := (s.vdev v).balloon
  bif b.due.isSome && (b.q == 0 || decide (s.highWater v ≤ s.reserveOf v)) then s.modBalloon v fun _ => Balloon.closed else s
/-- Sectors given back by PGSURR, PGRECL or BLKFILL reduce Q (R339). -/
def State.giveBack (s : State) (v n : Nat) : State :=
  (s.modBalloon v fun b => { b with q := b.q - n }).balloonTest v

/-! ## Blocks and pages set to a constant (R344 to R346) -/

/-- A task holds version lines of a range, or versioned stores to it that still wait in a queue. -/
def State.holdsRange (s : State) (t lo n : Nat) : Bool :=
  s.unsettled t && ((s.task t).ver.bytes.any (fun (a, _) => decide (lo ≤ a) && decide (a < lo + n)) ||
    (s.lanes.groups.any fun g => g.sq.any fun e => e.vers && e.task == t && meets lo n e.pa e.size) ||
    s.lanes.shares.any fun h => h.feSq.any fun e => e.vers && e.task == t && meets lo n e.pa e.size)
/-- What was written to a range before the step, and waits, is dropped: version lines and queued stores; a task of another team that held some takes a task fault with cause 0x07 (R240, R344 to R346). -/
def State.dropRange (s : State) (t lo n : Nat) (ea : DWord) : State :=
  let hit := (List.range s.lanes.tasks.length).filter fun k => k != t && s.holdsRange k lo n
  let keep := fun (e : SqEntry) => !meets lo n e.pa e.size
  let s := { s with lanes := { s.lanes with
      groups := s.lanes.groups.map fun g => { g with sq := g.sq.filter keep },
      shares := s.lanes.shares.map fun h => { h with feSq := h.feSq.filter keep },
      tasks := s.lanes.tasks.map fun k => { k with ver := { k.ver with bytes := Mem.clear k.ver.bytes lo n } } } }
  hit.foldl (fun s k => s.markFault k ⟨0x07, 0#64, ea, 0#32, 0xFFFFFFFF#32, false, 0⟩) s
/-- One block becomes class 0 and uncharged; how many sectors that gives back: c + CH, none on an RB page (R333, R335, R344). -/
def State.zeroBlock (s : State) (no : Nat) (rb : Bool) : State × Nat :=
  let b := s.block no
  let ch := (b.ch.map (·.2)).getD 0
  (s.setBlock (Block.clean no), bif rb then 0 else b.cls + ch)
/-- A block that an engine command still targets is charged again, from class 0 (R264, R332). -/
def State.recharge (s : State) (v no : Nat) (rb : Bool) : State :=
  bif s.queued no then (s.charge v (no * 1024) rb).1 else s
/-- The step of BLKFILL at the block's base die (R344). -/
def State.fillBlock (s : State) (t v pa : Nat) (rb : Bool) (pat ea : DWord) : State :=
  let no := blockOf pa
  let s := s.dropRange t (no * 1024) 1024 ea
  let (s, n) := s.zeroBlock no rb
  let s := s.modStore fun m =>
    { m with mem := (m.mem.clear (no * 1024) 1024).putN (no * 1024) (List.replicate 128 (natLe 8 pat.toNat)).flatten }
  (s.giveBack v n).recharge v no rb
/-- Every block of a page becomes zero and class 0; the sectors are given back (R345, R346). -/
def State.emptyPage (s : State) (t v base : Nat) (rb : Bool) (ea : DWord) : State :=
  let s := s.dropRange t base 65536 ea
  let nos := (s.store.blocks.filter fun b => b.no / 64 == base / 65536).map (·.no)
  let (s, n) := nos.foldl (fun (s, n) no =>
    let (s, k) := s.zeroBlock no rb
    (s, n + k)) (s, 0)
  let s := s.modStore fun m => { m with mem := m.mem.clear base 65536 }
  s.giveBack v n
/-- Blocks of a zeroed page that engine commands still target are charged again (R264, R332). -/
def State.rechargePage (s : State) (v base : Nat) (rb : Bool) : State :=
  (List.range 64).foldl (fun s k => s.recharge v (base / 1024 + k) rb) s
/-- %tinfo of a kiln cause other than 0x09 (R348). -/
def kilnInfo (st : Bool) (reason : Nat) : Word := BitVec.ofNat 32 (reason + bif st then 256 else 0)
/-- The leaf of a page operation after the refusals, or what stops it: closed port, hand-over, range lock. A replicated page collapses (R365). -/
def State.pageChecked (s : State) (ag : Nat) (ea : DWord) (reclaim : Bool) : State × Except Fate Leaf :=
  let v := s.vdOf ag
  let c := s.coreOf ag
  if ((s.walk v ea).map fun l => s.placeHeld v ea l && (l.res ≠ 2 || reclaim || !s.chargeable l.at_)).getD false then (s, .error .stall) else
  let s := s.collapseFor v (dieOf c) ea
  match s.walk v ea with
  | none => (s, .error (.trap 0x04 ea (kilnInfo true 0)))
  | some l =>
    (s,
      match s.throughLeaf v ea .store l none, s.lockHit c v ea 65536 true with
      | .bad 0x13, _ => .error (.trap 0x13 ea (kilnInfo true 0))
      | .held, _ => .error .stall
      | _, some (_, k, d) => .error (.trap 0x09 ea (lockInfo k d))
      | _, none => if l.local ∧ s.handing (stackOf l.base) ∧ (l.res ≠ 2 ∨ reclaim) then .error .stall else .ok l)
/-- The leaf of a page operation, or what stops it, in the order of R70: alignment, walk, permission, refusals, closed port, range lock (R345, R346, R348). -/
def State.pageLeaf (s : State) (ag : Nat) (ea : DWord) (reclaim : Bool) : State × Except Fate Leaf :=
  let no := fun cause r => Except.error (Fate.trap cause ea (kilnInfo true r))
  if ea.toNat % 65536 ≠ 0 then (s, no 0x03 0)
  else if !canonical ea then (s, no 0x04 0)
  else
    match s.walkStop (s.vdOf ag) ea, s.walk (s.vdOf ag) ea with
    | some (.bad c), _ => (s, no c 0)
    | some _, _ => (s, .error .stall)
    | none, none => (s, no 0x04 0)
    | none, some l =>
      if !permOk l.e .store then (s, no 0x05 0)
      else if l.pages ≠ 1 then (s, no 0x05 10)
      else if l.rb && !reclaim then (s, no 0x05 11)
      else if region l.base ≠ 0 then (s, no 0x05 12)
      else s.pageChecked ag ea reclaim
/-- A page or block operation of a thread whose checks passed: suppressed as a store is, else after a commit and its own earlier stores (R104, R120, R239, R348). -/
def State.kilnStep (s : State) (ag : Nat) (ea : DWord) (k : State → State × Fate) : State × Fate :=
  if (s.agent ag).supp.isSome then (s.suppress ag ea 0, .next)
  else
    s.committing (s.taskOf ag) true fun s =>
      match s.drainIssuer ag with
      | (s, false) => (s, .stall)
      | (s, true) => k s
/-- The step of PGSURR (R345): the frame is kept in the leaf. Its blocks carry no charge any more: what an engine command still writes there is lost, since the page is surrendered. -/
def State.surrender (s : State) (t v : Nat) (l : Leaf) (ea : DWord) : State :=
  let s := s.dropPage v (va48 ea / 65536)
  let s := bif l.local then s.emptyPage t v l.base false ea else s
  s.setLeaf l.at_ (setBits l.e 8 2 2)
/-- The step of PGRECL (R346): zero in place, or at a new frame on the issuer's die; none while no stack of the die can hold one. -/
def State.reclaim (s : State) (t v die : Nat) (l : Leaf) (ea : DWord) : Option State :=
  let here := l.local && (l.res != 2 || s.portOpen (partOf v) (stackOf l.base))
  let fin := fun (s : State) (e : Nat) =>
    (s.setLeaf l.at_ (setBits e 8 2 0)).dropPage v (va48 ea / 65536)
  if here then some (fin ((s.emptyPage t v l.base l.rb ea).rechargePage v l.base l.rb) l.e)
  else
    (s.roomyStack v die (bif l.rb then 512 else 0)).map fun st =>
      let f := s.newFrame st
      let s := s.freshPage f
      fin s (setBits l.e 16 36 (f / 65536))

/-! ## Instructions (R341 to R348) -/

/-- A counter of RSVQ over the issuer's shares, or on one stack (R342). -/
def State.sumK (s : State) (ag : Nat) (stk : BitVec 4) (f : KCount → Nat) : Nat :=
  (((s.ksharesOf (s.vdOf ag)).filter fun k => stk == 0#4 || k.stack + 8 == stk.toNat).map f).sum
/-- A value of the whole virtual device: 0 for one stack (R342). -/
def State.wholeK (s : State) (ag : Nat) (stk : BitVec 4) (f : State → Nat → Nat) : Nat :=
  bif stk == 0#4 then f s (s.vdOf ag) else 0
/-- Write a number to a pair with a variable latency. -/
def State.outPair (s : State) (ag : Nat) (d : Reg) (x : Nat) : State :=
  s.out ag true false (toPair d (BitVec.ofNat 64 x)) 0#5
/-- The copy of a byte that an issuer's translation maps: the replica's, where it maps one (R343, R364). -/
def State.copyAt (s : State) (v core : Nat) (ea : DWord) (pa : Nat) : Nat :=
  match (s.findTlb v (.core core) ea).bind (·.replica) with
  | some b => b + va48 ea % 65536
  | none => pa
/-- BLKSZ (R343): it reports on the copy that the issuer's translation maps; a block off the device reports a free class. -/
def State.blksz1 (s : State) (ag : Nat) (wb : Bool) (d : Reg) (ea : DWord) : State × Fate :=
  let v := s.vdOf ag
  let put := fun (s : State) (x : Nat) => (s.out ag true false [toReg d (BitVec.ofNat 32 x)] 0#5, Fate.next)
  match s.translate v (s.coreOf ag) ea .load with
  | (s, .held) => (s, .stall)
  | (s, .ok x rb _) =>
    let r := bif rb then 512 else 0
    let pa := s.copyAt v (s.coreOf ag) ea x
    if region pa ≠ 0 then put s (r + (Config.freeByte s.free pa).toNat % 9)
    else
      let s := bif wb then s.writeback (blockOf pa) else s
      let b := s.block (blockOf pa)
      put s (r + (bif b.ch.isSome then 256 else 0) + b.cls)
  | (s, .bad cause) =>
    if cause = 0x06 ∨ cause = 0x07 then
      let rb := ((s.walk v ea).map Leaf.rb).getD false
      put s ((bif cause == 0x07 then 2048 else 0) + 1024 + bif rb then 512 else 0)
    else (s, .trap cause ea (kilnInfo false 0))
/-- BLKFILL (R344): on memory off the device a plain store of the pattern. -/
def State.blkfill1 (s : State) (ag : Nat) (ea pat : DWord) : State × Fate :=
  match s.access ag ea 1024 1024 ⟨.store, kilnInfo true 0, false, some true, none⟩ with
  | (s, .fate f) => (s, f)
  | (s, .absent) => (s, .next)
  | (s, .ok pa rb _) =>
    s.kilnStep ag ea fun s =>
      (bif region pa == 0 then s.fillBlock (s.taskOf ag) (s.vdOf ag) pa rb pat ea
        else s.writeCommitted ag (some (s.taskOf ag)) pa (List.replicate 128 (natLe 8 pat.toNat)).flatten, .next)
/-- PGSURR (R345). -/
def State.pgsurr1 (s : State) (ag : Nat) (ea : DWord) : State × Fate :=
  match s.pageLeaf ag ea false with
  | (s, .error f) => (s, f)
  | (s, .ok l) =>
    if l.res = 2 then (s, .next)
    else
      s.kilnStep ag ea fun s =>
        let v := s.vdOf ag
        (s.surrender (s.taskOf ag) v ((s.walk v ea).getD l) ea, .next)
/-- PGRECL (R346). -/
def State.pgrecl1 (s : State) (ag : Nat) (ea : DWord) : State × Fate :=
  match s.pageLeaf ag ea true with
  | (s, .error f) => (s, f)
  | (s, .ok _) =>
    s.kilnStep ag ea fun s =>
      let v := s.vdOf ag
      match s.walk v ea with
      | none => (s, .next)
      | some l =>
        match s.reclaim (s.taskOf ag) v (dieOf (s.coreOf ag)) l ea with
        | some s => (s, .next)
        | none => (s, .stall)
/-- BALQ's value: Q, and the microseconds to the deadline (R347). -/
def State.balqValue (s : State) (v : Nat) : Nat :=
  let b := (s.vdev v).balloon
  match b.due with
  | none => 0xFFFFFFFF * 2 ^ 32
  | some d => b.q % 2 ^ 32 + (d - s.now) / 1000 * 2 ^ 32

/-- RSVQ.FREE: GRANT − USED (R342). -/
def execRsvqFree (c0 : Ctl) (stk : BitVec 4) (d : Reg) (s : State) : Result :=
  .next (s.issue (.rsvqFree c0 stk d) (perThread fun ag s => (s.outPair ag d (s.sumK ag stk fun k => k.grant - k.used), .next)))

/-- RSVQ.PEND (R342). -/
def execRsvqPend (c0 : Ctl) (stk : BitVec 4) (d : Reg) (s : State) : Result :=
  .next (s.issue (.rsvqPend c0 stk d) (perThread fun ag s => (s.outPair ag d (s.sumK ag stk (·.pend)), .next)))

/-- RSVQ.NOMINAL: mapped pages (R342). -/
def execRsvqNominal (c0 : Ctl) (stk : BitVec 4) (d : Reg) (s : State) : Result :=
  .next (s.issue (.rsvqNominal c0 stk d) (perThread fun ag s => (s.outPair ag d (s.wholeK ag stk State.nominal), .next)))

/-- RSVQ.SURR: surrendered pages (R342). -/
def execRsvqSurr (c0 : Ctl) (stk : BitVec 4) (d : Reg) (s : State) : Result :=
  .next (s.issue (.rsvqSurr c0 stk d) (perThread fun ag s => (s.outPair ag d (s.wholeK ag stk State.surrendered), .next)))

/-- BLKSZ (R343). -/
def execBlksz (c0 : Ctl) (wb : Bool) (d : Reg) (a : Reg) (disp : Disp) (s : State) : Result :=
  .next (s.issue (.blksz c0 wb d a disp) (perThread fun ag s => s.blksz1 ag wb d (s.ea ag a (Disp64 disp))))

/-- BLKFILL (R344). -/
def execBlkfill (c0 : Ctl) (a : Reg) (disp : Disp) (c : Reg) (s : State) : Result :=
  .next (s.issue (.blkfill c0 a disp c) (perThread fun ag s =>
    s.blkfill1 ag (s.ea ag a (Disp64 disp)) (bif c == 255#8 then 0#64 else s.c64 ag c)))

/-- BALQ (R347). -/
def execBalq (c0 : Ctl) (d : Reg) (s : State) : Result :=
  .next (s.issue (.balq c0 d) (perThread fun ag s => (s.outPair ag d (s.balqValue (s.vdOf ag)), .next)))

/-- PGSURR (R345). -/
def execPgsurr (c0 : Ctl) (a : Reg) (disp : Disp) (s : State) : Result :=
  .next (s.issue (.pgsurr c0 a disp) (perThread fun ag s => s.pgsurr1 ag (s.ea ag a (Disp64 disp))))

/-- PGRECL (R346). -/
def execPgrecl (c0 : Ctl) (a : Reg) (disp : Disp) (s : State) : Result :=
  .next (s.issue (.pgrecl c0 a disp) (perThread fun ag s => s.pgrecl1 ag (s.ea ag a (Disp64 disp))))

/-! ## Events (R331, R333, R338 to R340) -/

/-- A share that is entitled to moved grant: a reserve below L ÷ 8, and something stored, charged or refused on it (R331). -/
def State.needsGrant (s : State) (v st : Nat) : Bool :=
  let k := s.kshare v st
  decide (k.res * 8 < s.lowWater v) && (decide (0 < k.used + k.pend) || k.refused)
/-- Move grant to a share until its reserve is `want`, from the donors with the largest reserve first, none below `want` (R331). Of donors with an equal reserve the one on the lower-numbered stack gives first, which R331 leaves open: DESIGN CHOICE, log entry 30. -/
def State.moveGrant (s : State) (v st want : Nat) : Nat → State
  | 0 => s
  | fuel + 1 =>
    let k := s.kshare v st
    let donors := (s.ksharesOf v).filter fun d => d.stack != st && decide (want < d.res)
    match donors.foldl (fun (b : Option KCount) d => match b with
      | some x => bif decide (x.res < d.res) || (x.res == d.res && decide (d.stack < x.stack)) then some d else some x
      | none => some d) none with
    | none => s
    | some d =>
      let n := min (want - k.res) (d.res - want)
      bif n == 0 then s
      else
        (((s.modK v d.stack fun x => { x with grant := x.grant - n }).modK v st fun x =>
          { x with grant := x.grant + n, refused := false })).moveGrant v st want fuel
/-- Hearth core 3's move of grant to one share (R331). -/
def State.grantTo (s : State) (v st : Nat) : State :=
  bif s.needsGrant v st then s.moveGrant v st ((s.lowWater v + 7) / 8) 8 else s
/-- GRANT_MOVE (R331). -/
def execGrantMove (vd stack : Nat) (s : State) : Result := .next ((s.grantTo vd stack).balloonTest vd)
/-- BLOCK_WRITEBACK: a block's committed dirty lines are written back and its charge settled (R330, R333). A hand-over holds it (R371), and a block pinned by HOME 10 is not written back (R361). -/
def execBlockWriteback (blk : Nat) (s : State) : Result :=
  .next (bif s.handing (stackOf (blk * 1024)) || s.pinned blk then s else s.writeback blk)
/-- HELD_CHARGE_DECIDED: a thread whose charge was held issues its store again once the path has resumed; an engine command's fragment goes on together, by PARK_RELEASE (R280, R340). -/
def execHeldChargeDecided (ag : Nat) (s : State) : Result :=
  .next (bif (s.vdev (s.vdOf ag)).balloon.suspended then s else bif s.inTurn ag false then s.modAgent ag (unparkIf (.store 2)) else s)
/-- Open a balloon request, after grant has been moved where it can be (R331, R338). Several entitled shares are topped up from the lower-numbered stack on, which R331 leaves open: DESIGN CHOICE, log entry 30. -/
def State.openBalloon (s : State) (v : Nat) : State :=
  let s := (List.range 8).foldl (fun s st => s.grantTo v st) s
  let b := (s.vdev v).balloon
  bif b.due.isNone && (s.vdev v).state != .absent && decide (s.reserveOf v < s.lowWater v) then
    let s := s.modBalloon v fun _ => ⟨s.highWater v - s.reserveOf v, some (s.now + s.balloonLimit v), false, false⟩
    let a := BitVec.ofNat 64 (field (s.vdev v).desc 56 8)
    s.hyperPost v 3 a.toNat (.add 1#64)
  else s
/-- BALLOON_REQUEST_OPEN (R338). -/
def execBalloonRequestOpen (vd : Nat) (s : State) : Result := .next (s.openBalloon vd)
/-- An entry of the lifetime log: its level and kind (R19, R340, R429). -/
def State.logEntry (s : State) (level kind : Nat) : State := s.modHearth fun h => { h with log := h.log ++ [(level, kind)], logAt := h.logAt ++ [s.now] }
/-- BALLOON_DEADLINE_EXPIRY: the charge path is suspended (R340). Kind 1 of the log. -/
def execBalloonDeadlineExpiry (vd : Nat) (s : State) : Result :=
  .next (match (s.vdev vd).balloon.due with
    | some d =>
      bif decide (d ≤ s.now) && !(s.vdev vd).balloon.expired then
        (s.modBalloon vd fun b => { b with expired := true, suspended := true }).logEntry 0 1
      else s
    | none => s)
/-- CHARGE_PATH_LIFT: the hypervisor lifts the suspension; the request stays open (R340). -/
def execChargePathLift (vd : Nat) (s : State) : Result := .next (s.modBalloon vd fun b => { b with suspended := false })

end Sys2Proof.Machine
end

