-- ==== Sys2Proof/Machine/Matrix.lean ====
section
/-! DEFINITION. The matrix engine: weight sets, signing, the queue, accumulation, the tile path and the engine reset
(15 R282 to R306, 04 R90 to R93, 06 R145). -/

namespace Sys2Proof.Machine

/-! ## Shapes (R282) -/

/-- Kc: the K a weight tile covers. -/
def kcOf (fmt : Nat) (sparse : Nat) : Nat :=
  (bif fmt ≤ 2 then 128 else bif fmt == 7 then 512 else 256) * bif sparse == 0 then 1 else 2
/-- Bytes of a column: its values, then its metadata. -/
def colBytes (fmt sparse : Nat) : Nat :=
  let kc := kcOf fmt sparse
  match sparse with
  | 0 => kc * eltBytes fmt
  | 1 => kc / 2 * eltBytes fmt + kc / 8
  | _ => kc / 2 * eltBytes fmt + kc / 16
/-- An activation format a weight format accepts. -/
def accepts (w a : Nat) : Bool := bif w ≤ 2 then a == 1 || a == 2 else decide (3 ≤ a) && decide (a ≤ 5)

/-! ## Accumulation (R90, R91) -/

/-- A term: activation, weight, combined exponent, and whether a scale used is 0xFF. -/
structure Term where
  a : FV
  w : FV
  e : Int
  bad : Bool
  deriving DecidableEq, Repr
/-- A status bit pattern: NV 1, OF 2, UF 4 (R285). -/
abbrev MFlags := Nat
/-- floor(|z| ÷ 2^q) with the sign of z. -/
def truncAt (q : Int) : FV → Int
  | .fin n m e => signed n (cut m e q).t
  | _ => 0
/-- The largest floor(log2 |z|) of nonzero values, none if all are zero. -/
def topExp : List FV → Option Int
  | [] => none
  | .fin _ m e :: rest =>
    if m = 0 then topExp rest
    else match topExp rest with
      | none => some (flog2 m e)
      | some k => some (max (flog2 m e) k)
  | _ :: rest => topExp rest
/-- One element of a step: the new accumulator and the flags (R91). -/
def accumulate (ts : List Term) (c : FV) : Word × MFlags :=
  let ps := ts.map fun t => (fmulV t.a t.w).map (FV.scale t.e)
  let zs := c :: ps.filterMap id
  if c.isNan || ts.any fun t => t.bad || t.a.isNan || t.w.isNan then (0x7FC00000#32, 0)
  else if ps.any Option.isNone || (zs.any fun z => z.isInf && z.neg) && (zs.any fun z => z.isInf && !z.neg) then (0x7FC00000#32, 1)
  else
    match zs.find? FV.isInf with
    | some z => (fpInf z.neg, 0)
    | none =>
      match topExp zs with
      | none => (0#32, 0)
      | some top =>
        let q := top - 60
        let sum := (zs.map (truncAt q)).foldl (· + ·) 0
        if sum = 0 then (0#32, 0)
        else
          let neg := decide (sum < 0)
          let g := max (flog2 sum.natAbs q - 23) q
          let k := (cut sum.natAbs q g).pick neg .rne 0
          if 128 ≤ flog2 k g then (fpInf neg, 2)
          else if flog2 k g < -126 then (bif neg then 0x80000000#32 else 0#32, 4)
          else (BitVec.ofNat 32 ((fmtOf 0).enc neg k g), 0)

/-! ## Weight columns and rows (R90, R291, R293 to R295) -/

/-- Positions of the stored values of a sparse column, from its metadata nibbles. -/
def namedPositions (sparse : Nat) (nibs : List Nat) : List Nat :=
  (nibs.zipIdx.map fun (n, g) =>
    let lo := n % 4
    let hi := n / 4
    bif sparse == 1 then [4 * g + lo, 4 * g + hi]
    else [8 * g + 2 * lo, 8 * g + 2 * lo + 1, 8 * g + 2 * hi, 8 * g + 2 * hi + 1]).flatten
/-- Nibbles of bytes, the lower first (R74). -/
def nibblesOf (bs : List Byte) : List Nat := bs.flatMap fun b => [b.toNat % 16, b.toNat / 16]
/-- Elements of a format from bytes. -/
def elemsOf (fmt n : Nat) (bs : List Byte) : List FV :=
  (chunksOf n (eltBytes fmt) (bs.take (n * eltBytes fmt))).map fun c => elemValue fmt (leNat c)
/-- The scale byte that holds a position; 0x7F without scales (R90). -/
def scaleAt (scales : List Byte) (p : Nat) : Nat :=
  bif scales.isEmpty then 0x7F else (scales.getD (p / 32) 0#8).toNat
/-- The exact weights of a column that a Hadamard transform forms (R293). -/
def hadColumn (n : Nat) (ws : List FV) (scales : List Byte) : List FV :=
  let xs := ws.zipIdx.map fun (w, p) =>
    let c := scaleAt scales p
    bif c == 0xFF then FV.nan false else w.scale ((c : Int) - 127)
  (chunksOf xs.length n xs).flatMap fun run => (List.range n).map fun j => (fsumV (hadTerms run j) .rne).1
/-- A set's column as positions and weights. -/
def WSet.column (x : WSet) (n : Nat) : List (Nat × FV) :=
  let fmt := x.fmt.toNat
  let kc := kcOf fmt x.sparse.toNat
  let bs := x.cols.getD n []
  if x.sparse = 0#2 then
    let ws := elemsOf fmt kc bs
    (List.range kc).zip (bif x.hadn == 0#2 then ws else hadColumn (8 <<< x.hadn.toNat) ws (x.scales.getD n []))
  else
    (namedPositions x.sparse.toNat (nibblesOf (bs.drop (kc / 2 * eltBytes fmt)))).zip (elemsOf fmt (kc / 2) bs)
/-- Scale bytes a column still has: none once a transform has taken them in (R293). -/
def WSet.colScales (x : WSet) (n : Nat) : List Byte := bif x.hadn == 0#2 then x.scales.getD n [] else []
/-- A row: its activations and its scale bytes. -/
structure Row where
  vals : List FV
  scales : List Byte
  deriving DecidableEq, Repr
/-- K of an operation. -/
def SigSpec.k (p : SigSpec) : Nat := 128 <<< p.ksz.toNat
/-- Bytes of an operation's row without its scales (R295). -/
def SigSpec.rowBytes (p : SigSpec) : Nat := p.k * eltBytes p.fmt.toNat
/-- Bytes of a row with its scales. -/
def SigSpec.allBytes (p : SigSpec) : Nat := p.rowBytes + bif p.as then p.k / 32 else 0
/-- A row from its bytes (R294, R295). -/
def SigSpec.row (p : SigSpec) (bs : List Byte) : Row :=
  ⟨elemsOf p.fmt.toNat p.k bs, bif p.as then (bs.drop p.rowBytes).take (p.k / 32) else []⟩
/-- The terms of one element over positions lo to lo + 511 or the whole set; the row starts at position `base`. -/
def termsOf (r : Row) (base lo len : Nat) (col : List (Nat × FV)) (scales : List Byte) : List Term :=
  col.filterMap fun (p, w) =>
    bif decide (lo ≤ p) && decide (p < lo + len) then
      let sa := scaleAt r.scales (p - base)
      let sw := scaleAt scales p
      some ⟨r.vals.getD (p - base) default, w, (sa : Int) - 127 + ((sw : Int) - 127), sa == 0xFF || sw == 0xFF⟩
    else none
/-- Steps of an operation on a set: where the row starts, and the halves it covers (R297). -/
def SigSpec.steps (p : SigSpec) (x : WSet) : Nat × List (Nat × Nat) :=
  if kcOf x.fmt.toNat x.sparse.toNat = 1024 then
    (if p.k = 1024 then (0, [(0, 512), (512, 512)]) else
      let h := bif p.kh then 512 else 0
      (h, [(h, 512)]))
  else (0, [(0, p.k)])
/-- One row of an operation into a tile: the tile and the flags (R297). -/
def stepRow (x : WSet) (base lo len : Nat) (zero : Bool) (at_ : Nat) (r : Row) (tile : Words) : Words × MFlags :=
  (List.range 64).foldl (fun (tile, f) n =>
    let k := at_ * 64 + n
    let c := bif zero then FV.fin false 0 0 else fp32 (tile.get k)
    let (y, g) := accumulate (termsOf r base lo len (x.column n) (x.colScales n)) c
    (tile.put k y, f ||| g)) (tile, 0)
/-- A whole operation on a tile (R297). -/
def performRows (p : SigSpec) (x : WSet) (rows : List (Nat × Row)) (tile : Words) : Words × MFlags :=
  let (base, halves) := p.steps x
  halves.zipIdx.foldl (fun (tile, f) ((lo, len), h) =>
    rows.foldl (fun (tile, f) (i, r) =>
      let (tile, g) := stepRow x base lo len (p.z && h == 0) (p.row0.toNat + i) r tile
      (tile, f ||| g)) (tile, f)) (tile, 0)

/-! ## The queue (R286) -/

/-- The matrix queue of a core takes an entry (R286, R305). -/
def State.mxRoom (s : State) (core : Nat) : Bool := decide ((s.core core).mxQ.length < 32) && !(s.core core).mxReset
/-- Enter a command. -/
def State.mxPut (s : State) (core h : Nat) (c : MxCmd) : State :=
  s.modCore core fun k => { k with mxQ := k.mxQ ++ [⟨k.mxNo, h, c, k.clock⟩], mxNo := k.mxNo + 1 }
/-- The entry is an operation of a higher convergence register than c whose last signature came on a clock (R147). -/
def MxEntry.later (e : MxEntry) (c clk : Nat) : Bool :=
  e.clk == clk && (match e.cmd with
    | .op d _ _ _ => decide (c < d)
    | _ => false)
/-- Enter an operation whose last signature came on a clock: before those of higher register number with the same clock (R147). -/
def State.mxPutOp (s : State) (core h c clk : Nat) (op : MxCmd) : State :=
  s.modCore core fun k =>
    let n := (k.mxQ.findIdx? fun e => e.later c clk).getD k.mxQ.length
    { k with mxQ := k.mxQ.take n ++ ⟨k.mxNo, h, op, clk⟩ :: k.mxQ.drop n, mxNo := k.mxNo + 1 }
/-- Take an operation back out of the queue: its register is issuing again, and its signers wait (R14, R147). -/
def State.takeBack (s : State) (core : Nat) (e : MxEntry) : State :=
  match e.cmd with
  | .op c p rows b =>
    let s := s.modCore core fun k => { k with mxQ := k.mxQ.filter fun x => x.id != e.id }
    let s := s.modCv (s.share e.share).task c fun y => { y with state := .issuing, sigs := rows, spec := some p, bound := some b }
    s.modAgents (fun a => { a with status := bif a.status == .ready then .parked (.engine 2) else a.status }) (rows.map (·.1))
  | _ => s
/-- The operation's register has not been used again. -/
def State.isFresh (s : State) (e : MxEntry) : Bool :=
  match e.cmd with
  | .op c _ _ _ => (s.cv (s.share e.share).task c).state == .idle
  | _ => false
/-- Room for an operation whose last signature came on a clock: in a full queue, that of the highest register above it whose last signature came on the same clock, which enters after it (R147). -/
def State.makeRoom (s : State) (core c clk : Nat) : State :=
  bif s.mxRoom core then s
  else match (s.core core).mxQ.reverse.find? fun e => e.later c clk && s.isFresh e with
    | some e => s.takeBack core e
    | none => s
/-- The tile a command names. -/
def MxCmd.tile : MxCmd → Option (BitVec 3)
  | .op _ p _ _ => some p.tile
  | .aclr t => some t
  | .ard t _ _ => some t
  | .awr t _ _ => some t
  | .adrain t _ _ _ _ _ _ _ _ _ _ => some t
  | _ => none
/-- The command is an ADRAIN. -/
def MxCmd.isAdrain : MxCmd → Bool
  | .adrain .. => true
  | _ => false
/-- The command is an operation of the array. -/
def MxCmd.isOp : MxCmd → Bool
  | .op .. => true
  | _ => false
/-- The command is a WLOAD. -/
def MxCmd.isWload : MxCmd → Bool
  | .wload .. => true
  | _ => false
/-- Entries of a share before position k. -/
def aheadOf (q : List MxEntry) (k h : Nat) : List MxEntry := (q.take k).filter fun e => e.share == h
/-- No earlier entry of its share names the entry's tile (R286). -/
def tileFree (q : List MxEntry) (k : Nat) (e : MxEntry) : Bool :=
  !((aheadOf q k e.share).any fun x => x.cmd.tile == e.cmd.tile)
/-- The array and the tile path do nothing for a share: its task has stopped, or its tiles are still to be filled (R237, R247). -/
def State.mxWaits (s : State) (h : Nat) : Bool := s.stopped (s.share h).task || (s.share h).saved.tiles
/-- Operations that have entered or are to enter the queue bound to a set. -/
def State.boundOps (s : State) (h set : Nat) : Bool :=
  let uses : MxEntry → Bool := fun e => e.share == h && (match e.cmd with
    | .op _ _ _ b => b == set
    | .wload b _ _ _ => b == set
    | _ => false)
  (s.core (s.share h).core).mxQ.any uses || (s.share h).saved.mx.any uses ||
  (s.task (s.share h).task).cvs.any fun c => c.state == .issuing && c.share == h && c.bound == some set
/-- Free the retired sets that no operation in the queue is bound to (R288). -/
def State.freeSets (s : State) (h : Nat) : State :=
  let keep := (s.share h).sets.filter fun x => !x.retired || s.boundOps h x.id
  s.modShare h fun y => { y with sets := keep }
/-- A signer's registers as they stand when its operation enters the queue, at the issue distance of its MMA (R57, R117, R145). -/
def State.readRow (s : State) (ag : Nat) : RowSrc → RowSrc
  | .reading r n at_ =>
    let a := s.agent ag
    .values ((List.range n).map fun k =>
      seeThrough at_ (Config.freeChoice s.free ag (r + k) (10 + k)) (.reg (r + k)) 0 (a.get (.reg (r + k))) a.pend)
  | src => src
/-- The operation of an issuing register enters the queue, and the register goes idle (R145, R286). -/
def State.enterOp (s : State) (t c : Nat) : State :=
  let x := s.cv t c
  match x.state, x.spec, x.bound with
  | .issuing, some p, some b =>
    let core := (s.share x.share).core
    let s := s.makeRoom core c x.signed
    if s.mxRoom core then
      let rows := (List.range x.n).filterMap fun i => (x.sigs.find? fun g => g.2.1 == i).map fun g => (g.1, i, s.readRow g.1 g.2.2)
      let s := s.mxPutOp core x.share c x.signed (.op c p rows b)
      let s := s.modAgents (unparkIf (.engine 2)) (x.sigs.map (·.1))
      s.modCv t c fun y => { y with state := .idle, sigs := [], spec := none, bound := none }
    else s
  | _, _, _ => s
/-- Operations that wait for room enter the queue of a core: by the clock of their last signatures, then in ascending register number (R147). -/
def State.enterIssuing (s : State) (core : Nat) : State :=
  let ts := runs (((List.range s.lanes.shares.length).filter fun h => (s.share h).core == core && (s.share h).state == .resident).map
    fun h => (s.share h).task)
  let xs := (ts.flatMap fun t => (List.range 16).map fun c => 16 * t + c).filter fun k =>
    (s.cv (k / 16) (k % 16)).state == .issuing && (s.share (s.cv (k / 16) (k % 16)).share).core == core
  (sortBy (fun k => 16 * (s.cv (k / 16) (k % 16)).signed + k % 16) xs).foldl (fun s k => s.enterOp (k / 16) (k % 16)) s
/-- Take an entry out of a core's queue after it is performed. -/
def State.mxDone (s : State) (core id h : Nat) : State :=
  let s := s.modCore core fun k => { k with mxQ := k.mxQ.filter fun e => e.id != id }
  (s.freeSets h).enterIssuing core
/-- A body that parks every participant while the queue is full (R14, R292), and else is elected. -/
def mxElected (f : Nat → State → State × Fate) : List Nat → State → State × List (Nat × Fate) :=
  elected fun ag s => if s.mxRoom (s.coreOf ag) then f ag s else (s, .wait (.engine 2))
/-- A body that enters one command for all participants. -/
def mxJoint (f : List Nat → State → State) (ags : List Nat) (s : State) : State × List (Nat × Fate) :=
  match ags with
  | [] => (s, [])
  | a :: _ =>
    if s.mxRoom (s.coreOf a) then (f ags s, ags.map fun b => (b, .next)) else (s, ags.map fun b => (b, .wait (.engine 2)))

/-! ## WLOAD and WREL (R288, R290 to R292) -/

/-- The sets a share holds that are not retired, oldest first. -/
def Share.held (x : Share) : List WSet := x.sets.filter fun w => !w.retired
/-- Retire sets by number. -/
def Share.retire (x : Share) (ids : List Nat) : Share :=
  { x with sets := x.sets.map fun w => bif ids.elem w.id then { w with retired := true } else w }
/-- A WLOAD enters: the older of two sets retires, and unbound operations not yet in the queue are bound, with those whose CVSET took effect on this clock, which counts as after it (R288). -/
def State.enterWload (s : State) (ag : Nat) (sparse hadn : BitVec 2) (fmt : BitVec 4) (va : DWord) (stride : Nat) (sc : Option DWord) : State :=
  let h := s.shareOf ag
  let t := s.taskOf ag
  let now := (s.core (s.coreOf ag)).clock
  let id := (s.share h).wloads
  let old := match (s.share h).held with
    | a :: _ :: _ => [a.id]
    | _ => []
  let s := s.modShare h fun x =>
    let x := x.retire old
    { x with sets := x.sets ++ [⟨id, fmt, sparse, false, false, [], [], hadn⟩], wloads := id + 1, current := some id }
  let s := (s.mxPut (s.coreOf ag) h (.wload id va stride sc)).freeSets h
  (s.modTask t fun k =>
    { k with cvs := k.cvs.map fun c =>
        bif c.share == h && ((c.state == .declared && (c.bound.isNone || c.clk == now)) || (c.state == .issuing && c.bound.isNone))
        then { c with bound := some id } else c }).enterIssuing (s.coreOf ag)
/-- What a WLOAD reads: its 64 columns and its scales (R291). -/
def wloadTouches (va : DWord) (stride : Nat) (sc : Option DWord) (cb kc : Nat) : List Touch :=
  ((List.range 64).map fun n => Touch.mk (va + BitVec.ofNat 64 (n * stride)) cb false) ++
  (match sc with
   | some p => [⟨p, 2 * kc, false⟩]
   | none => [])
/-- WLOAD by its elected thread or front end; of misaligned addresses the lower one is reported (R70, R292). -/
def State.wload1 (s : State) (ag : Nat) (sparse hadn : BitVec 2) (fmt : BitVec 4) (a : Reg) (b : Src) (c : Reg) : State × Fate :=
  match s.drainGroup ag with
  | (s, false) => (s, .stall)
  | (s, true) =>
    let va := s.a64 ag a
    let sc := bif c == 255#8 then none else some (s.c64 ag c)
    let stride := (s.b32 ag b).toNat
    let cb := colBytes fmt.toNat sparse.toNat
    let kc := kcOf fmt.toNat sparse.toNat
    let p := sc.getD 0#64
    if p.toNat % 64 ≠ 0 ∧ (va.toNat % 128 = 0 ∨ p.toNat < va.toNat) then (s, .trap 0x03 p 0#32)
    else if va.toNat % 128 ≠ 0 then (s, .trap 0x03 va 0#32)
    else if stride % 16 ≠ 0 ∨ stride < cb ∨ 2 ^ 24 ≤ stride then (s, reason5 8)
    else
      let ts := wloadTouches va stride sc cb kc
      match s.checkRanges ag ts with
      | (s, some f) => (s, f)
      | (s, none) => (s.enterWload ag sparse hadn fmt va stride sc, .next)
/-- WREL: both sets of the share retire (R288, R303). -/
def State.wrel1 (s : State) (ag : Nat) : State :=
  let h := s.shareOf ag
  let s := s.modShare h fun x => { x.retire ((x.sets).map (·.id)) with current := none }
  (s.mxPut (s.coreOf ag) h .wrel).freeSets h

/-! ## Signing (R145, R289, R294 to R297) -/

/-- Cause 0x0F (R289). -/
def stale (c reason : Nat) : Fate := .trap 0x0F 0#64 (BitVec.ofNat 32 (65536 * c + reason))
/-- A row that is read from memory (R295). -/
def RowSrc.inMemory : RowSrc → Bool
  | .pad _ => true
  | .glob _ => true
  | _ => false
/-- An operation's K and KH match a set, for an MMA or an MMAM (R297). -/
def SigSpec.matches_ (p : SigSpec) (mem : Bool) (x : WSet) : Bool :=
  let kc := kcOf x.fmt.toNat x.sparse.toNat
  accepts x.fmt.toNat p.fmt.toNat &&
  bif kc == 1024 then p.k == (bif mem then 1024 else 512) else p.k == kc && !p.kh
/-- The reason of cause 0x0A that a signature meets (R145, R296), the lowest-listed of its state. -/
def Cv.refuses (x : Cv) (ag tid : Nat) (p : SigSpec) : Option Nat :=
  match x.state with
  | .idle => some 6
  | .poisoned => some 9
  | .issuing => some 11
  | .declared =>
    if tid < x.t0 ∨ x.t0 + x.n ≤ tid then some 8
    else if x.sigs.any fun g => g.1 == ag then some 7
    else if x.spec ≠ none ∧ x.spec ≠ some p then some 4
    else if 128 < p.row0.toNat + x.n then some 5
    else none
/-- A signature (R145): checked, recorded, and with the last one the operation enters the queue. During an engine reset it is checked at once (R305): the model's choice, log entry 19. -/
def State.sign (s : State) (ag c : Nat) (p : SigSpec) (src : RowSrc) : State × Fate :=
  let t := s.taskOf ag
  let x := s.cv t c
  match x.refuses ag (s.tid ag) p with
  | some r => (s, .trap 0x0A 0#64 (cvInfo c r))
  | none =>
    match (x.bound.bind fun b => (s.share x.share).sets.find? fun w => w.id == b).filter fun w => !w.retired with
    | none => (s.modCv t c fun y => { y with bound := none }, stale c 1)
    | some w =>
      if !p.matches_ src.inMemory w then (s, stale c 2)
      else
        let sigs := x.sigs ++ [(ag, s.tid ag - x.t0, src)]
        let last := sigs.length == x.n
        let now := (s.core (s.coreOf ag)).clock
        let s := s.modCv t c fun y =>
          { y with sigs := sigs, spec := some p, state := bif last then .issuing else .declared, signed := now }
        if last then
          let s := s.enterOp t c
          (s, bif (s.cv t c).state == .issuing then .past (.engine 2) else .next)
        else (s, .next)
/-- MMA of one thread: its row stands in its registers, and is read as the operation enters the queue (R145, R294). -/
def State.mma1 (s : State) (ag c : Nat) (p : SigSpec) (a : Reg) : State × Fate :=
  match s.drainIssuer ag with
  | (s, false) => (s, .stall)
  | (s, true) =>
    s.sign ag c p (.reading a.toNat (p.allBytes / 4) (s.agent ag).issued)
/-- MMAM of one thread: the row's address is checked at the signature (R295). -/
def State.mmam1 (s : State) (ag c : Nat) (p : SigSpec) (a : Reg) (disp : Disp) : State × Fate :=
  match s.drainIssuer ag with
  | (s, false) => (s, .stall)
  | (s, true) =>
    if p.sp then
      let off := (s.eaPad ag a (Disp64 disp)).toNat
      if off % 16 ≠ 0 then (s, .trap 0x03 (BitVec.ofNat 64 off) 0#32)
      else if (s.share (s.shareOf ag)).size < off + p.allBytes then (s, reason5 6)
      else s.sign ag c p (.pad off)
    else
      let ea := s.ea ag a (Disp64 disp)
      if ea.toNat % 16 ≠ 0 then (s, .trap 0x03 ea 0#32)
      else
        match s.checkRanges ag [⟨ea, p.allBytes, false⟩] with
        | (s, some f) => (s, f)
        | (s, none) => s.sign ag c p (.glob ea)

/-! ## ADRAIN (R300, R301) -/

/-- ROW0 and count of ADRAIN's C operand. -/
def drainSpan (c : Option Word) : Nat × Nat :=
  match c with
  | none => (0, 128)
  | some x =>
    let n := (x.extractLsb' 8 8).toNat
    ((x.extractLsb' 0 7).toNat, if n = 0 then 128 else n)
/-- What an ADRAIN writes in global memory. -/
def drainTouches (dest : DWord) (stride n rb : Nat) : List Touch := (List.range n).map fun r => ⟨dest + BitVec.ofNat 64 (r * stride), rb, true⟩
/-- ADRAIN by its elected thread or front end: alignment, stride, rows, window, pages, charge (R301). -/
def State.adrain1 (s : State) (ag : Nat) (sat clr sp : Bool) (scale : BitVec 8) (fmt : BitVec 4) (t : BitVec 3) (a : Reg) (b : Src) (c : Reg) :
    State × Fate :=
  match s.drainGroup ag with
  | (s, false) => (s, .stall)
  | (s, true) =>
    let h := s.shareOf ag
    let dest := bif sp then (s.a32 ag a).setWidth 64 else s.a64 ag a
    let stride := (s.b32 ag b).toNat
    let (row0, n) := drainSpan (bif c == 255#8 then none else some (s.c32 ag c))
    let rb := 64 * eltBytes fmt.toNat
    if dest.toNat % 16 ≠ 0 then (s, .trap 0x03 dest 0#32)
    else if stride % 16 ≠ 0 ∨ stride < rb ∨ 2 ^ 24 ≤ stride then (s, reason5 8)
    else if 128 < row0 + n then (s, reason5 9)
    else
      let put := fun (s : State) (blocks : List Nat) =>
        s.mxPut (s.coreOf ag) h (.adrain t fmt sat clr scale sp dest stride row0 n blocks)
      if sp then
        if (s.share h).size < dest.toNat + (n - 1) * stride + rb then (s, reason5 6)
        else
          let s := (List.range n).foldl (fun s r => s.padAbsent h (dest.toNat + r * stride) rb) s
          (put s [], .next)
      else
        let ts := drainTouches dest stride n rb
        match s.checkRanges ag ts with
        | (s, some f) => (s, f)
        | (s, none) => s.charged ag ts fun s blocks => (put s blocks, .next)
/-- Every participant of an ADRAIN's issue waits for it where R302 says so. -/
def noteDrain (f : List Nat → State → State × List (Nat × Fate)) (ags : List Nat) (s0 : State) : State × List (Nat × Fate) :=
  let core := s0.coreOf (ags.headD 0)
  let id := (s0.core core).mxNo
  let (s, fs) := f ags s0
  (bif (s.core core).mxNo == id then s else s.modAgents (fun a => { a with drains := id :: a.drains }) ags, fs)

/-! ## Meanings -/

/-- WLOAD (R290). -/
def execWload (c0 : Ctl) (sparse : BitVec 2) (hadn : BitVec 2) (fmt : BitVec 4) (a : Reg) (b : Src) (c : Reg) (s : State) : Result :=
  .next (s.issue (.wload c0 sparse hadn fmt a b c) (mxElected fun ag s => s.wload1 ag sparse hadn fmt a b c))
/-- MMA (R294). -/
def execMma (c0 : Ctl) (row0 : BitVec 7) (z : Bool) (as : Bool) (ksz : BitVec 2) (kh : Bool) (fmt : BitVec 4) (t : BitVec 3) (a : Reg) (cv : BitVec 4) (s : State) : Result :=
  .next (s.issue (.mma c0 row0 z as ksz kh fmt t a cv) (perThread fun ag s =>
    s.mma1 ag cv.toNat ⟨t, fmt, ksz, kh, as, z, row0, false⟩ a))
/-- MMAM (R294, R295). -/
def execMmam (c0 : Ctl) (row0 : BitVec 7) (z : Bool) (as : Bool) (ksz : BitVec 2) (sp : Bool) (fmt : BitVec 4) (t : BitVec 3) (a : Reg) (cv : BitVec 4) (disp : Disp) (s : State) : Result :=
  .next (s.issue (.mmam c0 row0 z as ksz sp fmt t a cv disp) (perThread fun ag s =>
    s.mmam1 ag cv.toNat ⟨t, fmt, ksz, false, as, z, row0, sp⟩ a disp))
/-- ACLR (R299). -/
def execAclr (c0 : Ctl) (t : BitVec 3) (s : State) : Result :=
  .next (s.issue (.aclr c0 t) (mxElected fun ag s => (s.mxPut (s.coreOf ag) (s.shareOf ag) (.aclr t), .next)))
/-- ARD of all participants: each receives its own row's chunk when the entry is performed (R299). -/
def State.ardAll (s0 : State) (chunk : BitVec 3) (d : Reg) (t : BitVec 3) (b : Src) (ags : List Nat) (s : State) : State :=
  let a := ags.headD 0
  let s := ags.foldl (fun s ag => s.out ag false false ((List.range 8).map fun j => toRegN (d.toNat + j) 0#32) 0#5) s
  s.mxPut (s0.coreOf a) (s0.shareOf a) (.ard t chunk.toNat (ags.map fun ag => (ag, s0.resNo ag, (s0.b32 ag b).toNat % 128)))
/-- AWR of all participants, in ascending %tid (R299). -/
def State.awrAll (s : State) (chunk : BitVec 3) (t : BitVec 3) (a : Reg) (b : Src) (ags : List Nat) : State :=
  let x := ags.headD 0
  s.mxPut (s.coreOf x) (s.shareOf x) (.awr t chunk.toNat (ags.map fun ag =>
    ((s.b32 ag b).toNat % 128, (List.range 8).map fun j => s.regN ag (10 + j) (a.toNat + j))))
/-- MSTAT of all participants: the word is read once for the issue (R303). -/
def State.mstatAll (s0 : State) (keep : Bool) (d : Reg) (ags : List Nat) (s : State) : State :=
  let a := ags.headD 0
  let s := ags.foldl (fun s ag => s.out ag false false [toReg d 0#32] 0#5) s
  s.mxPut (s0.coreOf a) (s0.shareOf a) (.mstat keep (ags.map fun ag => (ag, s0.resNo ag)))
/-- ARD (R299). -/
def execArd (c0 : Ctl) (chunk : BitVec 3) (d : Reg) (t : BitVec 3) (b : Src) (s : State) : Result :=
  .next (s.issue (.ard c0 chunk d t b) (mxJoint fun ags s => s.ardAll chunk d t b ags s))
/-- AWR (R299). -/
def execAwr (c0 : Ctl) (chunk : BitVec 3) (t : BitVec 3) (a : Reg) (b : Src) (s : State) : Result :=
  .next (s.issue (.awr c0 chunk t a b) (mxJoint fun ags s => s.awrAll chunk t a b ags))
/-- ADRAIN (R300). -/
def execAdrain (c0 : Ctl) (sat : Bool) (clr : Bool) (sp : Bool) (scale : BitVec 8) (fmt : BitVec 4) (t : BitVec 3) (a : Reg) (b : Src) (c : Reg) (s : State) : Result :=
  .next (s.issue (.adrain c0 sat clr sp scale fmt t a b c) (noteDrain (mxElected fun ag s => s.adrain1 ag sat clr sp scale fmt t a b c)))
/-- WREL (R303). -/
def execWrel (c0 : Ctl) (s : State) : Result :=
  .next (s.issue (.wrel c0) (mxElected fun ag s => (s.wrel1 ag, .next)))
/-- MSTAT (R303). -/
def execMstat (c0 : Ctl) (keep : Bool) (d : Reg) (s : State) : Result :=
  .next (s.issue (.mstat c0 keep d) (mxJoint fun ags s => s.mstatAll keep d ags s))

/-! ## Entries performed (R286 to R288, R297, R299 to R303) -/

/-- The share may run engine entries: its task still exists. -/
def State.entryAt (s : State) (core k : Nat) : Option MxEntry := (s.core core).mxQ[k]?
/-- WEIGHT_LATCH: the oldest WLOAD of a share latches, where a set is free and no hand-over holds what it reads (R287, R288, R291, R370). Each byte may be read at any moment between issue and latch (R292); the model reads all of the tile and its scales as it latches: its choice; log entry 24. -/
def State.latch (s : State) (h : Nat) : Option State :=
  let core := (s.share h).core
  let q := (s.core core).mxQ
  let t := (s.share h).task
  match q.findIdx? fun e => e.share == h && e.cmd.isWload with
  | none => none
  | some k =>
    match (q.getD k default) with
    | ⟨id, _, .wload set va stride sc, _⟩ =>
      let full := decide (2 ≤ ((s.share h).sets.filter (·.latched)).length)
      if full || s.stopped t || (aheadOf q k h).any fun e => e.cmd.isAdrain then none
      else
        ((s.share h).sets.find? fun w => w.id == set && !s.engHeld t core (pagesOf
            (wloadTouches va stride sc (colBytes w.fmt.toNat w.sparse.toNat) (kcOf w.fmt.toNat w.sparse.toNat)))).map fun w =>
          let cb := colBytes w.fmt.toNat w.sparse.toNat
          let nb := kcOf w.fmt.toNat w.sparse.toNat / 32
          let (s, cols) := (List.range 64).foldl (fun (s, cs) n =>
            let (s, bs) := s.engReadN t (.tiles core) (va + BitVec.ofNat 64 (n * stride)) cb
            (s, cs ++ [bs])) (s, [])
          let (s, scs) := match sc with
            | none => (s, [])
            | some p => (List.range 64).foldl (fun (s, cs) n =>
              let (s, bs) := s.engReadN t (.tiles core) (p + BitVec.ofNat 64 (n * nb)) nb
              (s, cs ++ [bs])) (s, [])
          let s := s.modShare h fun x =>
            { x with sets := x.sets.map fun y => bif y.id == set then { y with latched := true, cols := cols, scales := scs } else y }
          s.mxDone core id h
    | _ => none
/-- The bytes of a row when an operation is performed; none while a scratchpad line is absent, or a hand-over holds its page (R295, R297, R370). -/
def State.rowBytes (s : State) (h t core n : Nat) : RowSrc → Option (State × List Byte)
  | .values ws => some (s, bytesOf ws)
  | .reading _ _ _ => none
  | .pad off =>
    bif (padLines off n).any fun l => (s.share h).absent.elem l then none else some (s, (s.share h).pad.getN off n)
  | .glob va => bif s.engHeld t core (pagesOf [⟨va, n, false⟩]) then none else some (s.engReadN t (.tiles core) va n)
/-- The rows of an operation. -/
def State.readRows (s : State) (h t core : Nat) (p : SigSpec) : List (Nat × Nat × RowSrc) → Option (State × List (Nat × Row))
  | [] => some (s, [])
  | (_, i, src) :: rest =>
    match s.rowBytes h t core p.allBytes src with
    | none => none
    | some (s, bs) =>
      (s.readRows h t core p rest).map fun (s, rs) => (s, (i, p.row bs) :: rs)
/-- Change a tile and the status word of a share. -/
def State.setTile (s : State) (h : Nat) (t : BitVec 3) (f : Words → Words) (st : Nat) : State :=
  s.modShare h fun x => { x with tiles := x.tiles.modify t.toNat f, mstatus := x.mstatus ||| BitVec.ofNat 32 st }
/-- MATRIX_OPERATION: the array's next operation in queue order (R286, R297). -/
def State.operate (s : State) (core : Nat) : Option State :=
  let q := (s.core core).mxQ
  if (s.core core).mxReset then none
  else
  match q.findIdx? fun e => e.cmd.isOp with
  | none => none
  | some k =>
    let e := q.getD k default
    match e.cmd with
    | .op _ p rows set =>
      let h := e.share
      let ahead := aheadOf q k h
      match (s.share h).sets.find? fun w => w.id == set with
      | none => none
      | some w =>
        if !w.latched || !tileFree q k e || s.mxWaits h || ((rows.any fun r => r.2.2.inMemory) && ahead.any fun x => x.cmd.isAdrain) then none
        else
          (s.readRows h (s.share h).task core p rows).map fun (s, rs) =>
            let (tile, f) := performRows p w rs ((s.share h).tiles.getD p.tile.toNat [])
            (s.setTile h p.tile (fun _ => tile) f).mxDone core e.id h
    | _ => none
/-- Put eight words into a row of a tile. -/
def putChunk (tile : Words) (row chunk : Nat) (ws : List Word) : Words :=
  (ws.zipIdx).foldl (fun t (w, j) => t.put (row * 64 + 8 * chunk + j) w) tile
/-- TILE_PATH_ENTRY: the k-th entry of a core's queue, an ACLR, ARD, AWR, WREL or MSTAT (R286, R299, R303). -/
def State.tilePath (s : State) (core k : Nat) : Option State :=
  let q := (s.core core).mxQ
  if (s.core core).mxReset then none
  else
  match q[k]? with
  | none => none
  | some e =>
    let h := e.share
    let tileAt := fun (t : BitVec 3) => (s.share h).tiles.getD t.toNat []
    let free := tileFree q k e && !(s.share h).saved.tiles
    match e.cmd with
    | .aclr t => bif free then some ((s.setTile h t (fun _ => []) 0).mxDone core e.id h) else none
    | .ard t chunk ts =>
      bif free then
        some ((ts.foldl (fun s (ag, id, row) =>
          s.fillOut ag id ((List.range 8).map fun j => (tileAt t).get (row * 64 + 8 * chunk + j))) s).mxDone core e.id h)
      else none
    | .awr t chunk rows =>
      bif free then
        some ((s.setTile h t (fun x => rows.foldl (fun x (row, ws) => putChunk x row chunk ws) x) 0).mxDone core e.id h)
      else none
    | .wrel => some (s.mxDone core e.id h)
    | .mstat keep ts =>
      bif (aheadOf q k h).isEmpty then
        let w := (s.share h).mstatus
        let s := ts.foldl (fun s (ag, id) => s.fillOut ag id [w]) s
        let s := bif keep then s else s.modShare h fun x => { x with mstatus := 0#32 }
        some (s.mxDone core e.id h)
      else none
    | _ => none
/-- Status bits of ADRAIN's conversions: DNX, DUF, DOF, DNV (R285, R300). -/
def drainFlags (f : FFlags) : Nat :=
  (bif f &&& fNX != 0#5 then 128 else 0) + (bif f &&& fUF != 0#5 then 64 else 0) +
  (bif f &&& fOF != 0#5 then 32 else 0) + bif f &&& fNV != 0#5 then 16 else 0
/-- One row of a drain: its bytes and the flags. -/
def drainRow (fmt : Nat) (sat : Bool) (scale : BitVec 8) (tile : Words) (row : Nat) : List Byte × FFlags :=
  let ys := (List.range 64).map fun n =>
    convert fmt ((fp32 (tile.get (row * 64 + n))).scale ((scale.toNat : Int) - 127)) .rne sat 0
  (elemBytes fmt (ys.map (·.1)), ys.foldl (fun f y => f ||| y.2) 0#5)
/-- Write the rows of an ADRAIN and take the flags (R300). -/
def State.drainRows (s : State) (core h t : Nat) (fmt : Nat) (sat : Bool) (scale : BitVec 8) (sp : Bool) (dest : DWord) (stride row0 n : Nat)
    (tile : Words) : State × FFlags :=
  (List.range n).foldl (fun (s, f) r =>
    let (bs, g) := drainRow fmt sat scale tile (row0 + r)
    (bif sp then s.padWrite h (dest.toNat + r * stride) bs
     else s.engWriteN t (taskMaker t) core (dest + BitVec.ofNat 64 (r * stride)) bs, f ||| g)) (s, 0#5)
/-- ADRAIN_COMPLETE: the k-th entry of a core's queue, an ADRAIN (R300, R302, R379); none while a hand-over holds a page of it (R370) or its writes wait for a commit. Before it completes a reader may see any of its bytes written (R112, R302); the model writes them all as it completes: its choice; log entry 24. -/
def State.finishDrain (s : State) (core k : Nat) : Option State :=
  let q := (s.core core).mxQ
  if (s.core core).mxReset then none
  else
  match q[k]? with
  | none => none
  | some e =>
    match e.cmd with
    | .adrain t fmt sat clr scale sp dest stride row0 n blocks =>
      let h := e.share
      let tk := (s.share h).task
      let ts := bif sp then [] else drainTouches dest stride n (64 * eltBytes fmt.toNat)
      if !tileFree q k e || s.mxWaits h || s.engHeld tk core (pagesOf ts) || s.engShort tk core ts then none
      else
        match s.engBudget tk ((s.agentsOfShare h).find? fun a => (s.agent a).drains.elem e.id) (s.engLines tk core ts) dest with
        | .held => none
        | .failed s => some s
        | .done s =>
          let (s, f) := s.drainRows core h tk fmt.toNat sat scale sp dest stride row0 n ((s.share h).tiles.getD t.toNat [])
          let clear := fun (x : Words) => bif clr then
            x.filter fun (i, _) => decide (i < row0 * 64) || decide ((row0 + n) * 64 ≤ i) else x
          let s := s.setTile h t clear (drainFlags f)
          let s := s.modAgents (fun a => { a with drains := a.drains.filter (· != e.id) }) (s.agentsOfShare h)
          some ((s.mxDone core e.id h).releaseIdle blocks)
    | _ => none
/-- WEIGHT_LATCH (R288). -/
def execWeightLatch (sh : Nat) (s : State) : Result :=
  .next (bif (s.core (s.share sh).core).mxReset then s else (s.latch sh).getD s)
/-- MATRIX_OPERATION (R297). -/
def execMatrixOperation (core : Nat) (s : State) : Result := .next ((s.operate core).getD s)
/-- TILE_PATH_ENTRY (R286). -/
def execTilePathEntry (core k : Nat) (s : State) : Result := .next ((s.tilePath core k).getD s)
/-- ADRAIN_COMPLETE (R300). -/
def execAdrainComplete (core k : Nat) (s : State) : Result := .next ((s.finishDrain core k).getD s)

/-! ## Engine reset (R305, R251) -/

/-- Tiles a share's discarded operations name: in the queue, and declared with a signature. -/
def State.lostTiles (s : State) (h : Nat) : List (BitVec 3) :=
  ((s.core (s.share h).core).mxQ.filterMap fun e => bif e.share == h then (match e.cmd with
      | .op _ p _ _ => some p.tile
      | _ => none) else none) ++
  ((s.task (s.share h).task).cvs.filterMap fun c =>
    bif c.share == h && (c.state == .declared || c.state == .issuing) then c.spec.map (·.tile) else none)
/-- Registers of a share's discarded operations, as the reset leaves them (R305). -/
def State.resetCvs (s : State) (h : Nat) (queued : List Nat) : State :=
  let t := (s.share h).task
  (List.range 16).foldl (fun s c =>
    let x := s.cv t c
    if x.share = h ∧ (x.state = .declared ∨ x.state = .issuing) ∧ x.sigs ≠ [] then
      let s := x.sigs.foldl (fun s g => (s.modAgent g.1 (unparkIf (.engine 2))).addAsync g.1 ⟨0x0A, 0#64, cvInfo c 10⟩) s
      s.modCv t c fun y => { y with state := .poisoned, sigs := [], spec := none, bound := none }
    else if x.state = .idle ∧ queued.elem c then s.modCv t c fun y => { y with state := .poisoned }
    else if x.state = .declared ∧ x.share = h then s.modCv t c fun y => { y with bound := none }
    else s) s
/-- A tile with every element the canonical NaN. -/
def nanTile : Words := (List.range 8192).map fun k => (k, 0x7FC00000#32)
/-- What a reset does to one share (R305, R251). A task that has stopped already goes on as its fault has it (R237, R238). -/
def State.resetShare (s : State) (h : Nat) : State :=
  let t := (s.share h).task
  let tiles := s.lostTiles h
  let queued := (s.core (s.share h).core).mxQ.filterMap fun e => bif e.share == h then (match e.cmd with
      | .op c _ _ _ => some c
      | _ => none) else none
  let mask := tiles.foldl (fun m x => m ||| (1#32 <<< x.toNat)) 0#32
  let s := s.resetCvs h queued
  let s := s.modShare h fun x => { x with sets := [], current := none }
  if tiles = [] then s
  else
    let s := tiles.foldl (fun s x => s.setTile h x (fun _ => nanTile) 0x100) s
    if s.stopped t then s.dropEngines h
    else if s.unsettled t then (s.toRestart t).dropEngines h
    else
      let s := s.taskRecord t 0 ⟨0x0E, 0#64, 0#64, mask, 0xFFFFFFFF#32, false, 0⟩ 0
      (s.agentsOfTask t).foldl (fun s ag => s.addAsync ag ⟨0x0E, 0#64, mask⟩) s
/-- The fault record of a settled share that loses operations cannot be written yet (R240, R251). -/
def State.resetHeld (s : State) (h : Nat) : Bool :=
  !s.stopped (s.share h).task && !s.unsettled (s.share h).task && !(s.lostTiles h).isEmpty &&
  s.recordHeld (s.task (s.share h).task).launch
/-- MATRIX_ENGINE_RESET: sets, operations and WLOADs are lost, other entries wait for the end of the reset (R305); it begins once its fault records can be written (R240). -/
def State.mxStartReset (s : State) (core : Nat) : State :=
  if (s.core core).mxReset || (s.residents core).any s.resetHeld then s
  else
    let s := (s.residents core).foldl State.resetShare s
    s.modCore core fun k => { k with mxReset := true, mxQ := k.mxQ.filter fun e => !(e.cmd.isOp || e.cmd.isWload) }
/-- MATRIX_ENGINE_RESET (R305). -/
def execMatrixEngineReset (core : Nat) (s : State) : Result := .next (s.mxStartReset core)
/-- MATRIX_RESET_END: entries that waited are performed again in queue order, and issuers resume (R305). -/
def execMatrixResetEnd (core : Nat) (s : State) : Result :=
  .next ((s.modCore core fun k => { k with mxReset := false }).enterIssuing core)

end Sys2Proof.Machine
end

