-- ==== Sys2Proof/Machine/Xunit.lean ====
section
/-! DEFINITION. The extrapolation unit: its arithmetic, its commands and its queue (17 R311 to R324). -/

namespace Sys2Proof.Machine

/-! ## Arithmetic (R317) -/

/-- a ⊕ b. -/
def xAdd (a b : Word) : Word := (toFp32 (fsumV [fp32 a, fp32 b] .rne).1 .rne).1
/-- a ⊖ b. -/
def xSub (a b : Word) : Word := xAdd a (b ^^^ 0x80000000#32)
/-- a ⊗ b. -/
def xMul (a b : Word) : Word := (toFp32 ((fmulV (fp32 a) (fp32 b)).getD (.nan false)) .rne).1
/-- fma(a, b, c), rounded once. -/
def xFma (a b c : Word) : Word := (toFp32 (fdotV [(fp32 a, fp32 b)] [fp32 c] .rne).1 .rne).1
/-- An exact quotient of finite values with a nonzero divisor, within a sticky bit (R87). -/
def quotV (m : Nat) (e : Int) (k : Nat) (f : Int) : FV :=
  sticky (m * 2 ^ 100 / k) (e - f - 100) (m * 2 ^ 100 % k == 0)
/-- a ⊘ b: the quotient rounded to nearest even; 0 ÷ 0 and Inf ÷ Inf are NaN (R87). -/
def xDiv (a b : Word) : Word :=
  match fp32 a, fp32 b with
  | .nan _, _ => 0x7FC00000#32
  | _, .nan _ => 0x7FC00000#32
  | .inf n, y => bif y.isInf then 0x7FC00000#32 else fpInf (xor n y.neg)
  | x, .inf n => bif xor x.neg n then 0x80000000#32 else 0#32
  | .fin n m e, .fin k l f =>
    if l = 0 then (if m = 0 then 0x7FC00000#32 else fpInf (xor n k))
    else if m = 0 then (bif xor n k then 0x80000000#32 else 0#32)
    else
      match quotV m e l f with
      | .fin _ q g => (toFp32 (.fin (xor n k) q g) .rne).1
      | _ => 0x7FC00000#32
/-- |a|. -/
def xAbs (a : Word) : Word := a &&& 0x7FFFFFFF#32
/-- Neither an infinity nor a NaN. -/
def xFinite (a : Word) : Bool := a.extractLsb' 23 8 != 0xFF#8
/-- a < b; false where either is NaN. -/
def xLt (a b : Word) : Bool := (fcmpV 2 (fp32 a) (fp32 b)).1
/-- a ≤ b; false where either is NaN. -/
def xLe (a b : Word) : Bool := (fcmpV 3 (fp32 a) (fp32 b)).1

/-- Why a method stops. -/
inductive XStop where
  | ovr
  | nzd
  deriving DecidableEq, Repr
/-- An intermediate is checked as soon as it is formed (R317). -/
def xKeep (x : Word) : Except XStop Word := bif xFinite x then .ok x else .error .ovr
/-- A divisor, checked as an intermediate and then against TZ (R317). -/
def xDivisor (tz x : Word) : Except XStop Word :=
  (xKeep x).bind fun x => bif xLe (xAbs x) tz then .error .nzd else .ok x
/-- Aitken on the newest three entries (R318). -/
def aitken (tz a b c : Word) : Except XStop Word :=
  (xKeep (xSub c b)).bind fun d1 =>
  (xKeep (xSub b a)).bind fun d0 =>
  (xDivisor tz (xSub d1 d0)).bind fun den =>
  (xKeep (xMul d1 d1)).bind fun q =>
  (xKeep (xDiv q den)).bind fun s =>
  xKeep (xSub c s)
/-- The next column of the ε-table: from e[j−2] without its first entry, and e[j−1] (R319). -/
def epsColumn (tz : Word) : List Word → List Word → Except XStop (List Word)
  | p :: ps, a :: b :: rest =>
    (xDivisor tz (xSub b a)).bind fun dif =>
    (xKeep (xDiv 0x3F800000#32 dif)).bind fun inv =>
    (xKeep (xAdd p inv)).bind fun x =>
    (epsColumn tz ps (b :: rest)).bind fun xs => .ok (x :: xs)
  | _, _ => .ok []
/-- Columns 1 to K of the ε-table: the first entry of the last (R319). -/
def epsTable (tz : Word) : Nat → List Word → List Word → Except XStop Word
  | 0, _, cur => .ok (cur.headD 0#32)
  | k + 1, prev, cur => (epsColumn tz (prev.drop 1) cur).bind fun next => epsTable tz k cur next
/-- The ε-table on the history (R319). -/
def epsMethod (tz : Word) (xs : List Word) : Except XStop Word :=
  let m := xs.length
  let k := bif m % 2 == 1 then m - 1 else m - 2
  let used := xs.drop (m - 1 - k)
  epsTable tz k (List.replicate (used.length + 1) 0#32) used
/-- Differences of neighbours (R320). -/
def differences : List Word → Except XStop (List Word)
  | a :: b :: rest => (xKeep (xSub b a)).bind fun d => (differences (b :: rest)).bind fun ds => .ok (d :: ds)
  | _ => .ok []
/-- The sums N and S (R320). -/
def lsqSums : Word → Word → List Word → Except XStop (Word × Word)
  | n, t, a :: b :: rest =>
    (xKeep (xFma a b n)).bind fun n => (xKeep (xFma a a t)).bind fun t => lsqSums n t (b :: rest)
  | n, t, _ => .ok (n, t)
/-- Least-squares geometric (R320). -/
def lsqMethod (tz : Word) (xs : List Word) : Except XStop Word :=
  (differences xs).bind fun ds =>
  (lsqSums 0#32 0#32 ds).bind fun (n, t) =>
  (xDivisor tz t).bind fun t =>
  (xKeep (xDiv n t)).bind fun g =>
  (xDivisor tz (xSub 0x3F800000#32 g)).bind fun h =>
  (xKeep (xDiv g h)).bind fun t =>
  xKeep (xFma (ds.getLastD 0#32) t (xs.getLastD 0#32))

/-! ## Contexts (R315, R316, R321 to R323) -/

/-- A context emptied: XCLR, and the last line of XCFG (R315). -/
def XCtx.clear (x : XCtx) : XCtx :=
  { x with cnt := 0, phase := 0#16, fresh := true, v := false, last := 0x7FC00000#32, lflags := 0x008#12 }
/-- A threshold as XCFG stores it: sign clear, a NaN as +0 (R315). -/
def threshold (w : Word) : Word :=
  let x := xAbs w
  bif (fp32 x).isNan then 0#32 else x
/-- XCFG (R315). -/
def XCtx.configure (x : XCtx) (meth : BitVec 2) (depth : BitVec 4) (b a c : Word) : XCtx :=
  let n := b.extractLsb' 0 16
  { x with meth := meth, depth := depth, intvl := bif n == 0#16 then 0x10000#17 else n.setWidth 17,
           ts := threshold a, tz := threshold c }.clear
/-- The entries held, oldest first (R312). -/
def XCtx.entries (x : XCtx) : List Word := x.hist.take x.cnt
/-- XPUSH: the context and whether the value was recorded (R316). -/
def XCtx.push (x : XCtx) (a : Word) : XCtx × Bool :=
  let d := x.depth.toNat
  let rec_ := x.phase == 0#16
  let y :=
    bif !rec_ then x
    else
      let hist := bif x.cnt == d then (x.hist.take d).drop 1 ++ x.hist.drop (d - 1) else x.hist
      let n := bif x.cnt == d then x.cnt - 1 else x.cnt
      { x with hist := hist.set n a, cnt := n + 1, fresh := true }
  ({ y with phase := BitVec.ofNat 16 ((x.phase.toNat + 1) % x.intvl.toNat) }, rec_)
/-- Some entry is NaN or infinite (R321). -/
def XCtx.nonFinite (x : XCtx) : Bool := x.entries.any fun e => !xFinite e
/-- Run the context's method on its entries (R318 to R320). -/
def XCtx.run (x : XCtx) : Except XStop Word :=
  let xs := x.entries
  let m := xs.length
  match x.meth with
  | 0 => epsMethod x.tz xs
  | 1 => aitken x.tz (xs.getD (m - 3) 0#32) (xs.getD (m - 2) 0#32) (xs.getD (m - 1) 0#32)
  | _ => lsqMethod x.tz xs
/-- The estimate and its flags without STAG (R321, R322). -/
def XCtx.estimate (x : XCtx) : Word × BitVec 12 :=
  let xs := x.entries
  let m := xs.length
  let cnt := BitVec.ofNat 12 m <<< 8
  let newest := xs.getLastD 0#32
  if m = 0 then (0x7FC00000#32, cnt ||| 0x008#12)
  else if x.nonFinite then
    (bif (fp32 newest).isNan then 0x7FC00000#32 else newest, cnt ||| 0x010#12 ||| bif decide (m < 3) then 0x008#12 else 0#12)
  else if m < 3 then (newest, cnt ||| 0x008#12)
  else
    let d1 := xSub newest (xs.getD (m - 2) 0#32)
    let d0 := xSub (xs.getD (m - 2) 0#32) (xs.getD (m - 3) 0#32)
    let f := cnt ||| bif xLt (xAbs d0) (xAbs d1) then 0x004#12 else 0#12
    match x.run with
    | .ok e => (e, f)
    | .error .nzd => (newest, f ||| 0x001#12)
    | .error .ovr => (newest, f ||| 0x020#12)
/-- XEST: the context, the estimate, its flags and STAG (R321). -/
def XCtx.est (x : XCtx) : XCtx × Word × BitVec 12 × Bool :=
  bif !x.fresh then (x, x.last, x.lflags, x.lflags.getLsbD 1)
  else
    let (e, f) := x.estimate
    let formed := f &&& 0x039#12 == 0#12
    let stag := formed && x.v && xLe (xAbs (xSub e x.last)) (xMul x.ts (xAbs e))
    let f := f ||| bif stag then 0x002#12 else 0#12
    ({ x with last := e, lflags := f, v := formed, fresh := false }, e, f, stag)
/-- XSTAT's word (R323). -/
def XCtx.stat (x : XCtx) : Word :=
  (bif x.v then 0x80000000#32 else 0#32) ||| (bif x.fresh then 0x40000000#32 else 0#32) |||
  BitVec.ofNat 32 (x.cnt % 16 * 2 ^ 24) ||| (x.depth.setWidth 32 <<< 20) ||| (x.meth.setWidth 32 <<< 16) ||| x.phase.setWidth 32
/-- What hearth core 4 refuses to store (R324). -/
def XCtx.storable (x : XCtx) : Bool :=
  decide (x.cnt ≤ x.depth.toNat) && decide (2 ≤ x.depth.toNat) && decide (x.depth.toNat ≤ 8) && x.meth != 3#2 &&
  decide (1 ≤ x.intvl.toNat) && decide (x.intvl.toNat ≤ 65536)

/-! ## The queue (R313) -/

/-- A context of an agent. -/
def State.xctx (s : State) (ag : Nat) (k : BitVec 3) : XCtx := (s.agent ag).xctx.getD k.toNat default
/-- Store a context. -/
def State.setXctx (s : State) (ag : Nat) (k : BitVec 3) (x : XCtx) : State :=
  s.modAgent ag fun a => { a with xctx := a.xctx.set k.toNat x }
/-- Perform a thread's command (R313). -/
def XCmd.perform (c : XCmd) (ag : Nat) (s : State) : State :=
  match c with
  | .cfg k meth depth b a c => s.setXctx ag k ((s.xctx ag k).configure meth depth b a c)
  | .push k a res =>
    let (x, r) := (s.xctx ag k).push a
    (s.setXctx ag k x).fillOut ag res [bif r then 1#32 else 0#32]
  | .est k res =>
    let (x, e, f, stag) := (s.xctx ag k).est
    (s.setXctx ag k x).fillOut ag res [e, f.setWidth 32, bif stag then 1#32 else 0#32]
  | .clr k => s.setXctx ag k (s.xctx ag k).clear
  | .stat k res => s.fillOut ag res [(s.xctx ag k).stat]
/-- The head entry of a core's queue acts for each of its threads, on its own contexts (R313). A command of a thread that has ended has no context to act on. -/
def State.xFront (s : State) (core : Nat) : State :=
  match (s.core core).xQ with
  | [] => s
  | e :: rest =>
    (e.filter fun x => s.live x.1).foldl (fun s (ag, c) => c.perform ag s) (s.modCore core fun k => { k with xQ := rest })
/-- EXTRAPOLATION_ENTRY: the unit performs the head entry of a core's queue (R313). -/
def execExtrapolationEntry (core : Nat) (s : State) : Result := .next (s.xFront core)
/-- One pass enters the queue as one entry that acts for its participants; a full queue holds them (R13, R14, R313). `out` records the results each thread waits for. -/
def State.xEntry (s : State) (cmd : Nat → State → XCmd) (out : Nat → State → State) (ags : List Nat) : State × List (Nat × Fate) :=
  match ags with
  | [] => (s, [])
  | a :: _ =>
    let core := s.coreOf a
    if 16 ≤ (s.core core).xQ.length then (s, ags.map fun b => (b, .wait (.engine 3)))
    else
      let e := ags.map fun b => (b, cmd b s)
      let s := ags.foldl (fun s b => out b s) s
      (s.modCore core fun k => { k with xQ := k.xQ ++ [e] }, ags.map fun b => (b, .next))
/-- The issue passes of a fragment, in ascending order (R126, R138). -/
def State.passes (s : State) (ags : List Nat) : List (List Nat) :=
  (List.range 4).map fun p => ags.filter fun a => (s.agent a).home.idx / 32 == p
/-- Passes enter one after another: each issue pass that has a participant is one entry (R313). -/
def State.xEntries (s : State) (cmd : Nat → State → XCmd) (out : Nat → State → State) : List (List Nat) → State × List (Nat × Fate)
  | [] => (s, [])
  | p :: ps =>
    let (s, fs) := s.xEntry cmd out p
    let (s, gs) := s.xEntries cmd out ps
    (s, fs ++ gs)
/-- An extrapolation command of a fragment (R313). -/
def State.xPass (s : State) (cmd : Nat → State → XCmd) (out : Nat → State → State) (ags : List Nat) : State × List (Nat × Fate) :=
  s.xEntries cmd out (s.passes ags)

/-! ## Instructions (R314) -/

/-- XCFG: configure a context and empty it (R315). -/
def execXcfg (c0 : Ctl) (depth : BitVec 4) (meth : BitVec 2) (x : BitVec 3) (a : Reg) (b : Src) (c : Reg) (s : State) : Result :=
  .next (s.issue (.xcfg c0 depth meth x a b c) fun ags s =>
    s.xPass (fun ag s => .cfg x meth depth (s.b32 ag b) (s.a32 ag a) (s.c32 ag c)) (fun _ s => s) ags)

/-- XPUSH: offer a value; its predicate says whether it was recorded (R316). -/
def execXpush (c0 : Ctl) (x : BitVec 3) (a : Reg) (pc : BitVec 3) (s : State) : Result :=
  .next (s.issue (.xpush c0 x a pc) fun ags s =>
    s.xPass (fun ag s => .push x (s.a32 ag a) (s.resNo ag)) (fun ag s => s.out ag false false [toPred pc false] 0#5) ags)

/-- XEST: an estimate, its flags, and STAG (R321). -/
def execXest (c0 : Ctl) (d : Reg) (x : BitVec 3) (pc : BitVec 3) (s : State) : Result :=
  .next (s.issue (.xest c0 d x pc) fun ags s =>
    s.xPass (fun ag s => .est x (s.resNo ag))
      (fun ag s => s.out ag false false [toRegN d.toNat 0#32, toRegN (d.toNat + 1) 0#32, toPred pc false] 0#5) ags)

/-- XCLR: empty a context, its configuration kept (R315). -/
def execXclr (c0 : Ctl) (x : BitVec 3) (s : State) : Result :=
  .next (s.issue (.xclr c0 x) fun ags s => s.xPass (fun _ _ => .clr x) (fun _ s => s) ags)

/-- XSTAT: the state word of a context (R323). -/
def execXstat (c0 : Ctl) (d : Reg) (x : BitVec 3) (s : State) : Result :=
  .next (s.issue (.xstat c0 d x) fun ags s =>
    s.xPass (fun ag s => .stat x (s.resNo ag)) (fun ag s => s.out ag false false [toReg d 0#32] 0#5) ags)

end Sys2Proof.Machine
end

