-- ==== Sys2Proof/Machine/Shares.lean ====
section
/-! DEFINITION. Shares in their saved form and back on a core, regions, and the walk of the waiting cords (11 R246,
R250, 05 R125, 22 R394 to R396). -/

namespace Sys2Proof.Machine

/-! ## Bringing a share to its saved form, and back (R246 to R250) -/

/-- Complete the copies of a share that have started, as far as they can be (R246). -/
def State.finishCopies (s : State) (core h : Nat) : Nat → State
  | 0 => s
  | fuel + 1 =>
    match (List.range (s.core core).copies.length).findSome? fun k =>
        bif ((s.core core).copies.getD k default).share == h then s.finishCopy core k else none with
    | none => s
    | some s => s.finishCopies core h fuel
/-- Perform the k-th entry of a core's matrix queue, where it can be. -/
def State.mxStep (s : State) (core k : Nat) : Option State :=
  match (s.core core).mxQ[k]? with
  | none => none
  | some e =>
    match e.cmd with
    | .op .. => bif ((s.core core).mxQ.findIdx? fun x => x.cmd.isOp) == some k then s.operate core else none
    | .adrain .. => s.finishDrain core k
    | .wload .. => none
    | _ => s.tilePath core k
/-- An operation in the queue uses a set that has latched: it counts as started, since the set is not saved (R246, R288). -/
def State.latchedOp (s : State) (core : Nat) : Bool :=
  (s.core core).mxQ.any fun e => match e.cmd with
    | .op _ _ _ b => (s.share e.share).sets.any fun w => w.id == b && w.latched
    | _ => false
/-- A result of an agent is outstanding whose command an engine has still to perform; the commands of a task that has stopped do nothing more (R61, R237). -/
def State.owesResult (s : State) (h : Nat) : Bool :=
  !s.stopped (s.share h).task && (s.agentsOfShare h).any fun a => s.live a && !(s.agent a).settleable
/-- Perform extrapolation entries of a core while a share of it waits for their results (R61). -/
def State.finishX (s : State) (core h : Nat) : Nat → State
  | 0 => s
  | fuel + 1 => bif s.owesResult h && !(s.core core).xQ.isEmpty then (s.xFront core).finishX core h fuel else s
/-- Perform matrix entries until no operation on a latched set and no result of a share is left, or none can go on (R61, R246). -/
def State.finishOps (s : State) (core h : Nat) : Nat → State
  | 0 => s
  | fuel + 1 =>
    bif s.latchedOp core || s.owesResult h then
      match (List.range (s.core core).mxQ.length).findSome? fun k => s.mxStep core k with
      | some s => s.finishOps core h fuel
      | none => s
    else s
/-- Complete what the engines of a core have started for a share, and the commands whose results its threads wait for (R61, R246). -/
def State.finishStarted (s : State) (h : Nat) : State :=
  let c := (s.share h).core
  ((s.finishCopies c h 4).finishX c h 16).finishOps c h 200
/-- A command of a share has started and is not complete: a copy, an operation on a latched set, a chain's SEND or posted write, or a command that owes a result (R61, R246, R253). -/
def State.startedLeft (s : State) (h : Nat) : Bool :=
  let c := (s.share h).core
  let k := s.core c
  (k.copies.any fun x => x.share == h) || s.latchedOp c || s.owesResult h ||
  k.chains.zipIdx.any fun x => match x.1.2 with
    | some y => y.share == some h && (!y.sends.isEmpty || s.postingOf (chainMaker (.core c x.2)))
    | none => false
/-- Bring one agent to its saved form: results written, a slice-end handler ended, for a halted agent too, an undelivered slice-end cause dropped (R245, R246, R249). -/
def Agent.save (a : Agent) : Agent :=
  let a := a.settle
  { a with sliceEnd := false, async := a.async.filter (fun x => x.cause != 0x14),
           status := bif a.status == .parked .switch then .ready else a.status,
           halt := a.halt.map fun r => { r with parked := r.parked.filter (· != .switch) } }
/-- Take a resident share off its core in its saved form (R246). -/
def State.saveShare (s : State) (h : Nat) : State :=
  let c := (s.share h).core
  let s := s.modAgents (fun a => bif a.status == .ended then a else a.save) (s.agentsOfShare h)
  let s := (List.range 6).foldl (fun s p => s.flushFwd c p fun e => e.share == h) s
  let k := s.core c
  let mine := k.copyQ.filter fun x => x.share == h
  let locks := k.locks.filterMap fun l => l.filter fun r => mine.any fun x => x.id == r.copy
  let chains := k.chains.zipIdx.filterMap fun ((u, x), n) => match x with
    | some y => bif y.share == some h then some (n, u, y) else none
    | none => none
  let s := s.modCore c fun k =>
    { k with copyQ := k.copyQ.filter (fun x => x.share != h), mxQ := k.mxQ.filter (fun e => e.share != h),
             xQ := k.xQ.filter (fun e => e.all fun y => s.shareOf y.1 != h),
             locks := k.locks.map (fun l => l.filter fun r => !(mine.any fun x => x.id == r.copy)),
             chains := k.chains.map fun (u, x) => match x with
               | some y => bif y.share == some h then (u, none) else (u, some y)
               | none => (u, none) }
  let lost := ((s.share h).sets.filter (·.latched)).map (·.id)
  let s := s.modTask (s.share h).task fun t =>
    { t with cvs := t.cvs.map fun x =>
        bif x.share == h && (match x.bound with
          | some b => lost.elem b
          | none => false) then { x with bound := none } else x }
  s.modShare h fun x =>
    { x with state := .saved, sets := x.sets.filter (fun w => !w.latched),
             current := x.current.filter (fun b => !lost.elem b),
             saved := { copies := mine, mx := k.mxQ.filter (fun e => e.share == h),
                        xs := k.xQ.filter (fun e => e.any fun y => s.shareOf y.1 == h), chains := chains, locks := locks,
                        fill := x.saved.fill, tiles := x.saved.tiles } }
/-- The live tasks' other shares on cores: they stand in one cluster, on distinct cores (R133). -/
def State.matesOf (s : State) (h : Nat) : List Nat :=
  (s.task (s.share h).task).shares.filter fun k => k != h && (s.share k).state == .resident
/-- The engines of a core have room for what a share saved: its queues, its range locks, the slots of its chains (R246, R250). -/
def Core.takes (k : Core) (y : Saved) : Bool :=
  decide (k.copyQ.length + y.copies.length ≤ 16) && decide (k.mxQ.length + y.mx.length ≤ 32) &&
  decide (k.xQ.length + y.xs.length ≤ 16) && decide (y.locks.length ≤ k.locks.countP (·.isNone)) &&
  !k.mxReset && y.chains.all fun x => (k.chains.getD x.1 default).2.isNone
/-- Fit a saved share on a core, its own or another: its groups, its window, its tiles and its commands (R250, R422). -/
def State.refits (s : State) (h core : Nat) : Option (List Nat × Nat) :=
  let x := s.share h
  bif x.state == .saved && (s.core core).takes x.saved &&
      (s.matesOf h).all (fun m => clusterOf (s.share m).core == clusterOf core && (s.share m).core != core) then
    s.fits (s.taskVd x.task) core (s.shapeOf h) x.size x.tiles.length
  else none
/-- New numbers for saved commands: the old number beside the new one. -/
def renumber (from_ : Nat) (ids : List Nat) : List (Nat × Nat) := ids.zipIdx.map fun x => (x.1, from_ + x.2)
/-- The new number of a command. -/
def newId (m : List (Nat × Nat)) (n : Nat) : Nat := (m.lookup n).getD n
/-- Put a saved share on a core: its queued commands are entered again in their order, its window is still to be filled (R246, R247, R250). Its stores were drained as it was saved, so the flush of R125 has been acknowledged. -/
def State.resumeShare (s : State) (h core : Nat) : Option State :=
  (s.refits h core).map fun (ps, o) =>
    let x := s.share h
    let y := x.saved
    let k := s.core core
    let cm := renumber k.copyNo (y.copies.map (·.id))
    let mm := renumber k.mxNo (y.mx.map (·.id))
    let s := (x.groups.zip ps).foldl (fun s (g, p) => s.modGroup g fun z => { z with part := p }) s
    let s := s.modAgents (fun a => { a with drains := a.drains.map (newId mm) }) (s.agentsOfShare h)
    let s := s.modCore core fun k =>
      { k with copyQ := k.copyQ ++ y.copies.map (fun c => { c with id := newId cm c.id }), copyNo := k.copyNo + y.copies.length,
               mxQ := k.mxQ ++ y.mx.map (fun e => { e with id := newId mm e.id }), mxNo := k.mxNo + y.mx.length, xQ := k.xQ ++ y.xs,
               locks := y.locks.foldl (fun l r => takeLock { r with copy := newId cm r.copy } l) k.locks,
               chains := y.chains.foldl (fun l (n, u, z) => l.set n (u, some z)) k.chains }
    let all := List.range ((x.size + 127) / 128)
    let fill := distinct ((all.filter fun l => !x.absent.elem l) ++ y.fill)
    let s := s.modShare h fun z =>
      { z with core := core, state := .resident, base := o, absent := all,
               saved := { Saved.empty with fill := fill, tiles := !x.tiles.isEmpty } }
    (s.modSlice core fun z => { z with spilling := true }).beginRun (s.taskVd x.task) core
/-- The launch of a share is a cord. -/
def State.inCord (s : State) (h : Nat) : Bool := (s.launch (s.task (s.share h).task).launch).par.cord
/-- Switch in a saved share on a core; the shares of a cord are switched in by the walk only (R394, R395, R416). -/
def State.switchIn (s : State) (h core : Nat) : State :=
  bif s.inCord h then s else (s.resumeShare h core).getD s
/-- Every saved share of a virtual device on a core, in order. -/
def State.switchInAll (s : State) (v core : Nat) : State :=
  ((List.range s.lanes.shares.length).filter fun h =>
    (s.share h).state == .saved && (s.share h).core == core && s.taskVd (s.share h).task == v).foldl (fun s h => s.switchIn h core) s

/-! ## Regions and room (R132, R394, R414) -/

/-- Ranges that still hold teams. -/
def keepRanges (rs : List Range) : List Range := rs.filter fun r => decide (r.1 < r.2)
/-- The region of a cluster, counted over both dies: its cores that the virtual device may use. -/
def State.regionOf (s : State) (v cluster : Nat) : List Nat :=
  (clusterCores cluster).filter fun c => s.mayUse v c
/-- Clusters whose region is not empty. -/
def State.regions (s : State) (v : Nat) : List Nat := (List.range 24).filter fun k => !(s.regionOf v k).isEmpty
/-- Cores of a region with no share on them. -/
def State.freeCores (s : State) (v cluster : Nat) : Nat :=
  ((s.regionOf v cluster).filter fun c => (s.residents c).isEmpty && s.coreOpen v c).length
/-- A cluster has room for at least one share of a launch's teams, under some split (R374). -/
def State.hasRoom (s : State) (l cluster : Nat) : Bool :=
  let x := s.launch l
  let v := x.par.vd
  (s.regionOf v cluster).any fun c => (List.range x.kernel.cores).any fun n =>
    (s.fits v c ((x.kernel.shareGroups (n + 1) 0).map x.kernel.shape) x.par.spad x.kernel.tiles).isSome
/-- Place one team of a launch on the cores of a cluster, by its smallest split that fits (R133, R374). -/
def State.placeTeam (s : State) (l team cluster : Nat) : Option State :=
  let x := s.launch l
  (s.splitOn x.par.vd x.kernel x.par.spad (s.regionOf x.par.vd cluster) x.kernel.cores).bind fun cs =>
    let t := s.lanes.tasks.length
    let s := s.addTeam l team cs
    s.placeAll ((s.task t).shares.zip cs)

/-! ## Cords (R394, R395) -/

/-- A launch whose teams or billets may start. -/
def Launch.open (x : Launch) : Bool := x.started && !x.ended
/-- A cord none of whose teams has been placed. -/
def Launch.unplaced (x : Launch) : Bool := x.open && x.par.cord && decide (x.dist.chip.1 < x.dist.chip.2)
/-- The shares of a launch that are switched out, in ascending team order (R394). -/
def State.savedOf (s : State) (l : Nat) : List Nat :=
  (List.range s.lanes.shares.length).filter fun h => (s.share h).state == .saved && (s.task (s.share h).task).launch == l
/-- A cord that waits to be placed, or to be switched in again (R394, R395). -/
def State.cordWaits (s : State) (l : Nat) : Bool :=
  let x := s.launch l
  x.unplaced || (x.open && x.par.cord && !(s.savedOf l).isEmpty)
/-- E of a waiting cord (R395). -/
def State.effPrio (s : State) (l : Nat) : Nat :=
  let x := s.launch l
  min 255 (x.prio + (s.now - x.waited) / 1000000)
/-- Waiting cords of a virtual device, highest E first, then by dispatch order (R395). -/
def State.cordOrder (s : State) (v : Nat) : List Nat :=
  let ls := (List.range s.lanes.launches.length).filter fun l => s.cordWaits l && (s.launch l).par.vd == v
  sortBy (fun l => 255 - s.effPrio l) (sortBy (fun l => (s.launch l).order) ls)
/-- Place teams n to n + k − 1 of a cord in a cluster (R394). -/
def State.placeTeams (s : State) (l cluster n : Nat) : Nat → Option State
  | 0 => some s
  | k + 1 => (s.placeTeam l n cluster).bind fun s => s.placeTeams l cluster (n + 1) k
/-- Resume every share of a list in a cluster, each on its lowest core that takes it, or none (R132, R394). -/
def State.resumeAll (s : State) (v cluster : Nat) : List Nat → Option State
  | [] => some s
  | h :: rest => ((s.regionOf v cluster).findSome? fun c => s.resumeShare h c).bind fun s => s.resumeAll v cluster rest
/-- Place a whole cord in a cluster, or switch all of it in there, or nothing of it (R394). -/
def State.placeCord (s : State) (l cluster : Nat) : Option State :=
  bif !(s.launch l).unplaced then s.resumeAll (s.launch l).par.vd cluster (s.savedOf l) else
  (s.placeTeams l cluster 0 (s.launch l).par.teams).map fun s =>
    s.modLaunch l fun x => { x with dist := { x.dist with chip := (x.par.teams, x.par.teams) } }
/-- One walk of the waiting cords: the state, and the region the head reserves (R395). Cords are walked before the other work of the virtual device is placed, whatever its priority, as R395 orders them: the model's reading beside R377, log entry 44. -/
def State.walkCords (s : State) (v : Nat) (head : Option Nat) : List Nat → State × Option Nat
  | [] => (s, head)
  | l :: rest =>
    let open_ := (s.regions v).filter fun k => head != some k
    let fit := open_.filter fun k => (s.placeCord l k).isSome
    match firstBy (fun k => ((s.placeCord l k).map fun s => s.freeCores v k).getD 0) fit with
    | some k => ((s.placeCord l k).getD s).walkCords v head rest
    | none =>
      match head with
      | some _ => s.walkCords v head rest
      | none => s.walkCords v (firstBy (fun k => 8 - s.freeCores v k) open_) rest
/-- Walk the cords of a virtual device: the head's reservation is made afresh (R395). -/
def State.cordWalk (s : State) (v : Nat) : State :=
  let (s, r) := s.walkCords v none (s.cordOrder v)
  s.modVdev v fun d => { d with reserved := r, walkDue := false }
/-- A scheduling event of a virtual device has come: its cords are walked before time passes (R395). -/
def State.dueWalk (s : State) (v : Nat) : State := s.modVdev v fun d => { d with walkDue := true }
/-- Walk the cords of every virtual device with a scheduling event on this clock, in one walk (R395). -/
def State.walksDue (s : State) : State :=
  (List.range 32).foldl (fun s v => bif (s.vdev v).walkDue then s.cordWalk v else s) s
/-- A cluster is closed to other new work: its region is reserved, or a walk is due before it is known (R395). -/
def State.reservedFor (s : State) (v cluster : Nat) : Bool :=
  (s.vdev v).walkDue || (s.vdev v).reserved == some cluster

end Sys2Proof.Machine
end

