-- ==== Sys2Proof/Machine/Slices.lean ====
section
/-! DEFINITION. Time slices, context switches, refills, run ends and carve-outs (11 R246 to R250, 24 R416, R417, R422). -/

namespace Sys2Proof.Machine

/-! ## Selecting a tenant (R416) -/

/-- A share may run: its task has not retired. -/
def State.shareLive (s : State) (h : Nat) : Bool := (s.task (s.share h).task).state != .retired
/-- A virtual device has work for a core: a share resident or saved there, or waiting work that may be placed there (R416). -/
def State.hasWork (s : State) (v core : Nat) : Bool :=
  ((List.range s.lanes.shares.length).any fun h =>
    let x := s.share h
    s.shareLive h && s.taskVd x.task == v && (match x.state with
      | .resident => x.core == core
      | .saved => bif s.inCord h then s.mayUse v core else x.core == core
      | .waiting => s.mayUse v core
      | .retired => false)) ||
  (s.mayUse v core && s.lanes.launches.any fun l =>
    l.par.vd == v && l.started && !l.ended &&
    (decide (l.dist.chip.1 < l.dist.chip.2) || (l.dist.die ++ l.dist.cluster).any (fun rs => rs.any fun r => decide (r.1 < r.2)) ||
      !l.level.isEmpty))
/-- A tenant that may be switched in has work for the core (R416, R418). -/
def State.runnable (s : State) (v core : Nat) : Bool :=
  (s.vdev v).state == .ready && !(s.vdev v).heldMsg.elem 1 && s.hasWork v core
/-- v is eligible on a core (R416). -/
def State.eligible (s : State) (v core : Nat) : Bool :=
  s.mayUse v core && decide (s.sliceNs v ≤ s.bucketOf v core) && s.runnable v core
/-- Note the moment at which a tenant that a core does not run became eligible there, or that it no longer is (R416). -/
def State.noteEligible (s : State) (v core : Nat) : State :=
  bif (s.core core).slice.vd == some v then s
  else bif s.eligible v core then
    bif ((s.vdev v).since.lookup core).isSome then s
    else s.modVdev v fun d => { d with since := (core, s.now) :: d.since }
  else s.modVdev v fun d => { d with since := d.since.filter fun p => p.1 != core }
/-- Note it for every tenant of the core's partition. -/
def State.noteAll (s : State) (core : Nat) : State :=
  let part := bif s.hearth.config.unified then 0 else dieOf core
  (s.defined part).foldl (fun s v => s.noteEligible v core) s
/-- Note it on every core, before time passes (R416). -/
def State.noteEverywhere (s : State) : State :=
  (List.range 32).foldl (fun s v => bif (s.vdev v).state == .absent then s else
    ((List.range s.lanes.cores.length).filter fun c => s.mayUse v c).foldl (fun s c => s.noteEligible v c) s) s
/-- The moment of a tenant's next refill on a core: the first multiple of PERIOD since its definition after its last one (R416). -/
def State.refillAt (s : State) (v core : Nat) : Nat :=
  let d := s.vdev v
  let p := s.periodNs v core
  d.defined + (((d.refills.lookup core).getD d.defined - d.defined) / p + 1) * p
/-- A tenant's next refill on a core, at its own moment: what its run has used until then is charged first (R416). -/
def State.refillOnce (s : State) (v core : Nat) : State :=
  let at_ := s.refillAt v core
  let s := s.accountTo v core at_
  let s := s.setBucket v core (min (s.bucketKept v core + s.sliceNs v) (s.maxBucket v))
  s.modVdev v fun d => { d with refills := (core, at_) :: d.refills.filter fun p => p.1 != core }
/-- The next n refills of a tenant on a core, in their order. -/
def State.refillTimes (s : State) (v core : Nat) : Nat → State
  | 0 => s
  | n + 1 => (s.refillOnce v core).refillTimes v core n
/-- Every refill of a tenant on a core that is due (R416). -/
def State.refill (s : State) (v core : Nat) : State :=
  bif (s.vdev v).state != .absent && s.mayUse v core && s.periodNs v core != 0 && decide (s.refillAt v core ≤ s.now) then
    (s.refillTimes v core ((s.now - s.refillAt v core) / s.periodNs v core + 1)).noteAll core
  else s
/-- The refills that are due on a core, before a run-end test (R416). -/
def State.refillsDue (s : State) (core : Nat) : State :=
  (s.defined (bif s.hearth.config.unified then 0 else dieOf core)).foldl (fun s v => s.refill v core) s
/-- The next tenant of a core, and whether its run is charged: the one eligible earliest, else the runnable one with the largest bucket, as spare time (R416). -/
def State.nextTenant (s : State) (core : Nat) : Option (Nat × Bool) :=
  let vs := s.defined (bif s.hearth.config.unified then 0 else dieOf core)
  match firstBy (fun v => ((s.vdev v).since.lookup core).getD s.now) (vs.filter fun v => s.eligible v core) with
  | some v => some (v, true)
  | none =>
    (firstBy (fun v => 2 ^ 80 - s.bucketOf v core) (vs.filter fun v => s.mayUse v core && s.runnable v core)).map
      fun v => (v, false)
/-- The run in progress on a core has reached its end (R416, R417, R418). -/
def State.runOver (s : State) (v core : Nat) : Bool :=
  let x := (s.core core).slice
  match x.forced with
  | some n => decide (x.start + n ≤ s.now) || !s.runnable v core
  | none =>
    !s.runnable v core || decide (x.start + s.maxBucket v ≤ s.now) ||
    (bif x.charged then s.bucketOf v core == 0
     else (s.defined (partOf v)).any fun u => s.eligible u core)

/-! ## Slice end and swap (R247 to R249) -/

/-- A front end counts as having yielded (R248). -/
def Agent.yielded (a : Agent) : Bool := a.status == .ended || a.status == .parked .switch || a.trap.vec == 0#64
/-- Every outgoing front end of a core has yielded. -/
def State.allYielded (s : State) (core : Nat) : Bool := (s.residents core).all fun h => (s.agent (s.share h).fe).yielded
/-- The slice of a core ends: its budget starts, and outgoing front ends with H = 0 take cause 0x14, but for a forced save (R248, R249); the issuer of the CTXSW that asked for it takes it at its next boundary (R256). -/
def State.beginEnd (s : State) (core : Nat) (issuer : Option Nat) : State :=
  let x := (s.core core).slice
  let s := s.modSlice core fun y => { y with ending := some s.now }
  bif x.force then s
  else
    (s.residents core).foldl (fun s h =>
      let f := (s.share h).fe
      let a := s.agent f
      bif a.trap.h || a.trap.vec == 0#64 then s else
        let s := s.addAsync f ⟨0x14, 0#64, 0#32⟩
        bif issuer == some f then s else s.deliver f) s
/-- A core with the cores that its cords reach, and those that theirs reach (R394, R416). -/
def State.cordCores (s : State) : Nat → List Nat → List Nat
  | 0, cs => cs
  | fuel + 1, cs =>
    let ls := ((cs.flatMap s.residents).filter s.inCord).map fun h => (s.task (s.share h).task).launch
    let more := ((List.range s.lanes.shares.length).filter fun h =>
      (s.share h).state == .resident && ls.elem (s.task (s.share h).task).launch).map fun h => (s.share h).core
    s.cordCores fuel (distinct (cs ++ more))
/-- The cores that are switched together with a core: those of its cords, in one region of at most 8 (R394). -/
def State.together (s : State) (core : Nat) : List Nat := s.cordCores 8 [core]
/-- A core of a cord whose run ends on another core ends its own: the scheduler names its next tenant (R416). -/
def State.endMate (s : State) (core : Nat) : State :=
  let x := (s.core core).slice
  bif x.ending.isSome then s
  else
    let s := match x.next, s.nextTenant core with
      | none, some (v, ch) => s.modSlice core fun y => { y with next := some (v, ch, 0) }
      | _, _ => s
    s.beginEnd core none
/-- SLICE_END: the next tenant has been chosen; the run of its cords ends on their other cores too (R248, R394, R416). -/
def State.sliceEnd (s : State) (core : Nat) (issuer : Option Nat) : State :=
  let x := (s.core core).slice
  bif x.ending.isSome || x.next.isNone then s
  else (((s.together core).filter fun c => c != core).foldl State.endMate s).beginEnd core issuer
/-- A tenant whose pause was asked for is paused once no core runs it (R418). -/
def State.pauseTest (s : State) (v : Nat) : State :=
  let d := s.vdev v
  bif d.state == .ready && d.heldMsg.elem 1 && !(s.lanes.cores.any fun c => c.slice.vd == some v) then
    let qs := s.queues.map fun q =>
      bif q.vd == v then (match q.state with
        | .active => { q with state := .suspended false }
        | .blocked => { q with state := .suspended true }
        | _ => q) else q
    { s with queues := qs }.modVdev v fun d => { d with state := .paused, saved := s.guest v, heldMsg := d.heldMsg.filter fun m => m != 1 }
  else s
/-- The save area of a core's context, in the hypervisor's own translation (R246, R414): 2 MiB for each core in CLMASK, in ascending order. -/
def State.saveAreaOf (s : State) (v core : Nat) : Nat :=
  field (s.vdev v).desc 32 8 + 2097152 * ((List.range core).countP fun c => bits (field (s.vdev v).desc 16 4) (clusterOf c) 1 == 1)
/-- The 64 KiB pages of a context's save area. -/
def State.savePages (s : State) (v core : Nat) : List Nat :=
  (List.range 32).map fun k => hyperPage v (s.saveAreaOf v core + 65536 * k)
/-- The spill engine writes an outgoing context to its save area (R246, R247). -/
def State.writeSaveArea (s : State) (v core : Nat) : State :=
  (s.savePages v core).zipIdx.foldl (fun s (pa, k) =>
    s.writeCommitted noAgent none pa (((Config.saveImage s.free).drop (65536 * k)).take 65536)) s
/-- One core of a swap: its outgoing shares in their saved form, then the banks swapped (R246, R247). -/
def State.swapOut (s : State) (core : Nat) : State :=
  let x := (s.core core).slice
  let hs := s.residents core
  let ls := (hs.filter s.inCord).map fun h => (s.task (s.share h).task).launch
  let s := hs.foldl State.saveShare (s.account core)
  let s := ls.foldl (fun s l => s.modLaunch l fun y => { y with waited := s.now }) s
  let s := s.modSlice core fun y => { Slice.reset with next := y.next, counter := y.counter, spilling := true, out := x.vd }
  match x.vd with
  | some v => (s.pauseTest v).dueWalk v
  | none => s
/-- The incoming shares of one core issue, and the counter of a CTXSW is incremented (R247, R256). -/
def State.swapIn (s : State) (core : Nat) : State :=
  let x := (s.core core).slice
  let s := s.modSlice core fun y => { y with next := none, counter := none }
  match x.next with
  | none => s
  | some (v, ch, run) =>
    -- a tenant that has been frozen or paused since it was chosen is not switched in (R418)
    if (s.vdev v).state != .ready || (s.vdev v).heldMsg.elem 1 then s else
    let s := ((s.startRun v core ch (bif run == 0 then none else some run)).switchInAll v core).dueWalk v
    match x.counter with
    | some (a, u, scope) => s.hearthSignal u scope 7 s.moves a 1#64
    | none => s
/-- Stacks that the saving of some shares writes: those of their queued stores and of their copies that have started (R246, R371). -/
def State.saveStacks (s : State) (hs : List Nat) : List Nat :=
  let q := (hs.flatMap fun h => (s.share h).feSq ++ (s.share h).groups.flatMap fun g => (s.group g).sq).map (·.pa)
  let c := hs.flatMap fun h => ((s.core (s.share h).core).copies.filter fun x => x.share == h).flatMap fun x =>
    (pagesOf ((Shape.parse x.shape).touches x.dir x.coord x.tile ++ counterTouch x.cmode x.counter)).filterMap fun p =>
      s.placeOf (s.taskVd (s.share h).task) p.1
  ((q ++ c).filter fun pa => region pa == 0).map stackOf
/-- Steps 2 and 3 of R248 on a core and the cores of its cords: started commands completed, queues drained, the outgoing shares in their saved form, the banks swapped, the incoming shares switched in; none while a command or a hand-over holds it, or a spill engine has not finished (R247, R371, R394). -/
def State.swap (s : State) (core : Nat) : Option State :=
  let cs := s.together core
  let hs := cs.flatMap s.residents
  bif (s.saveStacks hs).any s.betweenSteps then none else
  let s := hs.foldl State.finishStarted s
  let (s, ok) := s.drainAgents (hs.flatMap s.agentsOfShare)
  bif !ok || hs.any s.startedLeft || cs.any (fun c => (s.core c).mxReset || (s.core c).slice.spilling) then none
  else some (cs.foldl State.swapIn (cs.foldl State.swapOut s))
/-- SLICE_END (R248). -/
def execSliceEnd (core : Nat) (s : State) : Result := .next (s.sliceEnd core none)
/-- The cores that are switched together stop at instruction boundaries, and are swapped once nothing holds them (R248, R249). -/
def State.swapOrStop (s : State) (core : Nat) : State :=
  (s.swap core).getD ((s.together core).foldl (fun s c => s.modSlice c fun x => { x with stop := true }) s)
/-- CONTEXT_SWAP: once every outgoing front end has yielded, on the cores of its cords too (R248, R394). -/
def execContextSwap (core : Nat) (s : State) : Result :=
  .next (bif (s.together core).all (fun c => (s.core c).slice.ending.isSome && s.allYielded c) then s.swapOrStop core else s)
/-- HANDLER_BUDGET_EXPIRY: the budget has ended, or the switch was asked for as a forced save (R249, R256). -/
def execHandlerBudgetExpiry (core : Nat) (s : State) : Result :=
  let x := (s.core core).slice
  .next (match x.ending, x.vd with
    | some t, some v => bif x.force || decide (t + s.handlerNs v ≤ s.now) then s.swapOrStop core else s
    | some _, none => s.swapOrStop core
    | none, _ => s)
/-- The spill engine has finished on a core: the outgoing context is written, incoming lines and tiles are filled and become present (R247). -/
def State.spillDone (s : State) (core : Nat) : State :=
  let s := match (s.core core).slice.out with
    | some v => s.writeSaveArea v core
    | none => s
  let s := (s.residents core).foldl (fun s h => s.modShare h fun x =>
    { x with absent := x.absent.filter (fun l => !x.saved.fill.elem l), saved := { x.saved with fill := [], tiles := false } }) s
  s.modSlice core fun x => { x with spilling := false, out := none }
/-- SPILL_COMPLETE: the next swap may take place (R247); a hand-over of the save area's stack holds it (R253). -/
def execSpillComplete (core : Nat) (s : State) : Result :=
  let held := match (s.core core).slice.out with
    | some v => (s.savePages v core).any fun pa => s.betweenSteps (stackOf pa)
    | none => false
  .next (bif held then s else s.spillDone core)
/-- BUDGET_REFILL: at a multiple of PERIOD since the definition (R416). -/
def execBudgetRefill (vd core : Nat) (s : State) : Result :=
  .next (s.refill vd core)
/-- A run ends on a core: the next tenant is selected; the same one begins a new run without a switch (R416). -/
def State.endRun (s : State) (core : Nat) : State :=
  let x := (s.core core).slice
  bif x.next.isSome || x.ending.isSome then s
  else
    let s := (s.account core).noteAll core
    match s.nextTenant core with
    | none =>
      match x.vd with
      | none => s
      | some v =>
        bif (s.residents core).isEmpty then (s.modSlice core fun _ => Slice.reset).pauseTest v
        else s.beginEnd core none
    | some (v, ch) =>
      bif x.vd == some v then s.startRun v core ch none
      else bif x.vd.isNone then bif x.spilling then s else ((s.startRun v core ch none).switchInAll v core).dueWalk v
      else s.modSlice core fun y => { y with next := some (v, ch, 0) }
/-- RUN_END: a refill due at the same moment is applied before the test (R416). -/
def execRunEnd (core : Nat) (s : State) : Result :=
  let s := s.refillsDue core
  .next (match (s.core core).slice.vd with
    | some v => bif (s.core core).slice.forced.isNone && s.runOver v core then s.endRun core else s
    | none => s.endRun core)
/-- CTXSW_RUN_END: a run named by CTXSW has lasted RUN, or has nothing left to run (R417). -/
def execCtxswRunEnd (core : Nat) (s : State) : Result :=
  .next (match (s.core core).slice.vd with
    | some v => bif (s.core core).slice.forced.isSome && s.runOver v core then s.endRun core else s
    | none => s)

/-! ## Carve-outs (R422) -/

/-- The lowest carve-out, in ways, that no resident window reaches. -/
def State.waysUsed (s : State) (core : Nat) : Nat :=
  (s.residents core).foldl (fun n h => max n (((s.share h).base + (s.share h).size + 131071) / 131072)) 0
/-- The least carve-out, above the present one, with which a core would take a share that waits (R422). -/
def State.wantsWays (s : State) (v core : Nat) (gs : List Need) (size tiles : Nat) : Option Nat :=
  let c := s.core core
  ((List.range 7).filter fun n => decide (c.ways < n)).find? fun n =>
    ((s.modCore core fun c => { c with ways := n }).fits v core gs size tiles).isSome
/-- Every core with a growth that is pending taken as in effect, and without the other pending changes. -/
def State.grown (s : State) : State :=
  { s with lanes := { s.lanes with cores := s.lanes.cores.map fun c =>
      { c with ways := max c.ways (c.waysNext.getD 0), waysNext := none } } }
/-- The core, and its carve-out, with which a share would fit that fits on none of some cores (R422). -/
def State.shareLack (s : State) (v : Nat) (cs : List Nat) (gs : List Need) (size tiles : Nat) : Option (Nat × Nat) :=
  bif cs.any fun c => (s.fits v c gs size tiles).isSome then none
  else cs.findSome? fun c => (s.wantsWays v c gs size tiles).map fun n => (c, n)
/-- The same for the first share of a team that fits on none of the cores that the shares before it leave (R133). -/
def State.sharesLack (s : State) (v size tiles : Nat) (cs : List Nat) : List (List Need) → Option (Nat × Nat)
  | [] => none
  | gs :: rest =>
    match cs.find? fun c => (s.fits v c gs size tiles).isSome with
    | some c => s.sharesLack v size tiles (cs.filter fun d => d != c) rest
    | none => s.shareLack v cs gs size tiles
/-- The next team of a launch fits in a cluster (R133). -/
def State.teamFits (s : State) (l cluster : Nat) : Bool :=
  let x := s.launch l
  (s.splitOn x.par.vd x.kernel x.par.spad (s.regionOf x.par.vd cluster) x.kernel.cores).isSome
/-- The same for a team that fits in a cluster under none of its splits: the fewest shares come first (R133). -/
def State.teamLack (s : State) (l cluster : Nat) : Option (Nat × Nat) :=
  let x := s.launch l
  bif s.teamFits l cluster then none
  else (List.range x.kernel.cores).findSome? fun n =>
    s.sharesLack x.par.vd x.par.spad x.kernel.tiles (s.regionOf x.par.vd cluster)
      ((List.range (n + 1)).map fun j => (x.kernel.shareGroups (n + 1) j).map x.kernel.shape)
/-- The same for teams n to n + k − 1 of a cord, placed together (R394). -/
def State.teamsLack (s : State) (l cluster n : Nat) : Nat → Option (Nat × Nat)
  | 0 => none
  | k + 1 =>
    match s.placeTeam l n cluster with
    | some t => t.teamsLack l cluster (n + 1) k
    | none => s.teamLack l cluster
/-- The same for shares of a cord that are switched in together (R394). -/
def State.resumesLack (s : State) (v cluster : Nat) : List Nat → Option (Nat × Nat)
  | [] => none
  | h :: rest =>
    match (s.regionOf v cluster).findSome? fun c => s.resumeShare h c with
    | some t => t.resumesLack v cluster rest
    | none => s.shareLack v (s.regionOf v cluster) (s.shapeOf h) (s.share h).size (s.share h).tiles.length
/-- What waits for room: a share that waits or is switched out, the next team of a launch for some clusters, a cord (R132, R250, R374, R394). -/
inductive Waiting where
  | share (h : Nat)
  | team (l : Nat) (clusters : List Nat)
  | cord (l : Nat)
  deriving DecidableEq, Repr
/-- The ranges of a grid that hold teams, each as the clusters that its teams may go to: a cluster's, a die's, the chip's (R374). -/
def State.waitingRanges (s : State) (l : Nat) : List (List Nat) :=
  let x := s.launch l
  let ks := s.regions x.par.vd
  let holds := fun (rs : List Range) => !(keepRanges rs).isEmpty
  ((List.range 24).filter fun k => holds (x.dist.cluster.getD k [])).map (fun k => [k]) ++
  ((List.range 2).filter fun d => holds (x.dist.die.getD d [])).map (fun d => ks.filter fun k => k / 12 == d) ++
  (bif holds [x.dist.chip] then [ks] else [])
/-- All that waits for room (R422). -/
def State.allWaiting (s : State) : List Waiting :=
  ((List.range s.lanes.shares.length).filter fun h => (s.task (s.share h).task).state == .live && match (s.share h).state with
    | .waiting => true
    | .saved => !s.inCord h
    | _ => false).map .share ++
  (List.range s.lanes.launches.length).flatMap fun l =>
    let x := s.launch l
    bif s.cordWaits l then [.cord l]
    else bif x.open && !x.billets && !x.par.cord then (s.waitingRanges l).map (.team l) else []
/-- The core, and its carve-out, with which what waits would fit that fits nowhere in its region (R422). -/
def State.lack (s : State) : Waiting → Option (Nat × Nat)
  | .share h =>
    let x := s.share h
    let v := s.taskVd x.task
    s.shareLack v (s.regionOf v (clusterOf x.core)) (s.shapeOf h) x.size x.tiles.length
  | .team l ks => bif ks.any (s.teamFits l) then none else ks.findSome? (s.teamLack l)
  | .cord l =>
    let x := s.launch l
    let ks := s.regions x.par.vd
    bif ks.any fun k => (s.placeCord l k).isSome then none
    else ks.findSome? fun k => bif x.unplaced then s.teamsLack l k 0 x.par.teams else s.resumesLack x.par.vd k (s.savedOf l)
/-- Hearth core 2 raises the carve-out of a core where a waiting share fits on no core of its region, and would fit there with a larger one; pending growth counts, and such a change replaces a pending target (R422). -/
def State.raiseCarve (s : State) : State :=
  s.allWaiting.foldl (fun s w =>
    match s.grown.lack w with
    | some (c, n) => s.modCore c fun x => { x with waysNext := some n }
    | none => s) s
/-- CARVEOUT_CHANGE: asked for, replacing a pending change; a target equal to the present split cancels it (R422). -/
def execCarveoutChange (core ways : Nat) (s : State) : Result :=
  .next (bif decide (6 < ways) then s else
    s.modCore core fun c => { c with waysNext := bif ways == c.ways then none else some ways })
/-- CARVEOUT_CHANGE_EFFECT: growing takes effect when the written-back lines are gone, shrinking when no resident window reaches the new split (R422). -/
def execCarveoutChangeEffect (core : Nat) (s : State) : Result :=
  .next (match (s.core core).waysNext with
    | none => s
    | some n =>
      bif decide (s.waysUsed core ≤ n) then s.modCore core fun c => { c with ways := n, waysNext := none } else s)

end Sys2Proof.Machine
end

