-- ==== Sys2Proof/Machine/Fetch.lean ====
section
/-! DEFINITION. Nomination of a fragment and its fetch (03 R45, R70 to R72, 06 R134 to R141, 11 R241, R244). -/

namespace Sys2Proof.Machine

/-! ## Fetch (R45, R70, R358) -/

/-- Read a word for fetch: the word, or a fate. A task sees its own version. -/
def State.fetchWord (s : State) (ag : Nat) (pc : DWord) : State × Except Fate Word :=
  match s.translate (s.vdOf ag) (s.coreOf ag) pc .fetch with
  | (s, .held) => (s, .error .stall)
  | (s, .bad c) => (s, .error (.trap c pc 0#32))
  | (s, .ok pa _ _) => (s, .ok (BitVec.ofNat 32 (leNat (s.readAs (s.taskOf ag) pa 4))))
/-- Read n words. -/
def State.fetchWords (s : State) (ag : Nat) (pc : DWord) : Nat → State × Except Fate (List Word)
  | 0 => (s, .ok [])
  | n + 1 =>
    match s.fetchWord ag pc with
    | (s, .error f) => (s, .error f)
    | (s, .ok w) =>
      match s.fetchWords ag (pc + 4#64) n with
      | (s, .error f) => (s, .error f)
      | (s, .ok ws) => (s, .ok (w :: ws))
/-- The words of the instruction at a program counter; its length follows word 0 (R45). -/
def State.fetch (s : State) (ag : Nat) (pc : DWord) : State × Except Fate (List Word) :=
  if pc.toNat % 4 ≠ 0 then (s, .error (.trap 0x03 pc 0#32))
  else
    match s.fetchWord ag pc with
    | (s, .error f) => (s, .error f)
    | (s, .ok w) =>
      match s.fetchWords ag (pc + 4#64) (extraWords w) with
      | (s, .error f) => (s, .error f)
      | (s, .ok ws) => (s, .ok (w :: ws))
/-- Major opcode of word 0 (R44). -/
def majorOf (w : Word) : Nat := (w.extractLsb' 3 7).toNat
/-- Decode for a thread: an undefined word of SHFL or GRED whose segment is wider than the group has reason 7 too, and the lowest counts (R71, R192). -/
def decodeFor (gw : Nat) (ws : List Word) : Except Nat Instr :=
  match decodeWords ws with
  | .ok i => .ok i
  | .error r =>
    let x := rawOfWords ws
    let op := x.op.toNat
    .error (bif (op == 0x33 || op == 0x35) && segBad (x.xf2.extractLsb' 0 3) gw && decide (7 < r) then 7 else r)
/-- What a fetch gives a thread: the instruction and whether it is of class F (R138), or a fate. -/
def State.fetchInstr (s : State) (ag : Nat) (pc : DWord) : State × Except Fate (Instr × Bool) :=
  match s.fetch ag pc with
  | (s, .error f) => (s, .error f)
  | (s, .ok ws) =>
    match decodeFor (s.gwidth ag) ws with
    | .error r => (s, .error (.trap 0x01 0#64 (BitVec.ofNat 32 r)))
    | .ok i =>
      let m := majorOf (ws.getD 0 0#32)
      (s, .ok (i, (decide (4 ≤ m) && decide (m ≤ 6)) || (decide (0x20 ≤ m) && decide (m ≤ 0x2F))))

/-! ## Readiness and nomination (R134, R135, R140) -/

/-- Threads of a group, or a front end. -/
def State.ownerAgents (s : State) : Sys2Proof.Owner → List Nat
  | .group g => (s.group g).members
  | .frontEnd a => bif (s.agent a).isFE then [a] else []
/-- The asynchronous cause a thread takes before its next instruction (R241). -/
def Agent.asyncNext (a : Agent) : Option Async :=
  (a.async.find? fun x => x.cause == 0x16).orElse fun _ => bif a.trap.h then none else firstAsync a.async
/-- A thread may run: its task is live, its share resident, its virtual device not frozen, and its core has not stopped for a switch (R132, R237, R248, R411). -/
def State.running (s : State) (ag : Nat) : Bool :=
  s.live ag && !(s.core (s.coreOf ag)).slice.stop && (s.vdev (s.vdOf ag)).state == .ready && (s.task (s.taskOf ag)).state == .live && (s.share (s.shareOf ag)).state == .resident
/-- A thread is ready (R134): not ended, halted or parked, no W point and no asynchronous cause still to be met, and its next instruction may issue. -/
def State.ready (s : State) (ag : Nat) : Bool :=
  let a := s.agent ag
  s.running ag && a.status == .ready && !(a.wHold && !a.outst.isEmpty) && a.asyncNext.isNone &&
  match s.fetchInstr ag a.pc with
  | (_, .error .stall) => false
  | (_, .error _) => true
  | (_, .ok (i, _)) => (s.modAgent ag Agent.tick).pre i ag != .stall
/-- The lowest program counter of a list of threads. -/
def State.lowestPc (s : State) : List Nat → DWord
  | [] => 0#64
  | [a] => (s.agent a).pc
  | a :: rest => bif (s.agent a).pc ≤ s.lowestPc rest then (s.agent a).pc else s.lowestPc rest
/-- The fragment of a group: its ready threads at the lowest program counter, over all slices and passes (R134, R135). -/
def State.fragment (s : State) (o : Sys2Proof.Owner) : List Nat × DWord :=
  let rs := (s.ownerAgents o).filter s.ready
  let pc := s.lowestPc rs
  (rs.filter fun a => (s.agent a).pc == pc, pc)
/-- Take the asynchronous causes that are due (R241). -/
def State.deliverAll (s : State) : List Nat → State
  | [] => s
  | a :: rest => (bif s.running a && (s.agent a).asyncNext.isSome then s.deliver a else s).deliverAll rest
/-- A thread whose W point is met before its next instruction issues (R60). -/
def State.meetW (s : State) : List Nat → State
  | [] => s
  | a :: rest =>
    (bif (s.agent a).status == .ready && (s.agent a).wHold && (s.agent a).outst.isEmpty then
      s.modAgent a fun x => { x.settle with wHold := false } else s).meetW rest
/-- A buffer entry whose fragment no live thread of its group stands at any more. -/
def State.idleEntry (s : State) (e : IBuf) : Bool :=
  !((s.group e.group).members.any fun a => s.live a && (s.agent a).pc == e.pc)
/-- The entry that is given up for a new one: one whose fragment is gone, else the least recently issued (R139). -/
def State.entryToGive (s : State) (es : List IBuf) : Nat :=
  match es.findIdx? s.idleEntry with
  | some k => k
  | none => (es.zipIdx.foldl (fun b x => bif decide (x.1.last < b.1) then (x.1.last, x.2) else b) ((es.headD default).last, 0)).2
/-- The entries of a buffer with one for a fragment, which issues now (R139). -/
def State.withEntry (s : State) (g : Nat) (pc : DWord) (es : List IBuf) : List IBuf :=
  let e : IBuf := ⟨g, pc, s.moves + 1⟩
  match es.findIdx? fun x => x.group == g && x.pc == pc with
  | some k => es.set k e
  | none => bif decide (es.length < 12) then es ++ [e] else es.set (s.entryToGive es) e
/-- A fragment of a group issues from an entry of its partition's instruction buffer (R139); a front end has none. -/
def State.buffer (s : State) (o : Sys2Proof.Owner) (pc : DWord) : State :=
  match o with
  | .group g => s.modCore (s.share (s.group g).share).core fun c => { c with ibuf := c.ibuf.modify (s.group g).part (s.withEntry g pc) }
  | .frontEnd _ => s
/-- An owner's threads before it is nominated: W points that are met, and the asynchronous causes that are due taken (R60, R241). -/
def State.readied (s : State) (o : Sys2Proof.Owner) : State := (s.meetW (s.ownerAgents o)).deliverAll (s.ownerAgents o)
/-- SLICE_NOMINATION: the fragment of a group or front end that issues next becomes the current one, in an entry of the instruction buffer (R134, R135, R139). -/
def State.nominate (s : State) (o : Sys2Proof.Owner) : State :=
  let s := s.readied o
  let (f, pc) := s.fragment o
  { (bif f.isEmpty then s else s.buffer o pc) with cur := ⟨f, pc, 0⟩ }
/-- Whether the next instruction of an owner's fragment is of class F; none where no thread of it is ready (R138). -/
def State.issueClass (s : State) (o : Sys2Proof.Owner) : Option Bool :=
  let t := s.readied o
  match t.fragment o with
  | ([], _) => none
  | (a :: _, pc) => match t.fetchInstr a pc with
    | (_, .ok (_, f)) => some f
    | (_, .error _) => some false
/-- When an owner last issued in a class (R138, R140). -/
def State.lastIssue (s : State) (f : Bool) : Sys2Proof.Owner → Nat
  | .group g => bif f then (s.group g).lastF else (s.group g).lastG
  | .frontEnd a => (s.share (s.shareOf a)).feLast
/-- Two owners issue through one pipe: groups of a partition, or front ends of a core (R138, R140). -/
def State.samePipe (s : State) : Sys2Proof.Owner → Sys2Proof.Owner → Bool
  | .group g, .group h => (s.share (s.group g).share).core == (s.share (s.group h).share).core && (s.group g).part == (s.group h).part
  | .frontEnd a, .frontEnd b => s.coreOf a == s.coreOf b
  | _, _ => false
/-- Every group and front end. -/
def State.owners (s : State) : List Sys2Proof.Owner :=
  (List.range s.lanes.groups.length).map .group ++ s.lanes.shares.map fun h => .frontEnd h.fe
/-- An owner issues through the front-end pipe, which has no classes (R140). -/
def Owner.isFE : Sys2Proof.Owner → Bool
  | .group _ => false
  | .frontEnd _ => true
/-- The pipe that an instruction of a group, or of a front end, issues through, by class (R138, R140). -/
def State.pipe (s : State) (group : Option Nat) (f : Bool) : Nat :=
  match group with
  | some g => 2 * (s.group g).part + bif f then 1 else 0
  | none => 12
/-- Nothing has issued through an owner's pipe on this clock (R138, R140). -/
def State.pipeFree (s : State) (o : Sys2Proof.Owner) (f : Bool) : Bool :=
  let (core, g) := match o with
    | .group g => ((s.share (s.group g).share).core, some g)
    | .frontEnd a => (s.coreOf a, none)
  (s.core core).pipes.getD (s.pipe g f) 0 != (s.core core).clock + 1
/-- An owner may issue: its pipe is free on this clock and, of the groups of its partition ready in its class, or of the ready front ends of its core, none issued less recently (R138, R140). -/
def State.hasTurn (s : State) (o : Sys2Proof.Owner) : Bool :=
  match s.issueClass o with
  | none => true
  | some f => s.pipeFree o f && s.owners.all fun p =>
      p == o || !s.samePipe o p || decide (s.lastIssue f o ≤ s.lastIssue f p) ||
      match s.issueClass p with
      | none => true
      | some g => g != f && !Owner.isFE o
/-- Where commands of an agent come from, for arrivals on one clock (R13). -/
def State.sourceOf (s : State) (ag : Nat) : Nat :=
  match (s.agent ag).home.group with
  | none => 0
  | some g => 1 + (s.group g).part
/-- No command of a later source has arrived at the engine's queue on this clock (R13). -/
def State.inArrivalOrder (s : State) (ag q : Nat) : Bool :=
  match ((s.core (s.coreOf ag)).arrivals.getD q none) with
  | none => true
  | some (t, r) => t != (s.core (s.coreOf ag)).clock || decide (r ≤ s.sourceOf ag)
/-- Note the arrival of a command (R13). -/
def State.noteArrival (s : State) (ag q : Nat) : State :=
  s.modCore (s.coreOf ag) fun c => { c with arrivals := c.arrivals.set q (some (c.clock, s.sourceOf ag)) }
/-- What the current fragment issues may take effect on this clock: no command of a later source has come to its engine's queue, no event of a higher rank on a barrier it acts on (R13, R224). -/
def State.inOrder (s : State) (i : Instr) (ag : Nat) : Bool :=
  (match i.engineQueue with
   | some q => s.inArrivalOrder ag q
   | none => true) && i.barsOf.all fun b => s.barClear (s.taskOf ag) b (s.barRank ag)
/-- Note what the current fragment issues, for the order of commands and barrier events on one clock (R13, R224). -/
def State.noteOrder (s : State) (i : Instr) (ag : Nat) : State :=
  let s := match i.engineQueue with
    | some q => s.noteArrival ag q
    | none => s
  i.barsOf.foldl (fun s b => s.noteBar (s.taskOf ag) b (s.barRank (s.cur.agents.getLastD ag))) s
/-- SLICE_NOMINATION (R134). -/
def execSliceNomination (o : Sys2Proof.Owner) (s : State) : Result := .next (s.nominate o)

/-! ## The fetch of the current fragment (R70, R72, R138, R140, R244) -/

/-- The breakpoint a thread stands at: the lowest enabled one (R244). -/
def State.breakpoint (s : State) (ag : Nat) : Option Nat :=
  let a := s.agent ag
  let n := a.issued + 1
  bif a.skipBp then none
  else
    let ctl := s.debugSeen ag 83 0x801 n
    (List.range 4).find? fun j =>
      ctl.getLsbD j && (s.debugSeen ag 84 (0x803 + 2 * j) n ++ s.debugSeen ag 85 (0x802 + 2 * j) n) == a.pc
/-- Threads at a breakpoint take it, or wait until their results are written (R61, R244). -/
def State.takeBreakpoints (s : State) : List Nat → State
  | [] => s
  | a :: rest =>
    (match s.breakpoint a with
     | some j => s.takeTrap a 0x0B (s.agent a).pc 0#64 (0x80000000#32 + BitVec.ofNat 32 j)
     | none => s : State).takeBreakpoints rest
/-- Note the issue for the choice of the least recently issued, and that the pipe is taken on this clock (R138, R140). -/
def State.noteIssue (s : State) (ag : Nat) (f : Bool) : State :=
  let s := s.modCore (s.coreOf ag) fun c => { c with pipes := c.pipes.set (s.pipe (s.agent ag).home.group f) (c.clock + 1) }
  match (s.agent ag).home.group with
  | some g => s.modGroup g fun x => bif f then { x with lastF := s.moves + 1 } else { x with lastG := s.moves + 1 }
  | none => s.modShare (s.shareOf ag) fun x => { x with feLast := s.moves + 1 }
/-- Breakpoints, fetch and decode of the current fragment: the instruction it issues, where it issues one. -/
def State.fetchCur (s : State) : State × Option Instr :=
  let ags := s.cur.agents.filter fun a => (s.breakpoint a).isNone
  let pc := s.cur.pc
  let s := { s.takeBreakpoints s.cur.agents with cur := ⟨ags, pc, 0⟩ }
  match ags with
  | [] => (s, none)
  | a :: _ =>
    match s.fetchInstr a pc with
    | (s, .error f) => (ags.foldl (fun s b => s.trapFate b (s.agent b) f) (s.noteIssue a false), none)
    | (s, .ok (i, f)) => ({ s.noteIssue a f with cur := ⟨ags, pc, i.ctl.1⟩ }, some i)

end Sys2Proof.Machine
end

