-- ==== Sys2Proof/Machine/LaneEvents.lean ====
section
/-! DEFINITION. Events of the lane engine: results, store queues, forwarding tables, parks, kills, shares (03 R59,
05 R98, R101, 06 R132, R137, R143, R148, R149). -/

namespace Sys2Proof.Machine

/-- RESULT_WRITEBACK: the k-th outstanding result of a thread is written and its entries freed (R59). -/
def execResultWriteback (ag k : Nat) (s : State) : Result :=
  .next (match (s.agent ag).outst[k]? with
    | some o => bif o.done then s.modAgent ag fun a => { a.settleOne o with outst := a.outst.eraseIdx k } else s
    | none => s)
/-- An agent whose store queue a group or front end uses. -/
def State.ownerAgent (s : State) (o : Sys2Proof.Owner) : Option Nat := (s.ownerAgents o).head?
/-- STORE_QUEUE_DRAIN: the oldest entry drains and becomes visible (R98). -/
def execStoreQueueDrain (o : Sys2Proof.Owner) (s : State) : Result :=
  .next (match s.ownerAgent o with
    | some ag => (s.drainFirst ag 1).1
    | none => s)
/-- STS_BANK_WRITE: the oldest waiting STS of a partition is written to the banks (R101). -/
def execStsBankWrite (core part : Nat) (s : State) : Result :=
  .next (match (s.core core).fwd.getD part [] with
    | [] => s
    | e :: rest =>
      (s.modShare e.share fun h => { h with pad := h.pad.putN e.off e.bytes }).modCore core fun c =>
        { c with fwd := c.fwd.set part rest })
/-- What a parked thread waits for has come about, for the parks that end by retrying (R14, R60, R143). -/
def State.released (s : State) (ag : Nat) (w : Wait) : Bool :=
  let c := s.core (s.coreOf ag)
  let h := s.share (s.shareOf ag)
  match w with
  | .store 0 => decide ((s.sq ag).length < 32) && s.inTurn ag false
  | .store 1 => decide ((c.fwd.getD (s.partitionOf ag) []).length < 16) && s.inTurn ag true
  | .store 2 => !(s.vdev (s.vdOf ag)).balloon.suspended && s.inTurn ag false
  | .store k => s.inTurn ag (k == 4)
  | .engine 0 => decide (c.copyQ.length < 16) && c.locks.any (·.isNone)
  | .engine 1 => c.chains.any fun x => x.2.isNone
  | .engine 2 => decide (c.mxQ.length < 32) && !c.mxReset
  | .engine 4 => !(s.vdev (s.vdOf ag)).balloon.suspended
  | .engine _ => decide (c.xQ.length < 16)
  | .queue => bif (s.agent ag).isFE then decide (h.dq.length < 64) else decide ((s.agent ag).dqRead < h.dqFreed + h.dq.length)
  | .presence l => !h.absent.elem l
  | .counter => true
  | .slots => true
  | .wmark _ => (s.agent ag).outst.isEmpty
  | .record d x => !(bif d then s.recordHeld (s.launchOf ag) else s.trapWaits ag x.cause)
  | _ => false
/-- The threads of a group that were held together by one command of their fragment: they stand at the same pc in the same park (R13, R14, R263). -/
def State.parkedWith (s : State) (ag : Nat) (w : Wait) : List Nat :=
  let joint := match w with
    | .engine _ => true
    | .slots => true
    | _ => false
  match joint, (s.agent ag).home.group with
  | true, some g => (s.group g).members.filter fun b => (s.agent b).status == .parked w && (s.agent b).pc == (s.agent ag).pc
  | _, _ => [ag]
/-- A trap that has waited is taken (R233, R239, R410); a thread resumed for the instruction that met it halts before its handler (R245). -/
def State.takeHeld (s : State) (ag : Nat) (d : Bool) (x : TrapArgs) : State :=
  let s := s.modAgent ag fun a => { a with status := .ready }
  let s := bif d then s.deferred ag x.pc else s.takeTrapWith ag x.cause x.pc x.addr x.info x.short x.supp
  bif x.step then s.stepEnd ag { s.agent ag with stepOnce := true } else s
/-- PARK_RELEASE: a parked thread goes on, with those its command holds with it; a thread whose W point ends with suppression in force takes cause 0x08 (R14, R60, R239). -/
def execParkRelease (ag : Nat) (s : State) : Result :=
  .next (match (s.agent ag).status with
    | .parked w =>
      bif s.running ag && s.released ag w then
        match w with
        | .wmark enc =>
          let s := s.modAgent ag fun a => { a.settle with status := .ready }
          bif enc && (s.agent ag).supp.isSome then s.deferred ag (s.agent ag).pc else s
        | .record d x => s.takeHeld ag d x
        | w => s.modAgents (fun a => { a with status := .ready }) (s.parkedWith ag w)
      else s
    | _ => s)
/-- THREAD_KILL (R148), in its turn among the events of its clock on the barriers (R224). -/
def execThreadKill (ag : Nat) (s : State) : Result := .next (bif s.killClear ag then s.killAgent ag else s)

/-! ## Shares (R132, R149) -/

/-- Commands of a share that its engines have not completed (R149). -/
def State.engineBusy (s : State) (h : Nat) : Bool :=
  let c := s.core (s.share h).core
  let x := (s.share h).saved
  ((c.copyQ ++ c.copies).any fun y => y.share == h) || (c.mxQ.any fun e => e.share == h) ||
  (c.xQ.any fun e => e.any fun y => s.shareOf y.1 == h) ||
  (c.chains.any fun y => match y.2 with
    | some z => z.share == some h
    | none => false) ||
  !(x.copies.isEmpty && x.mx.isEmpty && x.xs.isEmpty && x.chains.isEmpty) ||
  (s.task (s.share h).task).cvs.any fun v => v.state == .issuing && v.share == h
/-- A share can retire: every thread and its front end have ended, their stores have drained and their commands have completed (R149). -/
def State.canRetire (s : State) (h : Nat) : Bool :=
  let x := s.share h
  x.state != .retired && ((s.agentsOfShare h).all fun a => !s.live a) && !s.engineBusy h && x.feSq.isEmpty &&
  x.groups.all fun g => (s.group g).sq.isEmpty
/-- SHARE_RETIRE (R149), a scheduling event of R395: the commands and stores of a killed task are gone with it. -/
def execShareRetire (sh : Nat) (s : State) : Result :=
  let t := (s.share sh).task
  let v := s.taskVd t
  let s := bif (s.task t).state == .killed && (s.share sh).state != .retired then
      ((s.drainAgents (s.agentsOfShare sh)).1).dropEngines sh else s
  .next (bif s.canRetire sh then
      let c := (s.share sh).core
      let s := (List.range 6).foldl (fun s p => s.flushFwd c p fun e => e.share == sh) s
      (s.modShare sh fun x => { x with state := .retired }).dueWalk v
    else s)

end Sys2Proof.Machine
end

