-- ==== Sys2Proof/Machine/System.lean ====
section
/-! DEFINITION. System instructions STKHO, TLBI, CFLUSH and CTXSW, and the hand-over of a stack (11 R252 to R256,
21 R367 to R373, 24 R417). -/

namespace Sys2Proof.Machine

/-- A system instruction first commits: its checks are those of a settled task (R252). -/
def State.sysFirst (s : State) (ag : Nat) (k : State → State × Fate) : State × Fate := s.committing (s.taskOf ag) true k
/-- A system instruction whose checks passed is ordered after the issuer's earlier accesses (R111, R252). -/
def State.sysStep (s : State) (ag : Nat) (k : State → State × Fate) : State × Fate :=
  match s.drainIssuer ag with
  | (s, false) => (s, .stall)
  | (s, true) => k s
/-- The check of a counter: 8-byte alignment, then as ST; %tinfo is 0, as no rule gives it (R233, R252). -/
def State.sysCounter (s : State) (ag : Nat) (va : DWord) : State × Option Fate :=
  if va.toNat % 8 ≠ 0 then (s, some (.trap 0x03 va 0#32))
  else match s.translate (s.vdOf ag) (s.coreOf ag) va .store with
    | (s, .held) => (s, some .stall)
    | (s, .bad c) => (s, some (.trap c va 0#32))
    | (s, .ok _ _ _) => (s, none)
/-- The first of a page's fate and a refused operand, in the order of R70. -/
def firstFate (page refused : Option Fate) : Option Fate :=
  match page, refused with
  | some (.trap c a i), some f => some (bif decide (c ≤ 0x05) then .trap c a i else f)
  | _, some f => some f
  | p, none => p
/-- The fate of two memory operands: the trap at the lowest address, with that address's cause (R70); a stall waits for the other (R252). -/
def earlierFate (a b : Option Fate) : Option Fate :=
  match a, b with
  | some (.trap c x i), some (.trap d y j) => some (bif decide (x ≤ y) then .trap c x i else .trap d y j)
  | some (.trap c x i), _ => some (.trap c x i)
  | some _, some f => some f
  | some f, none => some f
  | none, b => b
/-- Cause 0x05 of a system instruction with its reason (R253, R256). -/
def sysTrap (r : Nat) : Fate := .trap 0x05 0#64 (BitVec.ofNat 32 r)

/-! ## STKHO and hand-overs (R253, R369 to R373) -/

/-- A hand-over that split mode does not allow: a stack of the other partition, or to it, without an agreement (R253, R372). -/
def State.loanLacks (s : State) (part st die : Nat) : Bool :=
  !s.hearth.config.unified && (s.ownerDie st != part || s.ownerDie st != die) &&
  !(s.store.loans.any fun l => l.stack == st && l.agreed)
/-- STKHO (R252, R253). -/
def State.stkho1 (s : State) (ag die scope : Nat) (ctr : DWord) (b : Word) : State × Fate :=
  s.sysFirst ag fun s =>
  let v := s.vdOf ag
  let (s, pg) := s.sysCounter ag ctr
  let no := if 7 < b.toNat then some (sysTrap 1)
    else if s.loanLacks (partOf v) b.toNat die then some (sysTrap 2) else none
  match firstFate pg no with
  | some f => (s, f)
  | none =>
    s.sysStep ag fun s =>
      (s.modStore fun m => { m with handovers := m.handovers ++ [⟨b.toNat, die, 0, some (ctr, v, scope)⟩] }, .next)
/-- Change a stack's ownership register. -/
def State.modOwner (s : State) (st : Nat) (f : Owner → Owner) : State :=
  s.modStore fun m => { m with owners := m.owners.modify st f }
/-- A TLB entry maps a page of a stack. -/
def TlbEntry.onStack (e : TlbEntry) (st : Nat) : Bool :=
  let pa := e.replica.getD (bits e.leaf.toNat 16 36 * 65536)
  region pa == 0 && stackOf pa == st
/-- A TLB of a die: a core's or a cluster's (R360). -/
def TlbAt.ofDie (a : TlbAt) (die : Nat) : Bool :=
  match a with
  | .l1 c => dieOf c == die
  | .l2 k => k / 12 == die
  | .l3 _ => false
/-- An OWNER copy with the bit of a stack set or clear (R367). -/
def setStackBit (x : BitVec 8) (st : Nat) (one : Bool) : BitVec 8 :=
  let m : BitVec 8 := 1#8 <<< st
  bif one then x ||| m else x &&& ~~~m
/-- The increment that ends a hand-over, a release at the STKHO's scope (R252, R369 step 7). -/
def State.handoverDone (s : State) (h : Handover) : State :=
  match h.counter with
  | some (a, v, scope) => s.hearthSignal v scope 8 s.moves a 1#64
  | none => s
/-- One step of a hand-over: the next step, or none when it is finished (R369). At step 6 of a loan the lender's entries in the stack's L3 bank go, and the bank hashes follow the OWNER copies (R360, R372). -/
def State.handoverStep (s : State) (h : Handover) : State × Option Handover :=
  let st := h.stack
  let old := s.ownerDie st
  match h.step with
  | 0 =>
    bif old == h.die then (s.handoverDone h, none)
    else (s.modOwner st fun o => { o with state := 1#2, next := h.die == 1 }, some { h with step := 1 })
  | 1 => (s, some { h with step := 2 })
  | 2 => (s, some { h with step := 3 })
  | 3 => (s.dropTlb fun e => e.at_.ofDie old && e.onStack st, some { h with step := 4 })
  | 4 => (s.modOwner st fun o => { o with state := 2#2, owner := h.die == 1 }, some { h with step := 5 })
  | 5 =>
    let loan := s.store.loans.any fun l => l.stack == st && l.agreed && l.borrower == h.die
    let s := s.modOwner st fun o => { o with state := 0#2, next := false, seq := o.seq + 1, loan := loan }
    let s := s.modStore fun m => { m with ownerCopies := m.ownerCopies.map fun x => setStackBit x st (h.die == 1) }
    let s := bif loan then s.dropTlb fun e => e.at_ == .l3 st && partOf e.vd != h.die else s
    (s, some { h with step := 6 })
  | _ => (s.handoverDone h, none)
/-- The steps of a stack's hand-overs: the oldest one goes on (R371). -/
def State.handoverOn (s : State) (st : Nat) : State :=
  match s.store.handovers.find? fun h => h.stack == st with
  | none => s
  | some h =>
    let rest := s.store.handovers.erase h
    let (s, n) := s.handoverStep h
    s.modStore fun m => { m with handovers := match n with
      | some x => x :: rest
      | none => rest }
/-- STACK_HANDOVER (R369). -/
def execStackHandover (stack : Nat) (s : State) : Result := .next (s.handoverOn stack)

/-! ## TLBI (R254) -/

/-- A TLB lies in a scope of an agent on a core (R254). -/
def TlbAt.inScope (a : TlbAt) (core scope : Nat) : Bool :=
  match scope, a with
  | 6, _ => true
  | 5, a => a.ofDie (dieOf core)
  | 4, .l1 c => clusterOf c == clusterOf core
  | 4, .l2 k => k == clusterOf core
  | 2, .l1 c => c == core
  | _, _ => false
/-- The entry maps a byte of n bytes at an address. -/
def TlbEntry.hits (e : TlbEntry) (lo n : Nat) : Bool :=
  let a := (canon (e.vpn * 65536)).toNat
  meets lo n a (e.pages * 65536) || meets lo n (a + 2 ^ 64) (e.pages * 65536)
/-- A core lies in a scope of an agent on another (R254). -/
def coreInScope (core scope c : Nat) : Bool :=
  match scope with
  | 6 => true
  | 5 => dieOf c == dieOf core
  | 4 => clusterOf c == clusterOf core
  | _ => c == core
/-- The live agents of the resident shares in a scope: their queued stores have used translations (R254). -/
def State.agentsInScope (s : State) (core scope : Nat) : List Nat :=
  ((List.range s.lanes.shares.length).filter fun h => (s.share h).state == .resident && coreInScope core scope (s.share h).core).flatMap
    s.agentsOfShare
/-- TLBI on the entries of its kind: the entries in scope go, and it completes once every access in scope that used one has been performed (R254). -/
def State.tlbiDrop (s : State) (ag scope : Nat) (p : TlbEntry → Bool) : State × Fate :=
  let core := s.coreOf ag
  s.sysStep ag fun s =>
    let s := s.dropTlb fun e => e.at_.inScope core scope && p e
    match s.drainAgents (s.agentsInScope core scope) with
    | (s, true) => (s, .next)
    | (s, false) => (s, .stall)
/-- TLBI of a kind that names no address. -/
def State.tlbi1 (s : State) (ag scope : Nat) (p : TlbEntry → Bool) : State × Fate := s.sysFirst ag fun s => s.tlbiDrop ag scope p
/-- TLBI.page: the address is checked for its alignment only (R252, R254). -/
def State.tlbiPage1 (s : State) (ag scope : Nat) (a : DWord) (n : Nat) : State × Fate :=
  let v := s.vdOf ag
  s.sysFirst ag fun s =>
  if a.toNat % 65536 ≠ 0 then (s, .trap 0x03 a 0#32)
  else s.tlbiDrop ag scope fun e => e.vd == v && decide (0 < n) && e.hits a.toNat (n * 65536)

/-! ## CFLUSH (R255) -/

/-- Leaves of the pages of a range, ascending, or the fate of the lowest faulting one; pages without residents are skipped (R252, R255). -/
def State.flushPages (s : State) (v : Nat) (discard : Bool) : List (DWord × Nat) → Except Fate (List (Nat × Nat))
  | [] => .ok []
  | (va, n) :: rest =>
    let go := fun (x : List (Nat × Nat)) => (s.flushPages v discard rest).map fun l => x ++ l
    if !canonical va then .error (.trap 0x04 va 0#32)
    else
      match s.walkStop v va, s.walk v va with
      | some (.bad c), _ => .error (.trap c va 0#32)
      | some _, _ => .error .stall
      | none, none => .error (.trap 0x04 va 0#32)
      | none, some l =>
        if !permOk l.e .load || (discard && !permOk l.e .store) then .error (.trap 0x05 va 0#32)
        else if l.res = 1 ∨ l.res = 2 then go []
        else
          match s.throughLeaf v va .load l none with
          | .ok pa _ _ => go (bif region pa == 0 then [(pa, n)] else [])
          | .held => .error .stall
          | .bad c => .error (.trap c va 0#32)
/-- Drop the dirty lines of a block that lie in a range: their stored bytes are read again. Within a narrower scope than device, whether the newest bytes had left its caches is free for each line. -/
def State.discardLines (s : State) (scope lo n no : Nat) : State :=
  let b := s.block no
  let gone := b.dirty.filter fun (l, _) =>
    decide (lo ≤ l * 128) && decide (l * 128 < lo + n) && (scope == 6 || Config.freeChoice s.free l scope 0 0)
  let s := gone.foldl (fun s (l, bs) => s.modStore fun m => { m with mem := m.mem.putN (l * 128) bs }) s
  (s.setBlock { b with dirty := b.dirty.filter fun x => !gone.elem x }).releaseIdle [no]
/-- CFLUSH (R255): 0 clean, 1 inv, 2 discard. -/
def State.cflush1 (s : State) (ag op scope : Nat) (a : DWord) (b : Word) : State × Fate :=
  let n := b.toNat
  s.sysFirst ag fun s =>
  if a.toNat % 128 ≠ 0 ∨ n % 128 ≠ 0 then (s, .trap 0x03 a 0#32)
  else
    match s.flushPages (s.vdOf ag) (op == 2) (pageParts (n / 65536 + 2) a n) with
    | .error f => (s, f)
    | .ok ps =>
      s.sysStep ag fun s =>
        (ps.foldl (fun s (pa, n) => (blocksIn pa n).foldl (fun s no =>
          bif op == 2 then s.discardLines scope pa n no
          else bif scope == 6 then (bif (s.block no).dirty.any fun (l, _) => meets pa n (l * 128) 128 then s.writeback no else s)
          else s) s) s, .next)

/-! ## CTXSW (R256, R417) -/

/-- The scheduler rejects a descriptor (R417). -/
def State.rejectsSwitch (s : State) (ag core : Nat) (d : List Byte) : Bool :=
  let own := s.vdOf ag
  let n := field d 0 2
  let v := 16 * partOf own + n
  let run := field d 4 4
  decide (1 < field d 2 1) || field d 3 1 != 0 || field d 8 56 != 0 || decide (16 ≤ n) || (s.vdev v).state != .ready ||
  !s.mayUse v core || run == 0 || decide (100000 < run) || (v != own && !(s.launch (s.launchOf ag)).par.hv)
/-- A core lies in a partition (R412). -/
def State.coreIn (s : State) (part core : Nat) : Bool :=
  decide (core < 192) && (s.hearth.config.unified || dieOf core == part)
/-- CTXSW (R256): its descriptor is checked for the causes of R252, which range locks are not among. A second one before the swap replaces tenant and counter of the first: the model's choice, log entry 31. -/
def State.ctxsw1 (s : State) (ag : Nat) (force : Bool) (scope : Nat) (ctr desc : DWord) (b : Word) : State × Fate :=
  let core := b.toNat
  let own := s.vdOf ag
  s.sysFirst ag fun s =>
  let (s, pg) := s.sysCounter ag ctr
  let (s, rd) := s.readRecordBy none ag desc 64 1 0#32
  let pd := earlierFate pg (match rd with
    | .error f => some f
    | .ok _ => none)
  let no := if !s.coreIn (partOf own) core then some (sysTrap 1)
    else match rd with
      | .ok d => if s.rejectsSwitch ag core d then some (sysTrap 2) else none
      | .error _ => none
  match firstFate pd no, rd with
  | some f, _ => (s, f)
  | none, .error f => (s, f)
  | none, .ok d =>
    s.sysStep ag fun s =>
      let v := 16 * partOf own + field d 0 2
      let s := s.modSlice core fun x =>
        { x with next := some (v, field d 2 1 == 1, field d 4 4 * 1000), counter := some (ctr, own, scope), force := force }
      (s.sliceEnd core (some ag), .next)

/-- STKHO (R253). -/
def execStkho (c0 : Ctl) (die : BitVec 1) (scope : BitVec 3) (a : Reg) (b : Src) (s : State) : Result :=
  .next (s.issue (.stkho c0 die scope a b) (perThread fun ag s =>
    s.stkho1 ag die.toNat scope.toNat (s.a64 ag a) (s.b32 ag b)))

/-- TLBI.page (R254). -/
def execTlbiPage (c0 : Ctl) (scope : BitVec 3) (a : Reg) (b : Src) (s : State) : Result :=
  .next (s.issue (.tlbiPage c0 scope a b) (perThread fun ag s =>
    s.tlbiPage1 ag scope.toNat (s.a64 ag a) (s.b32 ag b).toNat))

/-- TLBI.vdev: every entry of the issuer's virtual device (R254). -/
def execTlbiVdev (c0 : Ctl) (scope : BitVec 3) (b : Src) (s : State) : Result :=
  .next (s.issue (.tlbiVdev c0 scope b) (perThread fun ag s =>
    let v := s.vdOf ag
    s.tlbi1 ag scope.toNat fun e => e.vd == v))

/-- TLBI.vdevn: every entry of virtual device b of the partition (R254). -/
def execTlbiVdevn (c0 : Ctl) (scope : BitVec 3) (b : Src) (s : State) : Result :=
  .next (s.issue (.tlbiVdevn c0 scope b) (perThread fun ag s =>
    let n := (s.b32 ag b).toNat
    let v := 16 * partOf (s.vdOf ag) + n
    s.tlbi1 ag scope.toNat fun e => decide (n < 16) && e.vd == v))

/-- TLBI.all: every entry (R254). -/
def execTlbiAll (c0 : Ctl) (scope : BitVec 3) (b : Src) (s : State) : Result :=
  .next (s.issue (.tlbiAll c0 scope b) (perThread fun ag s => s.tlbi1 ag scope.toNat fun _ => true))

/-- CFLUSH.clean (R255). -/
def execCflushClean (c0 : Ctl) (scope : BitVec 3) (a : Reg) (b : Src) (s : State) : Result :=
  .next (s.issue (.cflushClean c0 scope a b) (perThread fun ag s => s.cflush1 ag 0 scope.toNat (s.a64 ag a) (s.b32 ag b)))

/-- CFLUSH.inv (R255). -/
def execCflushInv (c0 : Ctl) (scope : BitVec 3) (a : Reg) (b : Src) (s : State) : Result :=
  .next (s.issue (.cflushInv c0 scope a b) (perThread fun ag s => s.cflush1 ag 1 scope.toNat (s.a64 ag a) (s.b32 ag b)))

/-- CFLUSH.discard (R255). -/
def execCflushDiscard (c0 : Ctl) (scope : BitVec 3) (a : Reg) (b : Src) (s : State) : Result :=
  .next (s.issue (.cflushDiscard c0 scope a b) (perThread fun ag s => s.cflush1 ag 2 scope.toNat (s.a64 ag a) (s.b32 ag b)))

/-- CTXSW (R256). -/
def execCtxsw (c0 : Ctl) (force : Bool) (scope : BitVec 3) (d : Reg) (a : Reg) (b : Src) (s : State) : Result :=
  .next (s.issue (.ctxsw c0 force scope d a b) (perThread fun ag s =>
    s.ctxsw1 ag force scope.toNat (s.d64 ag d) (s.a64 ag a) (s.b32 ag b)))

end Sys2Proof.Machine
end

