-- ==== Sys2Proof/Machine/TaskEvents.lean ====
section
/-! DEFINITION. Task faults, restarts and commits; the end of teams, billet launches and launches (11 R237, R238,
19 R337, 22 R376, R378, R380 to R382, R385). -/

namespace Sys2Proof.Machine

/-! ## The end of a launch (R376, R378, R385, R406) -/

/-- The value a completion signal adds after a fault (R406). -/
def faultSignal : DWord := 0x8000000000000001#64
/-- A dispatched packet of a queue completes with a signal value, after those that have completed before (R406). -/
def State.completePacket (s : State) (q idx : Nat) (v : DWord) : State :=
  s.modQueue q fun x =>
    match x.inflight.find? fun p => p.index == idx && p.done.isNone with
    | some p => { x with inflight := (x.inflight.filter fun y => y.index != idx || y.done.isSome) ++ [{ p with done := some v, doneAt := s.moves }] }
    | none => x
/-- A launch ends: its packet completes, and nothing of it is placed any more. -/
def State.endLaunch (s : State) (l : Nat) : State :=
  let x := s.launch l
  bif x.ended || !x.started then s else
  let s := (s.modLaunch l fun y => { y with ended := true }).dueWalk x.par.vd
  match x.par.packet with
  | some (q, i) => s.completePacket q i (bif x.fault then faultSignal else 1#64)
  | none => s
/-- Tasks of a launch. -/
def State.tasksOf (s : State) (l : Nat) : List Nat :=
  (List.range s.lanes.tasks.length).filter fun t => (s.task t).launch == l
/-- A core's gang former holds billets of a launch. -/
def Core.holdsBillets (c : Core) (l : Nat) : Bool := (c.bins.any fun b => b.launch == l) || c.spill.any fun p => p.2.1 == l
/-- A launch has done all its work: a grid's cursor has passed its teams, no billet is left, no task is live (R123, R376, R385). -/
def State.launchDone (s : State) (l : Nat) : Bool :=
  let x := s.launch l
  (bif x.billets then x.slots.all fun y => y.state == .free else x.cursor == x.par.teams) &&
  !(s.lanes.cores.any fun c => c.holdsBillets l) && (s.tasksOf l).all fun t => (s.task t).state == .retired
/-- End a launch that has done all its work. -/
def State.launchTest (s : State) (l : Nat) : State := bif s.launchDone l then s.endLaunch l else s
/-- The cursor passes every team at it that has retired (R376). -/
def advance : Nat → Nat → List Nat → Nat × List Nat
  | 0, c, r => (c, r)
  | fuel + 1, c, r => bif r.elem c then advance fuel (c + 1) (r.erase c) else (c, r)
/-- TEAM_RETIRE (R376, R385): its shares have retired, and it is settled or killed; a formed group is no team of the grid (R203). -/
def State.teamRetire (s : State) (t : Nat) : State :=
  let k := s.task t
  let killed := k.state == .killed
  bif (k.shares.all fun h => (s.share h).state == .retired) && !k.shares.isEmpty &&
      (killed || (k.state == .live && k.settled)) then
    let s := (s.modTask t fun x => { x with state := .retired }).freeToken t
    let s := s.modLaunch k.launch fun l =>
      let r := bif l.billets || k.billet then (l.cursor, l.retired) else advance (l.retired.length + 1) l.cursor (k.team :: l.retired)
      { l with idleNs := 0, cursor := r.1, retired := r.2, fault := l.fault || killed }
    s.launchTest k.launch
  else s
/-- TEAM_RETIRE (R376). -/
def execTeamRetire (t : Nat) (s : State) : Result := .next (s.teamRetire t)
/-- A launch fault: the record is written, then every task is killed and the launch ends with the fault value (R378, R410). While the record is held the fault waits with hearth core 4. -/
def State.killLaunch (s : State) (l : Nat) (info : Word) : State :=
  bif (s.launch l).ended then s
  else bif s.recordHeld l then s.modLaunch l fun x => { x with dying := some (x.dying.getD info) } else
  let s := s.record l
    { flags := 0x2000, task := 0xFFFFFFFF#32, pc := 0#64, addr := 0#64, info := info, tid := 0xFFFFFFFF#32, team := 0,
      short := 0, supp := 0, time := s.guest (s.launch l).par.vd, nrest := 0 }
  let s := (s.tasksOf l).foldl State.killTask s
  let cs := s.lanes.cores.map fun c =>
    ({ c with bins := c.bins.filter (fun b => b.launch != l), spill := c.spill.filter (fun p => p.2.1 != l) } : Core)
  let s := { s with lanes := { s.lanes with cores := cs } }
  (s.modLaunch l fun x => { x with fault := true, dying := none, level := [] }).endLaunch l
/-- A thread of a task is halted for the debugger (R245). -/
def State.taskHalted (s : State) (t : Nat) : Bool := (s.agentsOfTask t).any fun a => (s.agent a).status == .halted
/-- A launch is switched out: none of its shares is on a core, and some are saved or every core its virtual device may use runs another (R378). -/
def State.switchedOut (s : State) (l : Nat) : Bool :=
  let hs := (s.tasksOf l).flatMap fun t => (s.task t).shares
  !(hs.any fun h => (s.share h).state == .resident) &&
  ((hs.any fun h => (s.share h).state == .saved) || !s.switchedIn (s.launch l).par.vd)
/-- The hearth core that a task waits on, where it can do nothing before that core has answered (R409): core 4 for a fault, core 2 for a place, core 3 for its pages. -/
def State.waitsOn (s : State) (t : Nat) : Option Nat :=
  let k := s.task t
  match k.state with
  | .faulted => some 4
  | .restarting => some 2
  | .live =>
    bif k.shares.all fun h => (s.share h).state == .waiting then some 2
    else bif (s.agentsOfTask t).all fun a => match (s.agent a).status with
      | .ended => true
      | .parked (.page _ _) => true
      | _ => false then some 3
    else none
  | _ => none
/-- What a launch still does waits only on hearth cores that are being restarted (R409); a launch of which no task is placed waits on core 2. -/
def State.waitsRestart (s : State) (ts : List Nat) : Bool :=
  !s.hearth.restart.isEmpty && (bif ts.isEmpty then s.hearth.restart.elem 2 else ts.all fun t => (s.waitsOn t).any s.hearth.restart.elem)
/-- The watchdog of a launch counts the present time: none of its tasks is halted (R245), not all wait for capacity, it is not switched out (R378), and it does not wait only on a hearth core that is being restarted (R409). -/
def State.counts (s : State) (l : Nat) : Bool :=
  let x := s.launch l
  let live := (s.tasksOf l).filter fun t => (s.task t).state != .retired
  x.started && !x.ended && !(live.any s.taskHalted) && !(!live.isEmpty && live.all fun t => (s.task t).state == .capWait) &&
  !s.switchedOut l && !s.waitsRestart live &&
  (s.vdev x.par.vd).state == .ready
/-- Time passes for every launch's watchdog (R378). -/
def State.countIdle (s : State) (dt : Nat) : State :=
  bif dt == 0 then s else
  (List.range s.lanes.launches.length).foldl (fun s l =>
    bif s.counts l then s.modLaunch l fun x => { x with idleNs := x.idleNs + dt } else s) s

/-! ## Task faults and restarts (R237, R238, R337) -/

/-- The die a task's shares run on. -/
def State.taskDie (s : State) (t : Nat) : Nat := dieOf (s.share ((s.task t).shares.headD 0)).core
/-- Hearth core 3 brings the page that a task missed, with a replica where a load or fetch missed it and DUP allows (R237, R363): nothing to do where it is no longer non-resident; none where it refuses. -/
def State.bringFault (s : State) (t : Nat) (f : FaultInfo) : Option State :=
  match s.walk (s.taskVd t) f.addr with
  | some l => bif l.res != 1 then some s else s.makePageResident (s.taskVd t) (s.taskDie t) f.addr (!f.info.getLsbD 8 && (s.task t).missed != some f.addr)
  | none => none
/-- The page that a task missed is to be brought while hearth core 3 restarts, or a hand-over holds the frame it keeps, for which core 3 waits (R369, R409). -/
def State.faultHeld (s : State) (t : Nat) (f : FaultInfo) : Bool :=
  f.cause == 6 && match s.walk (s.taskVd t) f.addr with
    | some l => (l.res == 1 && (s.hearth.restart.elem 3 || s.placeHeld (s.taskVd t) f.addr l)) || (l.local && s.handing (stackOf l.base))
    | none => false
/-- TASK_FAULT: the version and the engine commands are discarded, the record written, and the task restarts, waits or is to trap (R237, R238, R337). -/
def State.taskFault (s : State) (t : Nat) : State :=
  let k := s.task t
  match k.state, k.fault with
  | .faulted, some f =>
    let row := bif k.restarts.cause == f.cause && k.restarts.addr == f.addr then k.restarts.same else 0
    let capt := (s.launch k.launch).par.policy.getLsbD 4
    let brought := bif f.cause == 6 then s.bringFault t f else none
    let again := decide (row < 16) && ((f.cause == 8 && !capt) || brought.isSome)
    let s := (k.shares.foldl State.dropEngines (s.discard t)).modTask t fun x => { x with bars := startBars }
    let s := s.taskRecord t (0x100 + bif again then 0x400 else 0) f 0
    bif again then
      let s := bif f.cause == 6 then (s.bringFault t f).getD s else s
      let s := s.modTask t fun x =>
        { x with fault := none, missed := none, restarts := { x.restarts with same := row + 1, cause := f.cause, addr := f.addr } }
      bif f.cause == 8 then s.modTask t fun x => { x with state := .capWait } else s.toRestart t
    else (s.modTask t fun x => { x with state := .restarting }).freeToken t
  | _, _ => s
/-- A fault of a task that hearth core 4 cannot handle yet: its record or its page is held (R369, R410). -/
def State.faultWaits (s : State) (t : Nat) : Bool :=
  s.recordHeld (s.task t).launch || match (s.task t).fault with
    | some f => s.faultHeld t f
    | none => false
/-- The cores of one cluster, each once, for the shares of a task. -/
def coresFit (cores : List Nat) (n : Nat) : Bool :=
  cores.length == n && (distinct cores).length == n && cores.all fun c => clusterOf c == clusterOf (cores.headD 0)
/-- A holder whose task has retired or was killed holds the token no more. -/
def State.tokenFree (s : State) (part : Nat) : Bool :=
  match s.store.tokens.getD part none with
  | none => true
  | some h => (s.task h).state == .retired || (s.task h).state == .killed
/-- Tasks of a partition that qualify for its token, oldest first (R382). -/
def State.qualified (s : State) (part : Nat) : List Nat :=
  (List.range s.lanes.tasks.length).filter fun t =>
    let k := s.task t
    decide (4 ≤ k.restarts.conflicts) && k.state != .retired && k.state != .killed && partOf (s.taskVd t) == part
/-- The task that a partition's token is offered to: the oldest that qualifies, while the token is free (R382). -/
def State.tokenFor (s : State) (part : Nat) : Option Nat :=
  bif s.tokenFree part then firstBy (fun t => (s.task t).born) (s.qualified part) else none
/-- The token is granted as a run of the task it is offered to starts (R382). -/
def State.grantToken (s : State) (t : Nat) : State :=
  let p := partOf (s.taskVd t)
  bif s.tokenFor p == some t then s.modStore fun m => { m with tokens := m.tokens.set p (some t) } else s
/-- TASK_RESTART: a discarded task starts again on cores that the scheduler chooses, or starts in its task trap (R237). -/
def State.taskRestart (s : State) (t : Nat) (cores : List Nat) : State :=
  let k := s.task t
  bif k.state == .restarting && coresFit cores k.shares.length then
    match s.restart t cores with
    | none => s
    | some s =>
      let s := s.grantToken t
      match k.fault with
      | none => s
      | some f => ((s.agentsOfTask t).foldl (fun s a => s.startTrap f a) s).modTask t fun x => { x with fault := none, missed := none }
  else s
/-- CAPACITY_WAIT_RESTART: the oldest waiter of the virtual device, once RES covers its thresholds (R337). -/
def execCapacityWaitRestart (t : Nat) (s : State) : Result :=
  let k := s.task t
  let v := s.taskVd t
  let oldest := (List.range s.lanes.tasks.length).all fun u =>
    !((s.task u).state == .capWait && s.taskVd u == v) || decide (k.faultAt < (s.task u).faultAt) ||
      (k.faultAt == (s.task u).faultAt && decide (t ≤ u))
  .next (bif k.state == .capWait && oldest && k.need.all (fun w => decide (w.2 ≤ (s.kshare v w.1).res)) then s.toRestart t else s)

/-! ## Commits at retirement and the commit token (R119, R376, R380 to R382) -/

/-- COMMIT_REQUEST at retirement: a failed check restarts the task (R380, R381). -/
def execCommitRequest (t : Nat) (s : State) : Result :=
  let k := s.task t
  .next (bif k.state == .live && !k.settled && !k.shares.isEmpty && k.shares.all (fun h => (s.share h).state == .retired) then
      bif s.commitOk t then s.modTask t fun x => { x with state := .committing } else s.conflict t
    else s)
/-- VERSION_COMMIT: the version is committed in one step (R119). -/
def execVersionCommit (t : Nat) (s : State) : Result :=
  .next (bif (s.task t).state == .committing then
      match s.commit t with
      | .done s => s.modTask t fun x => { x with state := .live }
      | .failed s => s
      | .held => s
    else s)
/-- COMMIT_TOKEN_GRANT: to the oldest task that qualifies, as its next run starts (R382). -/
def execCommitTokenGrant (part : Nat) (s : State) : Result :=
  .next (match s.tokenFor part with
    | some t => bif decide (part < 2) && (s.task t).state == .restarting then s.grantToken t else s
    | none => s)

end Sys2Proof.Machine
end

