-- ==== Sys2Proof/Machine/Distribute.lean ====
section
/-! DEFINITION. The distributor tree, stealing, priorities, cords and the gang formers (22 R374 to R377, R385,
R394, R395, 08 R203). -/

namespace Sys2Proof.Machine

/-! ## Cords (R395) -/

/-- CORD_SCHEDULE_WALK (R395). -/
def execCordScheduleWalk (vd : Nat) (s : State) : Result := .next (s.cordWalk vd)
/-- CORD_AGEING_TICK: each millisecond raises E, which follows from the clock, and triggers a walk (R395). -/
def execCordAgeingTick (vd : Nat) (s : State) : Result := .next (s.cordWalk vd)

/-! ## The distributor tree (R374 to R377) -/

/-- The next range of at most n teams from the first range of a list, and what is left. -/
def takeRange (n : Nat) : List Range → Option (Range × List Range)
  | [] => none
  | (a, b) :: rest =>
    bif decide (b ≤ a) then takeRange n rest
    else
      let m := min b (a + n)
      some ((a, m), keepRanges ((m, b) :: rest))
/-- Ranges with adjacent ones joined. -/
def joinRanges : List Range → List Range
  | [] => []
  | (a, b) :: rest =>
    match joinRanges rest with
    | (c, d) :: more => bif b == c then (a, d) :: more else (a, b) :: (c, d) :: more
    | [] => [(a, b)]
/-- The ranges of a cluster distributor. -/
def Dist.clusterRanges (d : Dist) (die c : Nat) : List Range := d.cluster.getD (die * 12 + c) []
/-- A grid launch that the distributors serve. -/
def Launch.grid (x : Launch) : Bool := x.open && !x.billets && !x.par.cord
/-- Work of priority p and dispatch order a is served before work of priority q and order b (R377). -/
def servedFirst (p a q b : Nat) : Bool := decide (q < p) || (p == q && decide (a < b))
/-- A launch of the same virtual device that is served first has teams inside its retire window among some ranges, and room for one in a cluster: it is handed out, and stolen, before (R376, R377). -/
def State.rangeBefore (s : State) (l : Nat) (rs : Launch → List Range) (ks : List Nat) : Bool :=
  let x := s.launch l
  (List.range s.lanes.launches.length).any fun m =>
    let y := s.launch m
    m != l && y.grid && y.par.vd == x.par.vd && servedFirst y.prio y.order x.prio x.order &&
    (match takeRange 1 (rs y) with
     | some ((n, _), _) => decide (n < y.cursor + 1024)
     | none => false) && ks.any fun k => s.hasRoom m k
/-- The clusters of a die, counted over both dies. -/
def dieClusters (die : Nat) : List Nat := (List.range 12).map (die * 12 + ·)
/-- DIE_DISTRIBUTOR_REQUEST: a die distributor with an empty range takes the next 64 teams, of the launch served first (R374, R377). -/
def execDieDistributorRequest (die l : Nat) (s : State) : Result :=
  let x := s.launch l
  .next (bif x.grid && decide (die < 2) && !s.rangeBefore l (fun y => bif (keepRanges (y.dist.die.getD die [])).isEmpty then [y.dist.chip] else []) (dieClusters die) && (s.regions x.par.vd).any (fun k => k / 12 == die) &&
      (keepRanges (x.dist.die.getD die [])).isEmpty then
      match takeRange 64 [x.dist.chip] with
      | some (r, rest) =>
        s.modLaunch l fun y =>
          { y with dist := { y.dist with chip := rest.headD (r.2, r.2), die := y.dist.die.set die [r] } }
      | none => s
    else s)
/-- CLUSTER_RANGE_HANDOUT: 8 teams to a cluster distributor with room, of the launch served first (R374, R377). -/
def execClusterRangeHandout (die cluster l : Nat) (s : State) : Result :=
  let x := s.launch l
  .next (bif x.grid && decide (die < 2) && decide (cluster < 12) && s.hasRoom l (die * 12 + cluster) &&
      !s.rangeBefore l (fun y => y.dist.die.getD die []) [die * 12 + cluster] then
      match takeRange 8 (x.dist.die.getD die []) with
      | some (r, rest) =>
        s.modLaunch l fun y =>
          { y with dist := { y.dist with die := y.dist.die.set die rest,
                                         cluster := y.dist.cluster.modify (die * 12 + cluster) fun q => joinRanges (q ++ [r]) } }
      | none => s
    else s)
/-- A grid launch of the virtual device has a team for the cluster, in its range or still in its die's or the chip's, that fits there, and is served first (R374, R377). -/
def State.gridBefore (s : State) (v k p a : Nat) : Bool :=
  (List.range s.lanes.launches.length).any fun m =>
    let y := s.launch m
    y.grid && y.par.vd == v && servedFirst y.prio y.order p a &&
    match takeRange 1 (y.dist.cluster.getD k [] ++ y.dist.die.getD (k / 12) [] ++ [y.dist.chip]) with
    | some ((n, _), _) => decide (n < y.cursor + 1024) && (s.placeTeam m n k).isSome
    | none => false
/-- A waiting share of the virtual device fits on its core, in the cluster, and is served first (R132, R377). -/
def State.shareBefore (s : State) (v k p a : Nat) : Bool :=
  (List.range s.lanes.shares.length).any fun h =>
    let x := s.share h
    let t := s.task x.task
    x.state == .waiting && clusterOf x.core == k && t.state == .live && s.taskVd x.task == v &&
    servedFirst t.prio (s.launch t.launch).order p a && (s.place h x.core).isSome
/-- The highest level of a launch's store with a ready billet (R385). -/
def Launch.topLevel (x : Launch) : Option Nat :=
  (x.level.map fun n => (x.slots.getD n default).prio).foldl (fun m p => some (max p (m.getD 0))) none
/-- The oldest billet of the highest level. -/
def Launch.oldest (x : Launch) : Option Nat :=
  x.topLevel.bind fun p => x.level.find? fun n => (x.slots.getD n default).prio == p
/-- The bin of a core has room for a billet of a code address. -/
def State.binRoom (s : State) (core : Nat) (code : DWord) : Bool :=
  match s.binOf core (bits code.toNat 2 6) with
  | some b => decide (b.billets.length < 128)
  | none => true
/-- A billet launch of the virtual device has a ready billet that a gang former of the cluster can take, and is served first (R377, R385). -/
def State.billetBefore (s : State) (v k p a : Nat) : Bool :=
  (List.range s.lanes.launches.length).any fun m =>
    let y := s.launch m
    y.open && y.billets && y.par.vd == v &&
    match y.oldest with
    | some n =>
      let z := y.slots.getD n default
      servedFirst z.prio y.order p a && (clusterCores k).any fun c => s.coreOpen v c && s.binRoom c z.billet.code
    | none => false
/-- Work of whatever kind that is served first can go to the cluster (R377). -/
def State.outranked (s : State) (v k p a : Nat) : Bool :=
  s.gridBefore v k p a || s.shareBefore v k p a || s.billetBefore v k p a
/-- TEAM_PLACEMENT: the next team of a cluster distributor's range, inside the retire window, outside a reserved region, where nothing is served first (R374, R376, R377, R395). -/
def execTeamPlacement (die cluster l : Nat) (s : State) : Result :=
  let x := s.launch l
  let k := die * 12 + cluster
  .next (bif x.grid && decide (die < 2) && decide (cluster < 12) && !s.reservedFor x.par.vd k && !s.outranked x.par.vd k x.prio x.order then
      match takeRange 1 (x.dist.clusterRanges die cluster) with
      | some ((a, _), rest) =>
        bif decide (a < x.cursor + 1024) then
          match s.placeTeam l a k with
          | some t => t.modLaunch l fun y => { y with dist := { y.dist with cluster := y.dist.cluster.set k rest } }
          | none => s
        else s
      | none => s
    else s)
/-- Teams of a list of ranges. -/
def teamsIn (rs : List Range) : Nat := (rs.map fun r => r.2 - r.1).sum
/-- The last m teams of ranges given last first: what stays, last first, and what is taken. -/
def takeLast : Nat → List Range → List Range × List Range
  | _, [] => ([], [])
  | m, (a, b) :: rest =>
    bif m == 0 then ((a, b) :: rest, [])
    else bif decide (b - a ≤ m) then
      let (keep, got) := takeLast (m - (b - a)) rest
      (keep, got ++ [(a, b)])
    else ((a, b - m) :: rest, [(b - m, b)])
/-- Steal the upper half of an unstarted range of at least 16 teams, rounded down to a multiple of 8: what stays and what is taken (R375). -/
def stealFrom (rs : List Range) : Option (List Range × List Range) :=
  let n := teamsIn rs
  bif decide (n < 16) then none
  else
    let (keep, got) := takeLast (n / 2 / 8 * 8) rs.reverse
    some (keep.reverse, got)
/-- RANGE_STEAL (R375). -/
def execRangeSteal (thief victim : DistRef) (l : Nat) (s : State) : Result :=
  let x := s.launch l
  .next (bif !x.grid then s else
    match thief, victim with
    | .cluster d c, .cluster e f =>
      bif d == e && c != f && decide (d < 2) && decide (c < 12) && decide (f < 12) &&
          (keepRanges (x.dist.clusterRanges d c)).isEmpty && s.hasRoom l (d * 12 + c) &&
          !s.rangeBefore l (fun y => y.dist.clusterRanges d c ++ y.dist.clusterRanges e f) [d * 12 + c] then
        match stealFrom (x.dist.clusterRanges e f) with
        | some (rs, got) =>
          s.modLaunch l fun y =>
            { y with dist := { y.dist with cluster := (y.dist.cluster.set (e * 12 + f) rs).set (d * 12 + c) got } }
        | none => s
      else s
    | .die d, .die e =>
      bif d != e && decide (d < 2) && decide (e < 2) && s.hearth.config.unified && (keepRanges (x.dist.die.getD d [])).isEmpty &&
          (List.range 12).any (fun c => s.hasRoom l (d * 12 + c)) &&
          !s.rangeBefore l (fun y => y.dist.die.getD d [] ++ y.dist.die.getD e []) (dieClusters d) then
        match stealFrom (x.dist.die.getD e []) with
        | some (rs, got) => s.modLaunch l fun y => { y with dist := { y.dist with die := (y.dist.die.set e rs).set d got } }
        | none => s
      else s
    | _, _ => s)

/-! ## Gang formers (R203, R377, R385) -/

/-- The launch's billets may be placed on a core: it is open there, its region is not reserved, and nothing is served first there (R377, R385, R395). -/
def State.mayPop (s : State) (core l : Nat) : Bool :=
  let x := s.launch l
  let v := x.par.vd
  x.open && x.billets && s.coreOpen v core && !s.reservedFor v (clusterOf core) &&
  !s.outranked v (clusterOf core) (x.topLevel.getD 0) x.order
/-- GANG_FORMER_POP (R385): the slot is freed, and the billet filed in its bin (R202). -/
def execGangFormerPop (core l : Nat) (s : State) : Result :=
  let x := s.launch l
  .next (match x.oldest with
    | none => s
    | some n =>
      let y := x.slots.getD n default
      let bin := bits y.billet.code.toNat 2 6
      bif s.mayPop core l && s.binRoom core y.billet.code then
        let s := s.modLaunch l fun z =>
          { z with level := z.level.filter (· != n),
                   slots := z.slots.modify n fun w => { w with state := .free, gen := w.gen + 1, record := none } }
        s.fileBillet core bin l (y.billet, y.record, y.prio)
      else s)
/-- BIN_TIMEOUT: 2,048 clocks after its oldest billet entered, a bin forms a short group (R203). -/
def execBinTimeout (core bin : Nat) (s : State) : Result :=
  .next (match s.binOf core bin with
    | some b =>
      bif decide (b.since + 2048 ≤ (s.core core).clock) && !b.billets.isEmpty then
        (s.formGroup core b.launch b.billets).setBin core bin none
      else s
    | none => s)

/-! ## Waiting shares and restarted tasks (R132, R237, R250, R395) -/

/-- A waiting share's priority and dispatch order let it be placed on a core (R377). -/
def State.shareServed (s : State) (h core : Nat) : Bool :=
  let t := s.task (s.share h).task
  !s.outranked (s.taskVd (s.share h).task) (clusterOf core) t.prio (s.launch t.launch).order
/-- SHARE_PLACEMENT: a waiting share is placed on its core when it fits in full; a saved one is switched in on a core that the scheduler names; neither in a reserved region, nor before a walk that is due (R132, R250, R395). -/
def execSharePlacement (sh core : Nat) (s : State) : Result :=
  let x := s.share sh
  let v := s.taskVd x.task
  .next (match x.state with
    | .waiting =>
      bif core == x.core && (s.task x.task).state == .live && !s.reservedFor v (clusterOf core) && s.shareServed sh core then
        (s.place sh core).getD s
      else s
    | .saved => bif s.reservedFor v (clusterOf core) then s else s.switchIn sh core
    | _ => s)
/-- A task of a cord starts again in the cord's region: with the teams of it that have not retired, and only while none of them is switched out (R394). -/
def State.cordAgrees (s : State) (t cluster : Nat) : Bool :=
  let l := (s.task t).launch
  !(s.launch l).par.cord || ((s.savedOf l).isEmpty &&
    (((s.tasksOf l).filter fun u => u != t).flatMap fun u => (s.task u).shares).all fun h =>
      (s.share h).state != .resident || clusterOf (s.share h).core == cluster)
/-- TASK_RESTART (R237): on cores the virtual device may use, in the cord's region where the task is of a cord, outside a reserved region (R394, R395). -/
def execTaskRestart (t : Nat) (cores : List Nat) (s : State) : Result :=
  let v := s.taskVd t
  let l := s.launch (s.task t).launch
  .next (bif !s.cordAgrees t (clusterOf (cores.headD 0)) || s.reservedFor v (clusterOf (cores.headD 0)) || s.outranked v (clusterOf (cores.headD 0)) (s.task t).prio l.order then s
    else s.taskRestart t cores)

end Sys2Proof.Machine
end

