-- ==== Sys2Proof/Machine/Queues.lean ====
section
/-! DEFINITION. Mailboxes and queues of the command processor (23 R397 to R400, R403, R405, R406). -/

namespace Sys2Proof.Machine

/-! ## Mailboxes (R397) -/

/-- The partition of a sender of R397, for supervisors and hypervisors. -/
def senderPart (sender : Nat) : Nat := sender % 2
/-- A hypervisor. -/
def isHypervisor (sender : Nat) : Bool := sender == 10 || sender == 11
/-- An interrupt identity of a partition becomes pending (R413). -/
def State.raiseIrq (s : State) (part id : Nat) : State :=
  s.modHearth fun h => { h with irqs := bif h.irqs.elem (part, id) then h.irqs else h.irqs ++ [(part, id)] }
/-- A hearth core sends a message; a reply to system software raises the core's interrupt identity there (R397, R413). -/
def State.send (s : State) (src dst : Nat) (bs : List Byte) : State :=
  let s := s.modHearth fun h => { h with out := h.out ++ [⟨src, dst, bs⟩] }
  bif decide (8 ≤ dst) && decide (dst ≤ 11) then s.raiseIrq (senderPart dst) src else s
/-- A message of a hearth core: SRC as given, the rest by KIND, whose codes are open. -/
def State.answer (s : State) (src dst : Nat) : State :=
  s.send src dst (BitVec.ofNat 8 src :: (List.range 63).map fun k => Config.freeByte s.free k)
/-- Hearth cores take messages out of their mailboxes, oldest first, when it suits them: what a message asks for is an event of its own (R397, R409). -/
def State.takeMessages (s : State) : State :=
  s.modHearth fun h => { h with boxes := h.boxes.zipIdx.map fun (box, k) =>
    bif box.isEmpty || h.restart.elem k then box else bif Config.freeChoice s.free 3 k 0 0 then box.drop 1 else box }
/-- MAILBOX_MESSAGE: delivered, or dropped and counted when SRC is reserved or not the sender's; a full box makes the sender wait (R397). -/
def execMailboxMessage (target sender : Nat) (msg : List (BitVec 8)) (s : State) : Result :=
  let src := field msg 0 1
  let box := s.hearth.boxes.getD target []
  .next (bif decide (8 ≤ target) then s
    else bif decide (12 ≤ src) || src != sender || msg.length != 64 then s.modTele fun t => { t with dropped := t.dropped + 1 }
    else bif decide (32 ≤ box.length) then s
    else s.modHearth fun h => { h with boxes := h.boxes.set target (box ++ [⟨src, target, msg⟩]) })

/-! ## Queue descriptors and states (R398 to R400) -/

/-- A range of a virtual device lies on mapped RB pages. -/
def State.onRb (s : State) (v : Nat) (va : DWord) (n : Nat) : Bool :=
  (pageParts (n / 65536 + 2) va n).all fun p => canonical p.1 && (match s.walk v p.1 with
    | some l => l.rb
    | none => false)
/-- The virtual device that a descriptor of a sender names. -/
def descVd (sender : Nat) (d : List Byte) : Nat := senderPart sender * 16 + field d 12 2
/-- A queue descriptor is accepted (R398). -/
def State.queueOk (s : State) (sender : Nat) (d : List Byte) : Bool :=
  let v := descVd sender d
  let fl := field d 9 1
  let a := fun i => BitVec.ofNat 64 (field d i 8)
  (decide (8 ≤ sender) && decide (sender ≤ 11)) && d.length == 64 && decide (field d 12 2 < 16) && (s.vdev v).state != .absent &&
  field d 0 8 % 4096 == 0 && decide (4 ≤ field d 8 1) && decide (field d 8 1 ≤ 20) &&
  decide (fl < 8) && (bits fl 2 1 == 0 || isHypervisor sender) && decide (field d 11 1 < 16) && field d 14 2 == 0 &&
  field d 16 8 % 8 == 0 && field d 24 8 % 8 == 0 && field d 32 8 % 64 == 0 && field d 42 6 == 0 && field d 48 16 == 0 &&
  s.onRb v (a 0) (64 * 2 ^ field d 8 1) && s.onRb v (a 16) 8 && s.onRb v (a 24) 8 && s.onRb v (a 32) 64
/-- The queue that a descriptor creates, with the write index read then (R398, R400). -/
def queueOf (sender : Nat) (d : List Byte) (w : Nat) : Queue :=
  { base := BitVec.ofNat 64 (field d 0 8), log2 := field d 8 1, flags := BitVec.ofNat 3 (field d 9 1),
    maxPrio := field d 10 1, deleg := BitVec.ofNat 4 (field d 11 1), vd := descVd sender d,
    widxa := BitVec.ofNat 64 (field d 16 8), ridxa := BitVec.ofNat 64 (field d 24 8),
    erra := BitVec.ofNat 64 (field d 32 8), cursor := 0, state := .active, widx := w, notice := false, ridx := w, doorbell := 0#64,
    inflight := [], launching := none, served := 0, relAt := none, stale := [] }
/-- QUEUE_CREATE: the queue becomes ACTIVE with RIDX ← WIDX, or the descriptor is refused (R398, R400); while a hand-over holds the write index the message waits (R369). -/
def execQueueCreate (sender : Nat) (desc : List (BitVec 8)) (s : State) : Result :=
  let v := descVd sender desc
  let a := BitVec.ofNat 64 (field desc 16 8)
  .next (bif s.queueOk sender desc then
      match s.hearthLoad v a 8 with
      | .ok bs =>
        let q := queueOf sender desc (leNat bs)
        let s := s.hearthTouch v a 8
        (({ s with queues := s.queues ++ [q] } : State).hearthPost v 10 q.ridxa (.store (natLe 8 q.ridx))).answer 1 sender
      | .error 0 => s
      | .error _ => s.answer 1 sender
    else s.answer 1 sender)
/-- Who may reset or destroy a queue: the hypervisor, or the supervisor of the partition that owns its virtual device (R398). -/
def State.mayManage (s : State) (sender q : Nat) : Bool :=
  decide (8 ≤ sender) && decide (sender ≤ 11) && decide (q < s.queues.length) && senderPart sender == partOf (s.queue q).vd
/-- The CHAINRUN chains of a queue stop at their next entry boundary (R402). -/
def State.stopChains (s : State) (q : Nat) : State :=
  let stop := fun (x : Chain) => bif x.packet.1 == q then { x with stop := true } else x
  s.modHearth fun h => { h with chains := h.chains.map (·.map stop) }
/-- The read index moves on: the slots before it hold no unread packet any more (R399). -/
def Queue.readTo (x : Queue) (j : Nat) : Queue :=
  let n := 2 ^ x.log2
  { x with ridx := j, cursor := 0, stale := x.stale.filter fun p => decide (j < x.ridx + n) && decide (j - x.ridx ≤ (p.1 + n - x.ridx % n) % n) }
/-- Change a queue and write its read index, a release at device scope (R399). A write that faults is lost and counted, as R432 has it of the hearth's own writes; that list does not name the read index, so that a kind of its own, 10, is the model's choice; log entry 35. -/
def State.setRidx (s : State) (q j : Nat) (f : Queue → Queue) : State :=
  let x := s.queue q
  (s.modQueue q fun y => f (y.readTo j)).hearthPost x.vd 10 x.ridxa (.store (natLe 8 j))
/-- QUEUE_RESET: from ERROR, with an index not below RIDX; the queue's CHAINRUN chains stop (R398, R400, R402). -/
def execQueueReset (r : QueueRequest) (index : Nat) (s : State) : Result :=
  let x := s.queue r.queue
  .next (bif x.state == .error && decide (x.ridx ≤ index) && s.mayManage r.sender r.queue then
      (s.stopChains r.queue).setRidx r.queue index fun y => { y with state := .active, launching := none }
    else s)
/-- A queue is destroyed: no packet starts any more, and its CHAINRUN chains stop at their next entry boundary (R400, R402). A packet that is between two micro-steps then is abandoned: R400 does not say what becomes of it, so this is the model's choice; log entry 35. -/
def State.destroyQueue (s : State) (q : Nat) : State :=
  (s.modQueue q fun y => { y with state := .destroying, launching := none }).stopChains q
/-- QUEUE_DESTROY (R398, R400). -/
def execQueueDestroy (r : QueueRequest) (s : State) : Result :=
  .next (bif (s.queue r.queue).state != .disabled && s.mayManage r.sender r.queue then s.destroyQueue r.queue else s)
/-- QUEUE_DESTROY_COMPLETE: every dispatched packet has completed (R400). -/
def execQueueDestroyComplete (q : Nat) (s : State) : Result :=
  .next (bif (s.queue q).state == .destroying && (s.queue q).inflight.isEmpty then
      s.modQueue q fun y => { y with state := .disabled }
    else s)
/-- Hearth core 1 reads the write index, an acquire at device scope (R399). A read that a hand-over holds is made once that is over (R369); one that faults leaves the index known as it was, the spec giving no effect: the model's choice; log entry 35. -/
def State.readWidx (s : State) (q : Nat) : State :=
  let x := s.queue q
  match s.hearthLoad x.vd x.widxa 8 with
  | .ok bs => (s.hearthTouch x.vd x.widxa 8).modQueue q fun y => { y with widx := leNat bs, notice := false }
  | .error 0 => s.modQueue q fun y => { y with notice := true }
  | .error _ => s.modQueue q fun y => { y with notice := false }
/-- The reads of write indices that are due are tried again (R369, R399). -/
def State.noticesDue (s : State) : State :=
  (List.range s.queues.length).foldl (fun s q => bif (s.queue q).notice then s.readWidx q else s) s
/-- A queue's state as its virtual device is switched out or in: SUSPENDED, or the state before (R400). -/
def Queue.switched (x : Queue) (inn : Bool) : Queue :=
  match x.state, inn with
  | .active, false => { x with state := .suspended false }
  | .blocked, false => { x with state := .suspended true }
  | .suspended was, true => { x with state := bif was then .blocked else .active }
  | _, _ => x
/-- The queues of a virtual device that is switched out or paused are SUSPENDED, those of one that is switched in again go on (R400, R418). -/
def State.queuesSwitched (s : State) : State :=
  { s with queues := s.queues.map fun x =>
      match (s.vdev x.vd).state with
      | .ready => x.switched (s.switchedIn x.vd)
      | .paused => x.switched false
      | _ => x }
/-- A doorbell: the register takes the value, and the write index is read (R399). -/
def State.ring (s : State) (q : Nat) (index : DWord) : State :=
  let x := s.queue q
  bif x.flags.getLsbD 0 || x.state == .disabled || decide (s.queues.length ≤ q) then s
  else (s.modQueue q fun y => { y with doorbell := index }).readWidx q
/-- DOORBELL_WRITE (R399). -/
def execDoorbellWrite (q : Nat) (index : BitVec 64) (s : State) : Result := .next (s.ring q index)
/-- WRITE_INDEX_NOTICE: a DEVOWN queue's write index is watched (R399). -/
def execWriteIndexNotice (q : Nat) (s : State) : Result :=
  .next (bif (s.queue q).flags.getLsbD 0 && (s.queue q).state != .disabled then s.readWidx q else s)

/-! ## Serving queues (R400, R403, R405) -/

/-- A queue's micro-steps may be performed: it is ACTIVE or BLOCKED, its virtual device READY and not switched out (R400, R418). -/
def State.serves (s : State) (q : Nat) : Bool :=
  let x := s.queue q
  decide (q < s.queues.length) && (x.state == .active || x.state == .blocked) && (s.vdev x.vd).state == .ready &&
  s.switchedIn x.vd && decide (x.ridx < x.widx)
/-- Another queue is served first: an ACTIVE one of a higher MAXPRIO, or of the same one and served longer ago (R400). -/
def State.yields (s : State) (q : Nat) : Bool :=
  let x := s.queue q
  (List.range s.queues.length).any fun k =>
    let y := s.queue k
    k != q && y.state == .active && s.serves k &&
    (decide (x.maxPrio < y.maxPrio) || (x.maxPrio == y.maxPrio && decide (y.served < x.served)))
/-- Address of the slot at the read index (R398). -/
def Queue.slot (x : Queue) : DWord := x.base + BitVec.ofNat 64 (64 * (x.ridx % 2 ^ x.log2))
/-- A slot whose packet was overwritten unread holds a byte-wise mix of the two (R399): each byte the one that stands there or the one that stood there, as a free choice has it, one for each packet. -/
def mixed (q : Nat) (x : Queue) (old bs : List Byte) : List Byte :=
  (bs.zip old).zipIdx.map fun (b, k) => bif Config.freeChoice (2 ^ 80 + q * 2 ^ 64 + x.ridx) 2 0 k 0 then b.1 else b.2
/-- The bytes of the packet at the read index; none while its slot cannot be read: a read that faults leaves the queue BLOCKED, the spec giving no effect: the model's choice; log entry 35. -/
def State.packetAt (s : State) (q : Nat) : Option (List Byte) :=
  let x := s.queue q
  (s.hearthLoad x.vd x.slot 64).toOption.map fun bs => match x.stale.lookup (x.ridx % 2 ^ x.log2) with
    | some old => mixed q x old bs
    | none => bs
/-- The bytes of a slot of a queue, where its page is mapped. -/
def State.slotBytes (s : State) (x : Queue) (k : Nat) : Option (List Byte) :=
  (s.placeOf x.vd (x.base + BitVec.ofNat 64 (64 * k))).map fun pa => s.readCommitted pa 64
/-- The slots of the packets that a queue's producers have added and nobody has read, by the write index that stands in memory (R399). -/
def State.unread (s : State) (x : Queue) : List Nat :=
  let n := 2 ^ x.log2
  let w := match s.placeOf x.vd x.widxa with
    | some pa => leNat (s.readCommitted pa 8)
    | none => x.widx
  (List.range (min n (w - x.ridx))).map fun i => (x.ridx + i) % n
/-- What an unread slot held before a move overwrote it, the first time (R399). -/
def State.overwritten (old s : State) (x : Queue) (k : Nat) : Option (Nat × List Byte) :=
  match x.stale.lookup k, old.slotBytes x k with
  | none, some bs => bif s.slotBytes x k == some bs then none else some (k, bs)
  | _, _ => none
/-- The packets that a move overwrote unread are kept beside the queue (R399). -/
def State.noteOver (old s : State) : State :=
  bif s.queues.isEmpty || old.store.mem == s.store.mem then s
  else { s with queues := s.queues.map fun x => { x with stale := (old.unread x).filterMap (old.overwritten s x) ++ x.stale } }
/-- The state after hearth core 1 has read the packet at the read index: A is set, the L3 filled (R357, R360, R399). -/
def State.packetRead (s : State) (q : Nat) : State := s.hearthTouch (s.queue q).vd (s.queue q).slot 64
/-- TYPE of a packet. -/
def ptype (p : List Byte) : Nat := field p 0 1
/-- SCOPE of a packet. -/
def pscope (p : List Byte) : Nat := bits (field p 1 1) 2 3
/-- SIGADDR of a packet. -/
def psig (p : List Byte) : DWord := BitVec.ofNat 64 (field p 8 8)
/-- An address field of a packet. -/
def paddr (p : List Byte) (i : Nat) : DWord := BitVec.ofNat 64 (field p i 8)
/-- The packet at the read index may start (R403): BAR, and fewer than 64 dispatched and not complete. -/
def State.mayStart (s : State) (q : Nat) (p : List Byte) : Bool :=
  let x := s.queue q
  (bits (field p 1 1) 0 1 == 0 || x.inflight.isEmpty) && decide ((x.inflight.filter fun y => y.done.isNone).length < 64)
/-- A queue's packet cannot go on (R400). -/
def State.block_ (s : State) (q : Nat) : State := s.modQueue q fun y => { y with state := .blocked }
/-- A micro-step of a queue has been performed: CURSOR names the next (R405). -/
def State.stepped (s : State) (q next : Nat) : State :=
  s.modQueue q fun y => { y with state := .active, cursor := next, served := s.moves + 1, relAt := none }
/-- A packet's last micro-step: it is dispatched, and complete at once where a value is given; the read index advances (R405). -/
def State.dispatched (s : State) (q : Nat) (p : List Byte) (done : Option DWord) : State :=
  let x := s.queue q
  s.setRidx q (x.ridx + 1) fun y =>
    { y with state := .active, launching := none, served := s.moves + 1, relAt := none,
             inflight := y.inflight ++ [⟨x.ridx, BitVec.ofNat 32 (field p 4 4), psig p, pscope p, done, s.moves⟩] }
/-- The error record of a packet (R406). -/
def State.errorRecord (s : State) (x : Queue) (p : List Byte) (reason : Nat) (addr : DWord) : List Byte :=
  natLe 8 x.ridx ++ natLe 4 (field p 4 4) ++ natLe 1 (ptype p) ++ natLe 1 reason ++ natLe 2 0 ++
  natLe 8 (s.guest x.vd) ++ natLe 8 addr.toNat ++ List.replicate 32 0#8
/-- A packet is rejected: the error record, then its signal after those of the packets that have completed before, and ERROR; CURSOR stays until the reset, and the queue's interrupt identity is raised (R400, R406, R413). The queue is blocked while the record is held, or hearth core 4 restarts (R409). -/
def State.reject (s : State) (q : Nat) (p : List Byte) (reason : Nat) (addr : DWord) : State :=
  let x := s.queue q
  let w := HWrite.store (s.errorRecord x p reason addr)
  bif s.hearth.restart.elem 4 || s.hearthHeld x.vd x.erra w then s.block_ q else
  ((s.hearthPost x.vd 5 x.erra w).modQueue q fun y =>
    { y with state := .error, launching := none, served := s.moves + 1, relAt := none,
             inflight := y.inflight ++ [⟨x.ridx, BitVec.ofNat 32 (field p 4 4), psig p, pscope p, some faultSignal, s.moves⟩] }).raiseIrq
    (partOf x.vd) (8 + q)
/-- Perform a micro-step of the packet of a type at the read index, when it is at a cursor the step follows. -/
def State.microStep (s : State) (q type : Nat) (at_ : Nat → Bool) (k : List Byte → State → State) : State :=
  bif s.serves q && !s.yields q then
    match s.packetAt q with
    | none => s.block_ q
    | some p =>
      bif ptype p == type && at_ (s.queue q).cursor then
        bif (s.queue q).cursor == 0 && !s.mayStart q p then s.block_ q else k p (s.packetRead q)
      else s
  else s

end Sys2Proof.Machine
end

