-- ==== Sys2Proof/Machine/LaneMem.lean ====
section
/-! DEFINITION. Memory instructions: majors 0x48 to 0x53 (09 R205 to R220). A cache hint, and an acquire, change no
value here (R208; log entry 21). -/

namespace Sys2Proof.Machine

/-! ## Loads and stores (R210 to R213) -/

/-- LD (R210). -/
def execLd (w : Bool) (d : Reg) (a : Reg) (disp : BitVec 7) (s : State) : Result :=
  .next (s.issue (.ld w d a disp) (perThread fun ag s => s.loadGlobal ag (s.ea ag a (disp7 disp)) 0#3 d))
/-- LD, extended (R210). -/
def execLdExt (c0 : Ctl) (ord : Bool) (width : BitVec 3) (scope : BitVec 3) (hint : BitVec 2) (d : Reg) (a : Reg) (disp : Disp) (s : State) : Result :=
  .next (s.issue (.ldExt c0 ord width scope hint d a disp) (perThread fun ag s =>
    s.loadGlobal ag (s.ea ag a (Disp64 disp)) width d))
/-- LDZ (R210). -/
def execLdz (c0 : Ctl) (width : BitVec 3) (hint : BitVec 2) (d : Reg) (pc : BitVec 3) (a : Reg) (disp : Disp) (s : State) : Result :=
  .next (s.issue (.ldz c0 width hint d pc a disp) (perThread fun ag s => s.loadZero ag (s.ea ag a (Disp64 disp)) width d pc))
/-- ST (R210). -/
def execSt (w : Bool) (d : Reg) (a : Reg) (disp : BitVec 7) (s : State) : Result :=
  .next (s.issue (.st w d a disp) (perThread fun ag s =>
    s.storeGlobal ag (s.ea ag a (disp7 disp)) (s.storeBytes ag 0#3 d) false 0))
/-- ST, extended (R210, R211). -/
def execStExt (c0 : Ctl) (ord : Bool) (width : BitVec 3) (scope : BitVec 3) (hint : BitVec 2) (d : Reg) (a : Reg) (disp : Disp) (s : State) : Result :=
  .next (s.issue (.stExt c0 ord width scope hint d a disp) (perThread fun ag s =>
    s.storeGlobal ag (s.ea ag a (Disp64 disp)) (s.storeBytes ag width d) ord scope.toNat))
/-- LDS (R213). -/
def execLds (w : Bool) (d : Reg) (a : Reg) (disp : BitVec 7) (s : State) : Result :=
  .next (s.issue (.lds w d a disp) (perThread fun ag s => s.loadPad ag (s.eaPad ag a (disp7 disp)) 0#3 d))
/-- LDS, extended (R213). -/
def execLdsExt (c0 : Ctl) (width : BitVec 3) (d : Reg) (a : Reg) (disp : Disp) (s : State) : Result :=
  .next (s.issue (.ldsExt c0 width d a disp) (perThread fun ag s =>
    s.loadPad ag (s.eaPad ag a (Disp64 disp)) width d))
/-- STS (R213). -/
def execSts (w : Bool) (d : Reg) (a : Reg) (disp : BitVec 7) (s : State) : Result :=
  .next (s.issue (.sts w d a disp) (perThread fun ag s =>
    s.storePad ag (s.eaPad ag a (disp7 disp)) (s.storeBytes ag 0#3 d)))
/-- STS, extended (R213). -/
def execStsExt (c0 : Ctl) (width : BitVec 3) (d : Reg) (a : Reg) (disp : Disp) (s : State) : Result :=
  .next (s.issue (.stsExt c0 width d a disp) (perThread fun ag s =>
    s.storePad ag (s.eaPad ag a (Disp64 disp)) (s.storeBytes ag width d)))
/-- LDC (R212). -/
def execLdc (w : Bool) (d : Reg) (a : Reg) (disp : BitVec 7) (s : State) : Result :=
  .next (s.issue (.ldc w d a disp) (perThread fun ag s => s.loadConst ag (s.ea ag a (disp7 disp)) 0#3 d))
/-- LDC, extended (R212). -/
def execLdcExt (c0 : Ctl) (width : BitVec 3) (hint : BitVec 2) (d : Reg) (a : Reg) (disp : Disp) (s : State) : Result :=
  .next (s.issue (.ldcExt c0 width hint d a disp) (perThread fun ag s =>
    s.loadConst ag (s.ea ag a (Disp64 disp)) width d))

/-! ## Atomics and reductions (R217 to R219) -/

/-- ATOM.ADD (R218). -/
def execAtomAdd (c0 : Ctl) (ord : Bool) (w64 : Bool) (scope : BitVec 3) (d : Reg) (a : Reg) (b : Src) (s : State) : Result :=
  .next (s.issue (.atomAdd c0 ord w64 scope d a b) (perThread fun ag s =>
    s.atom ag 0 ord w64 scope.toNat d a (s.bSized ag w64 b) 0#64))
/-- ATOM.MIN (R218). -/
def execAtomMin (c0 : Ctl) (ord : Bool) (w64 : Bool) (scope : BitVec 3) (d : Reg) (a : Reg) (b : Src) (s : State) : Result :=
  .next (s.issue (.atomMin c0 ord w64 scope d a b) (perThread fun ag s =>
    s.atom ag 1 ord w64 scope.toNat d a (s.bSized ag w64 b) 0#64))
/-- ATOM.MAX (R218). -/
def execAtomMax (c0 : Ctl) (ord : Bool) (w64 : Bool) (scope : BitVec 3) (d : Reg) (a : Reg) (b : Src) (s : State) : Result :=
  .next (s.issue (.atomMax c0 ord w64 scope d a b) (perThread fun ag s =>
    s.atom ag 2 ord w64 scope.toNat d a (s.bSized ag w64 b) 0#64))
/-- ATOM.UMIN (R218). -/
def execAtomUmin (c0 : Ctl) (ord : Bool) (w64 : Bool) (scope : BitVec 3) (d : Reg) (a : Reg) (b : Src) (s : State) : Result :=
  .next (s.issue (.atomUmin c0 ord w64 scope d a b) (perThread fun ag s =>
    s.atom ag 3 ord w64 scope.toNat d a (s.bSized ag w64 b) 0#64))
/-- ATOM.UMAX (R218). -/
def execAtomUmax (c0 : Ctl) (ord : Bool) (w64 : Bool) (scope : BitVec 3) (d : Reg) (a : Reg) (b : Src) (s : State) : Result :=
  .next (s.issue (.atomUmax c0 ord w64 scope d a b) (perThread fun ag s =>
    s.atom ag 4 ord w64 scope.toNat d a (s.bSized ag w64 b) 0#64))
/-- ATOM.AND (R218). -/
def execAtomAnd (c0 : Ctl) (ord : Bool) (w64 : Bool) (scope : BitVec 3) (d : Reg) (a : Reg) (b : Src) (s : State) : Result :=
  .next (s.issue (.atomAnd c0 ord w64 scope d a b) (perThread fun ag s =>
    s.atom ag 5 ord w64 scope.toNat d a (s.bSized ag w64 b) 0#64))
/-- ATOM.OR (R218). -/
def execAtomOr (c0 : Ctl) (ord : Bool) (w64 : Bool) (scope : BitVec 3) (d : Reg) (a : Reg) (b : Src) (s : State) : Result :=
  .next (s.issue (.atomOr c0 ord w64 scope d a b) (perThread fun ag s =>
    s.atom ag 6 ord w64 scope.toNat d a (s.bSized ag w64 b) 0#64))
/-- ATOM.XOR (R218). -/
def execAtomXor (c0 : Ctl) (ord : Bool) (w64 : Bool) (scope : BitVec 3) (d : Reg) (a : Reg) (b : Src) (s : State) : Result :=
  .next (s.issue (.atomXor c0 ord w64 scope d a b) (perThread fun ag s =>
    s.atom ag 7 ord w64 scope.toNat d a (s.bSized ag w64 b) 0#64))
/-- ATOM.EXCH (R218). -/
def execAtomExch (c0 : Ctl) (ord : Bool) (w64 : Bool) (scope : BitVec 3) (d : Reg) (a : Reg) (b : Src) (s : State) : Result :=
  .next (s.issue (.atomExch c0 ord w64 scope d a b) (perThread fun ag s =>
    s.atom ag 8 ord w64 scope.toNat d a (s.bSized ag w64 b) 0#64))
/-- ATOM.CAS: the write is performed in either case (R218). -/
def execAtomCas (c0 : Ctl) (ord : Bool) (w64 : Bool) (scope : BitVec 3) (d : Reg) (a : Reg) (b : Src) (c : Reg) (s : State) : Result :=
  .next (s.issue (.atomCas c0 ord w64 scope d a b c) (perThread fun ag s =>
    s.atom ag 9 ord w64 scope.toNat d a (s.bSized ag w64 b) (s.bSized ag w64 (.reg c))))
/-- ATOM.FADD (R218). -/
def execAtomFadd (c0 : Ctl) (ord : Bool) (scope : BitVec 3) (d : Reg) (a : Reg) (b : Src) (s : State) : Result :=
  .next (s.issue (.atomFadd c0 ord scope d a b) (perThread fun ag s =>
    s.atom ag 10 ord false scope.toNat d a (s.bSized ag false b) 0#64))
/-- RED.ADD (R218, R219). -/
def execRedAdd (c0 : Ctl) (w64 : Bool) (scope : BitVec 3) (a : Reg) (b : Src) (s : State) : Result :=
  .next (s.issue (.redAdd c0 w64 scope a b) (perThread fun ag s =>
    s.red ag 0 w64 scope.toNat a (s.bSized ag w64 b)))
/-- RED.MIN (R218, R219). -/
def execRedMin (c0 : Ctl) (w64 : Bool) (scope : BitVec 3) (a : Reg) (b : Src) (s : State) : Result :=
  .next (s.issue (.redMin c0 w64 scope a b) (perThread fun ag s =>
    s.red ag 1 w64 scope.toNat a (s.bSized ag w64 b)))
/-- RED.MAX (R218, R219). -/
def execRedMax (c0 : Ctl) (w64 : Bool) (scope : BitVec 3) (a : Reg) (b : Src) (s : State) : Result :=
  .next (s.issue (.redMax c0 w64 scope a b) (perThread fun ag s =>
    s.red ag 2 w64 scope.toNat a (s.bSized ag w64 b)))
/-- RED.UMIN (R218, R219). -/
def execRedUmin (c0 : Ctl) (w64 : Bool) (scope : BitVec 3) (a : Reg) (b : Src) (s : State) : Result :=
  .next (s.issue (.redUmin c0 w64 scope a b) (perThread fun ag s =>
    s.red ag 3 w64 scope.toNat a (s.bSized ag w64 b)))
/-- RED.UMAX (R218, R219). -/
def execRedUmax (c0 : Ctl) (w64 : Bool) (scope : BitVec 3) (a : Reg) (b : Src) (s : State) : Result :=
  .next (s.issue (.redUmax c0 w64 scope a b) (perThread fun ag s =>
    s.red ag 4 w64 scope.toNat a (s.bSized ag w64 b)))
/-- RED.AND (R218, R219). -/
def execRedAnd (c0 : Ctl) (w64 : Bool) (scope : BitVec 3) (a : Reg) (b : Src) (s : State) : Result :=
  .next (s.issue (.redAnd c0 w64 scope a b) (perThread fun ag s =>
    s.red ag 5 w64 scope.toNat a (s.bSized ag w64 b)))
/-- RED.OR (R218, R219). -/
def execRedOr (c0 : Ctl) (w64 : Bool) (scope : BitVec 3) (a : Reg) (b : Src) (s : State) : Result :=
  .next (s.issue (.redOr c0 w64 scope a b) (perThread fun ag s =>
    s.red ag 6 w64 scope.toNat a (s.bSized ag w64 b)))
/-- RED.XOR (R218, R219). -/
def execRedXor (c0 : Ctl) (w64 : Bool) (scope : BitVec 3) (a : Reg) (b : Src) (s : State) : Result :=
  .next (s.issue (.redXor c0 w64 scope a b) (perThread fun ag s =>
    s.red ag 7 w64 scope.toNat a (s.bSized ag w64 b)))
/-- RED.FADD (R218, R219). -/
def execRedFadd (c0 : Ctl) (scope : BitVec 3) (a : Reg) (b : Src) (s : State) : Result :=
  .next (s.issue (.redFadd c0 scope a b) (perThread fun ag s =>
    s.red ag 10 false scope.toNat a (s.bSized ag false b)))

/-! ## Fences, prefetch, presence, residency (R214 to R216, R220) -/

/-- SPRES of one thread (R216). -/
def State.spres1 (s : State) (ag : Nat) (pd : BitVec 3) (off : Word) : State × Fate :=
  let h := s.share (s.shareOf ag)
  if h.size ≤ off.toNat then (s, .trap 0x05 (off.setWidth 64) (accInfo 0 false true))
  else (s.out ag true false [toPred pd (!h.absent.elem (off.toNat / 128))] 0#5, .next)
/-- A request to hearth core 3 for a page, merged with one already made (R214). -/
def State.request (s : State) (v vpn die : Nat) : State :=
  s.modStore fun m => { m with requests := bif m.requests.elem (v, vpn, die) then m.requests else m.requests ++ [(v, vpn, die)] }
/-- PGREQ of one thread (R214). -/
def State.pgreq1 (s : State) (ag : Nat) (blk : Bool) (pd : BitVec 3) (ea : DWord) : State × Fate :=
  let v := s.vdOf ag
  let c := s.coreOf ag
  match s.translate v c ea .load with
  | (s, .held) => (s, .stall)
  | (s, .ok _ _ _) => (s.out ag true false [toPred pd true] 0#5, .next)
  | (s, .bad cause) =>
    if cause = 0x07 then (s.out ag true false [toPred pd false] 0#5, .next)
    else if cause = 0x06 then
      let s := s.request v (va48 ea / 65536) (dieOf c)
      if blk then (s, .past (.page ea pd)) else (s.out ag true false [toPred pd false] 0#5, .next)
    else (s, .trap cause ea (accInfo 0 false false))

/-- FENCE (R220, R104, R124). -/
def execFence (c0 : Ctl) (scope : BitVec 3) (s : State) : Result :=
  .next (s.issue (.fence c0 scope) (perThread fun ag s => s.fenceAt ag scope.toNat))
/-- PREF: it changes no value and no order, and never traps (R215). -/
def execPref (c0 : Ctl) (lvl : BitVec 2) (hint : BitVec 2) (a : Reg) (disp : Disp) (s : State) : Result :=
  .next (s.issue (.pref c0 lvl hint a disp) (plain fun _ s => s))
/-- SPRES (R216). -/
def execSpres (c0 : Ctl) (pd : BitVec 3) (a : Reg) (disp : Disp) (s : State) : Result :=
  .next (s.issue (.spres c0 pd a disp) (perThread fun ag s => s.spres1 ag pd (s.eaPad ag a (Disp64 disp))))
/-- PGREQ (R214). -/
def execPgreq (c0 : Ctl) (blk : Bool) (pd : BitVec 3) (a : Reg) (disp : Disp) (s : State) : Result :=
  .next (s.issue (.pgreq c0 blk pd a disp) (perThread fun ag s => s.pgreq1 ag blk pd (s.ea ag a (Disp64 disp))))

end Sys2Proof.Machine
end

