-- ==== Sys2Proof/Machine/Residency.lean ====
section
/-! DEFINITION. Events of translation, residency and loans (09 R214, 21 R358, R363 to R365, R372, R373). -/

namespace Sys2Proof.Machine

/-! ## Walks and residency (R214, R358, R363 to R365) -/

/-- PAGE_WALK: a miss of a core that runs the virtual device walks the tables; A and D are set, the TLBs filled (R358, R360). -/
def execPageWalk (core vd : Nat) (va : BitVec 64) (k : Access) (s : State) : Result :=
  .next (bif decide (core < 192) && (s.core core).slice.vd == some vd then (s.translate vd core va k).1 else s)
/-- A thread parked on a page by PGREQ.BLK is released with its predicate (R214). -/
def wakePage (vpn : Nat) (ok : Bool) (a : Agent) : Agent :=
  match a.status with
  | .parked (.page va p) =>
    bif va48 va / 65536 == vpn then
      let b := { a with status := .ready }
      match dstPred p with
      -- the value is read at every distance
      | some d => { b.set d (bif ok then 1#32 else 0#32) with pend := b.pend.filter fun x => x.dst != d }
      | none => b
    else a
  | _ => a
/-- Wake the threads of a virtual device that wait for a page: all once it is resident; where it is refused, those that no request of their die is open for, a thread that has resumed on another die since it asked among them (R214, R250). -/
def State.wake (s : State) (v vpn : Nat) (ok : Bool) : State :=
  s.modAgents (wakePage vpn ok) ((List.range s.lanes.agents.length).filter fun a =>
    (s.agent a).status != .ended && s.vdOf a == v && (ok || !s.store.requests.elem (v, vpn, dieOf (s.coreOf a))))
/-- MAKE_RESIDENT: a page that PGREQ asked for is brought, or refused for lack of reserve, once no hand-over holds its frame (R214, R363, R369). A PGREQ is a request that a page of DUP = 1 answers with a replica. -/
def execMakeResident (vd : Nat) (va : BitVec 64) (die : Nat) (dup : Bool) (s : State) : Result :=
  let vpn := va48 va / 65536
  let held := ((s.walk vd va).map fun l => s.placeHeld vd va l).getD false
  .next (bif s.store.requests.elem (vd, vpn, die) && dup && !held then
      let (s, ok) := match s.makePageResident vd die va true with
        | some s => (s, true)
        | none => (s, false)
      (s.modStore fun m => { m with requests := m.requests.erase (vd, vpn, die) }).wake vd vpn ok
    else s)
/-- REPLICA_CREATE: a replica of a replicated page, or of a resident DUP page on the other die's stack, on a die that has none; a hand-over of the home's stack holds it (R364, R369). -/
def execReplicaCreate (vd : Nat) (va : BitVec 64) (die : Nat) (s : State) : Result :=
  .next (match s.walk vd va with
    | some l => bif s.wantsReplica vd die va l && decide (die < 2) && !s.placeHeld vd va l then (s.makeReplica vd die va l).getD s else s
    | none => s)
/-- REPLICA_COLLAPSE: a store of an agent on the die reaches a replicated page (R365); a hand-over of a stack it changes holds it (R369). -/
def execReplicaCollapse (vd : Nat) (va : BitVec 64) (die : Nat) (s : State) : Result :=
  .next (match s.walk vd va with
    | some l => bif permOk l.e .store && decide (die < 2) && !s.placeHeld vd va l then s.collapse vd die va else s
    | none => s)

/-! ## Loans (R372, R373) -/

/-- A partition holds nothing on a stack: no mapped page, surrendered ones with their kept frame included (R342, R362), and USED and PEND zero in every share of it (R372). -/
def State.emptyStack (s : State) (part st : Nat) : Bool :=
  (s.defined part).all (fun v => (s.kshare v st).used == 0 && (s.kshare v st).pend == 0) &&
  (s.defined part).all fun v => (s.leaves v).all fun x => !(x.2.local && stackOf x.2.base == st)
/-- Pages of a partition on a stack that can be moved: virtual device, address and leaf (R372, R373). -/
def State.pagesOn (s : State) (part st : Nat) : List (Nat × DWord × Leaf) :=
  (s.defined part).flatMap fun v =>
    ((s.leaves v).filter fun x => x.2.local && x.2.pages == 1 && stackOf x.2.base == st).map fun x => (v, x.1, x.2)
/-- Migrate pages off a stack to other stacks that a die owns and has not borrowed, as far as the reserves allow; a replicated page collapses first, and one whose place cannot be changed yet stays (R365, R369, R372, R373). -/
def State.migrateOff (s : State) (die st : Nat) : List (Nat × DWord × Leaf) → State
  | [] => s
  | (v, va, l) :: rest =>
    let s := bif s.placeHeld v va l then s else s.collapse v die va
    (match s.walk v va with
     | some l =>
       (match (List.range 8).find? fun t =>
            t != st && s.ownerDie t == die && !s.onLoan t && !s.handing t && decide (s.moveNeed l ≤ (s.kshare v t).res) with
        | some t => bif l.local && stackOf l.base == st && !s.placeHeld v va l then s.migrateTo v t va l else s
        | none => s : State)
     | none => s : State).migrateOff die st rest
/-- A replica is dropped: its sectors, its map entry and its translations (R365). -/
def State.dropReplica (s : State) (r : Replica) : State :=
  ((s.freePage r.base).modStore fun m => { m with replicas := m.replicas.filter fun x => x != r }).dropPage r.vd r.vpn
/-- A partition's replicas on a stack are dropped (R365, R373). -/
def State.dropReplicas (s : State) (part st : Nat) : State :=
  (s.store.replicas.filter fun r => partOf r.vd == part && stackOf r.base == st).foldl State.dropReplica s
/-- A partition's pages are moved off a stack to other stacks of a die, as far as the reserves allow; its replicas there are dropped (R372, R373). -/
def State.leaveStack (s : State) (part die st : Nat) : State :=
  let s := s.dropReplicas part st
  s.migrateOff die st (s.pagesOn part st)
/-- The migrations off demanded stacks go on until the deadline, as reserves become free (R373). -/
def State.loansLeave (s : State) : State :=
  s.store.loans.foldl (fun s l => bif l.due.isSome && !s.handing l.stack then s.leaveStack l.borrower l.borrower l.stack else s) s
/-- LOAN_AGREEMENT: both supervisors have written matching requests; hearth core 3 migrates the lender's pages off the stack, as the lender's request asks, and records the agreement where nothing is left (R372). -/
def execLoanAgreement (stack borrower seconds : Nat) (s : State) : Result :=
  let lender := s.ownerDie stack
  .next (bif !s.hearth.config.unified && decide (stack < 8) && decide (borrower < 2) && lender != borrower &&
      decide (1 ≤ seconds) && decide (seconds ≤ 60) && !s.handing stack && !(s.store.loans.any fun l => l.stack == stack) then
      let s := s.leaveStack lender lender stack
      bif s.emptyStack lender stack then
        s.modStore fun m => { m with loans := m.loans ++ [⟨stack, borrower, seconds, [0, 1], true, [], none⟩] }
      else s
    else s)
/-- The stack goes back to its lender by a hand-over, and the agreement ends (R373). -/
def State.returnLoan (s : State) (l : Loan) : State :=
  s.modStore fun m =>
    { m with loans := m.loans.filter (fun x => x.stack != l.stack), handovers := m.handovers ++ [⟨l.stack, 1 - l.borrower, 0, none⟩] }
/-- LOAN_END: by a matching pair of requests the stack goes back at once; on the lender's demand the borrower's pages are migrated within the deadline (R373). -/
def execLoanEnd (stack : Nat) (demand : Bool) (s : State) : Result :=
  .next (match s.store.loans.find? fun l => l.stack == stack && l.agreed && l.due.isNone with
    | none => s
    | some l =>
      bif demand then
        let s := s.modStore fun m => { m with loans := m.loans.map fun x =>
          bif x.stack == stack then { x with due := some (s.now + l.seconds * 1000000000), endAsked := [1 - l.borrower] } else x }
        s.leaveStack l.borrower l.borrower stack
      else s.returnLoan l)
/-- LOAN_DEADLINE_EXPIRY: pages still on the stack are surrendered, their data lost, and the stack goes back (R373). -/
def execLoanDeadlineExpiry (stack : Nat) (s : State) : Result :=
  .next (match s.store.loans.find? fun l => l.stack == stack with
    | none => s
    | some l =>
      match l.due with
      | none => s
      | some d =>
        bif decide (d ≤ s.now) then
          let s := s.dropReplicas l.borrower stack
          let s := ((s.pagesOn l.borrower stack).filter fun x => x.2.2.res != 2).foldl (fun s x => s.surrender s.lanes.tasks.length x.1 x.2.2 x.2.1) s
          s.returnLoan l
        else s)

end Sys2Proof.Machine
end

