-- ==== Sys2Proof/Machine/Packets.lean ====
section
/-! DEFINITION. Packets: their checks, launches, micro-steps and completion (23 R401 to R408, 21 R366). -/

namespace Sys2Proof.Machine

/-! ## Checks of a packet (R401, R406) -/

/-- Bytes i to i + n − 1 of a packet are zero. -/
def zeros (p : List Byte) (i n : Nat) : Bool := field p i n == 0
/-- Reserved header and body bits, and reserved codes (REASON 1). -/
def packetReserved (p : List Byte) : Bool :=
  let t := ptype p
  decide (9 ≤ t) || bits (field p 1 1) 5 3 != 0 || (t != 1 && t != 2 && !zeros p 2 1) || !zeros p 3 1 ||
  (match t with
   | 0 => !zeros p 16 48
   | 3 => !zeros p 33 31 || decide (3 ≤ field p 32 1)
   | 4 => !zeros p 25 7
   | 5 => !zeros p 33 31 || decide (2 ≤ field p 32 1)
   | 6 => !zeros p 42 6 || decide (2 ≤ field p 41 1)
   | 7 => !zeros p 25 7 || !zeros p 40 24 || decide (2 ≤ field p 24 1)
   | 8 => [16, 32, 48].any fun i => !zeros p (i + 7) 1 || decide (4 ≤ field p (i + 6) 1)
   | _ => false)
/-- The alignment that a write of n bytes needs: the largest power of two, no greater than 8, that divides n. -/
def writeAlign (n : Nat) : Nat := bif n % 8 == 0 then 8 else bif n % 4 == 0 then 4 else bif n % 2 == 0 then 2 else 1
/-- A location of the host, where a signal is a PCIe AtomicOp (R406). -/
def State.hostAt (s : State) (v : Nat) (va : DWord) : Bool :=
  match s.walk v va with
  | some l => region l.base == 1
  | none => false
/-- SCOPE, alignment and length (REASON 2). -/
def State.packetMisfit (s : State) (v : Nat) (p : List Byte) : Bool :=
  let t := ptype p
  let sc := pscope p
  let lenBad := fun i m => field p i 1 == 0 || decide (m < field p i 1)
  let mis := fun i n => field p i 8 % n != 0
  let noAtomics := fun (va : DWord) => !Config.atomicOps && s.hostAt v va
  decide (sc < 5) || mis 8 8 || (psig p != 0#64 && noAtomics (psig p)) ||
  (match t with
   | 1 => mis 24 8
   | 2 => mis 24 8
   | 3 => mis 16 8
   | 4 => lenBad 24 32 || mis 16 (writeAlign (field p 24 1))
   | 5 => mis 16 8 || (field p 32 1 == 0 && noAtomics (paddr p 16))
   | 6 => lenBad 40 16 || mis 16 (writeAlign (field p 40 1)) || mis 24 8 || (field p 41 1 == 0 && noAtomics (paddr p 24))
   | 7 => mis 16 32 || mis 32 64
   | 8 => [16, 32, 48].any fun i => field p i 6 % 65536 != 0 || field p (i + 8) 8 % 65536 != 0
   | _ => false)
/-- REASON 1 or 2, the lowest that holds. -/
def State.headerReason (s : State) (v : Nat) (p : List Byte) : Option Nat :=
  bif packetReserved p then some 1 else bif s.packetMisfit v p then some 2 else none

/-! ## Kernel objects and extension records (R407, R408) -/

/-- A register budget of a role (R31, R32). -/
def budgetOk (b : Nat) : Bool := b == 255 || (decide (8 ≤ b) && decide (b ≤ 248) && b % 8 == 0)
/-- An entry offset (R407). -/
def entryOk (e codesz : Nat) : Bool := e % 4 == 0 && decide (64 ≤ e) && decide (e < 64 + codesz)
/-- A kernel object's header is valid (R407), ARGSZ within the range of .args (R4, R31). -/
def kernelOk (kobj : DWord) (h : List Byte) : Bool :=
  let np := field h 9 1
  let sz := field h 28 4
  kobj.toNat % 64 == 0 && field h 0 4 == 0x50524F4A && field h 4 1 == 1 && decide (field h 5 1 ≤ 2) && decide (field h 6 1 ≤ 2) &&
  decide (1 ≤ field h 7 1) && decide (field h 7 1 ≤ 8) && decide (1 ≤ field h 8 1) && decide (field h 8 1 ≤ 96) &&
  decide (np < field h 8 1) && budgetOk (field h 10 1) && (bif np == 0 then field h 11 1 == 0 else budgetOk (field h 11 1)) &&
  decide (field h 12 1 ≤ 8) && decide (field h 13 1 ≤ 8) && decide (field h 14 1 ≤ 8) && decide (field h 15 1 ≤ 1) &&
  entryOk (field h 16 4) sz && (bif np == 0 then field h 20 4 == 0 else entryOk (field h 20 4) sz) &&
  (bif field h 15 1 == 0 then field h 24 4 == 0 else entryOk (field h 24 4) sz) &&
  field h 32 4 % 8 == 0 && decide (field h 32 4 ≤ 4096) && field h 36 28 == 0
/-- A kernel from its header (R407). -/
def kernelFrom (kobj : DWord) (h : List Byte) : Kernel :=
  { kobj := kobj, mode := field h 5 1, gwidth := 32 * 2 ^ field h 6 1, cores := field h 7 1, ngroups := field h 8 1,
    nprod := field h 9 1, cregs := field h 10 1, pregs := field h 11 1, tiles := field h 12 1, cxc := field h 13 1,
    pxc := field h 14 1, fe := field h 15 1 == 1, entries := (field h 16 4, field h 20 4, field h 24 4), codesz := field h 28 4 }
/-- A fault-policy word is valid (R235). -/
def policyOk (w : Nat) : Bool := bits w 8 24 == 0 && bits w 2 2 == 0 && bits w 0 2 != 3
/-- Every page of a range is mapped, resident and writable, and RB where asked (R408). -/
def State.pagesOk (s : State) (v : Nat) (va : DWord) (n : Nat) (rb : Bool) : Bool :=
  (pageParts (n / 65536 + 2) va n).all fun p => canonical p.1 && (match s.walk v p.1 with
    | some l => (l.res == 0 || l.res == 3) && permOk l.e .store && (!rb || l.rb)
    | none => false)
/-- The extension record of defaults (R408). -/
def noXrec : List Byte := List.replicate 64 0#8
/-- An extension record is valid, its node table apart (R408). -/
def State.xrecOk (s : State) (v : Nat) (cord : Bool) (xrec : DWord) (x : List Byte) : Bool :=
  let flogn := field x 8 4
  let cap := field x 20 4
  let nodes := field x 32 8
  let nn := field x 40 2
  xrec.toNat % 64 == 0 && field x 0 8 % 64 == 0 && decide (flogn ≤ 2 ^ 20) && decide (field x 12 4 ≤ 60000) &&
  decide (field x 16 2 ≤ 64) && decide (field x 18 1 < 16) && field x 19 1 == 0 && decide (cap ≤ 2 ^ 24) &&
  field x 24 8 % 64 == 0 && nodes % 32 == 0 && (bif nodes == 0 then nn == 0 else decide (1 ≤ nn) && decide (nn ≤ 4096)) &&
  field x 42 6 == 0 && field x 48 8 % 8 == 0 && field x 56 8 == 0 &&
  (flogn == 0 || s.pagesOk v (BitVec.ofNat 64 (field x 0 8)) (64 * flogn) true) &&
  (field x 48 8 == 0 || s.pagesOk v (BitVec.ofNat 64 (field x 48 8)) 8 false) &&
  (cap == 0 || s.onRb v (BitVec.ofNat 64 (field x 24 8)) (32 * cap)) &&
  !(nodes != 0 && cap == 0) && !(cord && (cap != 0 || nodes != 0))
/-- An entry of a node table is valid (R386). -/
def State.nodeOk (s : State) (v : Nat) (e : List Byte) : Bool :=
  let code := BitVec.ofNat 64 (field e 0 8)
  let cap := field e 16 4
  let sz := field e 20 2
  code.toNat % 4 == 0 && canonical code && field e 8 8 % 256 == 0 && decide (1 ≤ cap) && decide (cap ≤ 2 ^ 24) &&
  sz % 16 == 0 && decide (16 ≤ sz) && decide (sz ≤ 256) && field e 23 9 == 0 &&
  s.onRb v (BitVec.ofNat 64 (field e 8 8)) (cap * sz)
/-- A node from its entry (R386). -/
def nodeOf (e : List Byte) : Node :=
  { code := BitVec.ofNat 64 (field e 0 8), qbase := BitVec.ofNat 64 (field e 8 8), qcap := field e 16 4, rsize := field e 20 2,
    prio := field e 22 1, used := [] }
/-- The entries of a node table of n nodes. -/
def nodeEntries (bs : List Byte) : Nat → List (List Byte)
  | 0 => []
  | n + 1 => bs.take 32 :: nodeEntries (bs.drop 32) n

/-- What a LAUNCH or CORD packet names, as read at its first micro-step. -/
structure Read where
  kernel : Except Nat (List Byte)
  xrec : Except Nat (List Byte)
  nodes : Except Nat (List (List Byte))
/-- Read the kernel header, the extension record and the node table (R405). -/
def State.readLaunch (s : State) (v : Nat) (p : List Byte) : Read :=
  let x := bif zeros p 56 8 then .ok noXrec else s.hearthLoad v (paddr p 56) 64
  { kernel := s.hearthLoad v (paddr p 16) 64, xrec := x,
    nodes := match x with
      | .ok r => bif field r 32 8 == 0 then .ok [] else
        (s.hearthLoad v (BitVec.ofNat 64 (field r 32 8)) (32 * field r 40 2)).map fun bs => nodeEntries bs (field r 40 2)
      | .error _ => .ok [] }
/-- The launch that a LAUNCH or CORD packet makes (R401, R404, R407, R408). -/
def State.launchOfPacket (s : State) (q : Nat) (p kh x : List Byte) (nodes : List (List Byte)) : Launch :=
  let y := s.queue q
  let k := kernelFrom (paddr p 16) kh
  let cap := field x 20 4
  let n := field p 32 6
  { kernel := k,
    par := { vd := y.vd, packet := some (q, y.ridx), tag := BitVec.ofNat 32 (field p 4 4), args := paddr p 24, teams := n, spad := field p 38 2 * 1024,
             policy := BitVec.ofNat 32 (field p 40 4), seed := BitVec.ofNat 32 (field p 44 4), tvec := paddr p 48,
             flog := paddr x 0, flogn := field x 8 4, flogcnt := paddr x 48,
             wdog := bif field x 12 4 == 0 then 500 else field x 12 4,
             vbudget := bif field x 16 2 == 0 then 16 else field x 16 2,
             deleg := BitVec.ofNat 4 (field x 18 1) &&& y.deleg, priv := y.flags.getLsbD 1, hv := y.flags.getLsbD 2,
             scope := pscope p, cord := ptype p == 2 },
    prio := min (field p 2 1) y.maxPrio, order := 0, started := false, ended := false, fault := false, cursor := 0, retired := [],
    dist := { chip := (0, bif cap == 0 then n else 0), die := [[], []], cluster := List.replicate 24 [] }, idleNs := 0, waited := 0,
    records := 0, slots := List.replicate cap ⟨.free, 0#8, default, 0, none⟩, level := [], nodes := nodes.map nodeOf,
    billets := cap != 0, dying := none }
/-- The machine with every core empty, at its largest carve-out, and one launch (R406 reason 4). -/
def State.emptied (s : State) (x : Launch) : State :=
  { s with
    lanes := { agents := [], groups := [], shares := [], tasks := [], launches := [{ x with started := true }],
               cores := List.replicate 192 Core.reset },
    vdevs := s.vdevs.modify x.par.vd fun d => { d with state := .ready, heldMsg := [] } }
/-- A launch's team, formed group or cord fits on empty cores of one region (R133, R394, R406 reason 4). A region holds at most 768 teams, so a cord of more is tried with 769, and one of none with a single team; a SPAD out of range asks for no window (log entry 35). -/
def State.shapeFits (s : State) (x : Launch) : Bool :=
  let x := { x with par := { x.par with teams := max 1 (min x.par.teams 769), spad := bif decide (786432 < x.par.spad) then 0 else x.par.spad } }
  let s := s.emptied x
  let v := x.par.vd
  bif x.billets then
    (s.regions v).any fun k => (s.regionOf v k).any fun c =>
      (s.fits v c [x.kernel.shape 0] x.par.spad x.kernel.tiles).isSome
  else bif x.par.cord then (s.regions v).any fun k => (s.placeCord 0 k).isSome
  else (s.regions v).any fun k => (s.placeTeam 0 0 k).isSome
/-- TEAMS and SPAD are out of range, or TEAMS exceeds the store (REASON 7). -/
def teamsBad (p x : List Byte) : Bool :=
  let n := field p 32 6
  let cap := field x 20 4
  n == 0 || (ptype p == 2 && (decide (n < 2) || decide (64 < n))) || decide (768 < field p 38 2) || (cap != 0 && decide (cap < n))
/-- The lowest REASON of a LAUNCH or CORD packet (R406). A read of the node table that faults has REASON 8 with the lowest address that faults: the model's choice, since the table of reasons names only the kernel object and the extension record under 8; log entry 35. -/
def State.launchReason (s : State) (q : Nat) (p : List Byte) : Option (Nat × DWord) :=
  let v := (s.queue q).vd
  let r := s.readLaunch v p
  match s.headerReason v p with
  | some n => some (n, 0#64)
  | none =>
    let kobj := paddr p 16
    let kbad := match r.kernel with
      | .ok h => !kernelOk kobj h
      | .error _ => kobj.toNat % 64 != 0
    let polBad := !policyOk (field p 40 4)
    let xbad := match r.xrec with
      | .ok x => !s.xrecOk v (ptype p == 2) (paddr p 56) x || (match r.nodes with
        | .ok es => !(es.all (s.nodeOk v))
        | .error _ => false)
      | .error _ => field p 56 8 % 64 != 0
    let tbad := teamsBad p (match r.xrec with
      | .ok x => x
      | .error _ => noXrec)
    let shape := match r.kernel, r.xrec with
      | .ok h, .ok x => kernelOk kobj h && !s.shapeFits (s.launchOfPacket q p h x [])
      | _, _ => false
    bif kbad then some (3, 0#64) else bif shape then some (4, 0#64) else bif polBad then some (5, 0#64)
    else bif xbad then some (6, 0#64) else bif tbad then some (7, 0#64)
    else match r.kernel, r.xrec, r.nodes with
      | .error _, _, _ => some (8, kobj)
      | _, .error _, _ => some (8, paddr p 56)
      | _, .ok x, .error _ => some (8, s.hearthMiss v (paddr x 32) (32 * field x 40 2) .load)
      | _, _, _ => none
/-- The state after the reads of a LAUNCH or CORD packet (R357, R360, R405). -/
def State.touchLaunch (s : State) (v : Nat) (p : List Byte) : State :=
  let s := s.hearthTouch v (paddr p 16) 64
  bif zeros p 56 8 then s else
  let t := s.hearthTouch v (paddr p 56) 64
  match s.hearthLoad v (paddr p 56) 64 with
  | .ok r => bif field r 32 8 == 0 then t else t.hearthTouch v (BitVec.ofNat 64 (field r 32 8)) (32 * field r 40 2)
  | .error _ => t
/-- Micro-step 1 of a LAUNCH or CORD: read and check (R405). A read held by a hand-over blocks the queue. -/
def State.beginLaunch (s : State) (q : Nat) (p : List Byte) : State :=
  let v := (s.queue q).vd
  let r := s.readLaunch v p
  let s := s.touchLaunch v p
  match r.kernel, r.xrec, r.nodes with
  | .error 0, _, _ => s.block_ q
  | _, .error 0, _ => s.block_ q
  | _, _, .error 0 => s.block_ q
  | _, _, _ =>
    match s.launchReason q p, r.kernel, r.xrec, r.nodes with
    | some (n, a), _, _, _ => s.reject q p n a
    | none, .ok h, .ok x, .ok es =>
      let l := s.lanes.launches.length
      let y := s.launchOfPacket q p h x es
      let s := { s with lanes := { s.lanes with launches := s.lanes.launches ++ [y] } }
      (s.stepped q 2).modQueue q fun z => { z with launching := some l }
    | _, _, _, _ => s
/-- PACKET_LAUNCH: micro-step 1 of a LAUNCH (R405). -/
def execPacketLaunch (q : Nat) (s : State) : Result :=
  .next (s.microStep q 1 (fun c => c == 0) fun p s => s.beginLaunch q p)
/-- Micro-steps that create the initial billets: 256 each (R405, R408). -/
def Launch.billetSteps (x : Launch) : Nat := bif x.billets then (x.par.teams + 255) / 256 else 0
/-- Create initial billets j to j + n − 1 (R408). -/
def Launch.createBillets (x : Launch) (j : Nat) : Nat → Launch
  | 0 => x
  | n + 1 =>
    bif decide (x.par.teams ≤ j) then x
    else
      let b : Billet := ⟨x.kernel.kobj + BitVec.ofNat 64 x.kernel.entries.1, (x.par.args + BitVec.ofNat 64 (16 * j)).setWidth 48, 0#16⟩
      ({ x with slots := x.slots.modify j (fun y => { y with state := .ready, billet := b, prio := x.prio, record := none }),
                level := x.level ++ [j] }).createBillets (j + 1) n
/-- LAUNCH_BILLET_STEP (R405). -/
def execLaunchBilletStep (q : Nat) (s : State) : Result :=
  .next (s.microStep q 1 (fun c => decide (2 ≤ c)) fun _ s =>
    match (s.queue q).launching with
    | some l =>
      let c := (s.queue q).cursor
      bif decide (c < 2 + (s.launch l).billetSteps) then
        (s.modLaunch l fun x => x.createBillets (256 * (c - 2)) 256).stepped q (c + 1)
      else s
    | none => s)
/-- The last micro-step: the launch is handed to hearth core 2, a scheduling event (R395, R404, R405). -/
def State.startLaunch (s : State) (q : Nat) (p : List Byte) : State :=
  match (s.queue q).launching with
  | some l =>
    bif (s.queue q).cursor == 2 + (s.launch l).billetSteps then
      let n := (s.lanes.launches.filter (·.started)).length
      let s := s.modLaunch l fun x => { x with started := true, order := n, waited := s.now, idleNs := 0 }
      (s.dispatched q p none).dueWalk (s.queue q).vd
    else s
  | none => s
/-- LAUNCH_DISPATCH (R404). -/
def execLaunchDispatch (q : Nat) (s : State) : Result :=
  .next (s.microStep q 1 (fun c => decide (2 ≤ c)) fun p s => s.startLaunch q p)
/-- PACKET_CORD: the next micro-step of a CORD: read and check, then hand over (R405). -/
def execPacketCord (q : Nat) (s : State) : Result :=
  .next (s.microStep q 2 (fun _ => true) fun p s =>
    bif (s.queue q).cursor == 0 then s.beginLaunch q p else s.startLaunch q p)

/-! ## The other packets (R401 to R405) -/

/-- A packet's first checks, then its step. -/
def State.checked (s : State) (q : Nat) (p : List Byte) (k : State → State) : State :=
  match s.headerReason (s.queue q).vd p with
  | some n => s.reject q p n 0#64
  | none => k s
/-- PACKET_NOP: a packet of a reserved TYPE is rejected by the same step (R405, R406). -/
def execPacketNop (q : Nat) (s : State) : Result :=
  let t := ptype ((s.packetAt q).getD [])
  .next (s.microStep q (bif decide (9 ≤ t) then t else 0) (fun c => c == 0) fun p s =>
    s.checked q p fun s => s.dispatched q p (some 1#64))
/-- A packet's write or signal, a release at system scope, has to wait for the writes to the host and to peers that its partition posted before it: the queue's own, and those that a WAIT of it acquired (R103, R401). -/
def State.relHeld (s : State) (q : Nat) (p : List Byte) : Bool :=
  pscope p == 7 && s.postedBy (partOf (s.queue q).vd) ((s.queue q).relAt.getD s.moves)
/-- A queue waits at a release at system scope, which came at this move or before. -/
def State.waitRelease (s : State) (q : Nat) : State :=
  (s.block_ q).modQueue q fun y => { y with relAt := some (y.relAt.getD s.moves) }
/-- A write or signal of a packet: performed, held, or the packet rejected with REASON 8 and the lowest address that faults (R406, R432). -/
def State.packetWrite (s : State) (q : Nat) (p : List Byte) (va : DWord) (w : HWrite) (k : State → State) : State :=
  bif s.relHeld q p then s.waitRelease q else
  match s.hearthDo (queueMaker q) (s.queue q).vd va w with
  | (s, none) => k s
  | (s, some 0) => s.block_ q
  | (t, some _) => t.reject q p 8 (s.hearthMissOf (s.queue q).vd va w)
/-- The write of a signal: OP 0 adds, OP 1 stores (R401). -/
def signalOp (op v : Nat) : HWrite := bif op == 0 then .add (BitVec.ofNat 64 v) else .store (natLe 8 v)
/-- PACKET_WRITE (R401). -/
def execPacketWrite (q : Nat) (s : State) : Result :=
  .next (s.microStep q 4 (fun c => c == 0) fun p s => s.checked q p fun s =>
    s.packetWrite q p (paddr p 16) (.store ((p.drop 32).take (field p 24 1))) fun s => s.dispatched q p (some 1#64))
/-- PACKET_SIGNAL (R401). -/
def execPacketSignal (q : Nat) (s : State) : Result :=
  .next (s.microStep q 5 (fun c => c == 0) fun p s => s.checked q p fun s =>
    s.packetWrite q p (paddr p 16) (signalOp (field p 32 1) (field p 24 8)) fun s => s.dispatched q p (some 1#64))
/-- PACKET_WRSIG_WRITE: step 1 of a WRSIG (R401, R405). -/
def execPacketWrsigWrite (q : Nat) (s : State) : Result :=
  .next (s.microStep q 6 (fun c => c == 0) fun p s => s.checked q p fun s =>
    s.packetWrite q p (paddr p 16) (.store ((p.drop 48).take (field p 40 1))) fun s => s.stepped q 2)
/-- PACKET_WRSIG_SIGNAL: step 2 of a WRSIG (R405). -/
def execPacketWrsigSignal (q : Nat) (s : State) : Result :=
  .next (s.microStep q 6 (fun c => c == 2) fun p s =>
    s.packetWrite q p (paddr p 24) (signalOp (field p 41 1) (field p 32 8)) fun s => s.dispatched q p (some 1#64))
/-- The condition of a WAIT on the value read (R401, R403). -/
def waitHolds (cond x v : Nat) : Bool :=
  match cond with
  | 0 => decide (v ≤ x)
  | 1 => x == v
  | _ => decide (x < v)
/-- The test of a WAIT: rejected, complete, or blocked (R403). -/
def State.waitTest (s : State) (q : Nat) (p : List Byte) : State :=
  s.checked q p fun s =>
    let t := s.hearthLoad (s.queue q).vd (paddr p 16) 8
    let s := s.hearthTouch (s.queue q).vd (paddr p 16) 8
    match t with
    | .error 0 => s.block_ q
    | .error _ => s.reject q p 8 (paddr p 16)
    | .ok bs =>
      bif waitHolds (field p 32 1) (leNat bs) (field p 24 8) then s.dispatched q p (some 1#64) else s.block_ q
/-- PACKET_WAIT: a WAIT begins testing its location (R403). -/
def execPacketWait (q : Nat) (s : State) : Result :=
  .next (s.microStep q 3 (fun c => c == 0) fun p s => s.waitTest q p)
/-- WAIT_CONDITION_MET: the condition of a WAIT that blocks its queue holds (R403). -/
def execWaitConditionMet (q : Nat) (s : State) : Result :=
  .next (bif (s.queue q).state == .blocked then s.microStep q 3 (fun c => c == 0) fun p s => s.waitTest q p else s)
/-- PACKET_CHAINRUN: the chain starts in a free slot of its die, or the queue is blocked (R402). -/
def execPacketChainrun (q : Nat) (s : State) : Result :=
  .next (s.microStep q 7 (fun c => c == 0) fun p s => s.checked q p fun s =>
    let die := field p 24 1
    match (List.range 4).find? fun k => (s.hearth.chains.getD (4 * die + k) none).isNone with
    | none => s.block_ q
    | some k =>
      let x := s.queue q
      let y : Chain :=
        { share := none, vd := x.vd, priv := x.flags.getLsbD 1, packet := (q, x.ridx), head := paddr p 16, pos := paddr p 16,
          loops := [], cmode := 0, counter := 0#64, sends := [], stop := false, ending := none, tid := 0xFFFFFFFF#32, fe := false,
          ag := none, sys := pscope p == 7, since := s.moves, frec := paddr p 32, failing := none }
      (s.setChain (.hearth die k) (some y)).dispatched q p none)
/-- The pages of a RANGES packet, in entry order: address, target die, DUP request. -/
def rangePages (p : List Byte) : List (DWord × Nat × Bool) :=
  [16, 32, 48].flatMap fun i =>
    (List.range (field p (i + 8) 8 / 65536)).map fun k =>
      (canon (field p i 6 + 65536 * k), field p (i + 6) 1 % 2, bits (field p (i + 6) 1) 1 1 == 1)
/-- Bring the pages of a micro-step (R366). -/
def State.bringPages (s : State) (v : Nat) : List (DWord × Nat × Bool) → State
  | [] => s
  | (va, die, dup) :: rest =>
    (match s.walk v va with
     | some l =>
       bif l.pages != 1 || l.rb || l.res != 1 then s
       else (match s.makePageResident v die va dup with
         | some s => s
         | none => s.modTele fun t => { t with ranges := t.ranges + 1 })
     | none => s : State).bringPages v rest
/-- A page is to be brought while hearth core 3 restarts, or its place cannot be changed yet, for which core 3 waits (R369, R409). -/
def State.bringHeld (s : State) (v : Nat) (ps : List (DWord × Nat × Bool)) : Bool :=
  ps.any fun x => match s.walk v x.1 with
    | some l => l.res == 1 && ((l.pages == 1 && !l.rb && s.hearth.restart.elem 3) || s.placeHeld v x.1 l)
    | none => false
/-- PACKET_RANGES: the next micro-step brings 64 pages (R366, R405). -/
def execPacketRanges (q : Nat) (s : State) : Result :=
  .next (s.microStep q 8 (fun _ => true) fun p s => s.checked q p fun s =>
    let ps := rangePages p
    let k := (s.queue q).cursor - 1
    let now_ := (ps.drop (64 * k)).take 64
    bif s.bringHeld (s.queue q).vd now_ then s else
    let s := s.bringPages (s.queue q).vd now_
    bif decide (ps.length ≤ 64 * (k + 1)) then s.dispatched q p (some 1#64) else s.stepped q (k + 2))
/-- KINDLING: plain reads into caches, which change no value (R403). -/
def execKindling (_q : Nat) (s : State) : Result := .next s
/-- A completion signal at system scope waits for the writes to peers and the host that its partition had posted as the packet completed: those of its launch or chain, of its queue, and those that either had acquired (R103, R123, R124, R401). -/
def State.signalWaits (s : State) (q : Nat) (y : InFlight) : Bool := y.scope == 7 && s.postedBy (partOf (s.queue q).vd) y.doneAt
/-- PACKET_COMPLETION: the signal of the packet of the queue that completed or was rejected first and is not yet signalled, once nothing holds it; the packet counts until then (R123, R403, R406). -/
def execPacketCompletion (q k : Nat) (s : State) : Result :=
  let x := s.queue q
  .next (match x.inflight[k]?, x.inflight.findIdx? fun y => y.done.isSome with
    | some y, some j =>
      match y.done with
      | some v =>
        bif j == k && !s.signalWaits q y then
          let t := s.modQueue q fun z => { z with inflight := z.inflight.eraseIdx k }
          bif y.sig == 0#64 then t
          else bif t.hearthHeld x.vd y.sig (.add v) then s
          else t.hearthPost x.vd 4 y.sig (.add v)
        else s
      | none => s
    | _, _ => s)
/-- CHAIN_END: a core's chain adds its end value to its counter; a CHAINRUN chain completes its packet, whose signal follows (R123, R275, R402, R406). -/
def execChainEnd (u : ChainRef) (s : State) : Result :=
  .next (match u with
    | .core _ _ => s.chainEndCore u
    | .hearth _ _ =>
      match s.chainAt u with
      | some x =>
        match x.ending with
        | some v => (s.completePacket x.packet.1 x.packet.2 v).setChain u none
        | none => s
      | none => s)

end Sys2Proof.Machine
end

