-- ==== Sys2Proof/Machine/Tenants.lean ====
section
/-! DEFINITION. Virtual devices: descriptors, grants, states, ash records, clearing, images (24 R414, R418 to R421,
23 R410, R411, 19 R331, R349, R350). -/

namespace Sys2Proof.Machine

/-! ## Descriptors and grants (R331, R349, R414) -/

/-- A virtual-device descriptor is accepted (R414): its fields lie in their ranges, LOW and HIGH within those of R338 for the grant that the virtual device has then (R4). A HIGH of 0 stands for 2 × LOW, also where that exceeds the grant: R338's range is tested on the HIGH that the descriptor writes only, the model's choice; log entry 36. -/
def State.vdevOk (s : State) (part : Nat) (d : List Byte) : Bool :=
  let slice := bif field d 4 4 == 0 then 2000 else field d 4 4
  let ceil := field d 14 1
  let low := field d 48 4
  let high := field d 52 4
  let g := s.grantOf (16 * part + field d 0 2)
  d.length == 64 && decide (part < bif s.hearth.config.unified then 1 else 2) && decide (field d 0 2 < 16) &&
  decide (field d 2 1 ≤ 1) && decide (field d 3 1 ≤ 4) && decide (100 ≤ slice) && decide (slice ≤ 100000) &&
  (field d 8 4 == 0 || (decide (slice ≤ field d 8 4) && decide (field d 8 4 ≤ 1000000))) && field d 12 2 != 0 &&
  (ceil == 0 || (decide (16 ≤ ceil) && decide (ceil ≤ 64) && (decide (ceil ≤ 32) || s.hearth.config.hiratio))) && field d 15 1 == 0 &&
  field d 19 1 == 0 && (field d 20 2 == 0xFFFF || decide (field d 20 2 ≤ 1000)) && decide (field d 22 2 ≤ 10000) &&
  field d 24 8 % 4096 == 0 && field d 32 8 % 2097152 == 0 && field d 40 6 % 4096 == 0 && decide (1 ≤ field d 46 2) &&
  decide (field d 46 2 ≤ 1024) && decide (low ≤ g) &&
  (high == 0 || (decide ((bif low == 0 then g / 64 else low) ≤ high) && decide (high ≤ g))) && field d 56 8 % 8 == 0
/-- VDEV_DESCRIPTOR: a virtual device is defined, READY, with full buckets and its timestamp at 0; or replaced but for VDEV, ROOT and SAVE; or refused (R414, R418). -/
def execVdevDescriptor (part : Nat) (desc : List (BitVec 8)) (s : State) : Result :=
  let v := 16 * part + field desc 0 2
  let old := s.vdev v
  .next (bif !s.vdevOk part desc then s.answer 2 (10 + part)
    else bif old.state == .absent then
      s.modVdev v fun _ => { Vdev.reset with desc := desc, state := .ready, offset := s.now, defined := s.now }
    else
      s.modVdev v fun d =>
        { d with desc := desc.take 24 ++ (d.desc.drop 24).take 16 ++ desc.drop 40 })
/-- The ceiling of the nominal ratio in sixteenths (R349, R414). -/
def State.ceiling (s : State) (v : Nat) : Nat :=
  let x := field (s.vdev v).desc 14 1
  bif x == 0 then 32 else x
/-- The nominal ratio stays within the ceiling under a total grant (R349). -/
def State.ratioOk (s : State) (v total : Nat) : Bool := decide (s.nominal v * 512 * 16 ≤ s.ceiling v * total)
/-- Sectors of a stack: 64 GiB. -/
def stackSectors : Nat := 2 ^ 29
/-- What other virtual devices are granted of a stack; of a stack on loan, those of the borrower's partition alone, whose pool it is (R331, R372). -/
def State.grantedBeside (s : State) (vd stack : Nat) : Nat :=
  ((List.range 32).map fun u => bif u == vd || (s.onLoan stack && partOf u != partOf vd) then 0 else (s.kstored u stack).grant).sum
/-- GRANT_MESSAGE: the hypervisor sets GRANT of a share, or is refused: beyond the stack, below what is used and pending, or a reduction beyond the ratio's ceiling (R331, R349, R372, R414). -/
def execGrantMessage (vd stack sectors : Nat) (s : State) : Result :=
  let k := s.kshare vd stack
  let others := s.grantedBeside vd stack
  let total := s.grantOf vd - k.grant + sectors
  .next (bif decide (vd < 32) && decide (stack < 8) && s.portOpen (partOf vd) stack &&
      decide (others + sectors ≤ stackSectors) && decide (k.used + k.pend ≤ sectors) &&
      (decide (k.grant ≤ sectors) || s.ratioOk vd total) then
      (s.modK vd stack fun x => { x with grant := sectors }).balloonTest vd
    else s.answer 3 (10 + partOf vd))

/-! ## Ash records (R410, R411) -/

/-- Free bytes of a record whose layout is open. -/
def State.openBytes (s : State) (k n : Nat) : List Byte := (List.range n).map fun j => Config.freeByte s.free (k * 4096 + j)
/-- An entry of a section: its fields, 8 bytes each, and free bytes up to the entry's length (R411). -/
def State.ashEntry (s : State) (k n : Nat) (fields : List Nat) : List Byte :=
  let bs := fields.flatMap (natLe 8)
  bs.take n ++ s.openBytes k (n - bs.length)
/-- The queue descriptor as hearth core 1 keeps it (R398). -/
def Queue.desc (q : Queue) : List Byte :=
  natLe 8 q.base.toNat ++ natLe 1 q.log2 ++ natLe 1 q.flags.toNat ++ natLe 1 q.maxPrio ++ natLe 1 q.deleg.toNat ++
  natLe 2 (q.vd % 16) ++ natLe 2 0 ++ natLe 8 q.widxa.toNat ++ natLe 8 q.ridxa.toNat ++ natLe 8 q.erra.toNat ++
  natLe 8 q.cursor ++ natLe 16 0
/-- A queue's state as a number: the order of R400. -/
def QState.code : QState → Nat
  | .disabled => 0
  | .active => 1
  | .blocked => 2
  | .suspended _ => 3
  | .error => 4
  | .destroying => 5
/-- Slots of a launch's billet store in a state (R384). -/
def Launch.billetsIn (x : Launch) (w : SlotState) : Nat := x.slots.countP fun y => y.state == w
/-- The program counters of a share: its front end's, and one for each fragment of its groups (R134, R411). -/
def State.sharePcs (s : State) (h : Nat) : List Nat :=
  (s.agent (s.share h).fe).pc.toNat :: (s.share h).groups.flatMap fun g =>
    distinct (((s.group g).members.filter s.live).map fun a => (s.agent a).pc.toNat)
/-- A convergence register's state as a number: the order of R145. -/
def CvState.code : CvState → Nat
  | .idle => 0
  | .declared => 1
  | .issuing => 2
  | .poisoned => 3
/-- The entry of a live share: %task, core, program counters with their number, barrier and convergence-register states (R411). -/
def State.shareFields (s : State) (h : Nat) : List Nat :=
  let k := s.task (s.share h).task
  [k.id.toNat, (s.share h).core, (s.sharePcs h).length] ++ s.sharePcs h ++
  (k.bars.flatMap fun b => [(bif b.initd then 1 else 0) + (bif b.broken then 2 else 0), b.n.toNat, b.a.toNat, b.p.toNat, b.ph.toNat]) ++
  k.cvs.flatMap fun c => [c.state.code, c.t0, c.n]
/-- Reference time at which a frozen virtual device was frozen (R411, R420). -/
def State.frozenNow (s : State) (v : Nat) : Nat := ((s.vdev v).offset + (s.vdev v).frozenAt).toNat
/-- The sections of an ash record: each TYPE with its entries, the fields that R411 lists in its order and what is open after them free (R411; log entry 38). -/
def State.ashSections (s : State) (v : Nat) : List (Nat × List (List Byte)) :=
  let qs := s.queues.filter fun q => q.vd == v && q.state != .disabled
  let ls := s.lanes.launches.filter fun l => l.par.vd == v && l.started && !l.ended
  let hs := (List.range s.lanes.shares.length).filter fun h => (s.share h).state != .retired && s.taskVd (s.share h).task == v
  let b := (s.vdev v).balloon
  [(1, qs.zipIdx.map fun (q, k) => q.desc ++ s.ashEntry k 32 [q.ridx, q.widx, q.state.code]),
   (2, ls.zipIdx.map fun (l, k) => s.ashEntry (1000 + k) 64
      [l.par.tag.toNat, l.kernel.kobj.toNat, l.cursor, l.billetsIn .reserved, l.billetsIn .waiting, l.billetsIn .ready]),
   (3, (s.vdev v).records.reverse),
   (4, hs.map fun h => (s.shareFields h).flatMap (natLe 8)),
   (5, ((s.ksharesOf v).map fun k => s.ashEntry (3000 + k.stack) 64 [k.stack, k.grant, k.used, k.pend]) ++
      [s.ashEntry 3008 64 [b.q, b.due.getD 0, (bif b.due.isSome then 1 else 0) + (bif b.expired then 2 else 0) + bif b.suspended then 4 else 0]]),
   (6, ((s.hearth.log.zip s.hearth.logAt).filter fun x => decide (s.frozenNow v < x.2 + 1000000000)).map fun x =>
      [x.2, x.1.1, x.1.2].flatMap (natLe 8))]
/-- Entries that fit in a room, and whether all do. -/
def fitEntries : Nat → List (List Byte) → List (List Byte) × Bool
  | _, [] => ([], true)
  | room, e :: rest =>
    if e.length ≤ room then
      let (es, ok) := fitEntries (room - e.length) rest
      (e :: es, ok)
    else ([], false)
/-- Sections that fit in a room: their bytes, how many, and whether the record is cut (R411). -/
def packSections : Nat → List (Nat × List (List Byte)) → List Byte × Nat × Bool
  | _, [] => ([], 0, false)
  | room, (t, es) :: rest =>
    if room < 16 then ([], 0, true)
    else
      let (fit, ok) := fitEntries (room - 16) es
      let body := fit.flatten
      let sec := natLe 4 t ++ natLe 4 (16 + body.length) ++ natLe 4 fit.length ++ natLe 4 0 ++ body
      if ok then
        let (bs, n, cut) := packSections (room - sec.length) rest
        (sec ++ bs, n + 1, cut)
      else (sec, 1, true)
/-- The bytes of an ash record (R411). -/
def State.ashBytes (s : State) (v cls reason : Nat) : List Byte :=
  let d := s.vdev v
  let (bs, n, cut) := packSections (field d.desc 46 2 * 1048576 - 64) (s.ashSections v)
  let head := natLe 4 0x31485341 ++ natLe 4 (64 + bs.length) ++ natLe 8 d.frozenAt ++ natLe 2 (v % 16) ++ natLe 1 (partOf v) ++
    natLe 1 cls ++ natLe 4 reason ++ natLe 4 n ++ natLe 4 (bif cut then 1 else 0) ++ List.replicate 32 0#8
  head ++ bs
/-- Write the ash record of a virtual device into its buffer, in the hypervisor's own translation, and note it (R411, R414). -/
def State.ashRecord (s : State) (v cls reason : Nat) : State :=
  (s.modHearth fun h => { h with ash := h.ash ++ [(v, cls, reason)] }).hyperPost v 6 (field (s.vdev v).desc 40 6)
    (.store (s.ashBytes v cls reason))
/-- The ash record of a virtual device is being written: a hand-over holds its buffer. -/
def HeldWrite.ashOf (x : HeldWrite) (v : Nat) : Bool := x.vd == v && x.kind == 6
/-- A second fault of a frozen virtual device, of class 0 task, 1 launch, 2 queue, 3 virtual device or 4 device: a line of section 6 of the record in progress, or an entry of the lifetime telemetry once the record is complete (R411). -/
def State.secondFault (s : State) (v cls reason : Nat) : State :=
  let s := s.modVdev v fun d => { d with faults := d.faults + 1 }
  bif s.hearth.waiting.any fun x => x.ashOf v then
    let s := s.logEntry 0 10
    let (c, r) := ((s.hearth.ash.filter fun x => x.1 == v).getLast?.map (·.2)).getD (cls, reason)
    let bs := s.ashBytes v c r
    s.modHearth fun h => { h with waiting := h.waiting.map fun x => bif x.ashOf v then { x with op := .store bs } else x }
  else s.modTele fun t => { t with late := t.late ++ [(v, cls, reason)] }
/-- Freeze a virtual device and capture its record (R411, R418). -/
def State.freeze (s : State) (v cls reason : Nat) : State :=
  let d := s.vdev v
  let t := s.modVdev v fun d => { d with state := .frozen, frozenAt := s.guest v }
  match d.state with
  | .ready => t.ashRecord v cls reason
  | .paused => (t.modVdev v fun d => { d with offset := (s.now : Int) - d.saved }).ashRecord v cls reason
  | .absent => s
  | _ => s.secondFault v cls reason
/-- The cause that a raising core reports; its codes are open (R411). -/
def State.openReason (s : State) : Nat := (Config.ashWord s.free 9000).toNat
/-- TENANT_RESET: a reset message, or the failure of a hearth service for one virtual device, freezes and captures; one that meets a reset in progress is merged with it (R410, R418). -/
def execTenantReset (vd : Nat) (s : State) : Result :=
  .next (match (s.vdev vd).state with
    | .ready => s.freeze vd 3 s.openReason
    | .paused => s.freeze vd 3 s.openReason
    | _ => s)

/-! ## Faults of tasks and launches at hearth core 4 (R237, R378, R410, R411) -/

/-- A task fault reaches hearth core 4: of a frozen virtual device it is a second fault (R237, R411). -/
def State.faultReaches (s : State) (t : Nat) : State :=
  match (s.vdev (s.taskVd t)).state, (s.task t).fault with
  | .frozen, some f => (s.secondFault (s.taskVd t) 0 f.cause).modTask t fun k => { k with fault := none }
  | .frozen, none => s
  | _, _ => bif s.faultWaits t then s else s.taskFault t
/-- TASK_FAULT (R237), once neither its record nor the page it missed is held. -/
def execTaskFault (t : Nat) (s : State) : Result := .next (s.faultReaches t)
/-- A launch fault reaches hearth core 4, with the INFO of its record: of a frozen virtual device it is a second fault (R378, R410, R411). -/
def State.launchFault (s : State) (l : Nat) (info : Word) : State :=
  bif (s.vdev (s.launch l).par.vd).state == .frozen then
    (s.secondFault (s.launch l).par.vd 1 info.toNat).modLaunch l fun x => { x with idleNs := 0, dying := none }
  else s.killLaunch l info
/-- LAUNCH_WATCHDOG_EXPIRY (R378). -/
def execLaunchWatchdogExpiry (l : Nat) (s : State) : Result :=
  let x := s.launch l
  .next (bif x.started && !x.ended && decide (x.par.wdog * 1000000 ≤ x.idleNs) then s.launchFault l 0#32 else s)
/-- The launch faults that hearth core 4 has still to record (R410). -/
def State.launchFaults (s : State) : State :=
  (List.range s.lanes.launches.length).foldl (fun s l => match (s.launch l).dying with
    | some info => s.launchFault l info
    | none => s) s

/-! ## Clearing (R419) -/

/-- No hand-over has started on a stack and not finished step 7 (R371, R419). -/
def State.noHandover (s : State) : Bool := (s.store.owners.all fun o => o.state == 0#2) && s.store.handovers.all fun h => h.step == 0
/-- A thread's state zeroed. -/
def Agent.zeroed (a : Agent) : Agent :=
  { a with regs := a.regs.map fun _ => 0#32, preds := 0x80#8, status := .ended, pend := [], outst := [], link := [], arrived := [],
           xctx := [], halt := none, async := [], supp := none }
/-- End a share with its state zeroed. -/
def State.clearShare (s : State) (h : Nat) : State :=
  let s := s.dropEngines h
  let s := s.modAgents Agent.zeroed (s.agentsOfShare h)
  let s := (s.share h).groups.foldl (fun s g => s.modGroup g fun x => { x with masks := List.replicate 16 none, sq := [] }) s
  s.modShare h fun x => { x.fresh with state := .retired }
/-- Blocks that what waits in a share's store queues writes. -/
def State.queuedBlocks (s : State) (h : Nat) : List Nat :=
  ((s.share h).feSq ++ (s.share h).groups.flatMap fun g => (s.group g).sq).map fun e => e.pa / 1024
/-- Kill a task and end its shares, with no record (R419); the charges of what they still held are given up (R332). -/
def State.clearTask (s : State) (t : Nat) : State :=
  let blks := (s.task t).shares.flatMap s.queuedBlocks
  let s := (s.killTask t).freeToken t
  let s := (s.task t).shares.foldl State.clearShare s
  (s.releaseIdle (distinct blks)).modTask t fun k => { k with state := .retired, bars := startBars, cvs := startCvs }
/-- Treat a mapped page as by PGRECL (R346, R419 step 6). -/
def State.scrubPage (s : State) (v : Nat) (va : DWord) : State :=
  let s := s.collapse v (partOf v) va
  match s.walk v va with
  | none => s
  | some l =>
    bif region l.base != 0 then s
    else bif l.pages == 1 then (s.reclaim s.lanes.tasks.length v (partOf v) l va).getD s
    else (List.range l.pages).foldl (fun s k => s.emptyPage s.lanes.tasks.length v (l.base + 65536 * k) l.rb (va + BitVec.ofNat 64 (65536 * k))) s
/-- Cores, bins, queues, chains and requests of a virtual device are emptied. -/
def State.clearRest (s : State) (v : Nat) : State :=
  let ls := (List.range s.lanes.launches.length).filter fun l => (s.launch l).par.vd == v
  let s := ls.foldl (fun s l => s.modLaunch l fun x => { x with ended := true, level := [] }) s
  let cs := s.lanes.cores.map fun c =>
    ({ c with bins := c.bins.filter (fun b => !ls.elem b.launch), spill := c.spill.filter (fun p => !ls.elem p.2.1),
              slice := bif c.slice.vd == some v then Slice.reset
                else { c.slice with next := c.slice.next.filter (fun n => n.1 != v), out := c.slice.out.filter (fun u => u != v) } } : Core)
  let s := { s with lanes := { s.lanes with cores := cs } }
  let qs := s.queues.map fun (q : Queue) => bif q.vd == v then { q with state := .disabled, inflight := [], launching := none } else q
  let s := { s with queues := qs }
  let keep := fun (x : Chain) => x.vd != v
  let keepW := fun (x : HeldWrite) => x.vd != v
  let s := s.modHearth fun h => { h with chains := h.chains.map (fun c => c.filter keep), waiting := h.waiting.filter keepW }
  (s.modStore fun m => { m with requests := m.requests.filter fun r => r.1 != v }).modVdev v fun d => { d with reserved := none, walkDue := false }
/-- The context save area of a virtual device is zeroed (R419 step 3). -/
def State.zeroSaveArea (s : State) (v : Nat) : State :=
  (((List.range 192).filter fun c => bits (field (s.vdev v).desc 16 4) (clusterOf c) 1 == 1).flatMap (s.savePages v)).foldl
    (fun s pa => s.freshPage pa) s
/-- Clear a virtual device (R419). -/
def State.clearTenant (s : State) (v : Nat) : State :=
  let s := ((List.range s.lanes.tasks.length).filter fun t => s.taskVd t == v && (s.task t).state != .retired).foldl State.clearTask s
  let s := (s.clearRest v).zeroSaveArea v
  let s := s.dropTlb fun e => e.vd == v
  let s := s.modBalloon v fun _ => Balloon.closed
  bif bits (field (s.vdev v).desc 2 1) 0 1 == 1 then (s.leaves v).foldl (fun s x => s.scrubPage v x.1) s else s
/-- TENANT_CLEAR: once the ash record is written (R411, R418, R419). -/
def execTenantClear (vd : Nat) (s : State) : Result :=
  .next (bif (s.vdev vd).state == .frozen && s.noHandover && !(s.hearth.waiting.any fun x => x.ashOf vd) then
      (s.clearTenant vd).modVdev vd fun d => { d with state := .clearing }
    else s)

/-! ## Pause, resume, and the end of a clearing (R418, R420) -/

/-- A pause begins: each core that runs the virtual device ends its run (R248, R418). -/
def State.beginPause (s : State) (v : Nat) : State :=
  let s := bif (s.vdev v).heldMsg.elem 1 then s else s.modVdev v fun d => { d with heldMsg := d.heldMsg ++ [1] }
  let s := ((List.range s.lanes.cores.length).filter fun c => (s.core c).slice.vd == some v).foldl State.endRun s
  s.pauseTest v
/-- A message held while its virtual device is frozen or being cleared (R418). -/
def State.holdMsg (s : State) (v m : Nat) : State := s.modVdev v fun d => { d with heldMsg := d.heldMsg ++ [m] }
/-- TENANT_PAUSE (R418): held while frozen or clearing. -/
def execTenantPause (vd : Nat) (s : State) : Result :=
  .next (match (s.vdev vd).state with
    | .ready => s.beginPause vd
    | .frozen => s.holdMsg vd 1
    | .clearing => s.holdMsg vd 1
    | _ => s)
/-- TENANT_RESUME: guest time goes on from S, and the queues return to their states (R418, R420); an export or undefine that is held before it comes first. -/
def execTenantResume (vd : Nat) (s : State) : Result :=
  .next (bif (s.vdev vd).state == .paused && (s.vdev vd).heldMsg.all (· == 1) then
      let s := s.modVdev vd fun d => { d with state := .ready, offset := (s.now : Int) - d.saved }
      let qs := s.queues.map fun q => match q.state with
        | .suspended was => bif q.vd == vd then { q with state := bif was then .blocked else .active } else q
        | _ => q
      { s with queues := qs }
    else s)
/-- CLEARING_DONE: READY again; the hypervisor is told, and what is held is applied in order: a pause begins, and an export behind it follows once PAUSED is reached; one with no pause before it is applied on READY (R418; log entry 37). -/
def execClearingDone (vd : Nat) (s : State) : Result :=
  .next (bif (s.vdev vd).state == .clearing then
      let s := (s.modVdev vd fun d => { d with state := .ready, faults := 0 }).answer 2 (10 + partOf vd)
      bif (s.vdev vd).heldMsg.head? == some 1 then s.beginPause vd else s
    else s)

/-! ## Images (R350, R418, R421) -/

/-- An unsettled task is marked to restart from its start (R350 step 2); a fault of it that still waits for hearth core 4 is recorded first (R237). -/
def State.markRestart (s : State) (t : Nat) : State :=
  bif (s.task t).state == .faulted then (s.taskFault t).modTask t fun k => { k with state := .restarting, fault := none } else s.toRestart t
/-- Unsettled tasks of a virtual device are marked to restart, their versions discarded (R350 step 2). -/
def State.markRestarts (s : State) (v : Nat) : State :=
  ((List.range s.lanes.tasks.length).filter fun t =>
    let k := s.task t
    s.taskVd t == v && !k.settled && (k.state == .live || k.state == .committing || k.state == .faulted)).foldl State.markRestart s
/-- The image of a virtual device whose shares are saved (R350 steps 2 to 4): nothing in it is charged, so PEND is 0. -/
def State.capture (s : State) (v : Nat) : State × Image :=
  let s := s.markRestarts v
  let rs := s.rangesOf v
  let s := (s.store.blocks.filter fun b => inRanges rs (b.no * 1024)).foldl (fun s b => s.writeback b.no) s
  (s, { vd := v, desc := (s.vdev v).desc, ranges := rs, bytes := s.store.mem.filter fun c => inRanges rs c.1,
        blocks := (s.store.blocks.filter fun b => inRanges rs (b.no * 1024)).map fun b => { b with ch := none },
        counters := (List.range 8).map (s.kstored v),
        used := (s.ksharesOf v).map (·.used), stamp := s.guest v,
        lanes := { s.lanes with cores := [] }, queues := s.queues })
/-- Capture virtual devices one after another. -/
def State.captureAll (s : State) : List Nat → State × List Image
  | [] => (s, [])
  | v :: rest =>
    let (s, im) := s.capture v
    let (s, ims) := s.captureAll rest
    (s, im :: ims)
/-- The virtual devices that a checkpoint copies. -/
def State.imageVds (s : State) : ImageOf → List Nat
  | .vdev v => [v]
  | .partition p => s.defined p
/-- Shares saved as at a forced save, onto the save areas of their cores; none while a command holds one (R249, R350 step 1). -/
def State.saveAll (s : State) (hs : List Nat) : Option State :=
  let cs := distinct (hs.map fun h => (s.share h).core)
  let (s, ok) := (hs.foldl State.finishStarted s).drainAgents (hs.flatMap s.agentsOfShare)
  bif !ok || hs.any s.startedLeft || cs.any (fun c => (s.core c).mxReset || (s.core c).slice.spilling) then none
  else
    let s := hs.foldl State.saveShare s
    some (cs.foldl (fun s c => match (s.core c).slice.vd with
      | some v => s.writeSaveArea v c
      | none => s) s)
/-- CHECKPOINT of a virtual device or a partition: shares saved as at a forced save, images copied, shares resumed on their cores (R350). -/
def execCheckpoint (x : ImageOf) (s : State) : Result :=
  let vs := s.imageVds x
  let hs := (List.range s.lanes.shares.length).filter fun h => (s.share h).state == .resident && vs.elem (s.taskVd (s.share h).task)
  .next (bif (vs.all fun v => (s.vdev v).state == .ready || (s.vdev v).state == .paused) && s.hearth.config.buddy.isSome && s.noHandover then
      match s.saveAll hs with
      | none => s
      | some t =>
        let (t, ims) := t.captureAll vs
        let t := t.modHearth fun h => { h with images := h.images ++ ims }
        hs.foldl (fun t h => (t.resumeShare h (s.share h).core).getD t) t
    else s)
/-- A block's record without what virtual devices that are removed hold of it. -/
def Block.without (b : Block) (p : Nat → Bool) : Block :=
  { b with ch := b.ch.filter fun c => !p c.1, own := b.own.filter fun v => !p v }
/-- The shares, charges and replicas of virtual devices that are removed (R418). -/
def State.dropKiln (s : State) (p : Nat → Bool) : State :=
  s.modStore fun m => { m with kshares := m.kshares.filter fun k => !p k.vd, blocks := m.blocks.map fun b => b.without p,
                               replicas := m.replicas.filter fun r => !p r.vd }
/-- The image of a paused tenant goes to the target, and the tenant is removed (R418, R421). -/
def State.exportTenant (s : State) (vd target : Nat) : State :=
  bif !s.noHandover then s else
  let (s, im) := s.capture vd
  let s := (s.clearTenant vd).modHearth fun h => { h with images := h.images ++ [im] }
  ((s.dropKiln fun v => v == vd).modVdev vd fun _ => Vdev.reset).answer 3 (bif decide (target < 12) then target else 10 + partOf vd)
/-- TENANT_EXPORT (R418, R421): held while frozen or clearing, and while a stack is handed over (R371). -/
def execTenantExport (vd target : Nat) (s : State) : Result :=
  .next (match (s.vdev vd).state with
    | .paused => bif s.noHandover then s.exportTenant vd target else s.holdMsg vd (2 + target)
    | .frozen => s.holdMsg vd (2 + target)
    | .clearing => s.holdMsg vd (2 + target)
    | _ => s)
/-- A tenant is cleared without capture, and its descriptor dropped (R418). -/
def State.undefineTenant (s : State) (vd : Nat) : State :=
  ((s.clearTenant vd).dropKiln fun v => v == vd).modVdev vd fun _ => Vdev.reset
/-- TENANT_UNDEFINE: as a reset without capture; then the descriptor is dropped; held while a stack is handed over (R371, R418). -/
def execTenantUndefine (vd : Nat) (s : State) : Result :=
  .next (bif (s.vdev vd).state == .ready || (s.vdev vd).state == .paused then
      bif s.noHandover then s.undefineTenant vd else s.holdMsg vd 0
    else s)
/-- Entries of a list restored from an image's list where a test holds of the index. -/
def restoreAt {α : Type} (p : Nat → Bool) : Nat → List α → List α → List α
  | k, x :: xs, y :: ys => (bif p k then y else x) :: restoreAt p (k + 1) xs ys
  | _, xs, _ => xs
/-- The lanes of an image put back, under a virtual device (R350). -/
def State.restoreLanes (s : State) (im : Image) (v : Nat) : State :=
  let l := im.lanes
  let ofLaunch := fun k => (l.launches.getD k default).par.vd == im.vd
  let ofTask := fun k => ofLaunch (l.tasks.getD k default).launch
  let ofShare := fun k => ofTask (l.shares.getD k default).task
  let ls := l.launches.map fun x => { x with par := { x.par with vd := v } }
  let qs := im.queues.map fun q => { q with vd := v }
  { s with
    lanes := { s.lanes with
      agents := restoreAt (fun k => ofShare (l.agents.getD k default).home.share) 0 s.lanes.agents l.agents,
      groups := restoreAt (fun k => ofShare (l.groups.getD k default).share) 0 s.lanes.groups l.groups,
      shares := restoreAt ofShare 0 s.lanes.shares l.shares,
      tasks := restoreAt ofTask 0 s.lanes.tasks l.tasks,
      launches := restoreAt ofLaunch 0 s.lanes.launches ls },
    queues := restoreAt (fun k => (im.queues.getD k default).vd == im.vd) 0 s.queues qs }
/-- Clear and write back the ranges of an image; its blocks count for the virtual device it becomes (R350). -/
def State.restoreBytes (s : State) (im : Image) (v : Nat) : State :=
  s.modStore fun m =>
    let mem := im.ranges.foldl (fun (x : Mem) r => x.clear r.1 r.2) m.mem
    { m with mem := im.bytes.foldl (fun (x : Mem) c => x.put c.1 c.2) mem,
             blocks := (im.blocks.map fun b => { b with own := b.own.map fun _ => v }).foldl putBlock (m.blocks.filter fun b => !inRanges im.ranges (b.no * 1024)) }
/-- The blocks that saved engine commands of a virtual device write are charged again (R264, R301). -/
def State.rechargeSaved (s : State) (v : Nat) : State :=
  let hs := s.lanes.shares.filter fun h => h.state == .saved && s.taskVd h.task == v
  let bs := hs.flatMap fun h => h.saved.copies.flatMap (·.blocks) ++ h.saved.mx.flatMap MxEntry.blocks
  (distinct bs).foldl (fun s b => (s.charge v (b * 1024) (((s.mapping (b * 1024)).map fun x => x.2.rb).getD false)).1) s
/-- The grant that has been given covers USED of an image on every stack: no reserve falls below 0, and the total covers the total (R331, R350; log entry 38). -/
def State.holdsImage (s : State) (v : Nat) (im : Image) : Bool :=
  (im.used.zipIdx.all fun x => decide (x.1 ≤ (s.kstored v x.2).grant))
/-- An image is restored as a PAUSED tenant; refused where the GRANT given to it is smaller than the image's USED (R350, R418, R421). -/
def State.importTenant (s : State) (vd image : Nat) : State :=
  match s.hearth.images[image]? with
  | none => s
  | some im =>
    bif !s.holdsImage vd im then s.answer 3 (10 + partOf vd)
    else
      let s := (s.restoreLanes im vd).restoreBytes im vd
      let s := im.counters.foldl (fun s k => s.modK vd k.stack fun x => { k with vd := vd, grant := x.grant }) s
      let s := s.modVdev vd fun _ =>
        { Vdev.reset with desc := natLe 2 (vd % 16) ++ im.desc.drop 2, state := .paused, saved := im.stamp, defined := s.now }
      s.rechargeSaved vd
/-- TENANT_IMPORT (R350, R418, R421); held while a stack is handed over (R371). -/
def execTenantImport (vd image : Nat) (s : State) : Result :=
  .next (bif (s.vdev vd).state != .absent || decide (32 ≤ vd) then s
    else bif s.noHandover then s.importTenant vd image else s.holdMsg vd (2 + image))
/-- A held message that a virtual device's state now lets be applied, the first where it is READY or ABSENT: an undefine, an export, an import. A pause among them is under way (R371, R418). -/
def Vdev.messageDue (d : Vdev) : Option Nat :=
  match d.state with
  | .paused => d.heldMsg.find? fun m => m != 1
  | .ready => d.heldMsg.head?.filter fun m => m != 1
  | .absent => d.heldMsg.head?
  | _ => none
/-- Apply a held message of a virtual device. -/
def State.applyMessage (s : State) (v m : Nat) : State :=
  bif (s.vdev v).state == .absent then (s.modVdev v fun d => { d with heldMsg := d.heldMsg.drop 1 }).importTenant v (m - 2)
  else bif m == 0 then s.undefineTenant v
  else s.exportTenant v (m - 2)
/-- The messages that were held, applied as the virtual devices reach the states for them and no stack is handed over (R371, R418). -/
def State.messagesDue (s : State) : State :=
  bif !s.noHandover then s else
  (List.range 32).foldl (fun s v => match (s.vdev v).messageDue with
    | some m => s.applyMessage v m
    | none => s) s

end Sys2Proof.Machine
end

