-- ==== Sys2Proof/Machine/Debug.lean ====
section
/-! DEFINITION. The debugger's operations on a halted thread, through hearth core 4 (11 R245, 17 R324). -/

namespace Sys2Proof.Machine

/-- A reply of hearth core 4 with a value: KIND and SEQ are open, the value stands first in BODY (DESIGN CHOICE). -/
def State.reply (s : State) (ag : Nat) (bytes : List Byte) : State :=
  let pad := (List.range 60).map fun k => Config.freeByte s.free (k + 3)
  let bs := 4#8 :: ((List.range 3).map fun k => Config.freeByte s.free k) ++ (bytes ++ pad).take 60
  s.send 4 (8 + partOf (s.vdOf ag)) bs
/-- A trap register by its special-register number (R64, R232). -/
def TrapRegs.get (t : TrapRegs) : Nat → Option Word
  | 0x30 => some t.cause
  | 0x31 => some (half t.rpc false)
  | 0x32 => some (half t.addr false)
  | 0x33 => some t.info
  | 0x34 => some (half t.vec false)
  | 0x35 => some t.scratch
  | 0x36 => some (half t.rpc true)
  | 0x37 => some (half t.vec true)
  | 0x38 => some (half t.addr true)
  | _ => none
/-- Write a trap register by its number. -/
def TrapRegs.put (t : TrapRegs) (x : Word) : Nat → TrapRegs
  | 0x30 => { t with cause := x }
  | 0x31 => { t with rpc := setHalf t.rpc false x }
  | 0x32 => { t with addr := setHalf t.addr false x }
  | 0x33 => { t with info := x }
  | 0x34 => { t with vec := setHalf t.vec false x }
  | 0x35 => { t with scratch := x }
  | 0x36 => { t with rpc := setHalf t.rpc true x }
  | 0x37 => { t with vec := setHalf t.vec true x }
  | 0x38 => { t with addr := setHalf t.addr true x }
  | _ => t
/-- A field of an extrapolation context: METHOD, DEPTH, INTVL, TS, TZ, CNT, PHASE, NEW, V, LAST, LFLAGS, then H0 to H7 (R312). -/
def XCtx.field (x : XCtx) : Nat → Word
  | 0 => x.meth.setWidth 32
  | 1 => x.depth.setWidth 32
  | 2 => x.intvl.setWidth 32
  | 3 => x.ts
  | 4 => x.tz
  | 5 => BitVec.ofNat 32 x.cnt
  | 6 => x.phase.setWidth 32
  | 7 => bif x.fresh then 1#32 else 0#32
  | 8 => bif x.v then 1#32 else 0#32
  | 9 => x.last
  | 10 => x.lflags.setWidth 32
  | n => x.hist.getD (n - 11) 0#32
/-- Write a field of an extrapolation context; a value the field cannot hold is refused (R324). A TS or TZ with the sign bit set, or a NaN, is stored as it stands: R312 calls both sign clear and R324 names no fate for such a write, so this is the model's choice; log entry 28. -/
def XCtx.putField (x : XCtx) (w : Word) : Nat → Option XCtx
  | 0 => bif decide (w.toNat < 4) then some { x with meth := w.setWidth 2 } else none
  | 1 => bif decide (w.toNat < 16) then some { x with depth := w.setWidth 4 } else none
  | 2 => bif decide (w.toNat < 2 ^ 17) then some { x with intvl := w.setWidth 17 } else none
  | 3 => some { x with ts := w }
  | 4 => some { x with tz := w }
  | 5 => some { x with cnt := w.toNat }
  | 6 => bif decide (w.toNat < 2 ^ 16) then some { x with phase := w.setWidth 16 } else none
  | 7 => bif decide (w.toNat < 2) then some { x with fresh := w == 1#32 } else none
  | 8 => bif decide (w.toNat < 2) then some { x with v := w == 1#32 } else none
  | 9 => some { x with last := w }
  | 10 => bif decide (w.toNat < 2 ^ 12) then some { x with lflags := w.setWidth 12 } else none
  | n => bif decide (n < 19) then some { x with hist := x.hist.set (n - 11) w } else none
/-- Store a debugger's change of a context, unless hearth core 4 refuses it (R324). -/
def State.debugCtx (s : State) (ag : Nat) (x : BitVec 3) (n : Nat) (v : Word) : State :=
  match (s.xctx ag x).putField v n with
  | some y => bif y.storable && decide (x.toNat < (s.agent ag).xctx.length) then s.setXctx ag x y else s
  | none => s
/-- An access of the debugger to a halted thread (R245, R324). -/
def State.debugDo (s : State) (ag : Nat) (op : DebugOp) : State :=
  let a := s.agent ag
  let h := a.halt.getD default
  match op with
  | .readReg r => s.reply ag (natLe 4 (bif r == 255#8 then 0#32 else a.get (.reg r.toNat)).toNat)
  | .writeReg r x => bif decide (r.toNat < a.home.budget) then s.modAgent ag fun a => a.set (.reg r.toNat) x else s
  | .readPred p => s.reply ag (natLe 4 (a.get (.pred p.toNat)).toNat)
  | .writePred p x => bif p == 7#3 then s else s.modAgent ag fun a => a.set (.pred p.toNat) (bif x then 1#32 else 0#32)
  | .readTrap n => s.reply ag (natLe 4 ((a.trap.get n.toNat).getD 0#32).toNat)
  | .writeTrap n x => s.modAgent ag fun a => { a with trap := a.trap.put x n.toNat }
  | .readPc => s.reply ag (natLe 8 h.pc.toNat)
  | .writePc x => s.modAgent ag fun a => { a with halt := some { h with pc := x, parked := none } }
  | .readHalt => s.reply ag (natLe 4 h.cause.toNat ++ natLe 8 h.addr.toNat ++ natLe 4 h.info.toNat ++ natLe 8 h.pc.toNat)
  | .readCtx x n => s.reply ag (natLe 4 ((s.xctx ag x).field n).toNat)
  | .writeCtx x n v => s.debugCtx ag x n v
/-- A thread that the debugger may work on. -/
def State.halted (s : State) (ag : Nat) : Bool := (s.agent ag).status == .halted
/-- DEBUG_ACCESS (R245, R324). -/
def execDebugAccess (ag : Nat) (op : DebugOp) (s : State) : Result :=
  .next (bif s.halted ag then s.debugDo ag op else s)
/-- A resumed thread goes back to what it was parked on, unless that has ended meanwhile (R137, R184, R214, R223, R245). -/
def State.repark (s : State) (ag : Nat) (w : Wait) : State :=
  let park := fun (s : State) => s.modAgent ag fun a => { a with status := .parked w }
  match w with
  | .mask m => bif s.inMask ag m then (park s).maskTest (s.groupOf ag) m else s
  | .barrier b ph len =>
    let x := s.bar (s.taskOf ag) b
    bif x.complete ph then s.modAgent ag fun a => { a with pc := a.pc + BitVec.ofNat 64 len }
    else bif x.broken || !x.initd then s
    else park s
  | .page va p =>
    let v := s.vdOf ag
    let die := dieOf (s.coreOf ag)
    bif s.store.requests.elem (v, va48 va / 65536, die) then park s
    else s.wrPred ag 1 p (match s.walk v va with
      | some l => l.res == 0 || l.res == 3
      | none => false)
  | _ => park s
/-- Resume a halted thread at its halt PC; its first instruction is not matched against breakpoints (R244, R245). -/
def State.debugGo (s : State) (ag : Nat) (once : Bool) : State :=
  let a := s.agent ag
  match a.halt with
  | none => s
  | some h =>
    let go := s.modAgent ag fun a => { a with status := .ready, halt := none, skipBp := true, stepOnce := once }
    match h.parked with
    | some w => go.repark ag w
    | none => go.modAgent ag fun a => { a with pc := h.pc }
/-- DEBUG_RESUME (R245). -/
def execDebugResume (ag : Nat) (s : State) : Result := .next (bif s.halted ag then s.debugGo ag false else s)
/-- DEBUG_STEP: as a resume, for one instruction (R245). -/
def execDebugStep (ag : Nat) (s : State) : Result := .next (bif s.halted ag then s.debugGo ag true else s)
/-- DEBUG_KILL (R148, R245), in its turn among the events of its clock on the barriers (R224). -/
def execDebugKill (ag : Nat) (s : State) : Result := .next (bif s.halted ag && s.killClear ag then s.killAgent ag else s)
/-- DEBUG_DROP_MASK: the effect of a JDROP by the thread on the mask (R184, R245). -/
def execDebugDropMask (ag : Nat) (m : BitVec 4) (s : State) : Result :=
  .next (bif s.halted ag && !(s.agent ag).isFE then s.jdrop1 ag m.toNat else s)

end Sys2Proof.Machine
end

