-- ==== Sys2Proof/Machine/FloatOps.lean ====
section
/-! DEFINITION. Floating point, conversion, quantisation, Hadamard and sparse compression: majors 0x20 to 0x2F
(07 R164 to R178). -/

namespace Sys2Proof.Machine

/-! ## Shapes -/

/-- An instruction with one FP register result of a fixed latency and its flags (R164, R165). -/
def State.fpOp (s : State) (i : Instr) (lat : Nat) (d : Reg) (f : State → Nat → Word × FFlags) : Result :=
  .next (s.issue i (perThread fun ag s => s.fpReg ag lat d (f s ag)))
/-- An FXU instruction: a variable-latency result with its flags (R170, R59). -/
def State.fxuOp (s : State) (i : Instr) (d : Reg) (f : State → Nat → Word × FFlags) : Result :=
  .next (s.issue i (perThread fun ag s =>
    let r := f s ag
    s.fpGuard ag r.2 fun s => s.out ag true true [toReg d r.1] r.2))
/-- Round a sum of products and addends to FP32 (R166, R172). -/
def fdot32 (ps : List (FV × FV)) (adds : List FV) (mode : RMode) : Word × FFlags :=
  let (x, f) := fdotV ps adds mode
  let (r, g) := toFp32 x mode
  (r, f ||| g)
/-- FADD (R166). -/
def vFadd (m : RMode) (a b : Word) : Word × FFlags := fdot32 [] [fp32 a, fp32 b] m
/-- FSUB (R166). -/
def vFsub (m : RMode) (a b : Word) : Word × FFlags := fdot32 [] [fp32 a, (fp32 b).flip] m
/-- FMUL (R166). -/
def vFmul (m : RMode) (a b : Word) : Word × FFlags := fdot32 [(fp32 a, fp32 b)] [] m
/-- FFMA (R166). -/
def vFfma (m : RMode) (a b c : Word) : Word × FFlags := fdot32 [(fp32 a, fp32 b)] [fp32 c] m
/-- FMIN or FMAX on FP32 (R167). -/
def vFminmax (big : Bool) (a b : Word) : Word × FFlags :=
  let (r, f) := fminmax 0 a.toNat b.toNat big
  (BitVec.ofNat 32 r, f)
/-- Element e of a register packed in elements of w bits (R74). -/
def elem (w : Nat) (a : Word) (e : Nat) : Nat := bits a.toNat (w * e) w
/-- Both 16-bit elements of a packed operation; the flags are OR'd (R165, R171). -/
def pack2 (f : Nat → Nat × FFlags) : Word × FFlags :=
  let (x, p) := f 0
  let (y, q) := f 1
  (BitVec.ofNat 32 (x + 65536 * y), p ||| q)
/-- Element e of a packed operation on sums of products (R171). -/
def pk16 (c : Nat) (m : RMode) (ps : List (Nat × Nat)) (adds : List Nat) : Nat × FFlags :=
  let (x, f) := fdotV (ps.map fun (a, b) => (elemValue c a, elemValue c b)) (adds.map (elemValue c)) m
  let (r, g) := convert c x m false 0
  (r, f ||| g)

/-! ## FP32 arithmetic (R166 to R169) -/

/-- FADD (R166). -/
def execFadd (w : Bool) (d : Reg) (a : Reg) (b : Src7) (s : State) : Result :=
  s.fpOp (.fadd w d a b) 4 d fun s ag => vFadd (s.mode ag 0#3) (s.a32 ag a) (s.b7 ag b)
/-- FADD, extended (R166). -/
def execFaddExt (c0 : Ctl) (rm : BitVec 3) (d : Reg) (a : Reg) (b : Src) (s : State) : Result :=
  s.fpOp (.faddExt c0 rm d a b) 4 d fun s ag => vFadd (s.mode ag rm) (s.a32 ag a) (s.b32 ag b)
/-- FSUB (R166). -/
def execFsub (w : Bool) (d : Reg) (a : Reg) (b : Src7) (s : State) : Result :=
  s.fpOp (.fsub w d a b) 4 d fun s ag => vFsub (s.mode ag 0#3) (s.a32 ag a) (s.b7 ag b)
/-- FSUB, extended (R166). -/
def execFsubExt (c0 : Ctl) (rm : BitVec 3) (d : Reg) (a : Reg) (b : Src) (s : State) : Result :=
  s.fpOp (.fsubExt c0 rm d a b) 4 d fun s ag => vFsub (s.mode ag rm) (s.a32 ag a) (s.b32 ag b)
/-- FMUL (R166). -/
def execFmul (w : Bool) (d : Reg) (a : Reg) (b : Src7) (s : State) : Result :=
  s.fpOp (.fmul w d a b) 4 d fun s ag => vFmul (s.mode ag 0#3) (s.a32 ag a) (s.b7 ag b)
/-- FMUL, extended (R166). -/
def execFmulExt (c0 : Ctl) (rm : BitVec 3) (d : Reg) (a : Reg) (b : Src) (s : State) : Result :=
  s.fpOp (.fmulExt c0 rm d a b) 4 d fun s ag => vFmul (s.mode ag rm) (s.a32 ag a) (s.b32 ag b)
/-- FFMA (R166). -/
def execFfma (c0 : Ctl) (rm : BitVec 3) (d : Reg) (a : Reg) (b : Src) (c : Reg) (s : State) : Result :=
  s.fpOp (.ffma c0 rm d a b c) 4 d fun s ag => vFfma (s.mode ag rm) (s.a32 ag a) (s.b32 ag b) (s.c32 ag c)
/-- FMIN (R167). -/
def execFmin (w : Bool) (d : Reg) (a : Reg) (b : Src7) (s : State) : Result :=
  s.fpOp (.fmin w d a b) 4 d fun s ag => vFminmax false (s.a32 ag a) (s.b7 ag b)
/-- FMIN, extended (R167). -/
def execFminExt (c0 : Ctl) (d : Reg) (a : Reg) (b : Src) (s : State) : Result :=
  s.fpOp (.fminExt c0 d a b) 4 d fun s ag => vFminmax false (s.a32 ag a) (s.b32 ag b)
/-- FMAX (R167). -/
def execFmax (w : Bool) (d : Reg) (a : Reg) (b : Src7) (s : State) : Result :=
  s.fpOp (.fmax w d a b) 4 d fun s ag => vFminmax true (s.a32 ag a) (s.b7 ag b)
/-- FMAX, extended (R167). -/
def execFmaxExt (c0 : Ctl) (d : Reg) (a : Reg) (b : Src) (s : State) : Result :=
  s.fpOp (.fmaxExt c0 d a b) 4 d fun s ag => vFminmax true (s.a32 ag a) (s.b32 ag b)
/-- FCMP (R168). -/
def execFcmp (c0 : Ctl) (cc : BitVec 4) (pd : BitVec 3) (a : Reg) (b : Src) (s : State) : Result :=
  .next (s.issue (.fcmp c0 cc pd a b) (perThread fun ag s =>
    let r := fcmpV cc.toNat (fp32 (s.a32 ag a)) (fp32 (s.b32 ag b))
    s.fpGuard ag r.2 fun s => (s.wrPred ag 4 pd r.1).flagAt ag 4 r.2))
/-- FABS (R169). -/
def execFabs (c0 : Ctl) (d : Reg) (a : Reg) (s : State) : Result :=
  s.fpOp (.fabs c0 d a) 4 d fun s ag => (s.a32 ag a &&& 0x7FFFFFFF#32, 0#5)
/-- FNEG (R169). -/
def execFneg (c0 : Ctl) (d : Reg) (a : Reg) (s : State) : Result :=
  s.fpOp (.fneg c0 d a) 4 d fun s ag => (s.a32 ag a ^^^ 0x80000000#32, 0#5)
/-- FCLASS (R169). -/
def execFclass (c0 : Ctl) (d : Reg) (a : Reg) (s : State) : Result :=
  s.fpOp (.fclass c0 d a) 4 d fun s ag => (fclassV (s.a32 ag a), 0#5)
/-- FRINT (R169). -/
def execFrint (c0 : Ctl) (rm : BitVec 3) (d : Reg) (a : Reg) (s : State) : Result :=
  s.fpOp (.frint c0 rm d a) 4 d fun s ag => frintV (s.a32 ag a) (s.mode ag rm)

/-! ## FXU (R170) -/

/-- FRCP (R170). -/
def execFrcp (c0 : Ctl) (d : Reg) (a : Reg) (s : State) : Result :=
  s.fxuOp (.frcp c0 d a) d fun s ag => frcpV (s.a32 ag a)
/-- FRSQ (R170). -/
def execFrsq (c0 : Ctl) (d : Reg) (a : Reg) (s : State) : Result :=
  s.fxuOp (.frsq c0 d a) d fun s ag => frsqV (s.a32 ag a)
/-- FEXP2 (R170). -/
def execFexp2 (c0 : Ctl) (d : Reg) (a : Reg) (s : State) : Result :=
  s.fxuOp (.fexp2 c0 d a) d fun s ag => fexp2V (s.a32 ag a)
/-- FLOG2 (R170). -/
def execFlog2 (c0 : Ctl) (d : Reg) (a : Reg) (s : State) : Result :=
  s.fxuOp (.flog2 c0 d a) d fun s ag => flog2V (s.a32 ag a)
/-- FSQRT (R170). -/
def execFsqrt (c0 : Ctl) (rm : BitVec 3) (d : Reg) (a : Reg) (s : State) : Result :=
  s.fxuOp (.fsqrt c0 rm d a) d fun s ag => fsqrtV (s.a32 ag a) (s.mode ag rm)
/-- FSIN (R170). -/
def execFsin (c0 : Ctl) (d : Reg) (a : Reg) (s : State) : Result :=
  s.fxuOp (.fsin c0 d a) d fun s ag => ftrigV (s.a32 ag a) false
/-- FCOS (R170). -/
def execFcos (c0 : Ctl) (d : Reg) (a : Reg) (s : State) : Result :=
  s.fxuOp (.fcos c0 d a) d fun s ag => ftrigV (s.a32 ag a) true

/-! ## Packed 16-bit and FDOT2 (R171, R172) -/

/-- HADD2 (R171). -/
def execHadd2 (c0 : Ctl) (rm : BitVec 3) (fmt : BitVec 4) (d : Reg) (a : Reg) (b : Reg) (s : State) : Result :=
  s.fpOp (.hadd2 c0 rm fmt d a b) 4 d fun s ag => pack2 fun e =>
    pk16 fmt.toNat (s.mode ag rm) [] [elem 16 (s.a32 ag a) e, elem 16 (s.b32 ag (.reg b)) e]
/-- HMUL2 (R171). -/
def execHmul2 (c0 : Ctl) (rm : BitVec 3) (fmt : BitVec 4) (d : Reg) (a : Reg) (b : Reg) (s : State) : Result :=
  s.fpOp (.hmul2 c0 rm fmt d a b) 4 d fun s ag => pack2 fun e =>
    pk16 fmt.toNat (s.mode ag rm) [(elem 16 (s.a32 ag a) e, elem 16 (s.b32 ag (.reg b)) e)] []
/-- HFMA2 (R171). -/
def execHfma2 (c0 : Ctl) (rm : BitVec 3) (fmt : BitVec 4) (d : Reg) (a : Reg) (b : Reg) (c : Reg) (s : State) : Result :=
  s.fpOp (.hfma2 c0 rm fmt d a b c) 4 d fun s ag => pack2 fun e =>
    pk16 fmt.toNat (s.mode ag rm) [(elem 16 (s.a32 ag a) e, elem 16 (s.b32 ag (.reg b)) e)] [elem 16 (s.c32 ag c) e]
/-- HMIN2 (R171). -/
def execHmin2 (c0 : Ctl) (fmt : BitVec 4) (d : Reg) (a : Reg) (b : Reg) (s : State) : Result :=
  s.fpOp (.hmin2 c0 fmt d a b) 4 d fun s ag => pack2 fun e => fminmax fmt.toNat (elem 16 (s.a32 ag a) e) (elem 16 (s.b32 ag (.reg b)) e) false
/-- HMAX2 (R171). -/
def execHmax2 (c0 : Ctl) (fmt : BitVec 4) (d : Reg) (a : Reg) (b : Reg) (s : State) : Result :=
  s.fpOp (.hmax2 c0 fmt d a b) 4 d fun s ag => pack2 fun e => fminmax fmt.toNat (elem 16 (s.a32 ag a) e) (elem 16 (s.b32 ag (.reg b)) e) true
/-- FDOT2 (R172). -/
def execFdot2 (c0 : Ctl) (rm : BitVec 3) (fmt : BitVec 4) (d : Reg) (a : Reg) (b : Reg) (c : Reg) (s : State) : Result :=
  s.fpOp (.fdot2 c0 rm fmt d a b c) 5 d fun s ag =>
    let x := s.a32 ag a
    let y := s.b32 ag (.reg b)
    let v := fun z e => elemValue fmt.toNat (elem 16 z e)
    fdot32 [(v x 0, v y 0), (v x 1, v y 1)] [fp32 (s.c32 ag c)] (s.mode ag rm)

/-! ## Conversions (R173 to R176) -/

/-- Step for every element under RS: the seed after it (R89). -/
def nextSeed (m : RMode) (x : Word) : Word := bif m == .rs then stepSeed x else x
/-- The narrowing of FCVT: d with element k replaced; and the seed (R173). -/
def vNarrow (c w k : Nat) (m : RMode) (sat : Bool) (seed d a : Word) : (Word × FFlags) × Word :=
  let z := nextSeed m seed
  let (e, f) := convert c (fp32 a) m sat (bits z.toNat 0 16)
  let mask : Word := BitVec.ofNat 32 (2 ^ w - 1) <<< (w * k)
  (((d &&& ~~~mask) ||| (BitVec.ofNat 32 e <<< (w * k)), f), z)
/-- The widening of FCVT (R173, R77). -/
def vWiden (c w k : Nat) (a : Word) : Word × FFlags := toFp32 (elemValue c (elem w a k)) .rne
/-- FCVT (R173): a narrowing reads d. -/
def State.fcvt1 (s : State) (ag : Nat) (sat dir : Bool) (k : Nat) (rm : BitVec 3) (c : Nat) (d a : Reg) : State × Fate :=
  let w := widthOf c
  if dir then s.fpReg ag 5 d (vWiden c w k (s.a32 ag a))
  else
    let (r, z) := vNarrow c w k (s.mode ag rm) sat (s.seed ag) (s.d32 ag d) (s.a32 ag a)
    s.fpGuard ag r.2 fun s =>
      let s := bif s.mode ag rm == .rs then s.setSeed ag z else s
      (s.wrReg ag 5 d r.1).flagAt ag 5 r.2
/-- QNT of a list of registers under a scale: the elements packed from element 0, the flags, the seed (R175). -/
def vQnt (c : Nat) (m : RMode) (sat : Bool) (e : Nat) : List Word → Word → Nat × FFlags × Word
  | [], z => (0, 0#5, z)
  | x :: rest, z =>
    let z := nextSeed m z
    let y := bif e == 255 then .nan true else (fp32 x).scale (127 - (e : Int))
    let (b, f) := convert c y m sat (bits z.toNat 0 16)
    let (bs, g, z) := vQnt c m sat e rest z
    (b + 2 ^ widthOf c * bs, f ||| g, z)
/-- QNT (R175). To E8 it raises no flag, for a signalling NaN either: R80 and R175 name no flag there while R84 gives NV to a signalling NaN operand, so this is the model's choice; log entry 8. -/
def State.qnt1 (s : State) (ag : Nat) (sat : Bool) (rm : BitVec 3) (c : Nat) (d a : Reg) (b : Src) : State × Fate :=
  if c = 9 then (s.wrReg ag 5 d (BitVec.ofNat 32 (toE8 (fp32 (s.a32 ag a)))), .next)
  else
    let n := 32 / widthOf c
    let xs := (List.range n).map fun k => s.regN ag (10 + k) (a.toNat + k)
    let m := s.mode ag rm
    let (r, f, z) := vQnt c m sat ((s.b32 ag b).toNat % 256) xs (s.seed ag)
    s.fpGuard ag f fun s =>
      let s := bif m == .rs then s.setSeed ag z else s
      (s.wrReg ag 5 d (BitVec.ofNat 32 r)).flagAt ag 5 f
/-- One element of DQNT (R176). -/
def vDqnt (c : Nat) (m : RMode) (sat : Bool) (e : Nat) (x : Nat) : Word × FFlags :=
  let v := elemValue c x
  if e = 255 then (0x7FC00000#32, fNV)
  else
    let (r, f) := convert 0 (v.scale ((e : Int) - 127)) m sat 0
    (BitVec.ofNat 32 r, f)
/-- Write consecutive registers with one latency. -/
def State.wrRange (s : State) (ag lat : Nat) : Nat → List Word → State
  | _, [] => s
  | r, w :: ws => (s.wr ag lat (some (.reg r)) w).wrRange ag lat (r + 1) ws
/-- OR of flags. -/
def orAll (fs : List FFlags) : FFlags := fs.foldl (· ||| ·) 0#5
/-- Results in consecutive registers with their flags (R165). -/
def State.fpRange (s : State) (ag lat : Nat) (d : Reg) (rs : List (Word × FFlags)) : State × Fate :=
  let f := orAll (rs.map (·.2))
  s.fpGuard ag f fun s => (s.wrRange ag lat d.toNat (rs.map (·.1))).flagAt ag lat f
/-- DQNT (R176). -/
def State.dqnt1 (s : State) (ag : Nat) (sat : Bool) (rm : BitVec 3) (c : Nat) (d a : Reg) (b : Src) : State × Fate :=
  let w := widthOf c
  let x := s.a32 ag a
  let e := (s.b32 ag b).toNat % 256
  s.fpRange ag 5 d ((List.range (32 / w)).map fun k => vDqnt c (s.mode ag rm) sat e (elem w x k))

/-- FCVT (R173). -/
def execFcvt (c0 : Ctl) (sat : Bool) (dir : Bool) (elt : BitVec 2) (rm : BitVec 3) (fmt : BitVec 4) (d : Reg) (a : Reg) (s : State) : Result :=
  .next (s.issue (.fcvt c0 sat dir elt rm fmt d a) (perThread fun ag s => s.fcvt1 ag sat dir elt.toNat rm fmt.toNat d a))
/-- I2F (R174). -/
def execI2f (c0 : Ctl) (rm : BitVec 3) (d : Reg) (a : Reg) (s : State) : Result :=
  s.fpOp (.i2f c0 rm d a) 5 d fun s ag => toFp32 (FV.ofInt (s.a32 ag a).toInt) (s.mode ag rm)
/-- U2F (R174). -/
def execU2f (c0 : Ctl) (rm : BitVec 3) (d : Reg) (a : Reg) (s : State) : Result :=
  s.fpOp (.u2f c0 rm d a) 5 d fun s ag => toFp32 (FV.ofInt (s.a32 ag a).toNat) (s.mode ag rm)
/-- A float to an integer code: INT32 is 8, UINT32 is 15 (R174). -/
def vToInt (c : Nat) (m : RMode) (sat : Bool) (a : Word) : Word × FFlags :=
  let (r, f) := convert c (fp32 a) m sat 0
  (BitVec.ofNat 32 r, f)
/-- F2I (R174). -/
def execF2i (c0 : Ctl) (sat : Bool) (rm : BitVec 3) (d : Reg) (a : Reg) (s : State) : Result :=
  s.fpOp (.f2i c0 sat rm d a) 5 d fun s ag => vToInt 8 (s.mode ag rm) sat (s.a32 ag a)
/-- F2U (R174). -/
def execF2u (c0 : Ctl) (sat : Bool) (rm : BitVec 3) (d : Reg) (a : Reg) (s : State) : Result :=
  s.fpOp (.f2u c0 sat rm d a) 5 d fun s ag => vToInt 15 (s.mode ag rm) sat (s.a32 ag a)
/-- QNT (R175). -/
def execQnt (c0 : Ctl) (sat : Bool) (rm : BitVec 3) (fmt : BitVec 4) (d : Reg) (a : Reg) (b : Src) (s : State) : Result :=
  .next (s.issue (.qnt c0 sat rm fmt d a b) (perThread fun ag s => s.qnt1 ag sat rm fmt.toNat d a b))
/-- DQNT (R176). -/
def execDqnt (c0 : Ctl) (sat : Bool) (rm : BitVec 3) (fmt : BitVec 4) (d : Reg) (a : Reg) (b : Src) (s : State) : Result :=
  .next (s.issue (.dqnt c0 sat rm fmt d a b) (perThread fun ag s => s.dqnt1 ag sat rm fmt.toNat d a b))

/-! ## Hadamard transform and sparse compression (R177, R178) -/

/-- Elements of consecutive registers, packed by R74. -/
def elems (w : Nat) (ws : List Word) : List Nat := ws.flatMap fun x => (List.range (32 / w)).map fun k => elem w x k
/-- Registers from elements, packed by R74. -/
def packElems (w : Nat) : Nat → List Nat → List Word
  | 0, _ => []
  | n + 1, xs =>
    BitVec.ofNat 32 ((xs.take (32 / w)).zipIdx.foldl (fun r (x, k) => r + x * 2 ^ (w * k)) 0) ::
      packElems w n (xs.drop (32 / w))
/-- n consecutive registers. -/
def State.regs (s : State) (ag r n : Nat) : List Word := (List.range n).map fun k => s.regN ag (100 + k) (r + k)
/-- HAD (R177). -/
def vHad (c : Nat) (m : RMode) (ws : List Word) : List Word × FFlags :=
  let w := widthOf c
  let ys := (hadamard ((elems w ws).map (elemValue c)) m).map fun (y, f) =>
    let (r, g) := convert c y m false 0
    (r, f ||| g)
  (packElems w ws.length (ys.map (·.1)), orAll (ys.map (·.2)))
/-- CMPR: the kept elements and the metadata (R178). -/
def vCmpr (s48 : Bool) (c : Nat) : Nat → List Nat → List Nat × Nat
  | 0, _ => ([], 0)
  | n + 1, xs =>
    let k := bif s48 then 8 else 4
    let g := xs.take k
    let (ix, nib) := sparseGroup s48 (g.map (elemValue c))
    let (ys, m) := vCmpr s48 c n (xs.drop k)
    (ix.map (fun i => g.getD i 0) ++ ys, nib + 16 * m)
/-- HAD (R177). -/
def execHad (c0 : Ctl) (sz : BitVec 2) (rm : BitVec 3) (fmt : BitVec 4) (d : Reg) (a : Reg) (s : State) : Result :=
  .next (s.issue (.had c0 sz rm fmt d a) (perThread fun ag s =>
    let (ws, f) := vHad fmt.toNat (s.mode ag rm) (s.regs ag a.toNat (hadSpan sz fmt))
    s.fpGuard ag f fun s => (s.wrRange ag 6 d.toNat ws).flagAt ag 6 f))
/-- CMPR (R178). -/
def execCmpr (c0 : Ctl) (s48 : Bool) (fmt : BitVec 4) (d : Reg) (a : Reg) (c : Reg) (s : State) : Result :=
  .next (s.issue (.cmpr c0 s48 fmt d a c) (plain fun ag s =>
    let n := cmprSpan fmt
    let w := widthOf fmt.toNat
    let (ys, m) := vCmpr s48 fmt.toNat (bif s48 then 2 else 4) (elems w (s.regs ag a.toNat n))
    (s.wrRange ag 6 d.toNat (packElems w (n / 2) ys)).wrReg ag 6 c (BitVec.ofNat 32 m)))

end Sys2Proof.Machine
end

