-- ==== Sys2Proof/Machine/Platform.lean ====
section
/-! DEFINITION. Links, errors, alarms, boot, configuration, identity, telemetry, power and time (01 R19, 05 R124,
23 R410, 24 R420, R424, R426 to R431). -/

namespace Sys2Proof.Machine

/-! ## Workar links (R124, R424) -/

/-- Put a link into a state, from now on. -/
def State.setLink (s : State) (link : Nat) (x : LinkState) : State :=
  s.modHearth fun h => { h with links := h.links.set link x, linkSince := h.linkSince.set link s.now }
/-- State of a link. -/
def State.linkIs (s : State) (link : Nat) (x : LinkState) : Bool :=
  decide (link < 18) && s.hearth.links.getD link .down == x
/-- Nanoseconds since a link entered its state. -/
def State.linkFor (s : State) (link : Nat) : Nat := s.now - s.hearth.linkSince.getD link 0
/-- The recovery limit in nanoseconds (R124, R426). -/
def State.recoveryLimit (s : State) : Nat := s.hearth.config.linkrec * 1000000
/-- Every chain slot of the package. -/
def chainRefs : List ChainRef :=
  ((List.range 192).flatMap fun c => (List.range 8).map fun k => .core c k) ++
  ((List.range 2).flatMap fun d => (List.range 4).map fun k => .hearth d k)
/-- A link goes down: its posted writes are lost and logged, chains with a SEND on it fault, and its windows close (R124, R276, R424). -/
def State.linkDown (s : State) (link : Nat) : State :=
  let n := (s.store.posted.filter fun p => p.link == some link && !p.lost).length
  let ps := s.store.posted.map fun p => bif p.link == some link then { p with lost := true } else p
  let s := s.modStore fun m => { m with posted := ps.filter fun p => !(p.lost && (p.ag == noAgent || decide (2 ^ 41 ≤ p.ag))) }
  let s := (List.range n).foldl (fun s _ => s.logEntry 0 3) s
  let s := (s.setLink link .down).modHearth fun h => { h with windows := h.windows.filter fun w => w.2 != link }
  chainRefs.foldl (fun s u => s.chainLost u link) s
/-- LINK_ENABLE (R424): by the configuration record at boot, or by a message to hearth core 6. -/
def execLinkEnable (link : Nat) (s : State) : Result :=
  .next (bif s.linkIs link .down then s.setLink link .training else s)
/-- LINK_TRAINED: the peer has trained and keys are agreed within 1,000 ms; the windows over the link open (R424). -/
def execLinkTrained (link : Nat) (s : State) : Result :=
  .next (bif s.linkIs link .training && decide (s.linkFor link < 1000000000) then
      (s.setLink link .up).modHearth fun h =>
        { h with session := true, windows := h.windows ++ (Config.linkWindows link).map fun w => (w % 256, link) }
    else s)
/-- LINK_TRAINING_TIMEOUT: 1,000 ms without success; entered in the fabric fault log (R424). -/
def execLinkTrainingTimeout (link : Nat) (s : State) : Result :=
  .next (bif s.linkIs link .training && decide (1000000000 ≤ s.linkFor link) then (s.setLink link .down).logEntry 0 2 else s)
/-- LINK_LOST_LOCK: posted writes are held (R424). -/
def execLinkLostLock (link : Nat) (s : State) : Result :=
  .next (bif s.linkIs link .up then
      (s.setLink link .retraining).modStore fun m =>
        { m with posted := m.posted.map fun p => bif p.link == some link then { p with held := true } else p }
    else s)
/-- LINK_RETRAINED: within the recovery limit; held writes are delivered in order (R424). -/
def execLinkRetrained (link : Nat) (s : State) : Result :=
  .next (bif s.linkIs link .retraining && decide (s.linkFor link ≤ s.recoveryLimit) then
      let s := s.modTele fun t => { t with links := (t.links.1 + 1, t.links.2) }
      (s.setLink link .up).modStore fun m =>
        { m with posted := m.posted.map fun p => bif p.link == some link then { p with held := false } else p }
    else s)
/-- LINK_RECOVERY_EXPIRY: the link is declared down (R124, R424). -/
def execLinkRecoveryExpiry (link : Nat) (s : State) : Result :=
  .next (bif s.linkIs link .retraining && decide (s.recoveryLimit ≤ s.linkFor link) then
      (s.modTele fun t => { t with links := (t.links.1, t.links.2 + 1) }).linkDown link
    else s)
/-- POSTED_WRITE_ACK: the peer acknowledges a posted write that is not held or lost (R124). -/
def execPostedWriteAck (k : Nat) (s : State) : Result :=
  .next (match s.store.posted[k]? with
    | some p => bif p.held || p.lost then s else s.modStore fun m => { m with posted := m.posted.eraseIdx k }
    | none => s)

/-! ## Resets (R410, R412, R428) -/

/-- A queue of a virtual device, disabled. -/
def Queue.off (q : Queue) : Queue := { q with state := .disabled, inflight := [], launching := none }
/-- The OWNER copies after the reset of a partition: its stacks lie with it again (R7, R367). -/
def resetCopies (unified : Bool) (p : Nat) (x : BitVec 8) : BitVec 8 :=
  (List.range 8).foldl (fun x k => bif unified || k / 4 == p then setStackBit x k (decide (4 ≤ k)) else x) x
/-- The partition of an agent outside the lane engine: harts 0 to 31, the PCIe host 32 or the drive of root port p 32 + p, port p 64 + p (R8, R412, R425). -/
def whoPart (unified : Bool) (who : Nat) : Nat :=
  bif unified then 0 else bif decide (who < 32) then who / 16 else bif decide (who < 64) then 0
  else bif decide (who < 82) then (who - 64) / 9 else who % 2
/-- The application cores and the Ethernet port of a partition as its boot finds them: the cores begin at its boot code in machine mode (R412, R413, R423, R428). -/
def State.bootPartition (s : State) (p : Nat) : State :=
  s.modHearth fun h =>
    let mine := fun who => whoPart h.config.unified who == p
    { h with harts := h.harts.zipIdx.map fun (x, k) => bif mine k then { hartReset with pc := Config.bootPc h.fwVersion p } else x,
             ports := h.ports.zipIdx.map fun (x, k) => bif mine (96 + k) then EthPort.reset else x,
             blks := h.blks.set p (false, false) }
/-- Reset one hard partition: its tenants, cores, tokens and ownership, and its application cores (R410, R412). -/
def State.resetPartition (s : State) (p : Nat) : State :=
  let s := s.bootPartition p
  let vs := (List.range 16).map fun k => 16 * p + k
  let s := (vs.filter fun v => (s.vdev v).state != .absent).foldl State.clearTenant s
  let s := s.dropTlb fun e => partOf e.vd == p
  let s := vs.foldl (fun s v => s.modVdev v fun _ => Vdev.reset) s
  let mine := fun c => s.hearth.config.unified || dieOf c == p
  let cs := s.lanes.cores.zipIdx.map fun (c, k) => bif mine k then Core.reset else c
  let os := s.store.owners.zipIdx.map fun (o, k) => bif s.hearth.config.unified || k / 4 == p then Owner.reset k else o
  let qs := s.queues.map fun (q : Queue) => bif partOf q.vd == p then q.off else q
  let s := { s with lanes := { s.lanes with cores := cs }, queues := qs }
  (s.dropKiln fun v => partOf v == p).modStore fun m =>
    { m with owners := os, ownerCopies := m.ownerCopies.map (resetCopies s.hearth.config.unified p),
             heldOps := m.heldOps.filter (fun x => whoPart s.hearth.config.unified x.1 != p),
             requests := m.requests.filter (fun r => partOf r.1 != p),
             handovers := m.handovers.filter (fun h => !(s.hearth.config.unified || h.stack / 4 == p)),
             loans := m.loans.filter (fun l => !(s.hearth.config.unified || l.stack / 4 == p)),
             tokens := m.tokens.set p none }
/-- Reset the package: everything but memory, time, flash and what other devices hold; the next configuration record takes effect (R426, R428, R430). -/
def State.resetPackage (s : State) : State :=
  let s := s.store.blocks.foldl (fun s b => s.writeback b.no) s
  let h := s.hearth
  let t := { h.tele with hearth := (h.tele.hearth.1, h.tele.hearth.2.1, h.tele.hearth.2.2 + 1) }
  let r := State.reset
  { r with
    store := { r.store with mem := s.store.mem, blocks := s.store.blocks.map fun b => { b with ch := none, dirty := [], own := none } },
    hearth := { r.hearth with
      config := h.nextConfig.getD h.config, svn := h.svn, fwMin := h.fwMin, fwVersion := h.fwVersion, identity := h.identity,
      keys := h.keys, session := h.session, lastL2 := h.lastL2, lastExpiry := h.lastExpiry, badBundles := h.badBundles,
      log := h.log, logAt := h.logAt, tele := t, ring := h.ring, images := h.images, ash := h.ash },
    now := s.now, sched := s.sched, free := s.free, moves := s.moves }
/-- Freeze virtual devices, each with an ash record of a class (R410, R411, R429). -/
def State.freezeThese (s : State) (cls : Nat) (vs : List Nat) : State := vs.foldl (fun s v => s.freeze v cls s.openReason) s
/-- Freeze every virtual device with an ash record of a class (R410, R411, R429). -/
def State.freezeAll (s : State) (cls : Nat) : State := s.freezeThese cls (List.range 32)
/-- Reset partition 0 or 1, or with 2 the package, which a pending recovery outlasts (R19, R410). -/
def State.performReset (s : State) (r : Nat) : State :=
  bif r == 2 then s.resetPackage.modHearth fun h => { h with recovery := s.hearth.recovery } else s.resetPartition r
/-- An ash record of what is to be reset is still to be written (R411). -/
def State.resetWaits (s : State) (r : Nat) : Bool := s.hearth.waiting.any fun x => x.kind == 6 && (r == 2 || partOf x.vd == r)
/-- A reset, once the ash records before it are written (R410, R411). -/
def State.resetOr (s : State) (r : Nat) : State :=
  bif s.resetWaits r then s.modHearth fun h => { h with resets := bif h.resets.elem r then h.resets else h.resets ++ [r] } else s.performReset r
/-- Resets whose ash records have been written (R411). -/
def State.resetsDue (s : State) : State :=
  s.hearth.resets.foldl (fun s r => bif s.resetWaits r then s
    else (s.modHearth fun h => { h with resets := h.resets.erase r }).performReset r) s
/-- A device-class fault of one partition in split mode: an ash record for each of its virtual devices, then its reset (R410). -/
def State.partitionFault (s : State) (p : Nat) : State :=
  (s.freezeThese 4 ((List.range 16).map fun k => 16 * p + k)).resetOr p
/-- A device-class fault that concerns the whole device: an ash record for every virtual device, then a reset of both partitions, or of the package in unified mode (R410). -/
def State.deviceFault (s : State) : State :=
  bif s.hearth.config.unified then (s.freezeAll 4).resetOr 2 else (s.partitionFault 0).partitionFault 1
/-- A device-class fault that concerns some virtual devices: in split mode only their partitions are reset (R410). -/
def State.deviceFaultOf (s : State) (vs : List Nat) : State :=
  bif s.hearth.config.unified then s.deviceFault
  else [0, 1].foldl (fun s p => bif vs.any fun v => partOf v == p then s.partitionFault p else s) s

/-! ## Errors (R19, R410) -/

/-- A level 1 entry for a restart of a hearth core, counted (R19, R429, R430). -/
def State.hearthRestart (s : State) (kind : Nat) : State :=
  (s.modTele fun t => { t with hearth := (t.hearth.1 + 1, t.hearth.2) }).logEntry 1 kind
/-- The queue whose micro-step hearth core 1 is at (R400, R405). -/
def State.servedQueue (s : State) : Option Nat :=
  (List.range s.queues.length).find? fun q => s.serves q && (s.queue q).state == .active && !s.yields q
/-- The state after a result, where it is one. -/
def stateOr (s : State) : Result → State
  | .next t => t
  | _ => s
/-- The next micro-step of a queue's packet, whichever it is: exactly the one of its TYPE and CURSOR does something (R405). -/
def State.serveStep (s : State) (q : Nat) : State :=
  let at_ := (s.queue q).cursor
  match ptype ((s.packetAt q).getD []) with
  | 1 => stateOr s (bif at_ == 0 then execPacketLaunch q s
      else bif ((s.queue q).launching.map fun l => 2 + (s.launch l).billetSteps) == some at_ then execLaunchDispatch q s
      else execLaunchBilletStep q s)
  | 2 => stateOr s (execPacketCord q s)
  | 3 => stateOr s (execPacketWait q s)
  | 4 => stateOr s (execPacketWrite q s)
  | 5 => stateOr s (execPacketSignal q s)
  | 6 => stateOr s (bif at_ == 0 then execPacketWrsigWrite q s else execPacketWrsigSignal q s)
  | 7 => stateOr s (execPacketChainrun q s)
  | 8 => stateOr s (execPacketRanges q s)
  | _ => stateOr s (execPacketNop q s)
/-- A restart of hearth core 1: the micro-step in progress is entered in the telemetry with its queue and TAG. It may have had its effects, which its queue has not noted, so that it is performed a second time (R405): a free value decides. -/
def State.restartQueues (s : State) : State :=
  match s.servedQueue with
  | none => s
  | some q =>
    let tag := BitVec.ofNat 32 (field ((s.packetAt q).getD []) 4 4)
    let s := s.modTele fun t => { t with steps := t.steps ++ [(q, tag)] }
    bif Config.freeChoice s.free 4 q 0 0 then { s.serveStep q with queues := s.queues } else s
/-- HEARTH_CORE_TIMEOUT: core 0 restarts the core, whose requests wait meanwhile; the engines are not stopped (R19, R405, R409). -/
def execHearthCoreTimeout (k : Nat) (s : State) : Result :=
  .next (bif decide (1 ≤ k) && decide (k ≤ 7) then
      let s := (s.hearthRestart 4).modHearth fun h => { h with restart := bif h.restart.elem k then h.restart else h.restart ++ [k] }
      bif k == 1 then s.restartQueues else s
    else s)
/-- Restarts of hearth cores end when a free value says so: their length is open. The level 1 entry of core 0's own restart is made as it runs again (R19, R409). -/
def State.restartsEnd (s : State) : State :=
  let t := s.modHearth fun h => { h with restart := h.restart.filter fun k => Config.freeChoice s.free 5 k 0 0 }
  bif s.hearth.restart.elem 0 && !t.hearth.restart.elem 0 then t.logEntry 1 9 else t
/-- Nanoseconds of 24 hours. -/
def dayNs : Nat := 86400000000000
/-- A moment lies less than 24 hours back. -/
def State.within24h (s : State) : Option Nat → Bool
  | some t => decide (s.now < t + dayNs)
  | none => false
/-- SUPERVISION_TIMER_EXPIRY: core 0 restarts from ROM, which is counted, and logged once it runs again; requests to it wait meanwhile. A second expiry within 24 hours or a failed verification is a device-class fault, logged at once (R19). -/
def execSupervisionTimerExpiry (verified : Bool) (s : State) : Result :=
  let second := s.within24h s.hearth.lastExpiry
  let s := s.modHearth fun h => { h with lastExpiry := some s.now }
  .next (bif second || !verified then
      let s := (s.hearthRestart 9).deviceFault
      bif verified then s else s.modHearth fun h => { h with recovery := true, booted := false }
    else
      (s.modTele fun t => { t with hearth := (t.hearth.1 + 1, t.hearth.2) }).modHearth fun h =>
        { h with restart := bif h.restart.elem 0 then h.restart else h.restart ++ [0] })
/-- MEMORY_ERROR: by what the error hits (R410). -/
def execMemoryError (e : MemError) (s : State) : Result :=
  .next (match e with
    | .taskData l => s.launchFault l 1#32
    | .reserveBacked v => s.freeze v 3 s.openReason
    | .hearth => s.deviceFault
    | .sharedReserveBacked vs => s.deviceFaultOf vs)
/-- Add one to a count by key. -/
def bump (k : Nat) : List (Nat × Nat) → List (Nat × Nat)
  | [] => [(k, 1)]
  | (j, n) :: rest => bif j == k then (j, n + 1) :: rest else (j, n) :: bump k rest
/-- SOFT_ERROR: corrected, and counted per stack channel (R410). -/
def execSoftError (stack channel : Nat) (s : State) : Result :=
  .next (bif decide (stack < 8) then s.modTele fun t => { t with soft := bump (stack * 64 + channel) t.soft } else s)
/-- DIE_LINK_LOSS (R410). -/
def execDieLinkLoss (s : State) : Result := .next s.deviceFault

/-! ## Security alarms (R429) -/

/-- Level 2: level 1, every partition freezes with ash records, the session keys are erased, the links go DOWN. -/
def State.alarm2 (s : State) : State :=
  let s := (s.logEntry 1 7).logEntry 2 7
  let s := (s.freezeAll 3).modHearth fun h => { h with session := false, lastL2 := some s.now }
  (List.range 18).foldl (fun s l => bif s.linkIs l .down then s else s.linkDown l) s
/-- Level 3: level 2, then the device identity private keys are erased. -/
def State.alarm3 (s : State) : State := (s.alarm2.logEntry 3 8).modHearth fun h => { h with keys := false }
/-- SECURITY_ALARM_L2: repeated within 24 hours it is of level 3 (R429). -/
def execSecurityAlarmL2 (s : State) : Result := .next (bif s.within24h s.hearth.lastL2 then s.alarm3 else s.alarm2)
/-- SECURITY_ALARM_L3 (R429). -/
def execSecurityAlarmL3 (s : State) : Result := .next s.alarm3

/-! ## Power (R431) -/

/-- THERMAL_THROTTLE: a step of 50 MHz between 850 and 1,700 MHz; timing only (R431). -/
def execThermalThrottle (up : Bool) (s : State) : Result :=
  .next (s.modHearth fun h => { h with mhz := bif up then min 1700 (h.mhz + 50) else max 850 (h.mhz - 50) })
/-- JUNCTION_OVERTEMP: ash records as for a device-class fault, then a package reset (R431). -/
def execJunctionOvertemp (s : State) : Result := .next ((s.freezeAll 4).resetOr 2)

/-! ## Boot, configuration, identity (R426 to R428) -/

/-- Boot after a package reset, or recovery where the bundle fails or the identity keys are gone (R428, R429). Hearth core 6 trains the enabled links (R424, R426); core 0 places the boot code of each partition and releases its application cores, which begin there in machine mode (R413). -/
def State.bootNow (s : State) (signaturesVerify : Bool) : State :=
  let h := s.hearth
  bif signaturesVerify && decide (h.fwMin ≤ h.fwVersion) && h.keys then
    let v := some h.fwVersion
    let s := ((s.modHearth fun h => { h with booted := true, recovery := false, boot := [v, bif h.config.unified then none else v] }).bootPartition 0).bootPartition 1
    (List.range 18).foldl (fun s l => bif h.config.linken.getLsbD l && s.linkIs l .down then s.setLink l .training else s) s
  else s.modHearth fun h => { h with booted := false, recovery := true }
/-- The configuration record that is to take effect is verified, and refused where it fails (R426, R428 step 3). -/
def State.verifyRecord (s : State) (ok : Bool) : State :=
  bif ok || s.hearth.nextConfig.isNone then s else (s.modHearth fun h => { h with nextConfig := none }).logEntry 1 5
/-- PACKAGE_RESET_BOOT: a package reset, which a machine that is as a package reset leaves it has had already; the configuration record that is to take effect is verified, and refused where it fails; then boot (R426, R428). -/
def execPackageResetBoot (verified : BootChecks) (s : State) : Result :=
  let s := s.verifyRecord verified.record
  let s := bif s.hearth.booted || s.hearth.recovery || s.hearth.nextConfig.isSome then s.resetPackage else s
  .next (s.bootNow verified.signatures)
/-- RECOVERY: a bundle that verifies is written to flash and the package is reset, and boots it, with the verification of the configuration record; three that fail make a level 1 entry (R428, R429). -/
def execRecovery (bundle : Bundle) (s : State) : Result :=
  let h := s.hearth
  .next (bif !h.recovery then s
    else bif bundle.signaturesVerify && decide (h.fwMin ≤ bundle.version) then
      ((s.modHearth fun h => { h with fwVersion := bundle.version, badBundles := 0 }).verifyRecord bundle.recordVerifies).resetPackage.bootNow true
    else bif decide (2 ≤ h.badBundles) then (s.modHearth fun h => { h with badBundles := 0 }).logEntry 1 6
    else s.modHearth fun h => { h with badBundles := h.badBundles + 1 })
/-- The fields of a configuration record lie in their ranges (R426). -/
def configOk (r : ConfigRecord) : Bool :=
  decide (r.svn < 2 ^ 32) && decide (1 ≤ r.linkrec) && decide (r.linkrec ≤ 1000) && decide (800 ≤ r.powercap) && decide (r.powercap ≤ 1600)
/-- CONFIG_RECORD_UPDATE: accepted for the next package reset, or refused with a level 1 entry (R426, R429). -/
def execConfigRecordUpdate (r : ConfigRecord) (signaturesVerify : Bool) (s : State) : Result :=
  .next (bif signaturesVerify && decide (s.hearth.svn ≤ r.svn) && configOk r then
      s.modHearth fun h => { h with nextConfig := some r, svn := max h.svn r.svn }
    else s.logEntry 1 5)
/-- The identity record's bytes in the order of R427. -/
def identityBytes (x : Identity) : List Byte :=
  ([0x54, 0x44, 0x5A, 0x32, 0x2D, 0x35, 0x31, 0x32].map fun (n : Nat) => BitVec.ofNat 8 n) ++ List.replicate 8 0#8 ++ [0xB0#8] ++
  natLe 8 x.serial.toNat ++ x.idpub ++ x.oppub ++ natLe 4 x.enrolled.toNat ++ x.sig
/-- Messages of a hearth core that carry bytes, 60 a message in BODY (DESIGN CHOICE: R397 leaves BODY to the receiver). -/
def State.answerBytes (s : State) (src dst : Nat) : Nat → List Byte → State
  | 0, _ => s
  | n + 1, bs =>
    let head := BitVec.ofNat 8 src :: (List.range 3).map fun k => Config.freeByte s.free (k + 64 * n)
    let body := bs.take 60 ++ List.replicate (60 - bs.length) 0#8
    (s.send src dst (head ++ body)).answerBytes src dst n (bs.drop 60)
/-- IDENTITY_REQUEST (R427). -/
def execIdentityRequest (part : Nat) (s : State) : Result :=
  let bs := identityBytes s.hearth.identity
  .next (s.answerBytes 0 (8 + part) ((bs.length + 59) / 60) bs)
/-- ENROLLMENT: the identity record is written, and the device leaves the recovery-only state (R427, R429). -/
def execEnrollment (r : Identity) (s : State) : Result := .next (s.modHearth fun h => { h with identity := r, keys := true })

/-! ## Telemetry and time (R420, R430) -/

/-- The temperature histograms of a record: 11 sensors of 16 bins; bins and sampling are open, so the counts are free values (R430). -/
def State.temps (s : State) : List (List Nat) := (List.range 11).map fun k => (List.range 16).map fun j => Config.sensor s.free (16 * k + j)
/-- TELEMETRY_RECORD: after 24 hours of operation the record is written to the ring of 4,096 and a new one begins (R430). -/
def execTelemetryRecord (s : State) : Result :=
  .next (bif decide (s.hearth.tele.start + dayNs ≤ s.now) then
      s.modHearth fun h => { h with ring := ({ h.tele with temps := s.temps } :: h.ring).take 4096, tele := { Telemetry.reset with start := s.now } }
    else s)
/-- A count in four bytes, at most 2^32 − 1. -/
def count4 (n : Nat) : List Byte := natLe 4 (min n 0xFFFFFFFF)
/-- The 4 KiB of a telemetry record: the counts per stack channel and of the temperature bins in 4 bytes each, the other counts in the order of R430 in 8 bytes each, then zeros; the layout is the model's choice (log entry 38). -/
def Telemetry.bytes (t : Telemetry) : List Byte :=
  let bs := natLe 8 t.start ++ (List.range 512).flatMap (fun k => count4 ((t.soft.lookup k).getD 0)) ++ (t.temps.flatten.take 176).flatMap count4 ++
   [t.capacity, t.forced, t.restarts, t.links.1, t.links.2, t.hearth.1, t.throttle, t.hearth.2.1, t.steps.length, t.hearth.2.2,
    t.lost.length, t.dropped, t.unwritten, t.ranges, t.late.length].flatMap (natLe 8)
  bs ++ List.replicate (4096 - bs.length) 0#8
/-- TELEMETRY_REQUEST: the records are returned, the one in progress first (R430). -/
def execTelemetryRequest (part : Nat) (s : State) : Result :=
  let bs := (s.hearth.tele :: s.hearth.ring).flatMap Telemetry.bytes
  .next (s.answerBytes 7 (8 + part) ((bs.length + 59) / 60) bs)
/-- PTP_CORRECTION: R is slewed by at most 500 ppm, and never stepped, where the configuration record enables PTP (R420, R426). -/
def execPtpCorrection (ppm : Int) (s : State) : Result :=
  .next (bif s.hearth.config.ptp then s.modHearth fun h => { h with slew := max (-500) (min 500 ppm) } else s)

end Sys2Proof.Machine
end

