-- ==== Sys2Proof/Machine/Outside.lean ====
section
/-! DEFINITION. Accesses of the application cores, the PCIe host and fabric peers to this device, its Ethernet ports and
PCIe root ports (05 R106, R107, 24 R412, R413, R423, R425). -/

namespace Sys2Proof.Machine

/-- The bytes of local memory that an access reads or writes. -/
def hostSpan : HostOp → Option (Nat × Nat)
  | .load pa n => some (pa, n)
  | .lr pa n => some (pa, n)
  | .sc pa n _ => some (pa, n)
  | .store pa bs => some (pa, bs.length)
  | .fetchAdd pa n _ => some (pa, n)
  | .swap pa n _ => some (pa, n)
  | .cas pa n _ _ => some (pa, n)
  | .amo pa n _ _ => some (pa, n)
  | .netSend _ _ pa n _ => some (pa, n)
  | .netReceive _ _ pa n => some (pa, n)
  | .blkRead _ pa bs => some (pa, bs.length)
  | .blkWrite _ pa n => some (pa, n)
  | _ => none
/-- An access that only reads. -/
def readsOnly : HostOp → Bool
  | .load _ _ => true
  | .lr _ _ => true
  | .netSend _ _ _ _ _ => true
  | .blkWrite _ _ _ => true
  | _ => false
/-- The partition of an agent outside the lane engine. -/
def State.partOfWho (s : State) (who : Nat) : Nat := whoPart s.hearth.config.unified who
/-- A partition's agents reach n bytes of local memory: they exist, on one stack whose port is open, or whose requests a hand-over holds (R253, R354, R368, R412). -/
def State.reaches (s : State) (part pa n : Nat) : Bool :=
  let last := pa + n - 1
  decide (0 < n) && region pa == 0 && region last == 0 && bits pa 39 9 == 0 && bits last 39 9 == 0 &&
  stackOf pa == stackOf last && (s.portOpen part (stackOf pa) || s.handing (stackOf pa))
/-- The virtual device that a write from outside the lane engine is charged to, where its page is mapped and not reserve-backed: the one that maps it (R332; log entry 40). -/
def State.outsideVd (s : State) (pa : Nat) : Option Nat :=
  match s.mapping pa with
  | some (v, l) => bif l.rb then none else some v
  | none => none
/-- A hand-over of its stack, for a write the suspended charge path of its page's virtual device, or an earlier held access of its partition to the stack holds an access (R253, R340, R369). -/
def State.holdsOutside (s : State) (part pa n : Nat) (reads : Bool) : Bool :=
  s.handing (stackOf pa) ||
  (!reads && (blocksIn pa n).any fun b => match s.outsideVd (b * 1024) with
    | some v => (s.charge v (b * 1024) false).2 == .held
    | none => false) ||
  s.store.heldOps.any fun x => s.partOfWho x.1 == part && match hostSpan x.2 with
    | some (q, _) => stackOf q == stackOf pa
    | none => false
/-- Charge the blocks of a write from outside; none where one is refused (R332). -/
def State.outsideCharge (s : State) : List Nat → Option State
  | [] => some s
  | b :: rest =>
    match s.outsideVd (b * 1024) with
    | none => s.outsideCharge rest
    | some v =>
      match s.charge v (b * 1024) false with
      | (s, .accepted) => s.outsideCharge rest
      | _ => none
/-- A write from outside the lane engine: charged, then committed. One whose charge is refused is lost and counted, as a write of the hearth is (log entry 40). -/
def State.outsidePut (s : State) (pa : Nat) (bs : List Byte) : State :=
  match s.outsideCharge (blocksIn pa bs.length) with
  | none => s.modTele fun t => { t with lost := t.lost ++ [((s.outsideVd pa).getD 0, 11, BitVec.ofNat 64 pa)] }
  | some s =>
    let ps := pageParts (bs.length / 65536 + 2) (BitVec.ofNat 64 pa) bs.length
    ps.foldl (fun s p =>
      let x := p.1.toNat
      let h11 := ((s.mapping x).map fun y => y.2.home == 3).getD false
      (s.writeCommitted noAgent none x ((bs.drop (x - pa)).take p.2)).settleHome h11 x p.2) s
/-- What an agent's access returns to it. -/
def State.returned (s : State) (who : Nat) (bs : List Byte) : State :=
  s.modHearth fun h => { h with answers := (who, bs) :: h.answers.filter fun x => x.1 != who }
/-- An atomic of 4 or 8 aligned bytes by an agent outside the lane engine, performed at once; the old value is returned (R100, R218). -/
def State.outsideAmo (s : State) (who pa n op : Nat) (b c : DWord) : State :=
  bif (n == 4 || n == 8) && pa % n == 0 then
    let w := 2 ^ (8 * n)
    let old := s.store.mem.getN pa n
    (s.outsidePut pa (natLe n (amoNew op n (leNat old) (b.toNat % w) (c.toNat % w)))).returned who old
  else s
/-- A hart holds a reservation of n bytes. -/
def State.reserved (s : State) (who pa n : Nat) : Bool := s.hearth.resv.elem (who, pa, n)
/-- A hart's reservation, replaced or given up. -/
def State.setResv (s : State) (who : Nat) (r : Option (Nat × Nat)) : State :=
  let rest := s.hearth.resv.filter fun x => x.1 != who
  s.modHearth fun h => { h with resv := match r with
    | some (pa, n) => (who, pa, n) :: rest
    | none => rest }
/-- SC: stores while the reservation stands, and may fail without cause, as RVWMO lets it; 0 is returned where it stores, else 1 (R107, R413; log entry 40). -/
def State.outsideSc (s : State) (who pa n : Nat) (x : DWord) : State :=
  let ok := s.reserved who pa n && Config.freeChoice s.free 6 who 0 0
  let s := s.setResv who none
  bif ok then (s.outsidePut pa (natLe n x.toNat)).returned who [0#8] else s.returned who [1#8]
/-! ## Ethernet ports and the drives' ports (R423, R425) -/

/-- Change an Ethernet port. -/
def State.modPort (s : State) (port : Nat) (f : EthPort → EthPort) : State := s.modHearth fun h => { h with ports := h.ports.modify port f }
/-- An Ethernet port. -/
def State.port (s : State) (port : Nat) : EthPort := s.hearth.ports.getD port EthPort.reset
/-- Something leaves the device. -/
def State.sends (s : State) (x : Sent) : State := s.modHearth fun h => { h with sent := h.sent ++ [x] }
/-- The class of a frame: the priority of its IEEE 802.1Q tag, 0 without one (PRESUMED from that standard: log entry 40). -/
def frameClass (bs : List Byte) : Nat :=
  bif bs.getD 12 0#8 == 0x81#8 && bs.getD 13 0#8 == 0#8 then (bs.getD 14 0#8).toNat / 32 else 0
/-- The sum of the 16-bit words of bytes, the upper byte first. -/
def wordSum : List Byte → Nat
  | a :: b :: rest => a.toNat * 256 + b.toNat + wordSum rest
  | [a] => a.toNat * 256
  | [] => 0
/-- A sum with its carries added in again. -/
def endAround (n : Nat) : Nat := n % 65536 + n / 65536
/-- A frame with the checksum of its bytes from a start put at an offset behind it, as VIRTIO_NET_F_CSUM has it (PRESUMED from that standard: log entry 40). -/
def fillSum (bs : List Byte) (start off : Nat) : List Byte :=
  let c := 65535 - endAround (endAround (wordSum (bs.drop start)))
  bs.take (start + off) ++ [BitVec.ofNat 8 (c / 256), BitVec.ofNat 8 c] ++ bs.drop (start + off + 2)
/-- A frame is sent, with its time, or waits while its class is paused (R423). -/
def State.transmit (s : State) (port : Nat) (bs : List Byte) : State :=
  bif (s.port port).paused.getLsbD (frameClass bs) then s.modPort port fun p => { p with held := p.held ++ [bs] }
  else s.sends (.frame port s.now bs)
/-- The classes that priority flow control pauses are set, and the frames of the others go on in their order (R423). -/
def State.pauseClasses (s : State) (port : Nat) (m : BitVec 8) : State :=
  (s.port port).held.foldl (fun s bs => s.transmit port bs) (s.modPort port fun p => { p with paused := m, held := [] })
/-- A frame of at most 9,216 bytes arrives: hearth core 6 hands it to a queue pair, with its time (R423). -/
def State.frameArrives (s : State) (port : Nat) (bs : List Byte) : State :=
  bif decide (9216 < bs.length) then s
  else s.modPort port fun p => { p with rx := p.rx ++ [(Config.rxPair s.free % p.pairs, s.now, bs)] }
/-- An agent's partition holds an Ethernet port (R8, R412). -/
def State.holdsPort (s : State) (who port : Nat) : Bool := decide (port < 2) && s.partOfWho who == s.partOfWho (96 + port)
/-- A driver's frame goes out through its port (R423). -/
def State.netSend (s : State) (who port pair pa n : Nat) (sum : Option (Nat × Nat)) : State :=
  let bs := s.store.mem.getN pa n
  bif s.holdsPort who port && decide (pair < (s.port port).pairs) && decide (n ≤ 9216) then
    s.transmit port (match sum with
      | some (start, off) => bif (s.port port).csum && decide (start + off + 2 ≤ n) then fillSum bs start off else bs
      | none => bs)
  else s
/-- The oldest frame of a queue pair goes into a driver's buffer, and its time and length are returned. What does not fit waits for the next buffer with VIRTIO_NET_F_MRG_RXBUF, and is lost without it (R423). -/
def State.netReceive (s : State) (who port pair pa n : Nat) : State :=
  match (s.port port).rx.find? fun x => x.1 == pair with
  | none => s
  | some (q, time, bs) =>
    bif !s.holdsPort who port then s
    else
      let left := bif (s.port port).mrg && decide (n < bs.length) then [(q, time, bs.drop n)] else []
      let before := (s.port port).rx.takeWhile fun x => x.1 != pair
      let s := s.modPort port fun p => { p with rx := before ++ left ++ p.rx.drop (before.length + 1) }
      (s.outsidePut pa (bs.take n)).returned who (natLe 8 time ++ natLe 4 bs.length)
/-- A partition has an NVMe namespace, which hearth core 6 presents as a block device (R423, R426). -/
def State.hasNamespace (s : State) (part : Nat) : Bool := !(s.hearth.config.nvme.getD part []).isEmpty
/-- The effect of a driver's access to its Ethernet port or block device, or of partition 0's operating system to the root ports (R423, R425). -/
def State.deviceOp (s : State) (who : Nat) : HostOp → State
  | .netSetup port csum mrg pairs =>
    bif s.holdsPort who port && decide (1 ≤ pairs) && decide (pairs ≤ 16) then
      s.modPort port fun p => { p with csum := csum, mrg := mrg, pairs := pairs }
    else s
  | .netSend port pair pa n sum => s.netSend who port pair pa n sum
  | .netReceive port pair pa n => s.netReceive who port pair pa n
  | .blkSetup flush discard => s.modHearth fun h => { h with blks := h.blks.set (s.partOfWho who) (flush, discard) }
  | .blkRead _ pa bs => bif s.hasNamespace (s.partOfWho who) then s.outsidePut pa bs else s
  | .blkWrite sector pa n =>
    bif s.hasNamespace (s.partOfWho who) then s.sends (.write (s.partOfWho who) sector (s.store.mem.getN pa n)) else s
  | .blkFlush =>
    bif s.hasNamespace (s.partOfWho who) && (s.hearth.blks.getD (s.partOfWho who) default).1 then s.sends (.flush (s.partOfWho who)) else s
  | .blkDiscard sector n =>
    bif s.hasNamespace (s.partOfWho who) && (s.hearth.blks.getD (s.partOfWho who) default).2 then
      s.sends (.discard (s.partOfWho who) sector n) else s
  | .ecamRead port _ bs => bif s.hearth.config.pcieRoot && s.partOfWho who == 0 && decide (port < 4) then s.returned who bs else s
  | .ecamWrite port reg bs => bif s.hearth.config.pcieRoot && s.partOfWho who == 0 && decide (port < 4) then s.sends (.config port reg bs) else s
  | _ => s

/-! ## Accesses -/

/-- The effect of an access that is admitted; a fence orders what is already performed. -/
def State.outsideNow (s : State) (who : Nat) : HostOp → State
  | .load pa n => s.returned who (s.store.mem.getN pa n)
  | .store pa bs => s.outsidePut pa bs
  | .fetchAdd pa n x => s.outsideAmo who pa n 0 x 0#64
  | .swap pa n x => s.outsideAmo who pa n 8 x 0#64
  | .cas pa n old new => s.outsideAmo who pa n 9 old new
  | .amo pa n op x => bif op != 9 && (decide (op < 9) || (op == 10 && n == 4)) then s.outsideAmo who pa n op x 0#64 else s
  | .lr pa n => bif (n == 4 || n == 8) && pa % n == 0 then (s.setResv who (some (pa, n))).returned who (s.store.mem.getN pa n) else s
  | .sc pa n x => bif (n == 4 || n == 8) && pa % n == 0 then s.outsideSc who pa n x else s
  | .doorbell q index => bif partOf (s.queue q).vd == s.partOfWho who then s.ring q index else s
  | .mailbox target sender msg => stateOr s (execMailboxMessage target sender (BitVec.ofNat 8 sender :: msg.drop 1) s)
  | .fence => s
  | op => s.deviceOp who op
/-- An agent's own order keeps an access behind one of its that is held: a FENCE of a hart those before and after it; the PCIe host, a drive and a peer keep theirs in posted order (R107). -/
def State.behindHeld (s : State) (who : Nat) (op : HostOp) : Bool :=
  s.store.heldOps.any fun x => x.1 == who && (decide (32 ≤ who) || x.2 == .fence || op == .fence)
/-- A message of a hart waits for a slot of a full mailbox (R397). -/
def State.boxFull (s : State) : HostOp → Bool
  | .mailbox target _ _ => decide (target < 8) && decide (32 ≤ (s.hearth.boxes.getD target []).length)
  | _ => false
/-- An access of an agent outside the lane engine is performed now, or held until it can be (R107, R253, R340). -/
def State.outsideDo (s : State) (who : Nat) (op : HostOp) : State :=
  let part := s.partOfWho who
  bif (match hostSpan op with
      | some (pa, n) => !s.reaches part pa n
      | none => false) then s
  else bif s.behindHeld who op || s.boxFull op || (match hostSpan op with
      | some (pa, n) => s.holdsOutside part pa n (readsOnly op)
      | none => false) then s.modStore fun m => { m with heldOps := m.heldOps ++ [(who, op)] }
  else s.outsideNow who op
/-- Try the held accesses again, oldest first (R340, R369). -/
def State.outsideResume (s : State) : State :=
  s.store.heldOps.foldl (fun s x => s.outsideDo x.1 x.2) (s.modStore fun m => { m with heldOps := [] })
/-- Reservations whose bytes a move has changed are lost (R107, R413). -/
def State.resvTest (old s : State) : State :=
  s.modHearth fun h => { h with resv := h.resv.filter fun x => old.store.mem.getN x.2.1 x.2.2 == s.store.mem.getN x.2.1 x.2.2 }
/-- The mailbox source of a hart: the supervisor or the hypervisor of its partition, by its mode; none in machine or user mode (R397). -/
def State.sourceMode (s : State) (hart : Nat) : Option Nat :=
  match (s.hearth.harts.getD hart hartReset).mode with
  | .supervisor => some (8 + s.partOfWho hart)
  | .hypervisor => some (10 + s.partOfWho hart)
  | _ => none
/-- APPLICATION_CORE_ACCESS: what a released core does. Its own registers stand as its instructions leave them; the mailbox window sets SRC from partition and mode; an interrupt identity of its partition is taken; partition 0's hypervisor sets what the PCIe host reaches (R107, R397, R413, R423, R425, R428). -/
def execApplicationCoreAccess (hart : Nat) (op : HostOp) (s : State) : Result :=
  let part := s.partOfWho hart
  let hyper := part == 0 && s.sourceMode hart == some 10
  bif !s.hearth.booted || decide (32 ≤ hart) then .next s
  else match op with
    | .claim id => .next (s.modHearth fun h => { h with irqs := h.irqs.erase (part, id) })
    | .retire x => .next (s.modHearth fun h => { h with harts := h.harts.set hart x })
    | .exportQueue q on => .next (bif hyper then
        s.modHearth fun h => { h with exported := bif on then q :: h.exported.erase q else h.exported.erase q } else s)
    | .setWindow base n => .next (bif hyper then s.modHearth fun h => { h with bar2 := some (base, n) } else s)
    | .mailbox target sender msg =>
      .next (bif s.sourceMode hart == some sender then s.outsideDo hart (.mailbox target sender msg) else s)
    | .frame _ => .next s
    | .pause _ => .next s
    | op => .next (s.outsideDo hart op)
/-- What the PCIe host may do in endpoint mode: read, write and AtomicOps of 32 and 64 bits in the BAR2 window, and the doorbells of exported queues through BAR0 (R425). -/
def State.hostMay (s : State) (op : HostOp) : Bool :=
  let inside := match hostSpan op, s.hearth.bar2 with
    | some (pa, n), some (base, len) => decide (base ≤ pa) && decide (pa + n ≤ base + len)
    | _, _ => false
  match op with
  | .load _ _ => inside
  | .store _ _ => inside
  | .fetchAdd _ _ _ => inside
  | .swap _ _ _ => inside
  | .cas _ _ _ _ => inside
  | .doorbell q _ => s.hearth.exported.elem q
  | _ => false
/-- What an NVMe drive on a root port may do: read and write partition 0's memory (R425). -/
def driveMay : HostOp → Bool
  | .load _ _ => true
  | .store _ _ => true
  | _ => false
/-- PCIE_HOST_ACCESS: by the host in endpoint mode, by the drive of one of the four ports in root mode; the ports belong to partition 0 (R107, R412, R425). -/
def execPcieHostAccess (x : PcieAccess) (s : State) : Result :=
  .next (bif s.hearth.config.pcieRoot then
      bif decide (x.port < 4) && driveMay x.op then s.outsideDo (32 + x.port) x.op else s
    else bif x.port == 0 && s.hostMay x.op then s.outsideDo 32 x.op else s)
/-- What a peer may do to this device: read, write, atomics (R106, R273). -/
def peerMay : HostOp → Bool
  | .load _ _ => true
  | .store _ _ => true
  | .fetchAdd _ _ _ => true
  | .swap _ _ _ => true
  | .cas _ _ _ _ => true
  | .amo _ _ _ _ => true
  | _ => false
/-- INBOUND_FABRIC_WRITE: a peer's write, atomic or remote SIGNAL over an UP Workar link, ports 0 to 17, or an Ethernet port, 32 or 33; over Ethernet also a frame for its network device, and flow control (R106, R273, R423). -/
def execInboundFabricWrite (port : Nat) (op : HostOp) (s : State) : Result :=
  .next (bif port == 32 || port == 33 then
      match op with
      | .frame bs => s.frameArrives (port - 32) bs
      | .pause m => s.pauseClasses (port - 32) m
      | op => bif peerMay op then s.outsideDo (64 + port) op else s
    else bif s.linkIs port .up && peerMay op then s.outsideDo (64 + port) op else s)

end Sys2Proof.Machine
end

