-- ==== Sys2Proof/Machine/Moves.lean ====
section
/-! DEFINITION. What surrounds the meaning of a move: time, the choice of the move, and what follows every move
(06 R134, R138, R140, 19 R339, R340, 22 R378, 24 R420, R430, R431). -/

namespace Sys2Proof.Machine

/-! ## Time and what follows a move -/

/-- The millisecond tick: the cords that wait are to be walked (R395). -/
def State.ageingDue (s : State) : State :=
  (List.range 32).foldl (fun s v => bif (s.cordOrder v).isEmpty then s else s.dueWalk v) s
/-- Time passes, after the walks that are due on this clock (R395), a carve-out raised for a share that waits (R422), the tenants that have become eligible (R416), the ends of restarts (R409), and the migrations off demanded stacks (R373): R in ns, every core's clock, the watchdogs, the throttle time (R64, R378, R420, R430). -/
def State.elapse (s : State) (dt dclk : Nat) : State :=
  bif dt == 0 && dclk == 0 then s else
  let s := (bif s.hearth.restart.isEmpty then s else s.restartsEnd).walksDue.raiseCarve.noteEverywhere.countIdle dt
  let s := bif s.store.loans.any (·.due.isSome) then s.loansLeave else s
  let cs := s.lanes.cores.map fun c => { c with clock := c.clock + dclk }
  let s := bif decide (s.hearth.mhz < 1700) then s.modTele fun t => { t with throttle := t.throttle + dt } else s
  let t : State := { s with lanes := { s.lanes with cores := cs }, now := s.now + dt }
  bif t.now / 1000000 == s.now / 1000000 then t else t.ageingDue
/-- Close balloon requests that have been met (R339). -/
def State.balloonTests (s : State) (vs : List Nat) : State :=
  vs.foldl (fun s v => bif (s.vdev v).balloon.due.isSome then s.balloonTest v else s) s
/-- Pages of the leaves of a virtual device that begin in a range. -/
def State.pagesWithin (s : State) (v : Nat) (va : DWord) (n : Nat) : Nat :=
  ((s.leaves v).map fun x => bif decide (va48 va ≤ va48 x.1) && decide (va48 x.1 < va48 va + n * 65536) then x.2.pages else 0).sum
/-- The leaf of an address of a virtual device that is defined. -/
def State.leafAt (s : State) (v : Nat) (va : DWord) : Option Leaf := bif (s.vdev v).state == .absent then none else s.walk v va
/-- Pages of 64 KiB that a virtual device maps in the range of a leaf. -/
def State.pagesIn (s : State) (v : Nat) (va : DWord) (n : Nat) : Nat :=
  match s.leafAt v va with
  | some l => bif decide (n ≤ l.pages) then n else s.pagesWithin v va n
  | none => s.pagesWithin v va n
/-- A move has mapped the page of a leaf anew: at a frame it did not have, or reserve-backed. -/
def State.mapsAnew (old : State) (v : Nat) (va : DWord) (l : Leaf) : Bool :=
  match old.leafAt v va with
  | some w => w.base != l.base || w.pages != l.pages || (l.rb && !w.rb) || (l.local && !w.local)
  | none => true
/-- A block's record once its page is mapped by a leaf: its sectors count for that virtual device, and on a reserve-backed page it carries no charge (R331, R335). -/
def Block.ownedBy (b : Block) (v : Nat) (l : Leaf) : Block :=
  bif l.maps (b.no * 1024) then { b with own := bif b.cls == 0 then none else some v, ch := bif l.rb then none else b.ch } else b
/-- The stored blocks of a page count for the virtual device that maps it. -/
def State.ownPage (s : State) (v : Nat) (l : Leaf) : State :=
  s.modStore fun m => { m with blocks := m.blocks.map fun b => b.ownedBy v l }
/-- The blocks of a page that a window holds: they carry a charge (R332). -/
def State.heldBlocks (s : State) (l : Leaf) : List Nat :=
  (s.store.blocks.filter fun b => l.maps (b.no * 1024) && (!b.dirty.isEmpty || s.versionHolds b.no || s.queued b.no)).map (·.no)
/-- A page that its virtual device maps anew, or that is reserve-backed no more: the blocks that a window holds are charged, where the reserve covers it (R332, R335). -/
def State.chargePage (s : State) (v : Nat) (l : Leaf) : State :=
  bif l.rb then s else (s.heldBlocks l).foldl (fun s no => s.chargeAs v (no * 1024) false) s
/-- A block of the page that a window holds carries no charge (R332). -/
def State.pageShort (s : State) (l : Leaf) : Bool := !l.rb && (s.heldBlocks l).any fun no => (s.block no).ch.isNone
/-- A mapping made anew that its virtual device may not have: its share's counters exceed the grant, a charge of its blocks is refused, or it takes the nominal ratio above the ceiling (R331, R332, R335, R349). -/
def State.mayNotMap (old s : State) (v : Nat) (va : DWord) (l : Leaf) : Bool :=
  let k := s.kshare v (stackOf l.base)
  (decide (old.pagesIn v va l.pages < l.pages) && !s.ratioOk v (s.grantOf v)) ||
  (l.local && (decide (k.grant < k.used + k.pend) || s.pageShort l))
/-- Hearth core 3 takes note of a mapping that a move has made, or refuses it: the leaf is left invalid (R331, R335, R349; log entry 36). -/
def State.noteMapping (old s : State) (v : Nat) (va : DWord) (l : Leaf) : State :=
  let t := bif l.local then (s.ownPage v l).chargePage v l else s
  bif old.mayNotMap t v va l then (s.setLeaf l.at_ (setBits l.e 0 1 0)).dropPage v (va48 va / 65536) else t
/-- A move has defined a virtual device, with the leaves that its tables hold by then. -/
def State.newlyDefined (old s : State) (v : Nat) : Bool := (old.vdev v).state == .absent && (s.vdev v).state == .ready
/-- What the tables map after a move that they did not before it (R331, R335, R349). -/
def State.noteMappings (old s : State) : State :=
  bif old.store.mem == s.store.mem && !(List.range 32).any (old.newlyDefined s) then s else
  (List.range 32).foldl (fun s v =>
    bif (s.vdev v).state == .absent || ((old.vdev v).state == .absent && !old.newlyDefined s v) then s
    else (s.leaves v).foldl (fun s x =>
      bif old.mapsAnew v x.1 x.2 then old.noteMapping s v x.1 x.2
      else bif x.2.local && !x.2.rb && ((old.leafAt v x.1).map Leaf.rb).getD false then s.chargePage v x.2 else s) s) s
/-- After a move: balloon requests that are met, held writes of the hearth, launch faults and resets that waited for their records (R410, R411), queues switched with their virtual devices (R400), held messages (R371, R418), messages taken (R397), and the model's own counters. -/
def State.wrapUp (s : State) : State :=
  let s := (s.balloonTests (List.range 32)).notePins
  let s := bif s.hearth.waiting.isEmpty then s else s.hearthResume
  let s := bif s.store.heldOps.isEmpty then s else s.outsideResume
  let s := bif s.lanes.launches.any (·.dying.isSome) then s.launchFaults else s
  let s := bif s.hearth.resets.isEmpty then s else s.resetsDue
  let s := s.noticesDue.queuesSwitched.messagesDue
  let s := bif s.hearth.boxes.all List.isEmpty then s else s.takeMessages
  { s with free := s.free + 1, moves := s.moves + 1 }
/-- What follows a move from a state that answers a next state: the bytes it overwrote in unread slots are kept (R399), the reservations whose bytes it changed are lost, its mappings are noted. -/
def afterMove (old : State) : Result → Result
  | .next s =>
    let s := bif old.queues.isEmpty then s else s.noteOver old
    .next (bif s.hearth.resv.isEmpty then old.noteMappings s else old.resvTest (old.noteMappings s)).wrapUp
  | r => r

/-! ## Services of the hearth (R409) -/

/-- The hearth core whose service an event is (R19, R409, R395, R400, R416, R418, R426, R427, R430). What hardware or the outside does is no service. -/
def serviceOf : Instr → Option Nat
  | .queueCreate _ _ => some 1
  | .queueReset _ _ => some 1
  | .queueDestroy _ => some 1
  | .queueDestroyComplete _ => some 1
  | .writeIndexNotice _ => some 1
  | .packetNop _ => some 1
  | .packetLaunch _ => some 1
  | .launchBilletStep _ => some 1
  | .launchDispatch _ => some 1
  | .packetCord _ => some 1
  | .packetWait _ => some 1
  | .waitConditionMet _ => some 1
  | .packetWrite _ => some 1
  | .packetSignal _ => some 1
  | .packetWrsigWrite _ => some 1
  | .packetWrsigSignal _ => some 1
  | .packetChainrun _ => some 1
  | .packetRanges _ => some 1
  | .kindling _ => some 1
  | .packetCompletion _ _ => some 1
  | .sharePlacement _ _ => some 2
  | .teamPlacement _ _ _ => some 2
  | .taskRestart _ _ => some 2
  | .cordScheduleWalk _ => some 2
  | .launchWatchdogExpiry _ => some 2
  | .vdevDescriptor _ _ => some 2
  | .carveoutChange _ _ => some 2
  | .makeResident _ _ _ _ => some 3
  | .replicaCreate _ _ _ => some 3
  | .replicaCollapse _ _ _ => some 3
  | .grantMove _ _ => some 3
  | .grantMessage _ _ _ => some 3
  | .balloonRequestOpen _ => some 3
  | .balloonDeadlineExpiry _ => some 3
  | .chargePathLift _ => some 3
  | .loanAgreement _ _ _ => some 3
  | .loanEnd _ _ => some 3
  | .loanDeadlineExpiry _ => some 3
  | .checkpoint _ => some 3
  | .taskFault _ => some 4
  | .tenantReset _ => some 4
  | .tenantClear _ => some 4
  | .clearingDone _ => some 4
  | .memoryError _ => some 4
  | .debugAccess _ _ => some 4
  | .debugResume _ => some 4
  | .debugStep _ => some 4
  | .debugKill _ => some 4
  | .debugDropMask _ _ => some 4
  | .sliceEnd _ => some 5
  | .budgetRefill _ _ => some 5
  | .contextSwap _ => some 5
  | .handlerBudgetExpiry _ => some 5
  | .runEnd _ => some 5
  | .ctxswRunEnd _ => some 5
  | .thermalThrottle _ => some 5
  | .linkEnable _ => some 6
  | .linkTrained _ => some 6
  | .ptpCorrection _ => some 6
  | .telemetryRecord => some 7
  | .telemetryRequest _ => some 7
  | .identityRequest _ => some 0
  | .configRecordUpdate _ _ => some 0
  | .enrollment _ => some 0
  | .hearthCoreTimeout _ => some 0
  | _ => none
/-- An event waits: it is a service of a hearth core that is being restarted (R409). -/
def State.serviceWaits (s : State) (ev : Instr) : Bool := (serviceOf ev).any s.hearth.restart.elem

/-! ## The choice of the next move -/

/-- What a move is: an instruction or event that exec performs on a state, or one performed on it already. -/
inductive Move where
  | run (i : Instr) (s : State)
  | done (s : State) (r : Result)
/-- An instruction fetched runs, or waits for the next clock where what comes after it has taken effect on this one (R13, R224). -/
def State.runInOrder (s0 s : State) (i : Instr) : Move :=
  match s.cur.agents with
  | a :: _ => bif s.inOrder i a then .run i (s.noteOrder i a) else .done s0 (.next s0)
  | [] => .run i s
/-- The owner's fragment is nominated and fetched: its instruction, or nothing where none issues (R134, R135). An owner whose turn it is not issues nothing (R138, R140). -/
def State.issueFrom (s : State) (o : Sys2Proof.Owner) : Move :=
  bif !s.hasTurn o then .done s (.next s)
  else match (s.nominate o).fetchCur with
  | (t, some i) => s.runInOrder t i
  | (t, none) => .done s (.next t)
/-- A scheduled move: a nomination, or another event, which waits for its hearth core behind the moves that are scheduled (R19, R409). -/
def State.scheduled (s : State) (ev : Instr) : Move :=
  match ev with
  | .sliceNomination o => s.issueFrom o
  | ev => bif s.serviceWaits ev then .done s (.next { s with sched := s.sched ++ [⟨1, 1, ev⟩] }) else .run ev s
/-- The owner has a ready thread, or one with an asynchronous cause to take. -/
def State.canIssue (s : State) (o : Sys2Proof.Owner) : Bool :=
  (s.ownerAgents o).any fun a => s.ready a || (s.running a && (s.agent a).status == .ready && (s.agent a).asyncNext.isSome)
/-- When an owner last issued in any class. -/
def State.lastMove (s : State) (o : Sys2Proof.Owner) : Nat := max (s.lastIssue true o) (s.lastIssue false o)
/-- Of the owners that can issue and have their turn, the one that issued least recently (R138, R140). -/
def State.nextOwner (s : State) : Option Sys2Proof.Owner :=
  (s.owners.filter fun o => s.canIssue o && s.hasTurn o).foldl (fun (b : Option Sys2Proof.Owner) o => match b with
    | some x => bif decide (s.lastMove o < s.lastMove x) then some o else some x
    | none => some o) none
/-- The k-th attempt of the machine's own events in a fixed rotation; an event that is not due leaves the state as it is. -/
def State.internal (s : State) (k : Nat) : Result :=
  let i := k / 64
  let ag := i % max 1 s.lanes.agents.length
  let g := i % max 1 s.lanes.groups.length
  let nsh := max 1 s.lanes.shares.length
  let sh := i % nsh
  let c := (s.share sh).core
  let slot := i / nsh % 8
  let t := i % max 1 s.lanes.tasks.length
  let l := i % max 1 s.lanes.launches.length
  let q := i % max 1 s.queues.length
  let core := i % 192
  let die := core / 96
  let cluster := core / 8 % 12
  let vd := i % 32
  match k % 64 with
  | 0 => execResultWriteback ag 0 s
  | 1 => execParkRelease ag s
  | 2 => execStoreQueueDrain (.group g) s
  | 3 => execStoreQueueDrain (.frontEnd ag) s
  | 4 => execStsBankWrite c (slot % 6) s
  | 5 => execShareRetire sh s
  | 6 => execTeamRetire t s
  | 7 => execTaskFault t s
  | 8 => execCommitRequest t s
  | 9 => execVersionCommit t s
  | 10 => execSharePlacement sh c s
  | 11 => execCopyStart c s
  | 12 => execCopyComplete c 0 s
  | 13 => execWeightLatch sh s
  | 14 => execMatrixOperation c s
  | 15 => execTilePathEntry c 0 s
  | 16 => execAdrainComplete c 0 s
  | 17 => execExtrapolationEntry c s
  | 18 => execChainEntry (.core c slot) s
  | 19 => execChainEnd (.core c slot) s
  | 20 => execHeldChargeDecided ag s
  | 21 => execCapacityWaitRestart t s
  | 22 => execCommitTokenGrant (i % 2) s
  | 23 => execBalloonRequestOpen vd s
  | 24 => execPacketNop q s
  | 25 => execPacketLaunch q s
  | 26 => execLaunchBilletStep q s
  | 27 => execLaunchDispatch q s
  | 28 => execPacketCompletion q 0 s
  | 29 => execTeamPlacement die cluster l s
  | 30 => execSpillComplete core s
  | 31 => execMatrixResetEnd core s
  | 32 => execDieDistributorRequest die l s
  | 33 => execClusterRangeHandout die cluster l s
  | 34 => execGangFormerPop core l s
  | 35 => execBinTimeout core (i / 192 % 64) s
  | 36 => execTaskRestart t ((s.task t).shares.map fun h => (s.share h).core) s
  | 37 => execLaunchWatchdogExpiry l s
  | 38 => execCordScheduleWalk vd s
  | 39 => execSliceEnd core s
  | 40 => execContextSwap core s
  | 41 => execHandlerBudgetExpiry core s
  | 42 => execRunEnd core s
  | 43 => execCtxswRunEnd core s
  | 44 => execBudgetRefill vd (i / 32 % 192) s
  | 45 => execCarveoutChangeEffect core s
  | 46 => execStackHandover (i % 8) s
  | 47 => execChainRecvwaitMet (.core c slot) s
  | 48 => execChainEntry (.hearth (i % 2) (i / 2 % 4)) s
  | 49 => execChainRecvwaitMet (.hearth (i % 2) (i / 2 % 4)) s
  | 50 => execChainEnd (.hearth (i % 2) (i / 2 % 4)) s
  | 51 => execWriteIndexNotice q s
  | 52 => execPacketCord q s
  | 53 => execPacketWait q s
  | 54 => execWaitConditionMet q s
  | 55 => execPacketWrite q s
  | 56 => execPacketSignal q s
  | 57 => execPacketWrsigWrite q s
  | 58 => execPacketWrsigSignal q s
  | 59 => execPacketChainrun q s
  | 60 => execPacketRanges q s
  | 61 => execBalloonDeadlineExpiry vd s
  | 62 => execGrantMove vd (i / 32 % 8) s
  | _ => match s.store.requests with
    | (v, vpn, d) :: _ => execMakeResident v (canon (vpn * 65536)) d true s
    | [] => .next s
/-- The hearth core whose service the k-th of the machine's own events is, as serviceOf has it (R409). -/
def ownService (k : Nat) : Option Nat :=
  let i := k % 64
  bif [24, 25, 26, 27, 28, 51, 52, 53, 54, 55, 56, 57, 58, 59, 60].elem i then some 1
  else bif [10, 29, 36, 37, 38].elem i then some 2
  else bif [23, 61, 62, 63].elem i then some 3
  else bif [7].elem i then some 4
  else bif [39, 40, 41, 42, 43, 44].elem i then some 5
  else none
/-- The move where nothing is scheduled: odd moves attempt the machine's own events, the others issue the least recently issued owner. -/
def State.unscheduled (s : State) : Move :=
  match bif s.moves % 2 == 1 then none else s.nextOwner with
  | some o => s.issueFrom o
  | none => .done s (bif (ownService (s.moves / 2)).any s.hearth.restart.elem then .next s else s.internal (s.moves / 2))
/-- The next move, after the time that passes before it. -/
def State.nextMove (s : State) : Move :=
  match s.sched with
  | x :: rest => ({ s with sched := rest } : State).elapse x.dt x.dclk |>.scheduled x.ev
  | [] => (s.elapse 1 1).unscheduled

/-! ## A program loaded from outside -/

/-- The virtual device of a loaded program: READY, with its root table at 0x1000. -/
def loadedVdev : Vdev := { Vdev.reset with desc := (Vdev.reset.desc.take 24) ++ natLe 8 0x1000 ++ Vdev.reset.desc.drop 32, state := .ready }
/-- The launch of a loaded program: one team of one group of 32 threads, privileged, its code at 0x10000. -/
def loadedLaunch : Launch :=
  { kernel := { kobj := 0x10000#64, mode := 0, gwidth := 32, cores := 1, ngroups := 1, nprod := 0, cregs := 255, pregs := 0,
                tiles := 8, cxc := 8, pxc := 0, fe := true, entries := (0, 0, 0), codesz := 4096 },
    par := { vd := 0, packet := none, tag := 0#32, args := 0#64, teams := 1, spad := 8192, policy := 0#32, seed := 0#32, tvec := 0x20000#64,
             flog := 0#64, flogn := 0, flogcnt := 0#64, wdog := 10000, vbudget := 16, deleg := 15#4, priv := true, hv := true,
             scope := 0, cord := false },
    prio := 0, order := 0, started := true, ended := false, fault := false, cursor := 0, retired := [],
    dist := { chip := (1, 1), die := [], cluster := [] }, idleNs := 0, waited := 0, records := 0, slots := [], level := [],
    nodes := [], billets := false, dying := none }
/-- The state with a program's bytes loaded, that nominates them next: to the group's thread 0, or to the front end. -/
def State.load (s : State) (bytes : List Byte) (fe : Bool) : State :=
  let l := s.lanes.launches.length
  let h := s.lanes.shares.length
  let g := s.lanes.groups.length
  let a := s.lanes.agents.length
  let s := s.modVdev 0 fun _ => loadedVdev
  let s := { s with lanes := { s.lanes with launches := s.lanes.launches ++ [loadedLaunch] } }
  let s := s.addTeam l 0 [0]
  let s := s.modAgents (fun x => { x with status := .ended }) ((List.range 31).map (a + 2 + ·))
  let s := (s.modShare h fun x => { x with state := .resident }).modCore 0 fun c => { c with slice := { Slice.reset with vd := some 0 } }
  let s := s.modStore fun m => { m with kshares := ⟨0, 0, 2 ^ 20, false⟩ :: m.kshares.filter fun k => !(k.vd == 0 && k.stack == 0) }
  let s := [(0x1000, natLe 8 0x2001), (0x2000, natLe 8 0x7F), (0x10000, bytes)].foldl (fun s x =>
    (s.chargeAs 0 x.1 false).putBytes x.1 x.2) s
  { s with sched := [⟨0, 0, .sliceNomination (bif fe then .frontEnd a else .group g)⟩] }

end Sys2Proof.Machine
end

