-- ==== Sys2Proof/Machine/Ray.lean ====
section
/-! DEFINITION. Ray instructions: BOXT, TRIT and REBIN (08 R196 to R203). -/

namespace Sys2Proof.Machine

/-! ## Exact rationals with infinities -/

/-- A quotient with a positive divisor. -/
structure Quot where
  n : Int
  d : Nat
  deriving DecidableEq, Repr, Inhabited
/-- A quotient, or an infinity. -/
inductive XQ where
  | ninf
  | fin (q : Quot)
  | pinf
  deriving DecidableEq, Repr, Inhabited
/-- x ≤ y. -/
def XQ.le : XQ → XQ → Bool
  | .ninf, _ => true
  | _, .pinf => true
  | .fin x, .fin y => decide (x.n * y.d ≤ y.n * x.d)
  | _, _ => false
/-- The smaller. -/
def XQ.min (x y : XQ) : XQ := bif x.le y then x else y
/-- The larger. -/
def XQ.max (x y : XQ) : XQ := bif x.le y then y else x
/-- A finite value as an integer count of 2^−149. -/
def count149 (x : Word) : Int :=
  match fp32 x with
  | .fin n m e => signed n (scaleTo m e (-149))
  | _ => 0
/-- An FP32 value that is no NaN. -/
def toXQ (x : Word) : XQ :=
  match fp32 x with
  | .inf n => bif n then .ninf else .pinf
  | _ => .fin ⟨count149 x, 1⟩
/-- An FP32 value is finite. -/
def finite (x : Word) : Bool :=
  match fp32 x with
  | .fin _ _ _ => true
  | _ => false
/-- p ÷ q for integers, q not 0. -/
def divInt (p q : Int) : Quot := ⟨bif decide (q < 0) then -p else p, q.natAbs⟩
/-- A quotient rounded into FP32; an exact zero is +0. -/
def Quot.round (x : Quot) (mode : RMode) : Word :=
  if x.n = 0 then 0#32
  else
    let k := 64 + Nat.log2 x.d
    let y := x.n.natAbs * 2 ^ k
    match sticky (y / x.d) (-(k : Int)) (y % x.d == 0) with
    | .fin _ m e => (toFp32 (.fin (decide (x.n < 0)) m e) mode).1
    | _ => 0#32

/-! ## BOXT (R197, R198) -/

/-- A ray: its eight words. -/
abbrev Ray := List Word
/-- Every component is finite (R196). -/
def Ray.ok (r : Ray) : Bool := r.all finite
/-- Component k of a ray as a count of 2^−149. -/
def Ray.at_ (r : Ray) (k : Nat) : Int := count149 (r.getD k 0#32)
/-- (b − o) ÷ d for a bound that may be infinite and d not 0. -/
def slabEnd (b : XQ) (o d : Int) : XQ :=
  match b with
  | .ninf => bif decide (0 < d) then .ninf else .pinf
  | .pinf => bif decide (0 < d) then .pinf else .ninf
  | .fin x => .fin (divInt (x.n - o) d)
/-- The slab of one axis, none for a miss (R198). -/
def slab (lo hi : XQ) (o d : Int) : Option (XQ × XQ) :=
  if !lo.le hi then none
  else if d = 0 then
    (if lo.le (.fin ⟨o, 1⟩) && (XQ.fin ⟨o, 1⟩).le hi then some (.ninf, .pinf) else none)
  else
    let p := slabEnd lo o d
    let q := slabEnd hi o d
    some (p.min q, p.max q)
/-- t in the ray's own unit: a count of 2^−149 over 2^149. -/
def Ray.tAt (r : Ray) (k : Nat) : XQ := .fin ⟨r.at_ k, 2 ^ 149⟩
/-- tnear of a child that is hit (R198): its six bounds and its child word. -/
def boxChild (r : Ray) (bs : List Word) (child : Nat) : Option Quot :=
  let kind := child % 8
  if kind = 0 ∨ 4 ≤ kind ∨ bits child 48 16 ≠ 0 ∨ bs.any (fun b => (fp32 b).isNan) ∨ !r.ok then none
  else
    match slab (toXQ (bs.getD 0 0)) (toXQ (bs.getD 3 0)) (r.at_ 0) (r.at_ 3),
      slab (toXQ (bs.getD 1 0)) (toXQ (bs.getD 4 0)) (r.at_ 1) (r.at_ 4),
      slab (toXQ (bs.getD 2 0)) (toXQ (bs.getD 5 0)) (r.at_ 2) (r.at_ 5) with
    | some x, some y, some z =>
      let tnear := (((r.tAt 6).max x.1).max y.1).max z.1
      let tfar := (((r.tAt 7).min x.2).min y.2).min z.2
      if tnear.le tfar then
        match tnear with
        | .fin q => some q
        | _ => none
      else none
    | _, _, _ => none
/-- Insert a child into an order of ascending tnear, after those not above it. -/
def insertHit (j : Nat) (q : Quot) : List (Nat × Quot) → List (Nat × Quot)
  | [] => [(j, q)]
  | (k, p) :: rest => bif (XQ.fin p).le (.fin q) then (k, p) :: insertHit j q rest else (j, q) :: (k, p) :: rest
/-- The five result words of BOXT (R198). -/
def boxResult (ts : List (Option Quot)) : List Word :=
  let hits := ts.zipIdx.filterMap fun (t, j) => t.map fun q => (j, q)
  let order := (hits.foldl (fun l (j, q) => insertHit j q l) []).map (·.1) ++
    (ts.zipIdx.filterMap fun (t, j) => bif t.isNone then some j else none)
  let head := hits.length * 65536 +
    (order.zipIdx.map fun (j, k) => j * 2 ^ (8 + 2 * k)).sum + (hits.map fun (j, _) => 2 ^ j).sum
  BitVec.ofNat 32 head :: ts.map fun t => match t with
    | some q => q.round .rdn
    | none => 0x7F800000#32
/-- BOXT on a ray and the 128 bytes of a node. -/
def vBoxt (r : Ray) (bs : List Byte) : List Word :=
  boxResult ((List.range 4).map fun j =>
    boxChild r ((List.range 6).map fun k => BitVec.ofNat 32 (field bs (24 * j + 4 * k) 4)) (field bs (96 + 8 * j) 8))

/-! ## TRIT (R199, R200) -/

/-- A vector of three integers. -/
abbrev V3 := Int × Int × Int
/-- Difference. -/
def V3.sub (a b : V3) : V3 := (a.1 - b.1, a.2.1 - b.2.1, a.2.2 - b.2.2)
/-- Dot product. -/
def V3.dot (a b : V3) : Int := a.1 * b.1 + a.2.1 * b.2.1 + a.2.2 * b.2.2
/-- Cross product. -/
def V3.cross (a b : V3) : V3 :=
  (a.2.1 * b.2.2 - a.2.2 * b.2.1, a.2.2 * b.1 - a.1 * b.2.2, a.1 * b.2.1 - a.2.1 * b.1)
/-- What TRIT finds: t, the two coordinates, the identifier. -/
structure TriHit where
  t : Quot
  u : Quot
  v : Quot
  id : Word
  deriving DecidableEq, Repr
/-- TRIT on a ray and the 48 bytes of a record; none is a miss (R199, R200). All lengths count 2^−149. -/
def vTrit (r : Ray) (bs : List Byte) : Option TriHit :=
  let w := fun k => BitVec.ofNat 32 (field bs (4 * k) 4)
  let v := fun j => ((count149 (w (3 * j)), count149 (w (3 * j + 1)), count149 (w (3 * j + 2))) : V3)
  let fl := field bs 40 4
  let o : V3 := (r.at_ 0, r.at_ 1, r.at_ 2)
  let d : V3 := (r.at_ 3, r.at_ 4, r.at_ 5)
  let e := V3.sub (v 0) o
  let f := V3.sub (v 1) o
  let g := V3.sub (v 2) o
  let e0 := V3.dot d (V3.cross f g)
  let e1 := V3.dot d (V3.cross g e)
  let e2 := V3.dot d (V3.cross e f)
  let sum := e0 + e1 + e2
  if !r.ok ∨ (List.range 9).any (fun k => !finite (w k)) ∨ fl / 4 ≠ 0 ∨ field bs 44 4 ≠ 0 then none
  else if (e0 = 0 ∧ e1 = 0 ∧ e2 = 0) ∨ ¬((0 ≤ e0 ∧ 0 ≤ e1 ∧ 0 ≤ e2) ∨ (e0 ≤ 0 ∧ e1 ≤ 0 ∧ e2 ≤ 0)) then none
  else if (0 < sum ∧ fl % 2 = 1) ∨ (sum < 0 ∧ fl / 2 % 2 = 1) then none
  else
    let t := divInt (V3.dot e (V3.cross (V3.sub (v 1) (v 0)) (V3.sub (v 2) (v 0)))) sum
    if (r.tAt 6).le (.fin t) && !(r.tAt 7).le (.fin t) then some ⟨t, divInt e1 sum, divInt e2 sum, w 9⟩ else none

/-! ## Meanings -/

/-- The ray block from a register on (R196). -/
def State.rayAt (s : State) (ag : Nat) (a : Reg) : Ray := (List.range 8).map fun k => s.regN ag (10 + k) (a.toNat + k)
/-- BOXT of one thread. -/
def State.boxt1 (s : State) (ag : Nat) (d a b : Reg) : State × Fate :=
  match s.readRecord ag (s.b64 ag (.reg b)) 128 128 (accInfo 128 false false) with
  | (s, .error f) => (s, f)
  | (s, .ok bs) =>
    (s.out ag true false ((vBoxt (s.rayAt ag a) bs).zipIdx.map fun (x, k) => toRegN (d.toNat + k) x) 0#5, .next)
/-- TRIT of one thread. -/
def State.trit1 (s : State) (ag : Nat) (clip : Bool) (d a b : Reg) (pc : BitVec 3) : State × Fate :=
  match s.readRecord ag (s.b64 ag (.reg b)) 48 16 (accInfo 48 false false) with
  | (s, .error f) => (s, f)
  | (s, .ok bs) =>
    match vTrit (s.rayAt ag a) bs with
    | none => (s.out ag true false [toPred pc false] 0#5, .next)
    | some h =>
      (s.out ag true false
        ([toRegN d.toNat (h.t.round .rne), toRegN (d.toNat + 1) (h.u.round .rne), toRegN (d.toNat + 2) (h.v.round .rne),
          toRegN (d.toNat + 3) h.id, toPred pc true] ++
         bif clip then [toRegN (a.toNat + 7) (h.t.round .rdn)] else []) 0#5, .next)
/-- REBIN of one thread: the billet, then the end (R201, R202). In a settled task its entry is a release, so its stores drain first. The billet has the issuing task's priority: the model's choice, log entry 52. -/
def State.rebin1 (s : State) (ag : Nat) (b a : Reg) (off : Disp) : State × Fate :=
  s.onceSettled ag fun s =>
    let t := s.taskOf ag
    let bill : Billet := ⟨s.pcOf ag + (Disp64 off <<< 2), (s.a64 ag a).setWidth 48, 0#16⟩
    let bin := ((s.b32 ag (.reg b)).extractLsb' 0 6).toNat
    if s.unsettled t then
      let s := s.modTask t fun k => { k with ver := { k.ver with held := k.ver.held ++ [.rebin (s.coreOf ag) bin bill] } }
      (s.endAgent ag, .own)
    else
      match s.drainIssuer ag with
      | (s, false) => (s, .stall)
      | (s, true) => ((s.fileBillet (s.coreOf ag) bin (s.launchOf ag) (bill, none, (s.task t).prio)).endAgent ag, .own)

/-- BOXT (R198). -/
def execBoxt (c0 : Ctl) (d : Reg) (a : Reg) (b : Reg) (s : State) : Result :=
  .next (s.issue (.boxt c0 d a b) (perThread fun ag s => s.boxt1 ag d a b))
/-- TRIT (R200). -/
def execTrit (c0 : Ctl) (clip : Bool) (d : Reg) (a : Reg) (b : Reg) (pc : BitVec 3) (s : State) : Result :=
  .next (s.issue (.trit c0 clip d a b pc) (perThread fun ag s => s.trit1 ag clip d a b pc))
/-- REBIN (R201). -/
def execRebin (c0 : Ctl) (b : Reg) (a : Reg) (off : Disp) (s : State) : Result :=
  .next (s.issue (.rebin c0 b a off) (perThread fun ag s => s.rebin1 ag b a off))

end Sys2Proof.Machine
end

