-- ==== Sys2Proof/Machine/TaskEng.lean ====
section
/-! DEFINITION. Task-engine instructions: SPAWN, ENQN, JDEC, SETTLE, TASKQ (22 R387 to R393). -/

namespace Sys2Proof.Machine

/-- The launch of an agent. -/
def State.launchFor (s : State) (ag : Nat) : Launch := s.launch (s.launchOf ag)
/-- Cause 0x05 of the task engine with its reason (R388). -/
def taskTrap (reason : Nat) : Fate := .trap 0x05 0#64 (BitVec.ofNat 32 reason)
/-- The free slot that a new billet takes: the lowest-numbered one, where R389 says only a free slot. DESIGN CHOICE (log entry 30), unsafe: the slot's number stands in the handle. -/
def Launch.freeSlot (l : Launch) : Option Nat := l.slots.findIdx? fun x => x.state == .free
/-- The handle of a slot (R384). -/
def Launch.handle (l : Launch) (n : Nat) : Word := (l.slots.getD n default).gen ++ BitVec.ofNat 24 n
/-- Put a billet in a slot: entered at once by a settled task, reserved and entered at the commit by an unsettled one (R384, R389). -/
def State.putBillet (s : State) (ag n : Nat) (b : Billet) (prio : Nat) (record : Option (Nat × Nat)) : State :=
  let t := s.taskOf ag
  let l := s.launchOf ag
  let s := s.modSlot l n fun y => { y with state := .reserved, billet := b, prio := prio, record := record }
  bif s.unsettled t then s.modTask t fun k => { k with ver := { k.ver with held := k.ver.held ++ [.slot n] } }
  else s.enterSlot l n
/-- A release of the issuer's writes before an entry (R389, R391); in an unsettled task it is part of the commit. -/
def State.releaseOwn (s : State) (ag : Nat) (k : State → State × Fate) : State × Fate :=
  if s.unsettled (s.taskOf ag) then k s
  else
    match s.drainIssuer ag with
    | (s, false) => (s, .stall)
    | (s, true) => k s
/-- SPAWN (R388, R389). -/
def State.spawn1 (s : State) (ag : Nat) (d : Reg) (frame : DWord) (join : Word) (prio : Option Nat) (off : DWord) : State × Fate :=
  let l := s.launchFor ag
  if !l.billets then (s, taskTrap 19)
  else
    match l.freeSlot with
    | none => (s, .wait .slots)
    | some n =>
      s.releaseOwn ag fun s =>
        let b : Billet := ⟨(s.agent ag).pc + 4#64 * off, frame.setWidth 48, join.setWidth 16⟩
        let h := (s.launchFor ag).handle n
        let s := s.putBillet ag n b (prio.getD (s.task (s.taskOf ag)).prio) none
        (s.out ag true false [toReg d h] 0#5, .next)
/-- The free record slot that ENQN takes: the lowest-numbered one, where R390 says only a free slot. DESIGN CHOICE (log entry 30), unsafe: the slot's address stands in FRAME. -/
def Node.freeRecord (x : Node) : Option Nat := (List.range x.qcap).find? fun j => !x.used.elem j
/-- ENQN (R388, R390). -/
def State.enqn1 (s : State) (ag : Nat) (ea : DWord) (b : Word) : State × Fate :=
  let l := s.launchFor ag
  let v := s.vdOf ag
  if !l.billets || l.nodes.isEmpty then (s, taskTrap 19)
  else
    match l.nodes[b.toNat]? with
    | none => (s, taskTrap 22)
    | some x =>
      match s.readRecord ag ea x.rsize 16 0#32 with
      | (s, .error f) => (s, f)
      | (s, .ok bs) =>
        match x.freeRecord, (s.launchFor ag).freeSlot with
        | some j, some n =>
          s.releaseOwn ag fun s =>
            let at_ := x.qbase + BitVec.ofNat 64 (j * x.rsize)
            let s := s.hearthPost v 9 at_ (.store bs)
            let s := s.modLaunch (s.launchOf ag) fun y =>
              { y with nodes := y.nodes.modify b.toNat fun z => { z with used := z.used ++ [j] } }
            (s.putBillet ag n ⟨x.code, at_.setWidth 48, 0#16⟩ x.prio (some (b.toNat, j)), .next)
        | _, _ => (s, .wait .slots)
/-- JDEC (R388, R391). -/
def State.jdec1 (s : State) (ag : Nat) (d : Reg) (handle : Word) (n : BitVec 16) : State × Fate :=
  let t := s.taskOf ag
  if !(s.launchFor ag).billets then (s, taskTrap 19)
  else if s.unsettled t ∧ d = 255#8 then
    (s.modTask t fun k =>
      { k with ver := { k.ver with held := k.ver.held ++ [.jdec handle n (s.agent ag).pc (s.tidWord ag)] } }, .next)
  else
    s.committing t true fun s =>
      s.releaseOwn ag fun s =>
        match s.jdecOn (s.launchOf ag) handle n with
        | .error r => (s, taskTrap r)
        | .ok (s, j) => (s.out ag true false [toReg d (j.setWidth 32)] 0#5, .next)
/-- SETTLE: after the thread's results are written, the version is committed (R392). -/
def State.settle1 (s : State) (ag : Nat) : State × Fate :=
  s.onceSettled ag fun s => s.committing (s.taskOf ag) true fun s => (s, .next)
/-- Write a value of TASKQ. -/
def State.outNat (s : State) (ag : Nat) (d : Reg) (x : Nat) : State × Fate :=
  (s.out ag true false [toReg d (BitVec.ofNat 32 x)] 0#5, .next)
/-- Ready billets of a launch at a priority (R393). -/
def Launch.readyAt (l : Launch) (p : Nat) : Nat := (l.level.filter fun n => (l.slots.getD n default).prio == p).length
/-- Records of a node whose billets wait in the store (R393). -/
def Launch.waitingRecords (l : Launch) (n : Nat) : Nat :=
  (l.slots.filter fun x => x.state == .ready && (x.record.map (·.1)) == some n).length

/-- SPAWN (R389). -/
def execSpawn (c0 : Ctl) (d : Reg) (a : Reg) (b : Reg) (c : Reg) (off : Disp) (s : State) : Result :=
  .next (s.issue (.spawn c0 d a b c off) (perThread fun ag s =>
    s.spawn1 ag d (s.a64 ag a) (s.b32 ag (.reg b)) (bif c == 255#8 then none else some ((s.c32 ag c).toNat % 256)) (Disp64 off)))

/-- ENQN (R390). -/
def execEnqn (c0 : Ctl) (a : Reg) (b : Src) (s : State) : Result :=
  .next (s.issue (.enqn c0 a b) (perThread fun ag s => s.enqn1 ag (s.a64 ag a) (s.b32 ag b)))

/-- JDEC (R391). -/
def execJdec (c0 : Ctl) (d : Reg) (a : Reg) (b : Src) (s : State) : Result :=
  .next (s.issue (.jdec c0 d a b) (perThread fun ag s => s.jdec1 ag d (s.a32 ag a) ((s.b32 ag b).setWidth 16)))

/-- SETTLE (R392). -/
def execSettle (c0 : Ctl) (s : State) : Result :=
  .next (s.issue (.settle c0) (perThread fun ag s => s.settle1 ag))

/-- TASKQ.prio (R393). -/
def execTaskqPrio (c0 : Ctl) (d : Reg) (b : Src) (s : State) : Result :=
  .next (s.issue (.taskqPrio c0 d b) (perThread fun ag s => s.outNat ag d (s.task (s.taskOf ag)).prio))

/-- TASKQ.restart (R393). -/
def execTaskqRestart (c0 : Ctl) (d : Reg) (b : Src) (s : State) : Result :=
  .next (s.issue (.taskqRestart c0 d b) (perThread fun ag s => s.outNat ag d (s.task (s.taskOf ag)).restarts.n))

/-- TASKQ.settled (R393). -/
def execTaskqSettled (c0 : Ctl) (d : Reg) (b : Src) (s : State) : Result :=
  .next (s.issue (.taskqSettled c0 d b) (perThread fun ag s => s.outNat ag d (bif s.unsettled (s.taskOf ag) then 0 else 1)))

/-- TASKQ.vlines (R393). -/
def execTaskqVlines (c0 : Ctl) (d : Reg) (b : Src) (s : State) : Result :=
  .next (s.issue (.taskqVlines c0 d b) (perThread fun ag s => s.outNat ag d (s.task (s.taskOf ag)).ver.lines))

/-- TASKQ.bqueue (R393). -/
def execTaskqBqueue (c0 : Ctl) (d : Reg) (b : Src) (s : State) : Result :=
  .next (s.issue (.taskqBqueue c0 d b) (perThread fun ag s => s.outNat ag d ((s.launchFor ag).readyAt ((s.b32 ag b).toNat % 256))))

/-- TASKQ.nqueue (R393). -/
def execTaskqNqueue (c0 : Ctl) (d : Reg) (b : Src) (s : State) : Result :=
  .next (s.issue (.taskqNqueue c0 d b) (perThread fun ag s => s.outNat ag d ((s.launchFor ag).waitingRecords (s.b32 ag b).toNat)))

/-- TASKQ.cursor (R393). -/
def execTaskqCursor (c0 : Ctl) (d : Reg) (b : Src) (s : State) : Result :=
  .next (s.issue (.taskqCursor c0 d b) (perThread fun ag s => s.outNat ag d (s.launchFor ag).cursor))

end Sys2Proof.Machine
end

