-- ==== Sys2Proof/Machine/Dispatch.lean ====
section
/-! DEFINITION. The one dispatch: one arm per constructor of Instr, each a direct call of that row's meaning. -/

namespace Sys2Proof.Machine

/-- The meaning of each row of the opcode table, by constructor. -/
def exec (i : Instr) (s : State) : Host.Outcome State Fault Refusal :=
  match i with
  | .ill x w l => Sys2Proof.Machine.execIll x w l s
  | .mov w d b => Sys2Proof.Machine.execMov w d b s
  | .movExt c0 d b => Sys2Proof.Machine.execMovExt c0 d b s
  | .add w d a b => Sys2Proof.Machine.execAdd w d a b s
  | .addExt c0 sat d a b => Sys2Proof.Machine.execAddExt c0 sat d a b s
  | .sub w d a b => Sys2Proof.Machine.execSub w d a b s
  | .subExt c0 sat d a b => Sys2Proof.Machine.execSubExt c0 sat d a b s
  | .mul w d a b => Sys2Proof.Machine.execMul w d a b s
  | .mulExt c0 d a b => Sys2Proof.Machine.execMulExt c0 d a b s
  | .mulh w d a b => Sys2Proof.Machine.execMulh w d a b s
  | .mulhExt c0 u d a b => Sys2Proof.Machine.execMulhExt c0 u d a b s
  | .mad c0 d a b c => Sys2Proof.Machine.execMad c0 d a b c s
  | .min w d a b => Sys2Proof.Machine.execMin w d a b s
  | .minExt c0 u d a b => Sys2Proof.Machine.execMinExt c0 u d a b s
  | .max w d a b => Sys2Proof.Machine.execMax w d a b s
  | .maxExt c0 u d a b => Sys2Proof.Machine.execMaxExt c0 u d a b s
  | .and w d a b => Sys2Proof.Machine.execAnd w d a b s
  | .andExt c0 d a b => Sys2Proof.Machine.execAndExt c0 d a b s
  | .or w d a b => Sys2Proof.Machine.execOr w d a b s
  | .orExt c0 d a b => Sys2Proof.Machine.execOrExt c0 d a b s
  | .xor w d a b => Sys2Proof.Machine.execXor w d a b s
  | .xorExt c0 d a b => Sys2Proof.Machine.execXorExt c0 d a b s
  | .shl w d a b => Sys2Proof.Machine.execShl w d a b s
  | .shlExt c0 d a b => Sys2Proof.Machine.execShlExt c0 d a b s
  | .shr w d a b => Sys2Proof.Machine.execShr w d a b s
  | .shrExt c0 d a b => Sys2Proof.Machine.execShrExt c0 d a b s
  | .sar w d a b => Sys2Proof.Machine.execSar w d a b s
  | .sarExt c0 d a b => Sys2Proof.Machine.execSarExt c0 d a b s
  | .rot w d a b => Sys2Proof.Machine.execRot w d a b s
  | .rotExt c0 d a b => Sys2Proof.Machine.execRotExt c0 d a b s
  | .bfx w d a b => Sys2Proof.Machine.execBfx w d a b s
  | .bfxExt c0 sgn d a b => Sys2Proof.Machine.execBfxExt c0 sgn d a b s
  | .bfi c0 d a b c => Sys2Proof.Machine.execBfi c0 d a b c s
  | .sel c0 n d a b p => Sys2Proof.Machine.execSel c0 n d a b p s
  | .cmp c0 cc pd a b => Sys2Proof.Machine.execCmp c0 cc pd a b s
  | .plog c0 lut pd pa pb pc => Sys2Proof.Machine.execPlog c0 lut pd pa pb pc s
  | .lea w d a b => Sys2Proof.Machine.execLea w d a b s
  | .leaExt c0 sh u d a b => Sys2Proof.Machine.execLeaExt c0 sh u d a b s
  | .add64 c0 d a b => Sys2Proof.Machine.execAdd64 c0 d a b s
  | .sub64 c0 d a b => Sys2Proof.Machine.execSub64 c0 d a b s
  | .shl64 c0 d a b => Sys2Proof.Machine.execShl64 c0 d a b s
  | .shr64 c0 d a b => Sys2Proof.Machine.execShr64 c0 d a b s
  | .cmp64 c0 cc pd a b => Sys2Proof.Machine.execCmp64 c0 cc pd a b s
  | .abs c0 sat d a => Sys2Proof.Machine.execAbs c0 sat d a s
  | .neg c0 sat d a => Sys2Proof.Machine.execNeg c0 sat d a s
  | .not c0 d a => Sys2Proof.Machine.execNot c0 d a s
  | .popc c0 d a => Sys2Proof.Machine.execPopc c0 d a s
  | .clz c0 d a => Sys2Proof.Machine.execClz c0 d a s
  | .brev c0 d a => Sys2Proof.Machine.execBrev c0 d a s
  | .sext8 c0 d a => Sys2Proof.Machine.execSext8 c0 d a s
  | .sext16 c0 d a => Sys2Proof.Machine.execSext16 c0 d a s
  | .zext8 c0 d a => Sys2Proof.Machine.execZext8 c0 d a s
  | .zext16 c0 d a => Sys2Proof.Machine.execZext16 c0 d a s
  | .csrr w d num => Sys2Proof.Machine.execCsrr w d num s
  | .csrrExt c0 d num => Sys2Proof.Machine.execCsrrExt c0 d num s
  | .csrw w a num => Sys2Proof.Machine.execCsrw w a num s
  | .csrwExt c0 a num => Sys2Proof.Machine.execCsrwExt c0 a num s
  | .nop w => Sys2Proof.Machine.execNop w s
  | .fadd w d a b => Sys2Proof.Machine.execFadd w d a b s
  | .faddExt c0 rm d a b => Sys2Proof.Machine.execFaddExt c0 rm d a b s
  | .fsub w d a b => Sys2Proof.Machine.execFsub w d a b s
  | .fsubExt c0 rm d a b => Sys2Proof.Machine.execFsubExt c0 rm d a b s
  | .fmul w d a b => Sys2Proof.Machine.execFmul w d a b s
  | .fmulExt c0 rm d a b => Sys2Proof.Machine.execFmulExt c0 rm d a b s
  | .ffma c0 rm d a b c => Sys2Proof.Machine.execFfma c0 rm d a b c s
  | .fmin w d a b => Sys2Proof.Machine.execFmin w d a b s
  | .fminExt c0 d a b => Sys2Proof.Machine.execFminExt c0 d a b s
  | .fmax w d a b => Sys2Proof.Machine.execFmax w d a b s
  | .fmaxExt c0 d a b => Sys2Proof.Machine.execFmaxExt c0 d a b s
  | .fcmp c0 cc pd a b => Sys2Proof.Machine.execFcmp c0 cc pd a b s
  | .fabs c0 d a => Sys2Proof.Machine.execFabs c0 d a s
  | .fneg c0 d a => Sys2Proof.Machine.execFneg c0 d a s
  | .fclass c0 d a => Sys2Proof.Machine.execFclass c0 d a s
  | .frint c0 rm d a => Sys2Proof.Machine.execFrint c0 rm d a s
  | .frcp c0 d a => Sys2Proof.Machine.execFrcp c0 d a s
  | .frsq c0 d a => Sys2Proof.Machine.execFrsq c0 d a s
  | .fsqrt c0 rm d a => Sys2Proof.Machine.execFsqrt c0 rm d a s
  | .fexp2 c0 d a => Sys2Proof.Machine.execFexp2 c0 d a s
  | .flog2 c0 d a => Sys2Proof.Machine.execFlog2 c0 d a s
  | .fsin c0 d a => Sys2Proof.Machine.execFsin c0 d a s
  | .fcos c0 d a => Sys2Proof.Machine.execFcos c0 d a s
  | .hadd2 c0 rm fmt d a b => Sys2Proof.Machine.execHadd2 c0 rm fmt d a b s
  | .hmul2 c0 rm fmt d a b => Sys2Proof.Machine.execHmul2 c0 rm fmt d a b s
  | .hfma2 c0 rm fmt d a b c => Sys2Proof.Machine.execHfma2 c0 rm fmt d a b c s
  | .hmin2 c0 fmt d a b => Sys2Proof.Machine.execHmin2 c0 fmt d a b s
  | .hmax2 c0 fmt d a b => Sys2Proof.Machine.execHmax2 c0 fmt d a b s
  | .fdot2 c0 rm fmt d a b c => Sys2Proof.Machine.execFdot2 c0 rm fmt d a b c s
  | .fcvt c0 sat dir elt rm fmt d a => Sys2Proof.Machine.execFcvt c0 sat dir elt rm fmt d a s
  | .i2f c0 rm d a => Sys2Proof.Machine.execI2f c0 rm d a s
  | .u2f c0 rm d a => Sys2Proof.Machine.execU2f c0 rm d a s
  | .f2i c0 sat rm d a => Sys2Proof.Machine.execF2i c0 sat rm d a s
  | .f2u c0 sat rm d a => Sys2Proof.Machine.execF2u c0 sat rm d a s
  | .qnt c0 sat rm fmt d a b => Sys2Proof.Machine.execQnt c0 sat rm fmt d a b s
  | .dqnt c0 sat rm fmt d a b => Sys2Proof.Machine.execDqnt c0 sat rm fmt d a b s
  | .had c0 sz rm fmt d a => Sys2Proof.Machine.execHad c0 sz rm fmt d a s
  | .cmpr c0 s48 fmt d a c => Sys2Proof.Machine.execCmpr c0 s48 fmt d a c s
  | .boxt c0 d a b => Sys2Proof.Machine.execBoxt c0 d a b s
  | .trit c0 clip d a b pc => Sys2Proof.Machine.execTrit c0 clip d a b pc s
  | .rebin c0 b a off => Sys2Proof.Machine.execRebin c0 b a off s
  | .shflIdx c0 seg d a b pc => Sys2Proof.Machine.execShflIdx c0 seg d a b pc s
  | .shflUp c0 seg d a b pc => Sys2Proof.Machine.execShflUp c0 seg d a b pc s
  | .shflDown c0 seg d a b pc => Sys2Proof.Machine.execShflDown c0 seg d a b pc s
  | .shflXor c0 seg d a b pc => Sys2Proof.Machine.execShflXor c0 seg d a b pc s
  | .voteAny c0 pd pa => Sys2Proof.Machine.execVoteAny c0 pd pa s
  | .voteAll c0 pd pa => Sys2Proof.Machine.execVoteAll c0 pd pa s
  | .voteBallot c0 d pa => Sys2Proof.Machine.execVoteBallot c0 d pa s
  | .voteEq c0 pd a => Sys2Proof.Machine.execVoteEq c0 pd a s
  | .gredAdd c0 seg d a => Sys2Proof.Machine.execGredAdd c0 seg d a s
  | .gredMin c0 u seg d a => Sys2Proof.Machine.execGredMin c0 u seg d a s
  | .gredMax c0 u seg d a => Sys2Proof.Machine.execGredMax c0 u seg d a s
  | .gredAnd c0 seg d a => Sys2Proof.Machine.execGredAnd c0 seg d a s
  | .gredOr c0 seg d a => Sys2Proof.Machine.execGredOr c0 seg d a s
  | .gredXor c0 seg d a => Sys2Proof.Machine.execGredXor c0 seg d a s
  | .gredFadd c0 rm seg d a => Sys2Proof.Machine.execGredFadd c0 rm seg d a s
  | .gredFmin c0 seg d a => Sys2Proof.Machine.execGredFmin c0 seg d a s
  | .gredFmax c0 seg d a => Sys2Proof.Machine.execGredFmax c0 seg d a s
  | .bra w off => Sys2Proof.Machine.execBra w off s
  | .brc w off n p => Sys2Proof.Machine.execBrc w off n p s
  | .brq w off => Sys2Proof.Machine.execBrq w off s
  | .call w off => Sys2Proof.Machine.execCall w off s
  | .ret w => Sys2Proof.Machine.execRet w s
  | .retExt c0 => Sys2Proof.Machine.execRetExt c0 s
  | .jarm w m => Sys2Proof.Machine.execJarm w m s
  | .jarmExt c0 m => Sys2Proof.Machine.execJarmExt c0 m s
  | .jwait w m => Sys2Proof.Machine.execJwait w m s
  | .jwaitExt c0 m => Sys2Proof.Machine.execJwaitExt c0 m s
  | .jdrop w m => Sys2Proof.Machine.execJdrop w m s
  | .jdropExt c0 m => Sys2Proof.Machine.execJdropExt c0 m s
  | .exit w => Sys2Proof.Machine.execExit w s
  | .exitExt c0 => Sys2Proof.Machine.execExitExt c0 s
  | .yield w => Sys2Proof.Machine.execYield w s
  | .yieldExt c0 => Sys2Proof.Machine.execYieldExt c0 s
  | .trap w b => Sys2Proof.Machine.execTrap w b s
  | .trapExt c0 b => Sys2Proof.Machine.execTrapExt c0 b s
  | .brk w b => Sys2Proof.Machine.execBrk w b s
  | .brkExt c0 b => Sys2Proof.Machine.execBrkExt c0 b s
  | .dqpush w b => Sys2Proof.Machine.execDqpush w b s
  | .dqpushExt c0 b => Sys2Proof.Machine.execDqpushExt c0 b s
  | .dqpop w d => Sys2Proof.Machine.execDqpop w d s
  | .dqpopExt c0 d => Sys2Proof.Machine.execDqpopExt c0 d s
  | .sret w => Sys2Proof.Machine.execSret w s
  | .sretExt c0 => Sys2Proof.Machine.execSretExt c0 s
  | .ld w d a disp => Sys2Proof.Machine.execLd w d a disp s
  | .ldExt c0 ord width scope hint d a disp => Sys2Proof.Machine.execLdExt c0 ord width scope hint d a disp s
  | .ldz c0 width hint d pc a disp => Sys2Proof.Machine.execLdz c0 width hint d pc a disp s
  | .st w d a disp => Sys2Proof.Machine.execSt w d a disp s
  | .stExt c0 ord width scope hint d a disp => Sys2Proof.Machine.execStExt c0 ord width scope hint d a disp s
  | .lds w d a disp => Sys2Proof.Machine.execLds w d a disp s
  | .ldsExt c0 width d a disp => Sys2Proof.Machine.execLdsExt c0 width d a disp s
  | .sts w d a disp => Sys2Proof.Machine.execSts w d a disp s
  | .stsExt c0 width d a disp => Sys2Proof.Machine.execStsExt c0 width d a disp s
  | .ldc w d a disp => Sys2Proof.Machine.execLdc w d a disp s
  | .ldcExt c0 width hint d a disp => Sys2Proof.Machine.execLdcExt c0 width hint d a disp s
  | .atomAdd c0 ord w64 scope d a b => Sys2Proof.Machine.execAtomAdd c0 ord w64 scope d a b s
  | .atomMin c0 ord w64 scope d a b => Sys2Proof.Machine.execAtomMin c0 ord w64 scope d a b s
  | .atomMax c0 ord w64 scope d a b => Sys2Proof.Machine.execAtomMax c0 ord w64 scope d a b s
  | .atomUmin c0 ord w64 scope d a b => Sys2Proof.Machine.execAtomUmin c0 ord w64 scope d a b s
  | .atomUmax c0 ord w64 scope d a b => Sys2Proof.Machine.execAtomUmax c0 ord w64 scope d a b s
  | .atomAnd c0 ord w64 scope d a b => Sys2Proof.Machine.execAtomAnd c0 ord w64 scope d a b s
  | .atomOr c0 ord w64 scope d a b => Sys2Proof.Machine.execAtomOr c0 ord w64 scope d a b s
  | .atomXor c0 ord w64 scope d a b => Sys2Proof.Machine.execAtomXor c0 ord w64 scope d a b s
  | .atomExch c0 ord w64 scope d a b => Sys2Proof.Machine.execAtomExch c0 ord w64 scope d a b s
  | .atomCas c0 ord w64 scope d a b c => Sys2Proof.Machine.execAtomCas c0 ord w64 scope d a b c s
  | .atomFadd c0 ord scope d a b => Sys2Proof.Machine.execAtomFadd c0 ord scope d a b s
  | .redAdd c0 w64 scope a b => Sys2Proof.Machine.execRedAdd c0 w64 scope a b s
  | .redMin c0 w64 scope a b => Sys2Proof.Machine.execRedMin c0 w64 scope a b s
  | .redMax c0 w64 scope a b => Sys2Proof.Machine.execRedMax c0 w64 scope a b s
  | .redUmin c0 w64 scope a b => Sys2Proof.Machine.execRedUmin c0 w64 scope a b s
  | .redUmax c0 w64 scope a b => Sys2Proof.Machine.execRedUmax c0 w64 scope a b s
  | .redAnd c0 w64 scope a b => Sys2Proof.Machine.execRedAnd c0 w64 scope a b s
  | .redOr c0 w64 scope a b => Sys2Proof.Machine.execRedOr c0 w64 scope a b s
  | .redXor c0 w64 scope a b => Sys2Proof.Machine.execRedXor c0 w64 scope a b s
  | .redFadd c0 scope a b => Sys2Proof.Machine.execRedFadd c0 scope a b s
  | .fence c0 scope => Sys2Proof.Machine.execFence c0 scope s
  | .pref c0 lvl hint a disp => Sys2Proof.Machine.execPref c0 lvl hint a disp s
  | .spres c0 pd a disp => Sys2Proof.Machine.execSpres c0 pd a disp s
  | .pgreq c0 blk pd a disp => Sys2Proof.Machine.execPgreq c0 blk pd a disp s
  | .barArr c0 d bar => Sys2Proof.Machine.execBarArr c0 d bar s
  | .barWait c0 bar b => Sys2Proof.Machine.execBarWait c0 bar b s
  | .barSync c0 d bar => Sys2Proof.Machine.execBarSync c0 d bar s
  | .barExpect c0 bar b => Sys2Proof.Machine.execBarExpect c0 bar b s
  | .barInit c0 bar b => Sys2Proof.Machine.execBarInit c0 bar b s
  | .cvset c0 n1 cv b => Sys2Proof.Machine.execCvset c0 n1 cv b s
  | .rsvqFree c0 stk d => Sys2Proof.Machine.execRsvqFree c0 stk d s
  | .rsvqPend c0 stk d => Sys2Proof.Machine.execRsvqPend c0 stk d s
  | .rsvqNominal c0 stk d => Sys2Proof.Machine.execRsvqNominal c0 stk d s
  | .rsvqSurr c0 stk d => Sys2Proof.Machine.execRsvqSurr c0 stk d s
  | .blksz c0 wb d a disp => Sys2Proof.Machine.execBlksz c0 wb d a disp s
  | .blkfill c0 a disp c => Sys2Proof.Machine.execBlkfill c0 a disp c s
  | .balq c0 d => Sys2Proof.Machine.execBalq c0 d s
  | .pgsurr c0 a disp => Sys2Proof.Machine.execPgsurr c0 a disp s
  | .pgrecl c0 a disp => Sys2Proof.Machine.execPgrecl c0 a disp s
  | .wload c0 sparse hadn fmt a b c => Sys2Proof.Machine.execWload c0 sparse hadn fmt a b c s
  | .mma c0 row0 z as ksz kh fmt t a cv => Sys2Proof.Machine.execMma c0 row0 z as ksz kh fmt t a cv s
  | .mmam c0 row0 z as ksz sp fmt t a cv disp => Sys2Proof.Machine.execMmam c0 row0 z as ksz sp fmt t a cv disp s
  | .aclr c0 t => Sys2Proof.Machine.execAclr c0 t s
  | .ard c0 chunk d t b => Sys2Proof.Machine.execArd c0 chunk d t b s
  | .awr c0 chunk t a b => Sys2Proof.Machine.execAwr c0 chunk t a b s
  | .adrain c0 sat clr sp scale fmt t a b c => Sys2Proof.Machine.execAdrain c0 sat clr sp scale fmt t a b c s
  | .wrel c0 => Sys2Proof.Machine.execWrel c0 s
  | .mstat c0 keep d => Sys2Proof.Machine.execMstat c0 keep d s
  | .xcfg c0 depth meth x a b c => Sys2Proof.Machine.execXcfg c0 depth meth x a b c s
  | .xpush c0 x a pc => Sys2Proof.Machine.execXpush c0 x a pc s
  | .xest c0 d x pc => Sys2Proof.Machine.execXest c0 d x pc s
  | .xclr c0 x => Sys2Proof.Machine.execXclr c0 x s
  | .xstat c0 d x => Sys2Proof.Machine.execXstat c0 d x s
  | .tcopy c0 dir cmode scope d a b c => Sys2Proof.Machine.execTcopy c0 dir cmode scope d a b c s
  | .chain c0 cmode scope d a c => Sys2Proof.Machine.execChain c0 cmode scope d a c s
  | .ctwait c0 sp scope d a b => Sys2Proof.Machine.execCtwait c0 sp scope d a b s
  | .chkill c0 a => Sys2Proof.Machine.execChkill c0 a s
  | .spawn c0 d a b c off => Sys2Proof.Machine.execSpawn c0 d a b c off s
  | .enqn c0 a b => Sys2Proof.Machine.execEnqn c0 a b s
  | .jdec c0 d a b => Sys2Proof.Machine.execJdec c0 d a b s
  | .settle c0 => Sys2Proof.Machine.execSettle c0 s
  | .taskqPrio c0 d b => Sys2Proof.Machine.execTaskqPrio c0 d b s
  | .taskqRestart c0 d b => Sys2Proof.Machine.execTaskqRestart c0 d b s
  | .taskqSettled c0 d b => Sys2Proof.Machine.execTaskqSettled c0 d b s
  | .taskqVlines c0 d b => Sys2Proof.Machine.execTaskqVlines c0 d b s
  | .taskqBqueue c0 d b => Sys2Proof.Machine.execTaskqBqueue c0 d b s
  | .taskqNqueue c0 d b => Sys2Proof.Machine.execTaskqNqueue c0 d b s
  | .taskqCursor c0 d b => Sys2Proof.Machine.execTaskqCursor c0 d b s
  | .stkho c0 die scope a b => Sys2Proof.Machine.execStkho c0 die scope a b s
  | .tlbiPage c0 scope a b => Sys2Proof.Machine.execTlbiPage c0 scope a b s
  | .tlbiVdev c0 scope b => Sys2Proof.Machine.execTlbiVdev c0 scope b s
  | .tlbiVdevn c0 scope b => Sys2Proof.Machine.execTlbiVdevn c0 scope b s
  | .tlbiAll c0 scope b => Sys2Proof.Machine.execTlbiAll c0 scope b s
  | .cflushClean c0 scope a b => Sys2Proof.Machine.execCflushClean c0 scope a b s
  | .cflushInv c0 scope a b => Sys2Proof.Machine.execCflushInv c0 scope a b s
  | .cflushDiscard c0 scope a b => Sys2Proof.Machine.execCflushDiscard c0 scope a b s
  | .ctxsw c0 force scope d a b => Sys2Proof.Machine.execCtxsw c0 force scope d a b s
  | .resultWriteback ag k => Sys2Proof.Machine.execResultWriteback ag k s
  | .storeQueueDrain o => Sys2Proof.Machine.execStoreQueueDrain o s
  | .stsBankWrite core part => Sys2Proof.Machine.execStsBankWrite core part s
  | .parkRelease ag => Sys2Proof.Machine.execParkRelease ag s
  | .sliceNomination o => Sys2Proof.Machine.execSliceNomination o s
  | .threadKill ag => Sys2Proof.Machine.execThreadKill ag s
  | .shareRetire sh => Sys2Proof.Machine.execShareRetire sh s
  | .sharePlacement sh core => Sys2Proof.Machine.execSharePlacement sh core s
  | .copyStart core => Sys2Proof.Machine.execCopyStart core s
  | .copyComplete core k => Sys2Proof.Machine.execCopyComplete core k s
  | .chainEntry u => Sys2Proof.Machine.execChainEntry u s
  | .chainSendAck u accept => Sys2Proof.Machine.execChainSendAck u accept s
  | .chainRecvwaitMet u => Sys2Proof.Machine.execChainRecvwaitMet u s
  | .chainEnd u => Sys2Proof.Machine.execChainEnd u s
  | .weightLatch sh => Sys2Proof.Machine.execWeightLatch sh s
  | .matrixOperation core => Sys2Proof.Machine.execMatrixOperation core s
  | .tilePathEntry core k => Sys2Proof.Machine.execTilePathEntry core k s
  | .adrainComplete core k => Sys2Proof.Machine.execAdrainComplete core k s
  | .matrixEngineReset core => Sys2Proof.Machine.execMatrixEngineReset core s
  | .matrixResetEnd core => Sys2Proof.Machine.execMatrixResetEnd core s
  | .blockWriteback blk => Sys2Proof.Machine.execBlockWriteback blk s
  | .heldChargeDecided ag => Sys2Proof.Machine.execHeldChargeDecided ag s
  | .grantMove vd stack => Sys2Proof.Machine.execGrantMove vd stack s
  | .balloonRequestOpen vd => Sys2Proof.Machine.execBalloonRequestOpen vd s
  | .balloonDeadlineExpiry vd => Sys2Proof.Machine.execBalloonDeadlineExpiry vd s
  | .capacityWaitRestart t => Sys2Proof.Machine.execCapacityWaitRestart t s
  | .taskFault t => Sys2Proof.Machine.execTaskFault t s
  | .taskRestart t cores => Sys2Proof.Machine.execTaskRestart t cores s
  | .versionCommit t => Sys2Proof.Machine.execVersionCommit t s
  | .commitRequest t => Sys2Proof.Machine.execCommitRequest t s
  | .commitTokenGrant part => Sys2Proof.Machine.execCommitTokenGrant part s
  | .teamRetire t => Sys2Proof.Machine.execTeamRetire t s
  | .launchWatchdogExpiry l => Sys2Proof.Machine.execLaunchWatchdogExpiry l s
  | .dieDistributorRequest die l => Sys2Proof.Machine.execDieDistributorRequest die l s
  | .clusterRangeHandout die cluster l => Sys2Proof.Machine.execClusterRangeHandout die cluster l s
  | .teamPlacement die cluster l => Sys2Proof.Machine.execTeamPlacement die cluster l s
  | .rangeSteal thief victim l => Sys2Proof.Machine.execRangeSteal thief victim l s
  | .gangFormerPop core l => Sys2Proof.Machine.execGangFormerPop core l s
  | .binTimeout core bin => Sys2Proof.Machine.execBinTimeout core bin s
  | .cordScheduleWalk vd => Sys2Proof.Machine.execCordScheduleWalk vd s
  | .cordAgeingTick vd => Sys2Proof.Machine.execCordAgeingTick vd s
  | .sliceEnd core => Sys2Proof.Machine.execSliceEnd core s
  | .contextSwap core => Sys2Proof.Machine.execContextSwap core s
  | .handlerBudgetExpiry core => Sys2Proof.Machine.execHandlerBudgetExpiry core s
  | .spillComplete core => Sys2Proof.Machine.execSpillComplete core s
  | .budgetRefill vd core => Sys2Proof.Machine.execBudgetRefill vd core s
  | .runEnd core => Sys2Proof.Machine.execRunEnd core s
  | .ctxswRunEnd core => Sys2Proof.Machine.execCtxswRunEnd core s
  | .carveoutChange core ways => Sys2Proof.Machine.execCarveoutChange core ways s
  | .carveoutChangeEffect core => Sys2Proof.Machine.execCarveoutChangeEffect core s
  | .pageWalk core vd va k => Sys2Proof.Machine.execPageWalk core vd va k s
  | .makeResident vd va die dup => Sys2Proof.Machine.execMakeResident vd va die dup s
  | .replicaCreate vd va die => Sys2Proof.Machine.execReplicaCreate vd va die s
  | .replicaCollapse vd va die => Sys2Proof.Machine.execReplicaCollapse vd va die s
  | .stackHandover stack => Sys2Proof.Machine.execStackHandover stack s
  | .loanAgreement stack borrower seconds => Sys2Proof.Machine.execLoanAgreement stack borrower seconds s
  | .loanEnd stack demand => Sys2Proof.Machine.execLoanEnd stack demand s
  | .loanDeadlineExpiry stack => Sys2Proof.Machine.execLoanDeadlineExpiry stack s
  | .mailboxMessage target sender msg => Sys2Proof.Machine.execMailboxMessage target sender msg s
  | .queueCreate sender desc => Sys2Proof.Machine.execQueueCreate sender desc s
  | .queueReset request index => Sys2Proof.Machine.execQueueReset request index s
  | .queueDestroy request => Sys2Proof.Machine.execQueueDestroy request s
  | .queueDestroyComplete q => Sys2Proof.Machine.execQueueDestroyComplete q s
  | .doorbellWrite q index => Sys2Proof.Machine.execDoorbellWrite q index s
  | .writeIndexNotice q => Sys2Proof.Machine.execWriteIndexNotice q s
  | .packetNop q => Sys2Proof.Machine.execPacketNop q s
  | .packetLaunch q => Sys2Proof.Machine.execPacketLaunch q s
  | .launchBilletStep q => Sys2Proof.Machine.execLaunchBilletStep q s
  | .launchDispatch q => Sys2Proof.Machine.execLaunchDispatch q s
  | .packetCord q => Sys2Proof.Machine.execPacketCord q s
  | .packetWait q => Sys2Proof.Machine.execPacketWait q s
  | .waitConditionMet q => Sys2Proof.Machine.execWaitConditionMet q s
  | .packetWrite q => Sys2Proof.Machine.execPacketWrite q s
  | .packetSignal q => Sys2Proof.Machine.execPacketSignal q s
  | .packetWrsigWrite q => Sys2Proof.Machine.execPacketWrsigWrite q s
  | .packetWrsigSignal q => Sys2Proof.Machine.execPacketWrsigSignal q s
  | .packetChainrun q => Sys2Proof.Machine.execPacketChainrun q s
  | .packetRanges q => Sys2Proof.Machine.execPacketRanges q s
  | .kindling q => Sys2Proof.Machine.execKindling q s
  | .packetCompletion q k => Sys2Proof.Machine.execPacketCompletion q k s
  | .vdevDescriptor part desc => Sys2Proof.Machine.execVdevDescriptor part desc s
  | .grantMessage vd stack sectors => Sys2Proof.Machine.execGrantMessage vd stack sectors s
  | .tenantPause vd => Sys2Proof.Machine.execTenantPause vd s
  | .tenantResume vd => Sys2Proof.Machine.execTenantResume vd s
  | .tenantReset vd => Sys2Proof.Machine.execTenantReset vd s
  | .tenantClear vd => Sys2Proof.Machine.execTenantClear vd s
  | .clearingDone vd => Sys2Proof.Machine.execClearingDone vd s
  | .tenantExport vd target => Sys2Proof.Machine.execTenantExport vd target s
  | .tenantImport vd image => Sys2Proof.Machine.execTenantImport vd image s
  | .tenantUndefine vd => Sys2Proof.Machine.execTenantUndefine vd s
  | .checkpoint x => Sys2Proof.Machine.execCheckpoint x s
  | .debugAccess ag op => Sys2Proof.Machine.execDebugAccess ag op s
  | .debugResume ag => Sys2Proof.Machine.execDebugResume ag s
  | .debugStep ag => Sys2Proof.Machine.execDebugStep ag s
  | .debugKill ag => Sys2Proof.Machine.execDebugKill ag s
  | .debugDropMask ag m => Sys2Proof.Machine.execDebugDropMask ag m s
  | .hearthCoreTimeout k => Sys2Proof.Machine.execHearthCoreTimeout k s
  | .supervisionTimerExpiry verified => Sys2Proof.Machine.execSupervisionTimerExpiry verified s
  | .memoryError e => Sys2Proof.Machine.execMemoryError e s
  | .softError stack channel => Sys2Proof.Machine.execSoftError stack channel s
  | .dieLinkLoss => Sys2Proof.Machine.execDieLinkLoss s
  | .linkEnable link => Sys2Proof.Machine.execLinkEnable link s
  | .linkTrained link => Sys2Proof.Machine.execLinkTrained link s
  | .linkTrainingTimeout link => Sys2Proof.Machine.execLinkTrainingTimeout link s
  | .linkLostLock link => Sys2Proof.Machine.execLinkLostLock link s
  | .linkRetrained link => Sys2Proof.Machine.execLinkRetrained link s
  | .linkRecoveryExpiry link => Sys2Proof.Machine.execLinkRecoveryExpiry link s
  | .securityAlarmL2 => Sys2Proof.Machine.execSecurityAlarmL2 s
  | .securityAlarmL3 => Sys2Proof.Machine.execSecurityAlarmL3 s
  | .thermalThrottle up => Sys2Proof.Machine.execThermalThrottle up s
  | .junctionOvertemp => Sys2Proof.Machine.execJunctionOvertemp s
  | .packageResetBoot verified => Sys2Proof.Machine.execPackageResetBoot verified s
  | .recovery bundle => Sys2Proof.Machine.execRecovery bundle s
  | .configRecordUpdate r signaturesVerify => Sys2Proof.Machine.execConfigRecordUpdate r signaturesVerify s
  | .identityRequest part => Sys2Proof.Machine.execIdentityRequest part s
  | .telemetryRecord => Sys2Proof.Machine.execTelemetryRecord s
  | .telemetryRequest part => Sys2Proof.Machine.execTelemetryRequest part s
  | .applicationCoreAccess hart op => Sys2Proof.Machine.execApplicationCoreAccess hart op s
  | .pcieHostAccess op => Sys2Proof.Machine.execPcieHostAccess op s
  | .inboundFabricWrite port op => Sys2Proof.Machine.execInboundFabricWrite port op s
  | .postedWriteAck k => Sys2Proof.Machine.execPostedWriteAck k s
  | .extrapolationEntry core => Sys2Proof.Machine.execExtrapolationEntry core s
  | .chargePathLift vd => Sys2Proof.Machine.execChargePathLift vd s
  | .ptpCorrection ppm => Sys2Proof.Machine.execPtpCorrection ppm s
  | .enrollment r => Sys2Proof.Machine.execEnrollment r s

end Sys2Proof.Machine
end

