-- ==== Sys2Proof/Machine/Step.lean ====
section
/-! DEFINITION. One step of the machine: time passes, the next move is chosen, exec performs it. -/

namespace Sys2Proof.Machine

/-- One step: the scheduled or chosen move, performed by exec, and what follows every move. -/
def step (s : State) : Host.Outcome State Fault Refusal :=
  match s.nextMove with
  | .run i s => afterMove s (exec i s)
  | .done t r => afterMove t r

/-- The state with an instruction stored where the next step fetches: a loaded program of one group, or its front end where the instruction is the front end's. -/
def State.withFetchWord (s : State) (nbits w : Nat) : State :=
  s.load (tableBytes nbits w) (match decodeTableWord nbits w with
    | some i => i.place == .frontEnd
    | none => false)

end Sys2Proof.Machine
end

