-- ==== Sys2Proof/Safety.lean ====
section
/-! DEFINITION. The words claims are made in: a fragment whose threads issue an instruction without interruption, what
the instruction leaves of a thread, what a step changes, and runs. -/

namespace Sys2Proof.Machine

/-! ## A fragment at an instruction -/

/-- The state in which the current fragment's instruction is performed: its threads' distances have advanced (R57). -/
def State.ticked (s : State) : State := s.modAgents Agent.tick s.cur.agents
/-- A read of a thread's own register, for the thread alone (R57). -/
def Agent.see (a : Agent) (free ag pos : Nat) (d : Dst) : Word :=
  seeThrough a.issued (Config.freeChoice free ag d.key pos) d 0 (a.get d) a.pend
/-- A thread performs the instruction: decode finds no cause, its guard is true, its registers are free, no deferred trap is due (R56, R59, R70). -/
def Performs (s : State) (i : Instr) (ag : Nat) : Prop := s.ticked.pre i ag = .go
/-- A thread passes the instruction with a false guard (R56). -/
def Skips (s : State) (i : Instr) (ag : Nat) : Prop := s.ticked.pre i ag = .skip
/-- A thread of the fragment performs the instruction, as a Bool. -/
def State.goes (s : State) (i : Instr) (a : Nat) : Bool := s.ticked.pre i a == .go
/-- Threads of the fragment that perform the instruction, in order. -/
def State.performers (s : State) (i : Instr) : List Nat := s.cur.agents.filter (s.goes i)
/-- A thread that can issue and is neither single-stepped nor resumed for one instruction (R134, R244, R245). -/
def Unstepped (s : State) (ag : Nat) : Prop :=
  ag < s.lanes.agents.length ∧ (s.agent ag).status = .ready ∧ (s.agent ag).stepOnce = false ∧
  (s.ticked.debugSeen ag 82 0x801 (s.ticked.agent ag).issued).getLsbD 8 = false
/-- A fragment of different threads, each of which performs or passes the instruction, unstepped. -/
def Together (s : State) (i : Instr) : Prop :=
  s.cur.agents.Nodup ∧ ∀ ag ∈ s.cur.agents, Unstepped s ag ∧ (Performs s i ag ∨ Skips s i ag)
/-- A fragment of one thread that performs the instruction, unstepped. -/
def Alone (s : State) (i : Instr) (ag : Nat) : Prop := s.cur.agents = [ag] ∧ Unstepped s ag ∧ Performs s i ag

/-- A fixed-latency write of a thread, discarded where there is no destination (R57, R150). -/
def Agent.put (a : Agent) (lat : Nat) (d : Option Dst) (x : Word) : Agent :=
  match d with
  | none => a
  | some d => a.write lat d x
/-- An outstanding result of a thread: the registers that receive it and the flags, done or still to be performed (R59, R163). -/
def Agent.owe (a : Agent) (done fp : Bool) (ws : List (Option Dst × Word)) (flags : BitVec 5) : Agent :=
  if keepDst ws = [] ∧ flags = 0#5 ∧ done = true then a
  else { a with outst := a.outst ++ [⟨a.issued, done, fp, keepDst ws, flags⟩] }
/-- Flags that enter %fstat at a latency (R163). -/
def Agent.flagLater (a : Agent) (lat : Nat) (f : BitVec 5) : Agent :=
  if f = 0#5 then a else { a with fp := { a.fp with fpend := a.fp.fpend ++ [(a.issued + lat, f)] } }
/-- Fixed-latency writes of consecutive registers (R165). -/
def Agent.putRange (a : Agent) (lat : Nat) : Nat → List Word → Agent
  | _, [] => a
  | r, w :: ws => (a.write lat (.reg r) w).putRange lat (r + 1) ws
/-- A thread at an address. -/
def Agent.atPc (a : Agent) (pc : DWord) : Agent := { a with pc := pc }
/-- What the W point of an instruction leaves of a thread that has performed it (R60, R165). `o` is the thread before the issue. -/
def Agent.wPoint (a : Agent) (i : Instr) (free ag : Nat) (o : Agent) : Agent :=
  if waitsFor i (a.see free ag 80 (.csr 0x21)) = true then
    if a.outst.isEmpty = true then a.settle else { a with status := .parked (.wmark (i.ctl.2.w && o.supp.isNone)) }
  else a
/-- What the end of an instruction leaves of a thread that goes on: at the next instruction, or at its W point (R60, R165). `o` is the thread before the issue, `a` after its effect. -/
def Agent.after (a : Agent) (i : Instr) (free ag : Nat) (o : Agent) (pc : DWord) : Agent := (a.atPc pc).wPoint i free ag o
/-- The address of the next instruction. -/
def Agent.nextPc (a : Agent) (i : Instr) : DWord := a.pc + BitVec.ofNat 64 i.ctl.1

/-- What becomes of a thread that has performed an instruction alone: its effect has left the state t, and `k` says how the thread goes on, waits or traps. `s` is the state before the issue. -/
def Ends (s : State) (i : Instr) (ag : Nat) (t : State) (k : Fate) : State :=
  (t.settleFate i ag (s.agent ag) false k).trapFate ag (s.agent ag) k

/-! ## What a step changes -/

/-- Nothing but threads and front ends changes, and of those only the listed ones. -/
def OnlyAgents (ags : List Nat) (s t : State) : Prop :=
  t = { s with lanes := { s.lanes with agents := t.lanes.agents } } ∧
  t.lanes.agents.length = s.lanes.agents.length ∧ ∀ b, b ∉ ags → t.agent b = s.agent b
/-- Every thread of the fragment ends as `f` says from what it was, and nothing else changes. -/
def EachBecomes (s : State) (i : Instr) (f : Nat → Agent → Agent) (t : State) : Prop :=
  OnlyAgents s.cur.agents s t ∧
  ∀ ag ∈ s.cur.agents,
    (Performs s i ag → t.agent ag = (f ag (s.agent ag).tick).after i s.free ag (s.agent ag) ((s.agent ag).nextPc i)) ∧
    (Skips s i ag → t.agent ag = (s.agent ag).tick.after i s.free ag (s.agent ag) ((s.agent ag).nextPc i))
/-- Every thread of the fragment ends as `f` says from what it was, at the address that `dest` gives where it performs the instruction, and nothing else changes. -/
def EachGoes (s : State) (i : Instr) (f : Nat → Agent → Agent) (dest : Nat → DWord) (t : State) : Prop :=
  OnlyAgents s.cur.agents s t ∧
  ∀ ag ∈ s.cur.agents,
    (Performs s i ag → t.agent ag = (f ag (s.agent ag).tick).after i s.free ag (s.agent ag) (dest ag)) ∧
    (Skips s i ag → t.agent ag = (s.agent ag).tick.after i s.free ag (s.agent ag) ((s.agent ag).nextPc i))

/-! ## Runs -/

/-- n steps from a state give a state. -/
def Runs (n : Nat) (s t : State) : Prop := Sys2Proof.core.run n s = .next t
/-- The invariant of memory: local memory is in its canonical form. -/
def MemCanonical (s : State) : Prop := s.store.mem.wf = true

end Sys2Proof.Machine
end

