-- ==== Sys2Proof/Safety/DeviceEvents.lean ====
section
/-! DEFINITION. Rows of the events of slices, queues, tenants, the platform, outside agents and the debugger for claims: an
event, the state in which it is due, and the state it leaves (05, 11, 21, 23, 24). -/

namespace Sys2Proof.Claims
open Sys2Proof.Machine

/-! ## Slices (R246 to R249, R416, R417, R422) -/

/-- A core's present slice. -/
def sliceOf (s : State) (c : Nat) : Slice := (s.core c).slice
/-- No switch of a core is under way. -/
def NoSwitch (s : State) (c : Nat) : Prop := (sliceOf s c).next = none ∧ (sliceOf s c).ending = none
/-- A run of a core has ended; what it used is charged, and who is eligible is noted (R416). -/
def charged (s : State) (c : Nat) : State := (s.account c).noteAll c
/-- The incoming shares of a core have their lines and tiles, and its spill engine has finished (R247). -/
def filled (s : State) (c : Nat) : State :=
  ((s.residents c).foldl (fun s h => s.modShare h fun x =>
    { x with absent := x.absent.filter (fun l => !x.saved.fill.elem l), saved := { x.saved with fill := [], tiles := false } }) s).modSlice c
      fun x => { x with spilling := false, out := none }
/-- The cores that are switched together stop at instruction boundaries (R248, R394). -/
def stopping (s : State) (c : Nat) : State := (s.together c).foldl (fun s k => s.modSlice k fun x => { x with stop := true }) s
/-- The state of a run-end test of a core: what is due is refilled first (R416). -/
structure RunTest (s : State) (c : Nat) (r : State) : Prop where
  refilled : s.refillsDue c = r
  steady : NoSwitch r c
/-- A refill of a tenant on a core at a moment: the run in progress is charged until then, then SLICE is added, up to (1 + CARRY) × SLICE (R416). -/
def refilled (s : State) (v c at_ : Nat) : State :=
  ((s.accountTo v c at_).setBucket v c (min ((s.accountTo v c at_).bucketKept v c + (s.accountTo v c at_).sliceNs v)
    ((s.accountTo v c at_).maxBucket v))).modVdev v fun d => { d with refills := (c, at_) :: d.refills.filter fun p => p.1 != c }
/-- Events of slices. -/
inductive SliceEvent : Instr → State → State → Prop where
  | sliceEnd c s (he : (sliceOf s c).ending = none) (hn : (sliceOf s c).next.isSome = true) :
      SliceEvent (.sliceEnd c) s ((((s.together c).filter fun k => k != c).foldl State.endMate s).beginEnd c none)
  | swap c s t (he : ∀ k ∈ s.together c, (sliceOf s k).ending.isSome = true ∧ s.allYielded k = true) (h : s.swap c = some t) :
      SliceEvent (.contextSwap c) s t
  | swapHeld c s (he : ∀ k ∈ s.together c, (sliceOf s k).ending.isSome = true ∧ s.allYielded k = true) (h : s.swap c = none) :
      SliceEvent (.contextSwap c) s (stopping s c)
  | budgetExpiry c s t e v (he : (sliceOf s c).ending = some e) (hv : (sliceOf s c).vd = some v)
      (hd : (sliceOf s c).force = true ∨ e + s.handlerNs v ≤ s.now) (h : s.swap c = some t) : SliceEvent (.handlerBudgetExpiry c) s t
  | spillComplete c s (h : (sliceOf s c).out = none) : SliceEvent (.spillComplete c) s (filled s c)
  | spillWritten c s v (h : (sliceOf s c).out = some v) (hh : ∀ pa ∈ s.savePages v c, s.betweenSteps (stackOf pa) = false) :
      SliceEvent (.spillComplete c) s (filled (s.writeSaveArea v c) c)
  | refill v c s (hd : (s.vdev v).state ≠ .absent) (hm : s.mayUse v c = true) (hp : s.periodNs v c ≠ 0)
      (ht : s.refillAt v c ≤ s.now) (hn : s.now < s.refillAt v c + s.periodNs v c) : SliceEvent (.budgetRefill v c) s
        ((refilled s v c (s.refillAt v c)).noteAll c)
  | refills v c s (hd : (s.vdev v).state ≠ .absent) (hm : s.mayUse v c = true) (hp : s.periodNs v c ≠ 0)
      (ht : s.refillAt v c ≤ s.now) : SliceEvent (.budgetRefill v c) s
        ((s.refillTimes v c ((s.now - s.refillAt v c) / s.periodNs v c + 1)).noteAll c)
  | refillEarly v c s (ht : s.now < s.refillAt v c) : SliceEvent (.budgetRefill v c) s s
  | newRun c s r v ch (h : RunTest s c r) (hv : (sliceOf r c).vd = some v) (hf : (sliceOf r c).forced = none)
      (ho : r.runOver v c = true) (ht : (charged r c).nextTenant c = some (v, ch)) :
      SliceEvent (.runEnd c) s ((charged r c).startRun v c ch none)
  | runEnd c s r v u ch (h : RunTest s c r) (hv : (sliceOf r c).vd = some v) (hf : (sliceOf r c).forced = none)
      (ho : r.runOver v c = true) (ht : (charged r c).nextTenant c = some (u, ch)) (hu : u ≠ v) :
      SliceEvent (.runEnd c) s ((charged r c).modSlice c fun y => { y with next := some (u, ch, 0) })
  | firstRun c s r u ch (h : RunTest s c r) (hv : (sliceOf r c).vd = none) (hs : (sliceOf r c).spilling = false)
      (ht : (charged r c).nextTenant c = some (u, ch)) :
      SliceEvent (.runEnd c) s ((((charged r c).startRun u c ch none).switchInAll u c).dueWalk u)
  | idleEnd c s r v (h : RunTest s c r) (hv : (sliceOf r c).vd = some v) (hf : (sliceOf r c).forced = none)
      (ho : r.runOver v c = true) (ht : (charged r c).nextTenant c = none) (he : (charged r c).residents c = []) :
      SliceEvent (.runEnd c) s (((charged r c).modSlice c fun _ => Slice.reset).pauseTest v)
  | lastEnd c s r v (h : RunTest s c r) (hv : (sliceOf r c).vd = some v) (hf : (sliceOf r c).forced = none)
      (ho : r.runOver v c = true) (ht : (charged r c).nextTenant c = none) (he : (charged r c).residents c ≠ []) :
      SliceEvent (.runEnd c) s ((charged r c).beginEnd c none)
  | ctxswAgain c s v ch n (hn : NoSwitch s c) (hv : (sliceOf s c).vd = some v) (hf : (sliceOf s c).forced = some n)
      (ho : s.runOver v c = true) (ht : (charged s c).nextTenant c = some (v, ch)) :
      SliceEvent (.ctxswRunEnd c) s ((charged s c).startRun v c ch none)
  | ctxswRunEnd c s v u ch n (hn : NoSwitch s c) (hv : (sliceOf s c).vd = some v) (hf : (sliceOf s c).forced = some n)
      (ho : s.runOver v c = true) (ht : (charged s c).nextTenant c = some (u, ch)) (hu : u ≠ v) :
      SliceEvent (.ctxswRunEnd c) s ((charged s c).modSlice c fun y => { y with next := some (u, ch, 0) })
  | carveout c n s (h : n ≤ 6) : SliceEvent (.carveoutChange c n) s
      (s.modCore c fun k => { k with waysNext := if n = k.ways then none else some n })
  | carveoutEffect c s n (h : (s.core c).waysNext = some n) (hu : s.waysUsed c ≤ n) : SliceEvent (.carveoutChangeEffect c) s
      (s.modCore c fun k => { k with ways := n, waysNext := none })

/-! ## Mailboxes, queues and packets (R397 to R408) -/

/-- The packet at a queue's read index is next, of a type and at a micro-step, and may go on; the state after its read (R399, R400, R403, R405). -/
structure AtPacket (s t : State) (q type cursor : Nat) (p : List Byte) : Prop where
  serves : s.serves q = true
  first : s.yields q = false
  reads : s.packetAt q = some p
  kind : ptype p = type
  step : (s.queue q).cursor = cursor
  start : cursor = 0 → s.mayStart q p = true
  after : s.packetRead q = t
/-- The virtual device of a queue. -/
def vdOfQ (s : State) (q : Nat) : Nat := (s.queue q).vd
/-- After a WAIT's read of its location. -/
def afterTest (t : State) (q : Nat) (p : List Byte) : State := t.hearthTouch (vdOfQ t q) (paddr p 16) 8
/-- A launch of a packet, read and checked, in the first step of its start (R405). -/
def checkedLaunch (t : State) (q : Nat) (p h x : List Byte) (es : List (List Byte)) : State :=
  (({ t with lanes := { t.lanes with launches := t.lanes.launches ++ [t.launchOfPacket q p h x es] } }).stepped q 2).modQueue q fun z =>
    { z with launching := some t.lanes.launches.length }
/-- The header and the body of a packet pass their first checks (R406). -/
def HeaderOk (s : State) (q : Nat) (p : List Byte) : Prop := s.headerReason (s.queue q).vd p = none
/-- A queue as a descriptor describes it, with its write index (R398, R400). -/
def newQueue (sender : Nat) (d : List Byte) (w : Nat) : Queue :=
  { base := BitVec.ofNat 64 (field d 0 8), log2 := field d 8 1, flags := BitVec.ofNat 3 (field d 9 1), maxPrio := field d 10 1,
    deleg := BitVec.ofNat 4 (field d 11 1), vd := descVd sender d, widxa := BitVec.ofNat 64 (field d 16 8),
    ridxa := BitVec.ofNat 64 (field d 24 8), erra := BitVec.ofNat 64 (field d 32 8), cursor := 0, state := .active, widx := w, notice := false,
    ridx := w, doorbell := 0#64, inflight := [], launching := none, served := 0, relAt := none, stale := [] }
/-- A chain of a CHAINRUN packet, at its head (R402). -/
def packetChain (s : State) (q : Nat) (p : List Byte) : Chain :=
  { share := none, vd := vdOfQ s q, priv := (s.queue q).flags.getLsbD 1, packet := (q, (s.queue q).ridx),
    head := paddr p 16, pos := paddr p 16, loops := [], cmode := 0, counter := 0#64, sends := [], stop := false, ending := none,
    tid := 0xFFFFFFFF#32, fe := false, ag := none, sys := pscope p == 7, since := s.moves, frec := paddr p 32, failing := none }
/-- Who may reset or destroy a queue: the hypervisor, or the supervisor of the partition that owns its virtual device (R398). -/
structure Manages (s : State) (n q : Nat) : Prop where
  sender : 8 ≤ n ∧ n ≤ 11
  exists_ : q < s.queues.length
  owns : n % 2 = partOf (s.queue q).vd
/-- A queue's write index has been read (R399). -/
def indexRead (s : State) (q : Nat) (bs : List Byte) : State :=
  (s.hearthTouch (vdOfQ s q) (s.queue q).widxa 8).modQueue q fun y => { y with widx := leNat bs, notice := false }
/-- What a LAUNCH or CORD names has been read, or its read has faulted; nothing holds it (R405, R406). -/
structure NotHeld (r : Read) : Prop where
  kernel : r.kernel ≠ .error 0
  xrec : r.xrec ≠ .error 0
  nodes : r.nodes ≠ .error 0
/-- The first step of a packet that is no launch: the event, the TYPE and the queue. -/
inductive FirstStep : Instr → Nat → Nat → Prop where
  | nop q : FirstStep (.packetNop q) 0 q
  | wait q : FirstStep (.packetWait q) 3 q
  | write q : FirstStep (.packetWrite q) 4 q
  | signal q : FirstStep (.packetSignal q) 5 q
  | wrsig q : FirstStep (.packetWrsigWrite q) 6 q
  | chainrun q : FirstStep (.packetChainrun q) 7 q
  | ranges q : FirstStep (.packetRanges q) 8 q
/-- A launch's first step: the event, the TYPE and the queue. -/
inductive LaunchStep : Instr → Nat → Nat → Prop where
  | launch q : LaunchStep (.packetLaunch q) 1 q
  | cord q : LaunchStep (.packetCord q) 2 q
/-- A step that writes: the event, the TYPE, CURSOR, the queue, the address and the write (R401). -/
inductive WriteStep : Instr → Nat → Nat → Nat → (List Byte → DWord) → (List Byte → HWrite) → Prop where
  | write q : WriteStep (.packetWrite q) 4 0 q (fun p => paddr p 16) fun p => .store ((p.drop 32).take (field p 24 1))
  | signal q : WriteStep (.packetSignal q) 5 0 q (fun p => paddr p 16) fun p => signalOp (field p 32 1) (field p 24 8)
  | wrsigWrite q : WriteStep (.packetWrsigWrite q) 6 0 q (fun p => paddr p 16) fun p => .store ((p.drop 48).take (field p 40 1))
  | wrsigSignal q : WriteStep (.packetWrsigSignal q) 6 2 q (fun p => paddr p 24) fun p => signalOp (field p 41 1) (field p 32 8)
/-- A step that writes is reached, and its packet has passed its checks. -/
structure AtWrite (s t : State) (i : Instr) (q : Nat) (p : List Byte) (va : DWord) (w : HWrite) : Prop where
  step : ∃ ty cu f g, WriteStep i ty cu q f g ∧ AtPacket s t q ty cu p ∧ (cu = 0 → HeaderOk t q p) ∧ f p = va ∧ g p = w
/-- No write to the host or a peer, which a step at system scope releases, is still to be acknowledged: none that the partition had posted when the step was reached (R103, R401). -/
def NoPosts (t : State) (q : Nat) (p : List Byte) : Prop :=
  ¬(pscope p = 7 ∧ t.postedBy (partOf (vdOfQ t q)) ((t.queue q).relAt.getD t.moves) = true)
/-- A queue waits at a release at system scope that it has reached. -/
def releaseWaits (t : State) (q : Nat) : State :=
  (t.block_ q).modQueue q fun y => { y with relAt := some (y.relAt.getD t.moves) }
/-- A launch is handed to hearth core 2 (R404). -/
def launched (s : State) (l : Nat) : State :=
  s.modLaunch l fun x =>
    { x with started := true, order := (s.lanes.launches.filter (·.started)).length, waited := s.now, idleNs := 0 }
/-- Events of mailboxes, queues and packets. -/
inductive QueueEvent : Instr → State → State → Prop where
  | message t n m s (ht : t < 8) (hs : field m 0 1 = n) (hn : n < 12) (hl : m.length = 64) (hb : (s.hearth.boxes.getD t []).length < 32) :
      QueueEvent (.mailboxMessage t n m) s
        (s.modHearth fun h => { h with boxes := h.boxes.set t (s.hearth.boxes.getD t [] ++ [⟨n, t, m⟩]) })
  | full t n m s (ht : t < 8) (hs : field m 0 1 = n) (hn : n < 12) (hl : m.length = 64) (hb : 32 ≤ (s.hearth.boxes.getD t []).length) :
      QueueEvent (.mailboxMessage t n m) s s
  | dropped t n m s (ht : t < 8) (hs : field m 0 1 ≠ n ∨ 12 ≤ field m 0 1 ∨ m.length ≠ 64) :
      QueueEvent (.mailboxMessage t n m) s (s.modTele fun x => { x with dropped := x.dropped + 1 })
  | create n d s u w bs (h : s.queueOk n d = true) (ha : BitVec.ofNat 64 (field d 16 8) = w)
      (hl : s.hearthLoad (descVd n d) w 8 = .ok bs) (hu : s.hearthTouch (descVd n d) w 8 = u) : QueueEvent (.queueCreate n d) s
      ((({ u with queues := u.queues ++ [newQueue n d (leNat bs)] }).hearthPost
        (descVd n d) 10 (BitVec.ofNat 64 (field d 24 8)) (.store (natLe 8 (leNat bs)))).answer 1 n)
  | createWaits n d s (h : s.queueOk n d = true) (hl : s.hearthLoad (descVd n d) (BitVec.ofNat 64 (field d 16 8)) 8 = .error 0) :
      QueueEvent (.queueCreate n d) s s
  | createUnread n d s c (h : s.queueOk n d = true) (hc : c ≠ 0)
      (hl : s.hearthLoad (descVd n d) (BitVec.ofNat 64 (field d 16 8)) 8 = .error c) : QueueEvent (.queueCreate n d) s (s.answer 1 n)
  | refused n d s (h : s.queueOk n d = false) : QueueEvent (.queueCreate n d) s (s.answer 1 n)
  | reset n q i s (h : (s.queue q).state = .error) (hi : (s.queue q).ridx ≤ i) (hm : Manages s n q) : QueueEvent (.queueReset ⟨n, q⟩ i) s
      (((s.stopChains q).modQueue q fun y => { y.readTo i with state := .active, launching := none }).hearthPost
        (s.queue q).vd 10 (s.queue q).ridxa (.store (natLe 8 i)))
  | destroy n q s (h : (s.queue q).state ≠ .disabled) (hm : Manages s n q) : QueueEvent (.queueDestroy ⟨n, q⟩) s
      ((s.modQueue q fun y => { y with state := .destroying, launching := none }).modHearth fun h =>
        { h with chains := h.chains.map (·.map fun (x : Chain) => if x.packet.1 = q then { x with stop := true } else x) })
  | resetDenied n q i s (hm : ¬Manages s n q) : QueueEvent (.queueReset ⟨n, q⟩ i) s s
  | destroyDenied n q s (hm : ¬Manages s n q) : QueueEvent (.queueDestroy ⟨n, q⟩) s s
  | destroyed q s (h : (s.queue q).state = .destroying) (hi : (s.queue q).inflight = []) : QueueEvent (.queueDestroyComplete q) s
      (s.modQueue q fun y => { y with state := .disabled })
  | doorbell q i s (h : (s.queue q).flags.getLsbD 0 = false) (hd : (s.queue q).state ≠ .disabled) (hq : q < s.queues.length) :
      QueueEvent (.doorbellWrite q i) s ((s.modQueue q fun y => { y with doorbell := i }).readWidx q)
  | notice q s (h : (s.queue q).flags.getLsbD 0 = true) (hd : (s.queue q).state ≠ .disabled) (bs : List Byte)
      (hl : s.hearthLoad (vdOfQ s q) (s.queue q).widxa 8 = .ok bs) : QueueEvent (.writeIndexNotice q) s (indexRead s q bs)
  | noticeHeld q s (h : (s.queue q).flags.getLsbD 0 = true) (hd : (s.queue q).state ≠ .disabled)
      (hl : s.hearthLoad (vdOfQ s q) (s.queue q).widxa 8 = .error 0) :
      QueueEvent (.writeIndexNotice q) s (s.modQueue q fun y => { y with notice := true })
  | held i q s (hi : ∃ ty, FirstStep i ty q ∨ LaunchStep i ty q) (hs : s.serves q = true) (hy : s.yields q = false)
      (hp : s.packetAt q = none) : QueueEvent i s (s.block_ q)
  | rejected i ty q s t p n (hi : FirstStep i ty q) (ha : AtPacket s t q ty 0 p) (hk : t.headerReason (vdOfQ t q) p = some n) :
      QueueEvent i s (t.reject q p n 0#64)
  | nop q s t p (h : AtPacket s t q 0 0 p) (hk : HeaderOk t q p) : QueueEvent (.packetNop q) s (t.dispatched q p (some 1#64))
  | reserved q s t p (h : AtPacket s t q (ptype p) 0 p) (hr : 9 ≤ ptype p) : QueueEvent (.packetNop q) s (t.reject q p 1 0#64)
  | launch q s t u p h x es (ha : AtPacket s t q 1 0 p) (hr : t.readLaunch (vdOfQ t q) p = ⟨.ok h, .ok x, .ok es⟩)
      (hu : t.touchLaunch (vdOfQ t q) p = u) (hk : u.launchReason q p = none) : QueueEvent (.packetLaunch q) s (checkedLaunch u q p h x es)
  | launchRejected i ty q s t u p n a (hi : LaunchStep i ty q) (ha : AtPacket s t q ty 0 p) (hr : NotHeld (t.readLaunch (vdOfQ t q) p))
      (hu : t.touchLaunch (vdOfQ t q) p = u) (hk : u.launchReason q p = some (n, a)) : QueueEvent i s (u.reject q p n a)
  | launchHeld i ty q s t p (hi : LaunchStep i ty q) (ha : AtPacket s t q ty 0 p) (hr : ¬NotHeld (t.readLaunch (vdOfQ t q) p)) :
      QueueEvent i s ((t.touchLaunch (vdOfQ t q) p).block_ q)
  | billets q s t p c l (ha : AtPacket s t q 1 c p) (hc : 2 ≤ c) (hl : (s.queue q).launching = some l)
      (hn : c < 2 + (t.launch l).billetSteps) : QueueEvent (.launchBilletStep q) s
      ((t.modLaunch l fun x => x.createBillets (256 * (c - 2)) 256).stepped q (c + 1))
  | dispatch q s t p l (hl : (s.queue q).launching = some l) (ha : AtPacket s t q 1 (2 + (t.launch l).billetSteps) p) :
      QueueEvent (.launchDispatch q) s (((launched t l).dispatched q p none).dueWalk (vdOfQ s q))
  | cord q s t u p h x es (ha : AtPacket s t q 2 0 p) (hr : t.readLaunch (vdOfQ t q) p = ⟨.ok h, .ok x, .ok es⟩)
      (hu : t.touchLaunch (vdOfQ t q) p = u) (hk : u.launchReason q p = none) : QueueEvent (.packetCord q) s (checkedLaunch u q p h x es)
  | cordDispatch q s t p l (hl : (s.queue q).launching = some l) (ha : AtPacket s t q 2 (2 + (t.launch l).billetSteps) p) :
      QueueEvent (.packetCord q) s (((launched t l).dispatched q p none).dueWalk (vdOfQ s q))
  | wait q s t p bs (ha : AtPacket s t q 3 0 p) (hk : HeaderOk t q p) (hl : t.hearthLoad (vdOfQ t q) (paddr p 16) 8 = .ok bs)
      (hc : waitHolds (field p 32 1) (leNat bs) (field p 24 8) = true) :
      QueueEvent (.packetWait q) s ((afterTest t q p).dispatched q p (some 1#64))
  | waits q s t p bs (ha : AtPacket s t q 3 0 p) (hk : HeaderOk t q p) (hl : t.hearthLoad (vdOfQ t q) (paddr p 16) 8 = .ok bs)
      (hc : waitHolds (field p 32 1) (leNat bs) (field p 24 8) = false) : QueueEvent (.packetWait q) s ((afterTest t q p).block_ q)
  | waitMet q s t p bs (hb : (s.queue q).state = .blocked) (ha : AtPacket s t q 3 0 p) (hk : HeaderOk t q p)
      (hl : t.hearthLoad (vdOfQ t q) (paddr p 16) 8 = .ok bs) (hc : waitHolds (field p 32 1) (leNat bs) (field p 24 8) = true) :
      QueueEvent (.waitConditionMet q) s ((afterTest t q p).dispatched q p (some 1#64))
  | waitFails q s t p c (ha : AtPacket s t q 3 0 p) (hk : HeaderOk t q p) (hc : c ≠ 0)
      (hl : t.hearthLoad (vdOfQ t q) (paddr p 16) 8 = .error c) :
      QueueEvent (.packetWait q) s ((afterTest t q p).reject q p 8 (paddr p 16))
  | written i q s t p va w s1 (ha : AtWrite s t i q p va w) (hi : i ≠ .packetWrsigWrite q) (hp : NoPosts t q p)
      (hw : t.hearthDo (queueMaker q) (vdOfQ t q) va w = (s1, none)) : QueueEvent i s (s1.dispatched q p (some 1#64))
  | wrsigWrite q s t p va w s1 (ha : AtWrite s t (.packetWrsigWrite q) q p va w) (hp : NoPosts t q p)
      (hw : t.hearthDo (queueMaker q) (vdOfQ t q) va w = (s1, none)) : QueueEvent (.packetWrsigWrite q) s (s1.stepped q 2)
  | writeFails i q s t p va w s1 c (ha : AtWrite s t i q p va w) (hp : NoPosts t q p) (hc : c ≠ 0)
      (hw : t.hearthDo (queueMaker q) (vdOfQ t q) va w = (s1, some c)) : QueueEvent i s (s1.reject q p 8 (t.hearthMissOf (vdOfQ t q) va w))
  | writeHeld i q s t p va w s1 (ha : AtWrite s t i q p va w) (hp : NoPosts t q p)
      (hw : t.hearthDo (queueMaker q) (vdOfQ t q) va w = (s1, some 0)) : QueueEvent i s (s1.block_ q)
  | writeReleases i q s t p va w (ha : AtWrite s t i q p va w) (hp : ¬NoPosts t q p) : QueueEvent i s (releaseWaits t q)
  | chainrun q s t p k (ha : AtPacket s t q 7 0 p) (hk : HeaderOk t q p)
      (hf : (List.range 4).find? (fun k => (t.hearth.chains.getD (4 * field p 24 1 + k) none).isNone) = some k) :
      QueueEvent (.packetChainrun q) s ((t.setChain (.hearth (field p 24 1) k) (some (packetChain t q p))).dispatched q p none)
  | chainrunFull q s t p (ha : AtPacket s t q 7 0 p) (hk : HeaderOk t q p)
      (hf : (List.range 4).find? (fun k => (t.hearth.chains.getD (4 * field p 24 1 + k) none).isNone) = none) :
      QueueEvent (.packetChainrun q) s (t.block_ q)
  | ranges q s t p c (ha : AtPacket s t q 8 c p) (hk : HeaderOk t q p)
      (hh : t.bringHeld (vdOfQ t q) (((rangePages p).drop (64 * (c - 1))).take 64) = false)
      (hn : 64 * (c - 1 + 1) < (rangePages p).length) : QueueEvent (.packetRanges q) s
        ((t.bringPages (vdOfQ t q) (((rangePages p).drop (64 * (c - 1))).take 64)).stepped q (c - 1 + 2))
  | rangesLast q s t p c (ha : AtPacket s t q 8 c p) (hk : HeaderOk t q p)
      (hh : t.bringHeld (vdOfQ t q) (((rangePages p).drop (64 * (c - 1))).take 64) = false)
      (hn : (rangePages p).length ≤ 64 * (c - 1 + 1)) : QueueEvent (.packetRanges q) s
        ((t.bringPages (vdOfQ t q) (((rangePages p).drop (64 * (c - 1))).take 64)).dispatched q p (some 1#64))
  | kindling q s : QueueEvent (.kindling q) s s
  | completion q k s y v (hy : (s.queue q).inflight[k]? = some y) (hf : (s.queue q).inflight.findIdx? (fun y => y.done.isSome) = some k)
      (hd : y.done = some v) (hw : s.signalWaits q y = false) (hs : y.sig ≠ 0#64)
      (hh : (s.modQueue q fun z => { z with inflight := z.inflight.eraseIdx k }).hearthHeld (s.queue q).vd y.sig (.add v) = false) :
      QueueEvent (.packetCompletion q k) s ((s.modQueue q fun z => { z with inflight := z.inflight.eraseIdx k }).hearthPost (s.queue q).vd 4 y.sig (.add v))
  | completionHeld q k s y v (hy : (s.queue q).inflight[k]? = some y) (hd : y.done = some v) (hs : y.sig ≠ 0#64)
      (hh : (s.modQueue q fun z => { z with inflight := z.inflight.eraseIdx k }).hearthHeld (s.queue q).vd y.sig (.add v) = true) :
      QueueEvent (.packetCompletion q k) s s
  | completionBare q k s y v (hy : (s.queue q).inflight[k]? = some y)
      (hf : (s.queue q).inflight.findIdx? (fun y => y.done.isSome) = some k) (hd : y.done = some v)
      (hw : s.signalWaits q y = false) (hs : y.sig = 0#64) : QueueEvent (.packetCompletion q k) s (s.modQueue q fun z => { z with inflight := z.inflight.eraseIdx k })

/-! ## Virtual devices (R331, R349, R350, R411, R414, R418 to R421) -/

/-- A message held for a virtual device, behind those that are held. -/
def holdMessage (s : State) (v n : Nat) : State := s.modVdev v fun d => { d with heldMsg := d.heldMsg ++ [n] }
/-- A queue of a resumed virtual device returns to the state it was suspended in (R418). -/
def unsuspended (v : Nat) (q : Queue) : Queue :=
  match q.state with
  | .suspended was => if q.vd = v then { q with state := if was = true then .blocked else .active } else q
  | _ => q
/-- What others than a virtual device are granted of a stack; of a stack on loan, those of its own partition (R331, R372). -/
def othersOn (s : State) (v st : Nat) : Nat :=
  ((List.range 32).map fun u => if u = v ∨ (s.onLoan st = true ∧ partOf u ≠ partOf v) then 0 else (s.kstored u st).grant).sum
/-- An image's counters under a virtual device, which keeps the grant it was given (R350). -/
def withCounters (s : State) (im : Image) (v : Nat) : State :=
  im.counters.foldl (fun s k => s.modK v k.stack fun x => { k with vd := v, grant := x.grant }) s
/-- The shares on cores of the virtual devices that a checkpoint copies. -/
def imageShares (s : State) (x : ImageOf) : List Nat :=
  (List.range s.lanes.shares.length).filter fun h => (s.share h).state == .resident && (s.imageVds x).elem (s.taskVd (s.share h).task)
/-- Events of virtual devices. -/
inductive TenantEvent : Instr → State → State → Prop where
  | defined p d s (h : s.vdevOk p d = true) (ha : (s.vdev (16 * p + field d 0 2)).state = .absent) : TenantEvent (.vdevDescriptor p d) s
      (s.modVdev (16 * p + field d 0 2) fun _ => { Vdev.reset with desc := d, state := .ready, offset := s.now, defined := s.now })
  | replaced p d s (h : s.vdevOk p d = true) (ha : (s.vdev (16 * p + field d 0 2)).state ≠ .absent) : TenantEvent (.vdevDescriptor p d) s
      (s.modVdev (16 * p + field d 0 2) fun x => { x with desc := d.take 24 ++ (x.desc.drop 24).take 16 ++ d.drop 40 })
  | refused p d s (h : s.vdevOk p d = false) : TenantEvent (.vdevDescriptor p d) s (s.answer 2 (10 + p))
  | grant v st n s (hv : v < 32) (hs : st < 8) (hp : s.portOpen (partOf v) st = true)
      (ho : othersOn s v st + n ≤ 2 ^ 29) (hu : (s.kshare v st).used + (s.kshare v st).pend ≤ n)
      (hg : (s.kshare v st).grant ≤ n ∨ s.ratioOk v (s.grantOf v - (s.kshare v st).grant + n) = true) :
      TenantEvent (.grantMessage v st n) s ((s.modK v st fun x => { x with grant := n }).balloonTest v)
  | pause v s (h : (s.vdev v).state = .ready) : TenantEvent (.tenantPause v) s (s.beginPause v)
  | pauseHeld v s (h : (s.vdev v).state = .frozen ∨ (s.vdev v).state = .clearing) :
      TenantEvent (.tenantPause v) s (holdMessage s v 1)
  | resume v s (h : (s.vdev v).state = .paused) (hm : ∀ m ∈ (s.vdev v).heldMsg, m = 1) : TenantEvent (.tenantResume v) s
      ({ s with queues := s.queues.map (unsuspended v) }.modVdev v fun d => { d with state := .ready, offset := (s.now : Int) - d.saved })
  | reset v s (h : (s.vdev v).state = .ready) : TenantEvent (.tenantReset v) s
      ((s.modVdev v fun d => { d with state := .frozen, frozenAt := s.guest v }).ashRecord v 3 s.openReason)
  | resetPaused v s (h : (s.vdev v).state = .paused) : TenantEvent (.tenantReset v) s
      ((s.modVdev v fun d => { d with state := .frozen, frozenAt := s.guest v, offset := (s.now : Int) - d.saved }).ashRecord v 3 s.openReason)
  | resetMerged v s (h : (s.vdev v).state = .frozen ∨ (s.vdev v).state = .clearing) : TenantEvent (.tenantReset v) s s
  | clear v s (h : (s.vdev v).state = .frozen) (hn : s.noHandover = true) (hw : ∀ x ∈ s.hearth.waiting, x.ashOf v = false) : TenantEvent (.tenantClear v) s
      ((s.clearTenant v).modVdev v fun d => { d with state := .clearing })
  | clearingDone v s (h : (s.vdev v).state = .clearing) (hm : (s.vdev v).heldMsg.head? ≠ some 1) : TenantEvent (.clearingDone v) s
      ((s.modVdev v fun d => { d with state := .ready, faults := 0 }).answer 2 (10 + partOf v))
  | pausedAfterClearing v s (h : (s.vdev v).state = .clearing) (hv : v < s.vdevs.length) (hm : (s.vdev v).heldMsg.head? = some 1) :
      TenantEvent (.clearingDone v) s
        (((s.modVdev v fun d => { d with state := .ready, faults := 0 }).answer 2 (10 + partOf v)).beginPause v)
  | exported v n s s1 im (h : (s.vdev v).state = .paused) (hn : s.noHandover = true) (hc : s.capture v = (s1, im)) (ht : n < 12) :
      TenantEvent (.tenantExport v n) s
        (((((s1.clearTenant v).modHearth fun h => { h with images := h.images ++ [im] }).dropKiln fun u => u == v).modVdev v fun _ =>
          Vdev.reset).answer 3 n)
  | exportHeld v n s (h : (s.vdev v).state = .frozen ∨ (s.vdev v).state = .clearing ∨ ((s.vdev v).state = .paused ∧ s.noHandover = false)) :
      TenantEvent (.tenantExport v n) s (holdMessage s v (2 + n))
  | imported v k s im (h : s.hearth.images[k]? = some im) (hv : (s.vdev v).state = .absent) (h32 : v < 32) (hn : s.noHandover = true)
      (hg : s.holdsImage v im = true) : TenantEvent (.tenantImport v k) s
      (((withCounters ((s.restoreLanes im v).restoreBytes im v) im v).modVdev v fun _ =>
        { Vdev.reset with
          desc := natLe 2 (v % 16) ++ im.desc.drop 2, state := .paused, saved := im.stamp,
          defined := (withCounters ((s.restoreLanes im v).restoreBytes im v) im v).now }).rechargeSaved v)
  | importRefused v k s im (h : s.hearth.images[k]? = some im) (hv : (s.vdev v).state = .absent) (h32 : v < 32) (hn : s.noHandover = true)
      (hg : s.holdsImage v im = false) : TenantEvent (.tenantImport v k) s (s.answer 3 (10 + partOf v))
  | importHeld v k s (hv : (s.vdev v).state = .absent) (h32 : v < 32) (hn : s.noHandover = false) :
      TenantEvent (.tenantImport v k) s (holdMessage s v (2 + k))
  | undefine v s (h : (s.vdev v).state = .ready ∨ (s.vdev v).state = .paused) (hn : s.noHandover = true) : TenantEvent (.tenantUndefine v) s
      (((s.clearTenant v).dropKiln fun u => u == v).modVdev v fun _ => Vdev.reset)
  | undefineHeld v s (h : (s.vdev v).state = .ready ∨ (s.vdev v).state = .paused) (hn : s.noHandover = false) :
      TenantEvent (.tenantUndefine v) s (holdMessage s v 0)
  | checkpoint x s s1 s2 ims (h : ∀ v ∈ s.imageVds x, (s.vdev v).state = .ready ∨ (s.vdev v).state = .paused)
      (hb : s.hearth.config.buddy.isSome = true) (hn : s.noHandover = true) (h1 : s.saveAll (imageShares s x) = some s1)
      (h2 : s1.captureAll (s.imageVds x) = (s2, ims)) : TenantEvent (.checkpoint x) s
      ((imageShares s x).foldl (fun t h => (t.resumeShare h (s.share h).core).getD t)
        (s2.modHearth fun h => { h with images := h.images ++ ims }))

/-! ## The platform (R19, R124, R410, R420, R424, R426 to R431) -/

/-- A posted write on a link, held or let go. -/
def holdPosted (s : State) (link : Nat) (b : Bool) : State :=
  s.modStore fun m => { m with posted := m.posted.map fun p => if p.link = some link then { p with held := b } else p }
/-- What boots: core 0 places the boot code of each partition and releases its application cores, and the enabled links that are down are trained (R413, R424, R426, R428). -/
def booted (s : State) : State :=
  (List.range 18).foldl (fun t l => if s.hearth.config.linken.getLsbD l = true ∧ t.linkIs l .down = true then t.setLink l .training else t)
    (((s.modHearth fun h =>
      { h with booted := true, recovery := false,
               boot := [some s.hearth.fwVersion, if s.hearth.config.unified = true then none else some s.hearth.fwVersion] }).bootPartition 0).bootPartition 1)
/-- A bundle that verifies and is new enough, on a device whose identity keys are there (R428, R429). -/
structure Boots (s : State) : Prop where
  version : s.hearth.fwMin ≤ s.hearth.fwVersion
  keys : s.hearth.keys = true
/-- A package that is as a package reset leaves it (R428). -/
structure FreshPackage (s : State) : Prop where
  booted : s.hearth.booted = false
  recovery : s.hearth.recovery = false
  config : s.hearth.nextConfig = none
/-- The restart of a hearth core: counted, entered in the lifetime log, and its requests wait (R19, R409, R430). -/
def restarting (s : State) (k : Nat) : State :=
  ((s.modTele fun t => { t with hearth := (t.hearth.1 + 1, t.hearth.2) }).logEntry 1 4).modHearth fun h =>
    { h with restart := if k ∈ h.restart then h.restart else h.restart ++ [k] }
/-- The micro-step that a restart of hearth core 1 interrupts is in the telemetry, with its queue and TAG (R405). -/
def stepNoted (s : State) (q : Nat) : State :=
  s.modTele fun t => { t with steps := t.steps ++ [(q, BitVec.ofNat 32 (field ((s.packetAt q).getD []) 4 4))] }
/-- Core 0 restarts from ROM: the expiry is noted and counted, and requests to it wait (R19). -/
def rebooting (s : State) : State :=
  ((s.modHearth fun h => { h with lastExpiry := some s.now }).modTele fun t => { t with hearth := (t.hearth.1 + 1, t.hearth.2) }).modHearth fun h =>
    { h with restart := if 0 ∈ h.restart then h.restart else h.restart ++ [0] }
/-- An expiry of the supervision timer that is a fault of the device: noted, counted and logged (R19). -/
def rebooted (s : State) : State :=
  ((s.modHearth fun h => { h with lastExpiry := some s.now }).modTele fun t => { t with hearth := (t.hearth.1 + 1, t.hearth.2) }).logEntry 1 9
/-- Events of the platform. -/
inductive PlatformEvent : Instr → State → State → Prop where
  | enable l s (h : s.linkIs l .down = true) : PlatformEvent (.linkEnable l) s (s.setLink l .training)
  | trained l s (h : s.linkIs l .training = true) (ht : s.linkFor l < 1000000000) : PlatformEvent (.linkTrained l) s
      ((s.setLink l .up).modHearth fun h =>
        { h with session := true, windows := h.windows ++ (Config.linkWindows l).map fun w => (w % 256, l) })
  | trainingTimeout l s (h : s.linkIs l .training = true) (ht : 1000000000 ≤ s.linkFor l) :
      PlatformEvent (.linkTrainingTimeout l) s ((s.setLink l .down).logEntry 0 2)
  | lostLock l s (h : s.linkIs l .up = true) : PlatformEvent (.linkLostLock l) s (holdPosted (s.setLink l .retraining) l true)
  | retrained l s (h : s.linkIs l .retraining = true) (ht : s.linkFor l ≤ s.recoveryLimit) :
      PlatformEvent (.linkRetrained l) s
        (holdPosted ((s.modTele fun t => { t with links := (t.links.1 + 1, t.links.2) }).setLink l .up) l false)
  | recoveryExpiry l s (h : s.linkIs l .retraining = true) (ht : s.recoveryLimit ≤ s.linkFor l) :
      PlatformEvent (.linkRecoveryExpiry l) s
        ((s.modTele fun t => { t with links := (t.links.1, t.links.2 + 1) }).linkDown l)
  | ack k s p (h : s.store.posted[k]? = some p) (hh : p.held = false) (hl : p.lost = false) :
      PlatformEvent (.postedWriteAck k) s (s.modStore fun m => { m with posted := m.posted.eraseIdx k })
  | hearthTimeout k s (h1 : 2 ≤ k) (h7 : k ≤ 7) : PlatformEvent (.hearthCoreTimeout k) s (restarting s k)
  | core1Idle s (h : (restarting s 1).servedQueue = none) : PlatformEvent (.hearthCoreTimeout 1) s (restarting s 1)
  | core1Stops q s (h : (restarting s 1).servedQueue = some q)
      (hc : Config.freeChoice (restarting s 1).free 4 q 0 0 = false) :
      PlatformEvent (.hearthCoreTimeout 1) s (stepNoted (restarting s 1) q)
  | core1Repeats q s (h : (restarting s 1).servedQueue = some q)
      (hc : Config.freeChoice (restarting s 1).free 4 q 0 0 = true) : PlatformEvent (.hearthCoreTimeout 1) s
      { (stepNoted (restarting s 1) q).serveStep q with queues := s.queues }
  | supervisionFirst s (h : ∀ t, s.hearth.lastExpiry = some t → t + 86400000000000 ≤ s.now) : PlatformEvent (.supervisionTimerExpiry true) s
      (rebooting s)
  | supervisionAgain s t (h : s.hearth.lastExpiry = some t) (ht : s.now < t + 86400000000000) :
      PlatformEvent (.supervisionTimerExpiry true) s (rebooted s).deviceFault
  | supervisionFailed s : PlatformEvent (.supervisionTimerExpiry false) s
      ((rebooted s).deviceFault.modHearth fun h => { h with recovery := true, booted := false })
  | errorTask l s (h : (s.vdev (s.launch l).par.vd).state ≠ .frozen) : PlatformEvent (.memoryError (.taskData l)) s (s.killLaunch l 1#32)
  | errorFrozen l s (h : (s.vdev (s.launch l).par.vd).state = .frozen) : PlatformEvent (.memoryError (.taskData l)) s
      ((s.secondFault (s.launch l).par.vd 1 1).modLaunch l fun x => { x with idleNs := 0, dying := none })
  | errorVdev v s : PlatformEvent (.memoryError (.reserveBacked v)) s (s.freeze v 3 s.openReason)
  | errorHearth s : PlatformEvent (.memoryError .hearth) s s.deviceFault
  | errorShared vs s (hu : s.hearth.config.unified = true) : PlatformEvent (.memoryError (.sharedReserveBacked vs)) s s.deviceFault
  | errorPartition p vs s (hu : s.hearth.config.unified = false) (hp : p < 2) (hn : vs ≠ []) (hv : ∀ v ∈ vs, partOf v = p) :
      PlatformEvent (.memoryError (.sharedReserveBacked vs)) s (s.partitionFault p)
  | errorBoth vs s u v (hu : s.hearth.config.unified = false) (h0 : u ∈ vs) (h1 : v ∈ vs) (hp : partOf u = 0) (hq : partOf v = 1) :
      PlatformEvent (.memoryError (.sharedReserveBacked vs)) s ((s.partitionFault 0).partitionFault 1)
  | softError st ch s (h : st < 8) : PlatformEvent (.softError st ch) s (s.modTele fun t => { t with soft := bump (st * 64 + ch) t.soft })
  | dieLink s : PlatformEvent .dieLinkLoss s s.deviceFault
  | alarm2 s (h : ∀ t, s.hearth.lastL2 = some t → t + 86400000000000 ≤ s.now) : PlatformEvent .securityAlarmL2 s s.alarm2
  | alarm2Again s t (h : s.hearth.lastL2 = some t) (ht : s.now < t + 86400000000000) : PlatformEvent .securityAlarmL2 s s.alarm3
  | alarm3 s : PlatformEvent .securityAlarmL3 s ((s.alarm2.logEntry 3 8).modHearth fun h => { h with keys := false })
  | throttleDown s : PlatformEvent (.thermalThrottle false) s (s.modHearth fun h => { h with mhz := max 850 (h.mhz - 50) })
  | throttleUp s : PlatformEvent (.thermalThrottle true) s (s.modHearth fun h => { h with mhz := min 1700 (h.mhz + 50) })
  | overtemp s (h : ∀ x ∈ (s.freezeAll 4).hearth.waiting, x.kind ≠ 6) : PlatformEvent .junctionOvertemp s
      ((s.freezeAll 4).resetPackage.modHearth fun h => { h with recovery := (s.freezeAll 4).hearth.recovery })
  | overtempHeld s x (h : x ∈ (s.freezeAll 4).hearth.waiting) (hk : x.kind = 6) : PlatformEvent .junctionOvertemp s
      ((s.freezeAll 4).modHearth fun h => { h with resets := if 2 ∈ h.resets then h.resets else h.resets ++ [2] })
  | boot rv s (h : FreshPackage s) (hb : Boots s) : PlatformEvent (.packageResetBoot ⟨true, rv⟩) s (booted s)
  | bootFails rv s (h : FreshPackage s) : PlatformEvent (.packageResetBoot ⟨false, rv⟩) s
      (s.modHearth fun h => { h with booted := false, recovery := true })
  | packageReset s (h : ¬FreshPackage s) (hb : Boots s.resetPackage) :
      PlatformEvent (.packageResetBoot ⟨true, true⟩) s (booted s.resetPackage)
  | recordRefused s t r (hb : s.hearth.booted = true ∨ s.hearth.recovery = true) (hr : s.hearth.nextConfig = some r)
      (ht : (((s.modHearth fun h => { h with nextConfig := none }).logEntry 1 5).resetPackage) = t) (hk : Boots t) :
      PlatformEvent (.packageResetBoot ⟨true, false⟩) s (booted t)
  | recovery b s t (h : s.hearth.recovery = true) (hv : b.signaturesVerify = true) (hf : s.hearth.fwMin ≤ b.version)
      (hr : b.recordVerifies = true ∨ s.hearth.nextConfig = none) (ht : (s.modHearth fun h => { h with fwVersion := b.version, badBundles := 0 }).resetPackage = t) (hk : Boots t) :
      PlatformEvent (.recovery b) s (booted t)
  | recoveryRefuses b s t r (h : s.hearth.recovery = true) (hv : b.signaturesVerify = true) (hf : s.hearth.fwMin ≤ b.version)
      (hr : b.recordVerifies = false) (hc : s.hearth.nextConfig = some r)
      (ht : (((s.modHearth fun h => { h with fwVersion := b.version, badBundles := 0 }).modHearth fun h =>
        { h with nextConfig := none }).logEntry 1 5).resetPackage = t) (hk : Boots t) : PlatformEvent (.recovery b) s (booted t)
  | recoveryBad b s (h : s.hearth.recovery = true) (hv : b.signaturesVerify = false ∨ b.version < s.hearth.fwMin)
      (hn : s.hearth.badBundles < 2) : PlatformEvent (.recovery b) s (s.modHearth fun h => { h with badBundles := h.badBundles + 1 })
  | recoveryThird b s (h : s.hearth.recovery = true) (hv : b.signaturesVerify = false ∨ b.version < s.hearth.fwMin)
      (hn : 2 ≤ s.hearth.badBundles) : PlatformEvent (.recovery b) s ((s.modHearth fun h => { h with badBundles := 0 }).logEntry 1 6)
  | config r s (hs : s.hearth.svn ≤ r.svn) (ho : configOk r = true) : PlatformEvent (.configRecordUpdate r true) s
      (s.modHearth fun h => { h with nextConfig := some r, svn := max h.svn r.svn })
  | configRefused r v s (h : v = false ∨ r.svn < s.hearth.svn ∨ configOk r = false) :
      PlatformEvent (.configRecordUpdate r v) s (s.logEntry 1 5)
  | identity p s : PlatformEvent (.identityRequest p) s
      (s.answerBytes 0 (8 + p) (((identityBytes s.hearth.identity).length + 59) / 60) (identityBytes s.hearth.identity))
  | enrollment r s : PlatformEvent (.enrollment r) s (s.modHearth fun h => { h with identity := r, keys := true })
  | telemetry s (h : s.hearth.tele.start + 86400000000000 ≤ s.now) : PlatformEvent .telemetryRecord s
      (s.modHearth fun h => { h with ring := ({ h.tele with temps := s.temps } :: h.ring).take 4096, tele := { Telemetry.reset with start := s.now } })
  | telemetryRequest p s bs (h : (s.hearth.tele :: s.hearth.ring).flatMap Telemetry.bytes = bs) :
      PlatformEvent (.telemetryRequest p) s (s.answerBytes 7 (8 + p) ((bs.length + 59) / 60) bs)
  | ptp n s (h : s.hearth.config.ptp = true) : PlatformEvent (.ptpCorrection n) s
      (s.modHearth fun h => { h with slew := max (-500) (min 500 n) })
  | ptpOff n s (h : s.hearth.config.ptp = false) : PlatformEvent (.ptpCorrection n) s s

/-! ## Outside agents and the debugger (R106, R107, R245, R324, R425) -/

/-- No held access of an agent keeps its next one behind: none of the PCIe host, a drive or a peer, no fence of a hart (R107). -/
def NothingHeld (s : State) (who : Nat) : Prop := ∀ x ∈ s.store.heldOps, x.1 = who → who < 32 ∧ x.2 ≠ .fence
/-- An agent outside the lane engine reaches n bytes, and nothing holds its access now. -/
structure Admitted (s : State) (who pa n : Nat) (reads : Bool) : Prop where
  reaches : s.reaches (s.partOfWho who) pa n = true
  free : s.holdsOutside (s.partOfWho who) pa n reads = false
  foremost : NothingHeld s who
/-- Partition 0's hypervisor runs on an application core (R413, R425). -/
structure Hypervises (s : State) (k : Nat) : Prop where
  part : s.partOfWho k = 0
  mode : (s.hearth.harts.getD k hartReset).mode = .hypervisor
/-- An application core runs its partition's supervisor or hypervisor, whose mailbox source is n (R397). -/
def MailSource (s : State) (k n : Nat) : Prop :=
  ((s.hearth.harts.getD k hartReset).mode = .supervisor ∧ n = 8 + s.partOfWho k) ∨
  ((s.hearth.harts.getD k hartReset).mode = .hypervisor ∧ n = 10 + s.partOfWho k)
/-- A port of a partition: the driver that runs on an application core may use it (R412, R423). -/
structure OwnsPort (s : State) (k port : Nat) : Prop where
  exists_ : port < 2
  part : s.partOfWho k = s.partOfWho (96 + port)
/-- Held behind what an agent has done before (R107). -/
def heldBack (s : State) (k : Nat) (op : HostOp) : State := s.modStore fun m => { m with heldOps := m.heldOps ++ [(k, op)] }
/-- An application core that has been released (R413, R428). -/
structure HartFree (s : State) (k : Nat) : Prop where
  booted : s.hearth.booted = true
  exists_ : k < 32
/-- An aligned word or doubleword, as an atomic access needs. -/
structure AtomAt (pa n : Nat) : Prop where
  size : n = 4 ∨ n = 8
  aligned : pa % n = 0
/-- Bytes in the window of BAR2 of a host in endpoint mode (R425). -/
structure InWindow (s : State) (pa n base len : Nat) : Prop where
  endpoint : s.hearth.config.pcieRoot = false
  window : s.hearth.bar2 = some (base, len)
  low : base ≤ pa
  high : pa + n ≤ base + len
/-- An atomic access of an agent: a value is written and the old bytes are returned (R100, R107, R425). -/
def atomDone (s : State) (who pa n x : Nat) : State :=
  (s.outsidePut pa (natLe n x)).returned who (s.store.mem.getN pa n)
/-- The number that n bytes of local memory hold. -/
def numberAt (s : State) (pa n : Nat) : Nat := leNat (s.store.mem.getN pa n)
/-- Events of outside agents and of the debugger. -/
inductive OutsideEvent : Instr → State → State → Prop where
  | core k pa bs s (hr : HartFree s k) (ha : Admitted s k pa bs.length false) :
      OutsideEvent (.applicationCoreAccess k (.store pa bs)) s (s.outsidePut pa bs)
  | coreLoad k pa n s (hr : HartFree s k) (ha : Admitted s k pa n true) :
      OutsideEvent (.applicationCoreAccess k (.load pa n)) s (s.returned k (s.store.mem.getN pa n))
  | heldCore k op pa n s (hr : HartFree s k) (hp : hostSpan op = some (pa, n)) (ha : s.reaches (s.partOfWho k) pa n = true)
      (hh : s.holdsOutside (s.partOfWho k) pa n (readsOnly op) = true) : OutsideEvent (.applicationCoreAccess k op) s (heldBack s k op)
  | fence k s (hr : HartFree s k) (hf : ∀ x ∈ s.store.heldOps, x.1 ≠ k) : OutsideEvent (.applicationCoreAccess k .fence) s s
  | fenceWaits k s x (hr : HartFree s k) (hx : (k, x) ∈ s.store.heldOps) :
      OutsideEvent (.applicationCoreAccess k .fence) s (heldBack s k .fence)
  | behindFence k pa bs s (hr : HartFree s k) (ha : s.reaches (s.partOfWho k) pa bs.length = true) (hx : (k, .fence) ∈ s.store.heldOps) :
      OutsideEvent (.applicationCoreAccess k (.store pa bs)) s (heldBack s k (.store pa bs))
  | retire k x s (hr : HartFree s k) : OutsideEvent (.applicationCoreAccess k (.retire x)) s
      (s.modHearth fun h => { h with harts := h.harts.set k x })
  | coreAdd k pa n x s (hr : HartFree s k) (hn : AtomAt pa n) (ha : Admitted s k pa n false) :
      OutsideEvent (.applicationCoreAccess k (.fetchAdd pa n x)) s (atomDone s k pa n ((numberAt s pa n + x.toNat) % 2 ^ (8 * n)))
  | coreSwap k pa n x s (hr : HartFree s k) (hn : AtomAt pa n) (ha : Admitted s k pa n false) :
      OutsideEvent (.applicationCoreAccess k (.swap pa n x)) s (atomDone s k pa n (x.toNat % 2 ^ (8 * n)))
  | coreCas k pa n x y s (hr : HartFree s k) (hn : AtomAt pa n) (ha : Admitted s k pa n false) :
      OutsideEvent (.applicationCoreAccess k (.cas pa n x y)) s (atomDone s k pa n
        (if numberAt s pa n = x.toNat % 2 ^ (8 * n) then y.toNat % 2 ^ (8 * n) else numberAt s pa n))
  | coreAmo k pa n op x s (hr : HartFree s k) (hn : AtomAt pa n) (ha : Admitted s k pa n false) (ho : op < 9) :
      OutsideEvent (.applicationCoreAccess k (.amo pa n op x)) s
        (atomDone s k pa n (amoNew op n (numberAt s pa n) (x.toNat % 2 ^ (8 * n)) 0))
  | coreLr k pa n s (hr : HartFree s k) (hn : AtomAt pa n) (ha : Admitted s k pa n true) :
      OutsideEvent (.applicationCoreAccess k (.lr pa n)) s ((s.setResv k (some (pa, n))).returned k (s.store.mem.getN pa n))
  | coreSc k pa n x s (hr : HartFree s k) (hn : AtomAt pa n) (ha : Admitted s k pa n false) (hv : s.reserved k pa n = true)
      (hc : Config.freeChoice s.free 6 k 0 0 = true) : OutsideEvent (.applicationCoreAccess k (.sc pa n x)) s
      (((s.setResv k none).outsidePut pa (natLe n x.toNat)).returned k [0#8])
  | coreScFails k pa n x s (hr : HartFree s k) (hn : AtomAt pa n) (ha : Admitted s k pa n false)
      (hc : s.reserved k pa n = false ∨ Config.freeChoice s.free 6 k 0 0 = false) :
      OutsideEvent (.applicationCoreAccess k (.sc pa n x)) s ((s.setResv k none).returned k [1#8])
  | coreDoorbell k q i s (hr : HartFree s k) (hp : partOf (s.queue q).vd = s.partOfWho k) (hm : NothingHeld s k) :
      OutsideEvent (.applicationCoreAccess k (.doorbell q i)) s (s.ring q i)
  | coreMail k t n m s (hr : HartFree s k) (hn : MailSource s k n) (ht : t < 8) (hl : m.length = 64) (hm : NothingHeld s k)
      (hb : (s.hearth.boxes.getD t []).length < 32) : OutsideEvent (.applicationCoreAccess k (.mailbox t n m)) s
      (s.modHearth fun h => { h with boxes := h.boxes.set t (s.hearth.boxes.getD t [] ++ [⟨n, t, BitVec.ofNat 8 n :: m.drop 1⟩]) })
  | mailWaits k t n m s (hr : HartFree s k) (hn : MailSource s k n) (ht : t < 8) (hb : 32 ≤ (s.hearth.boxes.getD t []).length) :
      OutsideEvent (.applicationCoreAccess k (.mailbox t n m)) s (heldBack s k (.mailbox t n m))
  | claim k x s (hr : HartFree s k) : OutsideEvent (.applicationCoreAccess k (.claim x)) s
      (s.modHearth fun h => { h with irqs := h.irqs.erase (s.partOfWho k, x) })
  | exportQueue k q s (hr : HartFree s k) (hp : Hypervises s k) : OutsideEvent (.applicationCoreAccess k (.exportQueue q true)) s
      (s.modHearth fun h => { h with exported := q :: h.exported.erase q })
  | withdrawQueue k q s (hr : HartFree s k) (hp : Hypervises s k) : OutsideEvent (.applicationCoreAccess k (.exportQueue q false)) s
      (s.modHearth fun h => { h with exported := h.exported.erase q })
  | setWindow k b n s (hr : HartFree s k) (hp : Hypervises s k) : OutsideEvent (.applicationCoreAccess k (.setWindow b n)) s
      (s.modHearth fun h => { h with bar2 := some (b, n) })
  | netSetup k port sum mrg n s (hr : HartFree s k) (hp : OwnsPort s k port) (hm : NothingHeld s k) (h1 : 1 ≤ n) (h2 : n ≤ 16) :
      OutsideEvent (.applicationCoreAccess k (.netSetup port sum mrg n)) s
        (s.modPort port fun p => { p with csum := sum, mrg := mrg, pairs := n })
  | netSend k port n pa len s (hr : HartFree s k) (hp : OwnsPort s k port) (ha : Admitted s k pa len true) (hn : n < (s.port port).pairs)
      (hl : len ≤ 9216) (hc : (s.port port).paused = 0#8) : OutsideEvent (.applicationCoreAccess k (.netSend port n pa len none)) s
        (s.sends (.frame port s.now (s.store.mem.getN pa len)))
  | netReceive k port n pa len time bs rest s (hr : HartFree s k) (hp : OwnsPort s k port) (ha : Admitted s k pa len false)
      (hx : (s.port port).rx = (n, time, bs) :: rest) (hl : bs.length ≤ len) :
      OutsideEvent (.applicationCoreAccess k (.netReceive port n pa len)) s
        (((s.modPort port fun p => { p with rx := p.rx.drop 1 }).outsidePut pa bs).returned k (natLe 8 time ++ natLe 4 bs.length))
  | blkWrite k sector pa n s (hr : HartFree s k) (ha : Admitted s k pa n true) (hd : s.hearth.config.nvme.getD (s.partOfWho k) [] ≠ []) :
      OutsideEvent (.applicationCoreAccess k (.blkWrite sector pa n)) s (s.sends (.write (s.partOfWho k) sector (s.store.mem.getN pa n)))
  | blkRead k sector pa bs s (hr : HartFree s k) (ha : Admitted s k pa bs.length false)
      (hd : s.hearth.config.nvme.getD (s.partOfWho k) [] ≠ []) :
      OutsideEvent (.applicationCoreAccess k (.blkRead sector pa bs)) s (s.outsidePut pa bs)
  | ecamWrite k port reg bs s (hr : HartFree s k) (hm : NothingHeld s k) (hc : s.hearth.config.pcieRoot = true) (hp : s.partOfWho k = 0)
      (h4 : port < 4) : OutsideEvent (.applicationCoreAccess k (.ecamWrite port reg bs)) s (s.sends (.config port reg bs))
  | frameArrives port bs s (hp : port < 2) (hl : bs.length ≤ 9216) : OutsideEvent (.inboundFabricWrite (32 + port) (.frame bs)) s
      (s.modPort port fun p => { p with rx := p.rx ++ [(Config.rxPair s.free % p.pairs, s.now, bs)] })
  | frameTooLong port bs s (hp : port < 2) (hl : 9216 < bs.length) : OutsideEvent (.inboundFabricWrite (32 + port) (.frame bs)) s s
  | asleep k op s (h : s.hearth.booted = false ∨ 32 ≤ k) : OutsideEvent (.applicationCoreAccess k op) s s
  | pcie pa bs s b n (hw : InWindow s pa bs.length b n) (ha : Admitted s 32 pa bs.length false) :
      OutsideEvent (.pcieHostAccess ⟨0, .store pa bs⟩) s (s.outsidePut pa bs)
  | pcieLoad pa k s b n (hw : InWindow s pa k b n) (ha : Admitted s 32 pa k true) :
      OutsideEvent (.pcieHostAccess ⟨0, .load pa k⟩) s (s.returned 32 (s.store.mem.getN pa k))
  | pcieAdd pa k x s b n (hw : InWindow s pa k b n) (hn : AtomAt pa k) (ha : Admitted s 32 pa k false) :
      OutsideEvent (.pcieHostAccess ⟨0, .fetchAdd pa k x⟩) s (atomDone s 32 pa k ((numberAt s pa k + x.toNat) % 2 ^ (8 * k)))
  | pcieDoorbell q i s (he : s.hearth.config.pcieRoot = false) (hq : q ∈ s.hearth.exported) (hp : partOf (s.queue q).vd = s.partOfWho 32) (hm : NothingHeld s 32) :
      OutsideEvent (.pcieHostAccess ⟨0, .doorbell q i⟩) s (s.ring q i)
  | pcieOutside pa bs s (he : s.hearth.config.pcieRoot = false) (hw : ∀ b n, s.hearth.bar2 = some (b, n) → pa < b ∨ b + n < pa + bs.length) :
      OutsideEvent (.pcieHostAccess ⟨0, .store pa bs⟩) s s
  | pcieBehind pa bs s b n x (hw : InWindow s pa bs.length b n) (ha : s.reaches (s.partOfWho 32) pa bs.length = true)
      (hx : (32, x) ∈ s.store.heldOps) : OutsideEvent (.pcieHostAccess ⟨0, .store pa bs⟩) s (heldBack s 32 (.store pa bs))
  | drive p pa bs s (he : s.hearth.config.pcieRoot = true) (hp : p < 4) (ha : Admitted s (32 + p) pa bs.length false) :
      OutsideEvent (.pcieHostAccess ⟨p, .store pa bs⟩) s (s.outsidePut pa bs)
  | fabric p pa bs s (h : s.linkIs p .up = true) (ha : Admitted s (64 + p) pa bs.length false) :
      OutsideEvent (.inboundFabricWrite p (.store pa bs)) s (s.outsidePut pa bs)
  | fabricAdd p pa n x s (h : s.linkIs p .up = true) (hn : AtomAt pa n) (ha : Admitted s (64 + p) pa n false) :
      OutsideEvent (.inboundFabricWrite p (.fetchAdd pa n x)) s (atomDone s (64 + p) pa n ((numberAt s pa n + x.toNat) % 2 ^ (8 * n)))
  | readReg ag r s (h : (s.agent ag).status = .halted) (hr : r ≠ 255#8) : OutsideEvent (.debugAccess ag (.readReg r)) s
      (s.reply ag (natLe 4 ((s.agent ag).regs.getD r.toNat 0#32).toNat))
  | writeReg ag r x s (h : (s.agent ag).status = .halted) (hr : r.toNat < (s.agent ag).home.budget) :
      OutsideEvent (.debugAccess ag (.writeReg r x)) s (s.modAgent ag fun a => { a with regs := a.regs.set r.toNat x })
  | readZero ag s (h : (s.agent ag).status = .halted) : OutsideEvent (.debugAccess ag (.readReg 255#8)) s (s.reply ag (natLe 4 0))
  | readPred ag p s (h : (s.agent ag).status = .halted) : OutsideEvent (.debugAccess ag (.readPred p)) s
      (s.reply ag (natLe 4 (if (s.agent ag).preds.getLsbD p.toNat = true then 1 else 0)))
  | writePred ag p x s (h : (s.agent ag).status = .halted) (hp : p ≠ 7#3) : OutsideEvent (.debugAccess ag (.writePred p x)) s
      (s.modAgent ag fun a => a.set (.pred p.toNat) (if x = true then 1#32 else 0#32))
  | readTrap ag n w s (h : (s.agent ag).status = .halted) (hn : (s.agent ag).trap.get n.toNat = some w) :
      OutsideEvent (.debugAccess ag (.readTrap n)) s (s.reply ag (natLe 4 w.toNat))
  | writeTrap ag n x s (h : (s.agent ag).status = .halted) : OutsideEvent (.debugAccess ag (.writeTrap n x)) s
      (s.modAgent ag fun a => { a with trap := a.trap.put x n.toNat })
  | readPc ag s r (h : (s.agent ag).status = .halted) (hh : (s.agent ag).halt = some r) :
      OutsideEvent (.debugAccess ag .readPc) s (s.reply ag (natLe 8 r.pc.toNat))
  | readHalt ag s r (h : (s.agent ag).status = .halted) (hh : (s.agent ag).halt = some r) : OutsideEvent (.debugAccess ag .readHalt) s
      (s.reply ag (natLe 4 r.cause.toNat ++ natLe 8 r.addr.toNat ++ natLe 4 r.info.toNat ++ natLe 8 r.pc.toNat))
  | readCtx ag x n s (h : (s.agent ag).status = .halted) : OutsideEvent (.debugAccess ag (.readCtx x n)) s
      (s.reply ag (natLe 4 ((s.xctx ag x).field n).toNat))
  | writeCtx ag x n v y s (h : (s.agent ag).status = .halted) (hy : (s.xctx ag x).putField v n = some y) (hs : y.storable = true)
      (hx : x.toNat < (s.agent ag).xctx.length) : OutsideEvent (.debugAccess ag (.writeCtx x n v)) s (s.setXctx ag x y)
  | writeCtxRefused ag x n v s (h : (s.agent ag).status = .halted) (hy : ∀ y, (s.xctx ag x).putField v n = some y → y.storable = false) :
      OutsideEvent (.debugAccess ag (.writeCtx x n v)) s s
  | writePc ag x s r (h : (s.agent ag).status = .halted) (hh : (s.agent ag).halt = some r) :
      OutsideEvent (.debugAccess ag (.writePc x)) s (s.modAgent ag fun a => { a with halt := some { r with pc := x, parked := none } })
  | goOn ag s r (h : (s.agent ag).status = .halted) (hh : (s.agent ag).halt = some r) (hp : r.parked = none) :
      OutsideEvent (.debugResume ag) s (s.modAgent ag fun a =>
        { a with status := .ready, halt := none, skipBp := true, stepOnce := false, pc := r.pc })
  | goParked ag s r w (h : (s.agent ag).status = .halted) (hh : (s.agent ag).halt = some r) (hp : r.parked = some w) :
      OutsideEvent (.debugResume ag) s ((s.modAgent ag fun a =>
        { a with status := .ready, halt := none, skipBp := true, stepOnce := false }).repark ag w)
  | running ag op s (h : (s.agent ag).status ≠ .halted) : OutsideEvent (.debugAccess ag op) s s
  | stepOn ag s r (h : (s.agent ag).status = .halted) (hh : (s.agent ag).halt = some r) (hp : r.parked = none) :
      OutsideEvent (.debugStep ag) s (s.modAgent ag fun a =>
        { a with status := .ready, halt := none, skipBp := true, stepOnce := true, pc := r.pc })
  | kill ag s (h : (s.agent ag).status = .halted) (hc : s.killClear ag = true) : OutsideEvent (.debugKill ag) s
      (((List.range 16).foldl (fun s b => s.noteBar (s.taskOf ag) b (s.barRank ag)) s).endAgent ag)
  | dropMask ag m s (h : (s.agent ag).status = .halted) (hf : (s.agent ag).isFE = false) (hm : s.inMask ag m.toNat = true) :
      OutsideEvent (.debugDropMask ag m) s (s.maskDrop (s.groupOf ag) m.toNat (s.agent ag).home.idx)

end Sys2Proof.Claims
end

