-- ==== Sys2Proof/Safety/Accesses.lean ====
section
/-! DEFINITION. Rows of memory, kiln and ray instructions for claims: what an instruction that a thread performs alone
leaves, and how the thread goes on (09 R205 to R221, 10 R196 to R204, 19 R341 to R348). -/

namespace Sys2Proof.Claims
open Sys2Proof.Machine

/-! ## Conditions of an access -/

/-- A global access of n bytes meets no cause: aligned, no range lock, and translated to a physical address; translating leaves the state s1 (R70, R205, R210, R221). -/
def Reaches (s : State) (ag : Nat) (ea : DWord) (n : Nat) (k : Access) (s1 : State) (pa : Nat) (rb h11 : Bool) : Prop :=
  ea.toNat % n = 0 ∧ s.lockHit (s.coreOf ag) (s.vdOf ag) ea n (k == .store) = none ∧
  s.translate (s.vdOf ag) (s.coreOf ag) ea k = (s1, .ok pa rb h11)
/-- A global access of n bytes lies on a page that is surrendered or not resident, and meets no other cause. -/
def Misses (s : State) (ag : Nat) (ea : DWord) (n : Nat) (s1 : State) : Prop :=
  ea.toNat % n = 0 ∧ s.lockHit (s.coreOf ag) (s.vdOf ag) ea n false = none ∧
  ∃ c, (c = 0x06 ∨ c = 0x07) ∧ s.translate (s.vdOf ag) (s.coreOf ag) ea .load = (s1, .bad c)
/-- A scratchpad access of n bytes meets no cause: aligned, inside the window, its line present (R213). -/
def PadOk (s : State) (ag : Nat) (off : Word) (n : Nat) : Prop :=
  off.toNat % n = 0 ∧ off.toNat + n ≤ (s.share (s.shareOf ag)).size ∧ off.toNat / 128 ∉ (s.share (s.shareOf ag)).absent
/-- The version of a task is committed where that is needed, and leaves s1 (R120, R380 to R382). -/
def Committed (s : State) (t : Nat) (need : Bool) (s1 : State) : Prop :=
  (need = true ∧ s.commit t = .done s1) ∨ (need = false ∧ s1 = s)
/-- A write of n bytes does not take a task's version beyond its budget (R379). -/
def InBudget (s : State) (t pa n : Nat) : Prop :=
  s.unsettled t = true → s.versionLines t pa n ≤ (s.launch (s.task t).launch).par.vbudget * 8192
/-- A store of a thread is charged and accepted, without suppression and with no older store of its group waiting (R98, R239, R332, R340). -/
def Charged (s : State) (ag pa : Nat) (rb : Bool) (s1 : State) : Prop :=
  (s.agent ag).supp = none ∧ s.inTurn ag false = true ∧
  ∃ s0, s.charge (s.vdOf ag) pa rb = (s0, .accepted) ∧ s1 = s0.leaveLine ag false
/-- A write of n bytes would take a task's version beyond its budget (R379). -/
def OverBudget (s : State) (t pa n : Nat) : Prop :=
  s.unsettled t = true ∧ (s.launch (s.task t).launch).par.vbudget * 8192 < s.versionLines t pa n
/-- A release at system scope has no earlier write to wait for: its stores drain and the posted writes it covers are acknowledged; any other access goes on at once (R103, R107, R124). -/
def Releases (s : State) (ag : Nat) (system : Bool) (s1 : State) : Prop :=
  (system = false ∧ s1 = s) ∨ (system = true ∧ s.drainIssuer ag = (s1, true) ∧ s1.posting ag = false)
/-- Entries of the thread's forwarding table are written where the access is a release or acquire. -/
def orderedBy (s : State) (ag : Nat) (ord : Bool) : State := if ord = true then s.flushOwn ag else s

/-! ## Loads and stores (R210 to R213) -/

/-- A load from global memory: its address, its width code and its destination (R205, R206, R210). -/
inductive LoadOf : Instr → (State → Nat → DWord) → BitVec 3 → Reg → Prop where
  | ld w d a disp : LoadOf (.ld w d a disp) (fun s g => s.a64 g a + disp.signExtend 64) 0#3 d
  | ldExt c ord wd scope hint d a disp : LoadOf (.ldExt c ord wd scope hint d a disp) (fun s g => s.a64 g a + Disp64 disp) wd d
/-- A load of a constant. -/
inductive ConstOf : Instr → (State → Nat → DWord) → BitVec 3 → Reg → Prop where
  | ldc w d a disp : ConstOf (.ldc w d a disp) (fun s g => s.a64 g a + disp.signExtend 64) 0#3 d
  | ldcExt c wd hint d a disp : ConstOf (.ldcExt c wd hint d a disp) (fun s g => s.a64 g a + Disp64 disp) wd d
/-- A store to global memory: its address, its width code, its data register, its order and its scope. -/
inductive StoreOf : Instr → (State → Nat → DWord) → BitVec 3 → Reg → Bool → Nat → Prop where
  | st w d a disp : StoreOf (.st w d a disp) (fun s g => s.a64 g a + disp.signExtend 64) 0#3 d false 0
  | stExt c ord wd scope hint d a disp : StoreOf (.stExt c ord wd scope hint d a disp) (fun s g => s.a64 g a + Disp64 disp) wd d ord scope.toNat
/-- A load from the scratchpad. -/
inductive PadLoadOf : Instr → (State → Nat → Word) → BitVec 3 → Reg → Prop where
  | lds w d a disp : PadLoadOf (.lds w d a disp) (fun s g => s.a32 g a + (disp.signExtend 64).setWidth 32) 0#3 d
  | ldsExt c wd d a disp : PadLoadOf (.ldsExt c wd d a disp) (fun s g => s.a32 g a + (Disp64 disp).setWidth 32) wd d
/-- A store to the scratchpad. -/
inductive PadStoreOf : Instr → (State → Nat → Word) → BitVec 3 → Reg → Prop where
  | sts w d a disp : PadStoreOf (.sts w d a disp) (fun s g => s.a32 g a + (disp.signExtend 64).setWidth 32) 0#3 d
  | stsExt c wd d a disp : PadStoreOf (.stsExt c wd d a disp) (fun s g => s.a32 g a + (Disp64 disp).setWidth 32) wd d
/-- An atomic: its operation code, order, width, scope, destination, and its address, operand and comparand (R217). -/
inductive AtomOf : Instr → Nat → Bool → Bool → Nat → Reg → Reg → (State → Nat → DWord) → (State → Nat → DWord) → Prop where
  | add c o w sc d a b : AtomOf (.atomAdd c o w sc d a b) 0 o w sc.toNat d a (fun s g => s.bSized g w b) (fun _ _ => 0#64)
  | min c o w sc d a b : AtomOf (.atomMin c o w sc d a b) 1 o w sc.toNat d a (fun s g => s.bSized g w b) (fun _ _ => 0#64)
  | max c o w sc d a b : AtomOf (.atomMax c o w sc d a b) 2 o w sc.toNat d a (fun s g => s.bSized g w b) (fun _ _ => 0#64)
  | umin c o w sc d a b : AtomOf (.atomUmin c o w sc d a b) 3 o w sc.toNat d a (fun s g => s.bSized g w b) (fun _ _ => 0#64)
  | umax c o w sc d a b : AtomOf (.atomUmax c o w sc d a b) 4 o w sc.toNat d a (fun s g => s.bSized g w b) (fun _ _ => 0#64)
  | and c o w sc d a b : AtomOf (.atomAnd c o w sc d a b) 5 o w sc.toNat d a (fun s g => s.bSized g w b) (fun _ _ => 0#64)
  | or c o w sc d a b : AtomOf (.atomOr c o w sc d a b) 6 o w sc.toNat d a (fun s g => s.bSized g w b) (fun _ _ => 0#64)
  | xor c o w sc d a b : AtomOf (.atomXor c o w sc d a b) 7 o w sc.toNat d a (fun s g => s.bSized g w b) (fun _ _ => 0#64)
  | exch c o w sc d a b : AtomOf (.atomExch c o w sc d a b) 8 o w sc.toNat d a (fun s g => s.bSized g w b) (fun _ _ => 0#64)
  | cas c o w sc d a b e : AtomOf (.atomCas c o w sc d a b e) 9 o w sc.toNat d a (fun s g => s.bSized g w b) (fun s g => s.bSized g w (.reg e))
  | fadd c o sc d a b : AtomOf (.atomFadd c o sc d a b) 10 o false sc.toNat d a (fun s g => s.bSized g false b) (fun _ _ => 0#64)
/-- A reduction: its operation code, width, scope, address and operand (R217, R219). -/
inductive RedOf : Instr → Nat → Bool → Nat → Reg → (State → Nat → DWord) → Prop where
  | add c w sc a b : RedOf (.redAdd c w sc a b) 0 w sc.toNat a (fun s g => s.bSized g w b)
  | min c w sc a b : RedOf (.redMin c w sc a b) 1 w sc.toNat a (fun s g => s.bSized g w b)
  | max c w sc a b : RedOf (.redMax c w sc a b) 2 w sc.toNat a (fun s g => s.bSized g w b)
  | umin c w sc a b : RedOf (.redUmin c w sc a b) 3 w sc.toNat a (fun s g => s.bSized g w b)
  | umax c w sc a b : RedOf (.redUmax c w sc a b) 4 w sc.toNat a (fun s g => s.bSized g w b)
  | and c w sc a b : RedOf (.redAnd c w sc a b) 5 w sc.toNat a (fun s g => s.bSized g w b)
  | or c w sc a b : RedOf (.redOr c w sc a b) 6 w sc.toNat a (fun s g => s.bSized g w b)
  | xor c w sc a b : RedOf (.redXor c w sc a b) 7 w sc.toNat a (fun s g => s.bSized g w b)
  | fadd c sc a b : RedOf (.redFadd c sc a b) 10 false sc.toNat a (fun s g => s.bSized g false b)
/-- Bytes of an atomic. -/
def amoBytes (w64 : Bool) : Nat := if w64 = true then 8 else 4
/-- The old value of an atomic, as its destinations receive it. -/
def amoOld (w64 : Bool) (d : Reg) (old : Nat) : List (Option Dst × Word) :=
  if w64 = true then toPair d (BitVec.ofNat 64 old) else [toReg d (BitVec.ofNat 32 old)]
/-- An atomic's step at its place: the old value is read, the new one written, the old one returned (R218). -/
def amoStep (s : State) (ag pa : Nat) (h11 w64 : Bool) (op : Nat) (d : Reg) (b c : DWord) : State :=
  let t := s.taskOf ag
  let n := amoBytes w64
  let old := leNat (s.readAs t pa n)
  ((s.noteRead t pa n).writeHome t ag pa h11 (natLe n (amoNew op n old b.toNat c.toNat))).out ag true false (amoOld w64 d old) 0#5
/-- One more entry, of a task's thread, at the end of the thread's store queue (R98). -/
def queuedAt (s : State) (ag t pa : Nat) (h11 : Bool) (op : SqOp) : State :=
  s.setSq ag (s.sq ag ++ [⟨ag, t, pa, op, s.unsettled t, h11⟩])

/-- A store, atomic or reduction that has passed its checks stands before its charge: the state, whether it enters the store queue, its address, place and size, whether its page is reserve-backed, and what it does to the state once it is accepted (R98, R100, R120, R210, R217 to R219). -/
inductive Writes : Instr → Nat → State → State → Bool → DWord → Nat → Nat → Bool → (State → State) → Prop where
  | store i ea c d rel sc ag s s0 pa rb h11 s1 s2 (hi : StoreOf i ea c d rel sc)
      (hr : Reaches s ag (ea s ag) (s.storeBytes ag c d).length .store s0 pa rb h11)
      (hc : Committed s0 (s0.taskOf ag) (rel && decide (4 ≤ sc)) s1) (hw : Releases s1 ag (rel && sc == 7) s2) :
      Writes i ag s (orderedBy s2 ag rel) true (ea s ag) pa (s.storeBytes ag c d).length rb
        fun x => queuedAt x ag ((orderedBy s2 ag rel).taskOf ag) pa h11 (.store (s.storeBytes ag c d))
  | atom i op ord w sc d a b c ag s s0 pa rb h11 s1 s2 s3 (hi : AtomOf i op ord w sc d a b c)
      (hr : Reaches s ag (s.a64 ag a) (amoBytes w) .store s0 pa rb h11)
      (hh : hostRefuses pa (if sc = 7 then some (true, op) else none) = false)
      (hc : Committed s0 (s0.taskOf ag) (decide (6 ≤ sc) || (ord && decide (4 ≤ sc))) s1)
      (hw : Releases s1 ag (ord && sc == 7) s2) (hd : s2.drainAll ag = (s3, true)) :
      Writes i ag s (orderedBy s3 ag ord) false (s.a64 ag a) pa (amoBytes w) rb fun x => amoStep x ag pa h11 w op d (b s ag) (c s ag)
  | red i op w sc a b ag s s1 pa rb h11 s2 (hi : RedOf i op w sc a b) (hr : Reaches s ag (s.a64 ag a) (amoBytes w) .store s1 pa rb h11)
      (hh : hostRefuses pa (if sc = 7 then some (false, op) else none) = false)
      (hc : Committed s1 (s1.taskOf ag) (decide (6 ≤ sc)) s2) :
      Writes i ag s s2 true (s.a64 ag a) pa (amoBytes w) rb
        fun x => queuedAt x ag (s2.taskOf ag) pa h11 (.red op (amoBytes w) (b s ag))
/-- The store queue has room, or the store is suppressed and enters none (R98, R239). -/
def Room (s : State) (ag : Nat) (queues : Bool) : Prop := queues = true → (s.sq ag).length < 32 ∨ (s.agent ag).supp ≠ none
/-- A write whose queue has room and whose lines fit the version's budget stands before its charge. -/
def AtCharge (i : Instr) (ag : Nat) (s s1 : State) (ea : DWord) (pa n : Nat) (rb : Bool) (fin : State → State) : Prop :=
  ∃ q, Writes i ag s s1 q ea pa n rb fin ∧ Room s1 ag q ∧ InBudget s1 (s1.taskOf ag) pa n
/-- A thread's store is the next of its group to be charged, and none of its stores is suppressed (R98, R239). -/
def Foremost (s : State) (ag : Nat) : Prop := (s.agent ag).supp = none ∧ s.inTurn ag false = true
/-- A version that its budget forced to commit: telemetry counts it, and the thread takes cause 0x10 where the launch asks for it (R241, R379). -/
def forcedBy (s : State) (ag : Nat) (ea : DWord) : State :=
  let s := s.modTele fun x => { x with forced := x.forced + 1 }
  if (s.policyOf ag).getLsbD 6 = true then s.addAsync ag ⟨0x10, ea, 0#32⟩ else s

/-- A global access: its address, its size, what it is, whether it reads zero where the page is gone, and the atomic that the host has to take (R205, R206, R210, R217). -/
inductive AccessOf : Instr → (State → Nat → DWord) → (State → Nat → Nat) → Access → Bool → Option (Bool × Nat) → Prop where
  | load i ea c d (h : LoadOf i ea c d) : AccessOf i ea (fun _ _ => widthBytes c) .load false none
  | zero c wd hint d pc a disp : AccessOf (.ldz c wd hint d pc a disp) (fun s g => s.a64 g a + Disp64 disp) (fun _ _ => widthBytes wd) .load true none
  | const i ea c d (h : ConstOf i ea c d) : AccessOf i ea (fun _ _ => widthBytes c) .load false none
  | store i ea c d rel sc (h : StoreOf i ea c d rel sc) : AccessOf i ea (fun s g => (s.storeBytes g c d).length) .store false none
  | atom i op ord w sc d a b c (h : AtomOf i op ord w sc d a b c) : AccessOf i (fun s g => s.a64 g a) (fun _ _ => amoBytes w) .store false
      (if sc = 7 then some (true, op) else none)
  | red i op w sc a b (h : RedOf i op w sc a b) : AccessOf i (fun s g => s.a64 g a) (fun _ _ => amoBytes w) .store false
      (if sc = 7 then some (false, op) else none)
/-- %tinfo of an access: its size, and bit 8 for a store (R70, R242). -/
def accessInfo (n : Nat) (k : Access) : Word := BitVec.ofNat 32 (n + if k = .store then 256 else 0)
/-- What stops a global access of n bytes, in the order of R70: the state the checks leave, and the cause with its %taddr and %tinfo, or a wait. -/
inductive Stops (s : State) (ag : Nat) (ea : DWord) (n : Nat) (k : Access) (zero : Bool) (host : Option (Bool × Nat)) (info : Word) :
    State → Fate → Prop where
  | unaligned (h : ea.toNat % n ≠ 0) : Stops s ag ea n k zero host info s (.trap 0x03 ea info)
  | untranslated s1 c (h : ea.toNat % n = 0) (ht : s.translate (s.vdOf ag) (s.coreOf ag) ea k = (s1, .bad c))
      (hz : zero = true → c ≠ 0x06 ∧ c ≠ 0x07) : Stops s ag ea n k zero host info s1 (.trap c ea info)
  | hostAtomic s1 pa rb h11 (h : ea.toNat % n = 0) (ht : s.translate (s.vdOf ag) (s.coreOf ag) ea k = (s1, .ok pa rb h11))
      (hh : hostRefuses pa host = true) : Stops s ag ea n k zero host info s1 (.trap 0x05 ea info)
  | locked s1 pa rb h11 x e d (h : ea.toNat % n = 0) (ht : s.translate (s.vdOf ag) (s.coreOf ag) ea k = (s1, .ok pa rb h11))
      (hh : hostRefuses pa host = false) (hl : s.lockHit (s.coreOf ag) (s.vdOf ag) ea n (k == .store) = some (x, e, d)) :
      Stops s ag ea n k zero host info s1 (.trap 0x09 ea (BitVec.ofNat 32 (e + if d = true then 256 else 0)))
  | lockedGone s1 c x e d (h : ea.toNat % n = 0) (hz : zero = true) (hc : c = 0x06 ∨ c = 0x07)
      (ht : s.translate (s.vdOf ag) (s.coreOf ag) ea k = (s1, .bad c))
      (hl : s.lockHit (s.coreOf ag) (s.vdOf ag) ea n (k == .store) = some (x, e, d)) :
      Stops s ag ea n k zero host info s1 (.trap 0x09 ea (BitVec.ofNat 32 (e + if d = true then 256 else 0)))
  | held s1 (h : ea.toNat % n = 0) (ht : s.translate (s.vdOf ag) (s.coreOf ag) ea k = (s1, .held)) :
      Stops s ag ea n k zero host info s1 .stall
/-- A scratchpad access: its offset, its size and whether it stores (R213). -/
inductive PadOf : Instr → (State → Nat → Word) → (State → Nat → Nat) → Bool → Prop where
  | load i ea c d (h : PadLoadOf i ea c d) : PadOf i ea (fun _ _ => widthBytes c) false
  | store i ea c d (h : PadStoreOf i ea c d) : PadOf i ea (fun s g => (s.storeBytes g c d).length) true
/-- %tinfo of a scratchpad access (R213). -/
def padInfo (n : Nat) (st : Bool) : Word := BitVec.ofNat 32 (n + (if st = true then 256 else 0) + 512)

/-- Memory instructions (R98 to R106, R205 to R221, R239 to R241, R379). -/
inductive MemoryRow : Instr → Nat → State → State → Fate → Prop where
  | load i ea c d ag s s1 pa rb h11 s2 bs (hi : LoadOf i ea c d) (hr : Reaches s ag (ea s ag) (widthBytes c) .load s1 pa rb h11)
      (hq : s1.readQueued ag pa (widthBytes c) = (s2, some bs)) :
      MemoryRow i ag s (s2.out ag true false (loadDst c d (extend c bs)) 0#5) .next
  | ldz c wd hint d pc a disp ag s s1 pa rb h11 s2 bs
      (hr : Reaches s ag (s.a64 ag a + Disp64 disp) (widthBytes wd) .load s1 pa rb h11)
      (hq : s1.readQueued ag pa (widthBytes wd) = (s2, some bs)) :
      MemoryRow (.ldz c wd hint d pc a disp) ag s
        (s2.out ag true false (loadDst wd d (extend wd bs) ++ [toPred pc true]) 0#5) .next
  | ldzAbsent c wd hint d pc a disp ag s s1 (hr : Misses s ag (s.a64 ag a + Disp64 disp) (widthBytes wd) s1) :
      MemoryRow (.ldz c wd hint d pc a disp) ag s
        (s1.out ag true false (loadDst wd d (extend wd (List.replicate (widthBytes wd) 0#8)) ++ [toPred pc false]) 0#5) .next
  | const i ea c d ag s s1 pa rb h11 (hi : ConstOf i ea c d) (hr : Reaches s ag (ea s ag) (widthBytes c) .load s1 pa rb h11) :
      MemoryRow i ag s (s1.out ag true false (loadDst c d (extend c (s1.readCommitted pa (widthBytes c)))) 0#5) .next
  | write i ag s s1 ea pa n rb fin s2 (hw : AtCharge i ag s s1 ea pa n rb fin) (hg : Charged s1 ag pa rb s2) : MemoryRow i ag s (fin s2) .next
  | writeOver i ag s s1 q ea pa n rb fin s2 s3 (hw : Writes i ag s s1 q ea pa n rb fin) (hl : Room s1 ag q)
      (ho : OverBudget s1 (s1.taskOf ag) pa n) (hc : s1.commit (s1.taskOf ag) = .done s2) (hg : Charged (forcedBy s2 ag ea) ag pa rb s3) :
      MemoryRow i ag s (fin s3) .next
  | writeConflicts i ag s s1 q ea pa n rb fin s2 (hw : Writes i ag s s1 q ea pa n rb fin) (hl : Room s1 ag q)
      (ho : OverBudget s1 (s1.taskOf ag) pa n) (hc : s1.commit (s1.taskOf ag) = .failed s2) : MemoryRow i ag s s2 .own
  | refused i ag s s1 ea pa n rb fin s2 m (hw : AtCharge i ag s s1 ea pa n rb fin) (hn : Foremost s1 ag)
      (hc : s1.charge (s1.vdOf ag) pa rb = (s2, .refused m)) (hu : (s2.leaveLine ag false).unsettled (s1.taskOf ag) = false) :
      MemoryRow i ag s ((s2.leaveLine ag false).suppress ag ea m) .next
  | refusedVersion i ag s s1 ea pa n rb fin s2 m (hw : AtCharge i ag s s1 ea pa n rb fin) (hn : Foremost s1 ag)
      (hc : s1.charge (s1.vdOf ag) pa rb = (s2, .refused m)) (hu : (s2.leaveLine ag false).unsettled (s1.taskOf ag) = true) :
      MemoryRow i ag s (s2.leaveLine ag false) (.capacity ea m)
  | suppressed i ag s s1 ea pa n rb fin (hw : AtCharge i ag s s1 ea pa n rb fin) (hs : (s1.agent ag).supp ≠ none) :
      MemoryRow i ag s (s1.suppress ag ea 0) .next
  | chargeHeld i ag s s1 ea pa n rb fin s2 (hw : AtCharge i ag s s1 ea pa n rb fin) (hn : Foremost s1 ag)
      (hc : s1.charge (s1.vdOf ag) pa rb = (s2, .held)) : MemoryRow i ag s (s2.lineUp ag false 2).1 (.wait (.store 2))
  | behind i ag s s1 ea pa n rb fin (hw : AtCharge i ag s s1 ea pa n rb fin) (hs : (s1.agent ag).supp = none) (hn : s1.inTurn ag false = false) :
      MemoryRow i ag s (s1.lineUp ag false 3).1 (.wait (.store 3))
  | queueFull i ag s s1 ea pa n rb fin (hw : Writes i ag s s1 true ea pa n rb fin) (hl : ¬Room s1 ag true) :
      MemoryRow i ag s (s1.lineUp ag false 0).1 (.wait (.store 0))
  | padLoad i ea c d ag s (hi : PadLoadOf i ea c d) (hr : PadOk s ag (ea s ag) (widthBytes c)) :
      MemoryRow i ag s (s.out ag true false (loadDst c d (extend c (s.padRead ag (ea s ag).toNat (widthBytes c)))) 0#5) .next
  | padStore i ea c d ag s (hi : PadStoreOf i ea c d) (hr : PadOk s ag (ea s ag) (s.storeBytes ag c d).length)
      (ho : s.inTurn ag true = true) (hf : ((s.core (s.coreOf ag)).fwd.getD (s.partitionOf ag) []).length < 16) :
      MemoryRow i ag s ((s.leaveLine ag true).modCore (s.coreOf ag) fun x => { x with fwd := x.fwd.modify (s.partitionOf ag) fun l =>
        l ++ [⟨ag, s.shareOf ag, (ea s ag).toNat, s.storeBytes ag c d⟩] }) .next
  | fence c sc ag s s1 (h0 : sc.toNat ≠ 0) (h7 : sc.toNat ≠ 7) (hd : s.drainIssuer ag = (s1, true)) :
      MemoryRow (.fence c sc) ag s s1 .next
  | fenceSystem c ag s s1 (hd : s.drainIssuer ag = (s1, true)) (hp : s1.posting ag = false) (hl : s1.lostLinks ag = []) :
      MemoryRow (.fence c 7#3) ag s (s1.tellLost ag) .next
  | fenceLost c ag s s1 l ls (hd : s.drainIssuer ag = (s1, true)) (hp : s1.posting ag = false) (hl : s1.lostLinks ag = l :: ls)
      (ht : ((s1.tellLost ag).policyOf ag).getLsbD 5 = false) : MemoryRow (.fence c 7#3) ag s
        ((s1.tellLost ag).modAgent ag fun a => { a with trap := { a.trap with info := lostInfo (l :: ls) } }) .next
  | fenceTraps c ag s s1 l ls (hd : s.drainIssuer ag = (s1, true)) (hp : s1.posting ag = false) (hl : s1.lostLinks ag = l :: ls)
      (ht : ((s1.tellLost ag).policyOf ag).getLsbD 5 = true) :
      MemoryRow (.fence c 7#3) ag s (s1.tellLost ag) (.trap 0x11 0#64 (lostInfo (l :: ls)))
  | spres c pd a disp ag s (h : (s.a32 ag a + (Disp64 disp).setWidth 32).toNat < (s.share (s.shareOf ag)).size) :
      MemoryRow (.spres c pd a disp) ag s (s.out ag true false
        [toPred pd (!(s.share (s.shareOf ag)).absent.elem ((s.a32 ag a + (Disp64 disp).setWidth 32).toNat / 128))] 0#5) .next
  | pgreq c blk pd a disp ag s s1 pa rb h11
      (h : s.translate (s.vdOf ag) (s.coreOf ag) (s.a64 ag a + Disp64 disp) .load = (s1, .ok pa rb h11)) :
      MemoryRow (.pgreq c blk pd a disp) ag s (s1.out ag true false [toPred pd true] 0#5) .next
  | pgreqGone c blk pd a disp ag s s1
      (h : s.translate (s.vdOf ag) (s.coreOf ag) (s.a64 ag a + Disp64 disp) .load = (s1, .bad 0x07)) :
      MemoryRow (.pgreq c blk pd a disp) ag s (s1.out ag true false [toPred pd false] 0#5) .next
  | pgreqAsks c pd a disp ag s s1
      (h : s.translate (s.vdOf ag) (s.coreOf ag) (s.a64 ag a + Disp64 disp) .load = (s1, .bad 0x06)) :
      MemoryRow (.pgreq c false pd a disp) ag s
        ((s1.request (s.vdOf ag) (va48 (s.a64 ag a + Disp64 disp) / 65536) (dieOf (s.coreOf ag))).out ag true false [toPred pd false] 0#5) .next
  | pgreqBlocks c pd a disp ag s s1
      (h : s.translate (s.vdOf ag) (s.coreOf ag) (s.a64 ag a + Disp64 disp) .load = (s1, .bad 0x06)) :
      MemoryRow (.pgreq c true pd a disp) ag s
        (s1.request (s.vdOf ag) (va48 (s.a64 ag a + Disp64 disp) / 65536) (dieOf (s.coreOf ag)))
        (.past (.page (s.a64 ag a + Disp64 disp) pd))
  | stops i ea n k z host ag s t f (hi : AccessOf i ea n k z host) (hs : Stops s ag (ea s ag) (n s ag) k z host (accessInfo (n s ag) k) t f) :
      MemoryRow i ag s t f
  | padUnaligned i ea n st ag s (hi : PadOf i ea n st) (h : (ea s ag).toNat % n s ag ≠ 0) :
      MemoryRow i ag s s (.trap 0x03 ((ea s ag).setWidth 64) (padInfo (n s ag) st))
  | padOutside i ea n st ag s (hi : PadOf i ea n st) (h : (ea s ag).toNat % n s ag = 0)
      (ho : (s.share (s.shareOf ag)).size < (ea s ag).toNat + n s ag) :
      MemoryRow i ag s s (.trap 0x05 ((ea s ag).setWidth 64) (padInfo (n s ag) st))
  | padAbsent i ea n st ag s (hi : PadOf i ea n st) (h : (ea s ag).toNat % n s ag = 0)
      (ho : (ea s ag).toNat + n s ag ≤ (s.share (s.shareOf ag)).size) (hp : (ea s ag).toNat / 128 ∈ (s.share (s.shareOf ag)).absent) :
      MemoryRow i ag s s (.wait (.presence ((ea s ag).toNat / 128)))

/-! ## The kiln (R341 to R348) -/

/-- The 8-byte pattern of BLKFILL: a pair, or 0 for vz (R344). -/
def fillPattern (s : State) (ag : Nat) (c : Reg) : DWord := if c = 255#8 then 0#64 else s.c64 ag c
/-- A block or page operation may be performed: no suppression, the version committed, its own earlier stores drained (R104, R120, R239, R348). -/
def KilnReady (s : State) (ag : Nat) (s2 : State) : Prop :=
  (s.agent ag).supp = none ∧ ∃ s1, Committed s (s.taskOf ag) true s1 ∧ s1.drainIssuer ag = (s2, true)
/-- A page operation: its address, and whether it reclaims (R345, R346). -/
inductive PageOf : Instr → (State → Nat → DWord) → Bool → Prop where
  | surr c a disp : PageOf (.pgsurr c a disp) (fun s g => s.a64 g a + Disp64 disp) false
  | recl c a disp : PageOf (.pgrecl c a disp) (fun s g => s.a64 g a + Disp64 disp) true
/-- What refuses a page operation before its page is touched: the cause, and the reason in %tinfo[7:0] (R345, R346, R348). -/
inductive PageRefused (s : State) (ag : Nat) (ea : DWord) (recl : Bool) : Nat → Nat → Prop where
  | unaligned (h : ea.toNat % 65536 ≠ 0) : PageRefused s ag ea recl 0x03 0
  | outside (h : ea.toNat % 65536 = 0) (hc : canonical ea = false) : PageRefused s ag ea recl 0x04 0
  | unmapped (h : ea.toNat % 65536 = 0) (hc : canonical ea = true) (hw : s.walkStop (s.vdOf ag) ea = none)
      (hl : s.walk (s.vdOf ag) ea = none) : PageRefused s ag ea recl 0x04 0
  | forbidden l (h : ea.toNat % 65536 = 0) (hc : canonical ea = true) (hw : s.walkStop (s.vdOf ag) ea = none)
      (hl : s.walk (s.vdOf ag) ea = some l) (hp : permOk l.e .store = false) : PageRefused s ag ea recl 0x05 0
  | large l (h : ea.toNat % 65536 = 0) (hc : canonical ea = true) (hw : s.walkStop (s.vdOf ag) ea = none)
      (hl : s.walk (s.vdOf ag) ea = some l) (hp : permOk l.e .store = true) (hn : l.pages ≠ 1) : PageRefused s ag ea recl 0x05 10
  | reserved l (h : ea.toNat % 65536 = 0) (hc : canonical ea = true) (hw : s.walkStop (s.vdOf ag) ea = none)
      (hl : s.walk (s.vdOf ag) ea = some l) (hp : permOk l.e .store = true) (hn : l.pages = 1) (hb : l.rb = true) (hr : recl = false) :
      PageRefused s ag ea recl 0x05 11
  | remote l (h : ea.toNat % 65536 = 0) (hc : canonical ea = true) (hw : s.walkStop (s.vdOf ag) ea = none)
      (hl : s.walk (s.vdOf ag) ea = some l) (hp : permOk l.e .store = true) (hn : l.pages = 1) (hb : l.rb = true → recl = true)
      (hr : region l.base ≠ 0) : PageRefused s ag ea recl 0x05 12
/-- Kiln instructions. -/
inductive KilnRow : Instr → Nat → State → State → Fate → Prop where
  | free c stk d ag s : KilnRow (.rsvqFree c stk d) ag s (s.outPair ag d (s.sumK ag stk fun k => k.grant - k.used)) .next
  | pend c stk d ag s : KilnRow (.rsvqPend c stk d) ag s (s.outPair ag d (s.sumK ag stk fun k => k.pend)) .next
  | nominal c stk d ag s : KilnRow (.rsvqNominal c stk d) ag s
      (s.outPair ag d (if stk = 0#4 then s.nominal (s.vdOf ag) else 0)) .next
  | surr c stk d ag s : KilnRow (.rsvqSurr c stk d) ag s
      (s.outPair ag d (if stk = 0#4 then s.surrendered (s.vdOf ag) else 0)) .next
  | balqOpen c d ag s t (h : (s.vdev (s.vdOf ag)).balloon.due = some t) : KilnRow (.balq c d) ag s
      (s.outPair ag d ((s.vdev (s.vdOf ag)).balloon.q % 2 ^ 32 + (t - s.now) / 1000 * 2 ^ 32)) .next
  | balqNone c d ag s (h : (s.vdev (s.vdOf ag)).balloon.due = none) : KilnRow (.balq c d) ag s
      (s.outPair ag d (0xFFFFFFFF * 2 ^ 32)) .next
  | blksz c d a disp ag s s1 x pa rb h11
      (h : s.translate (s.vdOf ag) (s.coreOf ag) (s.a64 ag a + Disp64 disp) .load = (s1, .ok x rb h11))
      (hx : s1.copyAt (s.vdOf ag) (s1.coreOf ag) (s.a64 ag a + Disp64 disp) x = pa) (hr : region pa = 0) :
      KilnRow (.blksz c false d a disp) ag s (s1.out ag true false [toReg d (BitVec.ofNat 32
        ((if rb = true then 512 else 0) + (if (s1.block (pa / 1024)).ch.isSome = true then 256 else 0) + (s1.block (pa / 1024)).cls))] 0#5) .next
  | blkszWb c d a disp ag s s1 x pa rb h11
      (h : s.translate (s.vdOf ag) (s.coreOf ag) (s.a64 ag a + Disp64 disp) .load = (s1, .ok x rb h11))
      (hx : s1.copyAt (s.vdOf ag) (s1.coreOf ag) (s.a64 ag a + Disp64 disp) x = pa) (hr : region pa = 0) :
      KilnRow (.blksz c true d a disp) ag s ((s1.writeback (pa / 1024)).out ag true false [toReg d (BitVec.ofNat 32
        ((if rb = true then 512 else 0) + (if ((s1.writeback (pa / 1024)).block (pa / 1024)).ch.isSome = true then 256 else 0) +
          ((s1.writeback (pa / 1024)).block (pa / 1024)).cls))] 0#5) .next
  | blkszRemote c wb d a disp ag s s1 x pa rb h11
      (h : s.translate (s.vdOf ag) (s.coreOf ag) (s.a64 ag a + Disp64 disp) .load = (s1, .ok x rb h11))
      (hx : s1.copyAt (s.vdOf ag) (s1.coreOf ag) (s.a64 ag a + Disp64 disp) x = pa) (hr : region pa ≠ 0) :
      KilnRow (.blksz c wb d a disp) ag s (s1.out ag true false [toReg d (BitVec.ofNat 32
        ((if rb = true then 512 else 0) + (Config.freeByte s1.free pa).toNat % 9))] 0#5) .next
  | blkszAbsent c wb d a disp ag s s1 k (hk : k = 0x06 ∨ k = 0x07)
      (h : s.translate (s.vdOf ag) (s.coreOf ag) (s.a64 ag a + Disp64 disp) .load = (s1, .bad k)) :
      KilnRow (.blksz c wb d a disp) ag s (s1.out ag true false [toReg d (BitVec.ofNat 32
        ((if k = 0x07 then 2048 else 0) + 1024 +
          if ((s1.walk (s.vdOf ag) (s.a64 ag a + Disp64 disp)).map Leaf.rb).getD false = true then 512 else 0))] 0#5) .next
  | blkszTraps c wb d a disp ag s s1 k (hk : k ≠ 0x06 ∧ k ≠ 0x07)
      (h : s.translate (s.vdOf ag) (s.coreOf ag) (s.a64 ag a + Disp64 disp) .load = (s1, .bad k)) :
      KilnRow (.blksz c wb d a disp) ag s s1 (.trap k (s.a64 ag a + Disp64 disp) 0#32)
  | blkfillStops c a disp x ag s t f (hs : Stops s ag (s.a64 ag a + Disp64 disp) 1024 .store false none 256#32 t f) :
      KilnRow (.blkfill c a disp x) ag s t f
  | blkfillFar c a disp x ag s s1 pa rb h11 s2 (hr : Reaches s ag (s.a64 ag a + Disp64 disp) 1024 .store s1 pa rb h11)
      (hl : region pa ≠ 0) (hk : KilnReady s1 ag s2) : KilnRow (.blkfill c a disp x) ag s
      (s2.writeCommitted ag (some (s2.taskOf ag)) pa (List.replicate 128 (natLe 8 (fillPattern s ag x).toNat)).flatten) .next
  | blkfillSuppressed c a disp x ag s s1 pa rb h11 (hr : Reaches s ag (s.a64 ag a + Disp64 disp) 1024 .store s1 pa rb h11)
      (hs : (s1.agent ag).supp ≠ none) : KilnRow (.blkfill c a disp x) ag s (s1.suppress ag (s.a64 ag a + Disp64 disp) 0) .next
  | pageStops i ea recl ag s k r (hi : PageOf i ea recl) (hs : PageRefused s ag (ea s ag) recl k r) :
      KilnRow i ag s s (.trap k (ea s ag) (BitVec.ofNat 32 (r + 256)))
  | pageLocked i ea recl ag s t f (hi : PageOf i ea recl) (h : s.pageLeaf ag (ea s ag) recl = (t, .error f)) : KilnRow i ag s t f
  | pageSuppressed i ea recl ag s s1 l (hi : PageOf i ea recl) (h : s.pageLeaf ag (ea s ag) recl = (s1, .ok l))
      (hn : recl = true ∨ l.res ≠ 2) (hs : (s1.agent ag).supp ≠ none) : KilnRow i ag s (s1.suppress ag (ea s ag) 0) .next
  | blkfill c a disp x ag s s1 pa rb h11 s2 (hr : Reaches s ag (s.a64 ag a + Disp64 disp) 1024 .store s1 pa rb h11)
      (hl : region pa = 0) (hk : KilnReady s1 ag s2) : KilnRow (.blkfill c a disp x) ag s
      (s2.fillBlock (s2.taskOf ag) (s2.vdOf ag) pa rb (fillPattern s ag x) (s.a64 ag a + Disp64 disp)) .next
  | pgsurr c a disp ag s s1 l s2 (hl : s.pageLeaf ag (s.a64 ag a + Disp64 disp) false = (s1, .ok l)) (hn : l.res ≠ 2)
      (hk : KilnReady s1 ag s2) : KilnRow (.pgsurr c a disp) ag s
      (s2.surrender (s2.taskOf ag) (s2.vdOf ag) ((s2.walk (s2.vdOf ag) (s.a64 ag a + Disp64 disp)).getD l) (s.a64 ag a + Disp64 disp)) .next
  | pgsurrDone c a disp ag s s1 l (hl : s.pageLeaf ag (s.a64 ag a + Disp64 disp) false = (s1, .ok l)) (hn : l.res = 2) :
      KilnRow (.pgsurr c a disp) ag s s1 .next
  | pgrecl c a disp ag s s1 l0 s2 l s3 (hl : s.pageLeaf ag (s.a64 ag a + Disp64 disp) true = (s1, .ok l0)) (hk : KilnReady s1 ag s2)
      (hw : s2.walk (s2.vdOf ag) (s.a64 ag a + Disp64 disp) = some l)
      (hr : s2.reclaim (s2.taskOf ag) (s2.vdOf ag) (dieOf (s2.coreOf ag)) l (s.a64 ag a + Disp64 disp) = some s3) :
      KilnRow (.pgrecl c a disp) ag s s3 .next

/-! ## Rays and billets (R196 to R204) -/

/-- Results of BOXT: the words in consecutive registers. -/
def inRow (d : Reg) (ws : List Word) : List (Option Dst × Word) := ws.zipIdx.map fun (x, k) => toRegN (d.toNat + k) x
/-- Results of TRIT on a hit (R200). -/
def hitRow (clip : Bool) (d a : Reg) (pc : BitVec 3) (h : TriHit) : List (Option Dst × Word) :=
  [toRegN d.toNat (h.t.round .rne), toRegN (d.toNat + 1) (h.u.round .rne), toRegN (d.toNat + 2) (h.v.round .rne),
    toRegN (d.toNat + 3) h.id, toPred pc true] ++ (if clip = true then [toRegN (a.toNat + 7) (h.t.round .rdn)] else [])
/-- The billet of a REBIN (R201). -/
def rebinBillet (s : State) (ag : Nat) (a : Reg) (off : Disp) : Billet :=
  ⟨(s.agent ag).pc + (Disp64 off <<< 2), (s.a64 ag a).setWidth 48, 0#16⟩
/-- Ray instructions (R196 to R204). -/
inductive RayRow : Instr → Nat → State → State → Fate → Prop where
  | boxt c d a b ag s s1 bs (h : s.readRecord ag (s.b64 ag (.reg b)) 128 128 (accInfo 128 false false) = (s1, .ok bs)) :
      RayRow (.boxt c d a b) ag s (s1.out ag true false (inRow d (vBoxt (s1.rayAt ag a) bs)) 0#5) .next
  | tritMiss c clip d a b pc ag s s1 bs (h : s.readRecord ag (s.b64 ag (.reg b)) 48 16 (accInfo 48 false false) = (s1, .ok bs))
      (hm : vTrit (s1.rayAt ag a) bs = none) : RayRow (.trit c clip d a b pc) ag s (s1.out ag true false [toPred pc false] 0#5) .next
  | tritHit c clip d a b pc ag s s1 bs hit (h : s.readRecord ag (s.b64 ag (.reg b)) 48 16 (accInfo 48 false false) = (s1, .ok bs))
      (hm : vTrit (s1.rayAt ag a) bs = some hit) :
      RayRow (.trit c clip d a b pc) ag s (s1.out ag true false (hitRow clip d a pc hit) 0#5) .next
  | rebin c b a off ag s s1 s2 (hs : (s.agent ag).settleable = true) (h1 : s1 = s.modAgent ag Agent.settle)
      (hu : s1.unsettled (s1.taskOf ag) = false) (hd : s1.drainIssuer ag = (s2, true)) : RayRow (.rebin c b a off) ag s
      ((s2.fileBillet (s2.coreOf ag) ((s1.b32 ag (.reg b)).toNat % 64) (s2.launchOf ag)
        (rebinBillet s1 ag a off, none, (s2.task (s1.taskOf ag)).prio)).endAgent ag) .own
  | rebinHeld c b a off ag s s1 (hs : (s.agent ag).settleable = true) (h1 : s1 = s.modAgent ag Agent.settle)
      (hu : s1.unsettled (s1.taskOf ag) = true) : RayRow (.rebin c b a off) ag s
      ((s1.modTask (s1.taskOf ag) fun k => { k with ver := { k.ver with held := k.ver.held ++
        [.rebin (s1.coreOf ag) ((s1.b32 ag (.reg b)).toNat % 64) (rebinBillet s1 ag a off)] } }).endAgent ag) .own

end Sys2Proof.Claims
end

