-- ==== Sys2Proof/Safety/Engines.lean ====
section
/-! DEFINITION. Rows of engine, task-engine and system instructions for claims: what an instruction that a thread performs
alone leaves, and how the thread goes on (11 R252 to R256, 13 R260 to R277, 15 R286 to R305, 17 R313 to R323, 22 R387 to
R393). -/

namespace Sys2Proof.Claims
open Sys2Proof.Machine

/-! ## Copies and chains (R262 to R277) -/

/-- A copy's record is valid and its tile fits: the record, and the state after it has been read (R261, R264 steps 1 to 3). -/
structure CopyReads (s : State) (ag dir cmode scope : Nat) (a : Reg) (r : ShapeRec) (s4 : State) : Prop where
  room : (s.core (s.coreOf ag)).copyQ.length < 16
  locks : (if dir = 2 then 2 else 1) ≤ ((s.core (s.coreOf ag)).locks.filter Option.isNone).length
  reads : ∃ s1 s2 s3 ps, s.drainGroup ag = (s1, true) ∧ Committed s1 (s1.taskOf ag) (cmode == 0 && decide (4 ≤ scope)) s2 ∧
    (s2.a64 ag a).toNat % 64 = 0 ∧ s2.accessParts ag ⟨.load, 0#32, false, none, none⟩ (s2.a64 ag a) [(s2.a64 ag a, 64)] = (s3, .ok ps) ∧
    s3.readParts ag ps = (s4, some r)
  valid : shapeReason r dir = none
/-- The use count of a chain slot of the thread's core for one more chain (R275). -/
def chainUses (s : State) (ag k : Nat) : Nat := ((s.core (s.coreOf ag)).chains.getD k (0, none)).1 + 1
/-- A chain at its head, with its counter as the operands give it (R275). -/
def newChain (s1 s3 : State) (ag cmode scope : Nat) (x : Reg) (head : Nat) : Chain :=
  { share := some (s1.shareOf ag), vd := s3.vdOf ag, priv := (s3.launch (s3.launchOf ag)).par.priv, packet := (0, 0),
    head := BitVec.ofNat 64 head, pos := BitVec.ofNat 64 head, loops := [], cmode := cmode, counter := s1.counterOf ag cmode x,
    sends := [], stop := false, ending := none, tid := s3.tidWord ag, fe := (s3.agent ag).isFE, ag := some ag,
    sys := decide (cmode = 0 ∧ scope = 7), since := s3.moves, frec := 0#64, failing := none }
/-- The tile operand of a copy (R262). -/
def copyTile (s : State) (ag dir : Nat) (d : Reg) : DWord := if dir = 2 then s.d64 ag d else (s.d32 ag d).setWidth 64
/-- The box origin of a copy, in consecutive registers (R262). -/
def copyCoord (s : State) (ag : Nat) (b : Reg) (x : Shape) : List Int :=
  (List.range x.dims).map fun k => (s.regN ag (10 + k) (b.toNat + k)).toInt
/-- Addresses of the tile's elements that lie in the tensor. -/
def copyElems (s : State) (ag : Nat) (b : Reg) (x : Shape) : List DWord := (x.elems (copyCoord s ag b x)).filterMap id
/-- What a copy reads and writes in global memory. -/
def copyData (s : State) (ag dir : Nat) (d b : Reg) (x : Shape) : List Touch :=
  ((copyElems s ag b x).map fun p => Touch.mk p (eltBytes x.fmt) (dir == 1)) ++
  (if dir = 2 then [⟨copyTile s ag dir d, x.tileBytes, true⟩] else [])
/-- The tile's interval of addresses. -/
def copyOut (s : State) (ag dir : Nat) (d : Reg) (x : Shape) : DWord × DWord :=
  (copyTile s ag dir d, copyTile s ag dir d + BitVec.ofNat 64 (x.tileBytes - 1))
/-- A copy passes the checks of its operands, is charged and enters its core's queue (R264 steps 3 to 8). `s4` is the state after its record was read, `s6` the one after the charges. -/
structure CopyEnters (s4 : State) (ag dir cmode scope : Nat) (d b c : Reg) (r : ShapeRec) (t : State) : Prop where
  registers : b.toNat + (Shape.parse r).dims ≤ (s4.agent ag).home.budget
  ready : ∀ o ∈ (s4.agent ag).outst, ∀ w ∈ o.writes, ∀ k, k < (Shape.parse r).dims → w.1 ≠ .reg (b.toNat + k)
  aligned : (copyTile s4 ag dir d).toNat % (if dir = 2 then 16 else 128) = 0
  inside : dir ≠ 2 → (copyTile s4 ag dir d).toNat + (Shape.parse r).tileBytes ≤ (s4.share (s4.shareOf ag)).size
  counter : s4.counterCheck ag cmode (s4.counterOf ag cmode c) = none
  rest : ∃ s5 s6 bs,
    s4.checkPages ag (pagesOf (copyData s4 ag dir d b (Shape.parse r) ++ counterTouch cmode (s4.counterOf ag cmode c))) = (s5, none) ∧
    (dir = 2 → s5.unsettled (s5.taskOf ag) = false → ∀ x, intervalOf (eltBytes (Shape.parse r).fmt) (copyElems s4 ag b (Shape.parse r)) = some x →
      rangesMeet x (copyOut s4 ag dir d (Shape.parse r)) = false) ∧
    s5.chargeBlocks (s5.vdOf ag) (s5.coreOf ag) (blocksOf (copyData s4 ag dir d b (Shape.parse r))) = (s6, .taken bs) ∧
    t = s6.enterCopy ag
      { id := (s6.core (s6.coreOf ag)).copyNo, share := s4.shareOf ag, dir := dir, shape := r, coord := copyCoord s4 ag b (Shape.parse r),
        tile := copyTile s4 ag dir d, cmode := cmode, counter := s4.counterOf ag cmode c, blocks := bs, ag := ag,
        sys := decide (cmode = 0 ∧ scope = 7), since := s6.moves, moved := none }
      (intervalOf (eltBytes (Shape.parse r).fmt) (copyElems s4 ag b (Shape.parse r))) (copyOut s4 ag dir d (Shape.parse r)) (Shape.parse r).tileBytes
/-- Engine commands of copies and chains. -/
inductive CopyRow : Instr → Nat → State → State → Fate → Prop where
  | tcopy c dir cmode scope d a b x ag s r s4 t (h : CopyReads s ag dir.toNat cmode.toNat scope.toNat a r s4)
      (hs : CopyEnters s4 ag dir.toNat cmode.toNat scope.toNat d b x r t) : CopyRow (.tcopy c dir cmode scope d a b x) ag s t .next
  | tcopyFull c dir cmode scope d a b x ag s (h : 16 ≤ (s.core (s.coreOf ag)).copyQ.length) :
      CopyRow (.tcopy c dir cmode scope d a b x) ag s s (.wait (.engine 0))
  | tcopyReason c dir cmode scope d a b x ag s s1 s2 s3 s4 ps r n
      (hr : (s.core (s.coreOf ag)).copyQ.length < 16)
      (hl : (if dir.toNat = 2 then 2 else 1) ≤ ((s.core (s.coreOf ag)).locks.filter Option.isNone).length)
      (h1 : s.drainGroup ag = (s1, true)) (h2 : Committed s1 (s1.taskOf ag) (cmode.toNat == 0 && decide (4 ≤ scope.toNat)) s2)
      (ha : (s2.a64 ag a).toNat % 64 = 0) (h3 : s2.accessParts ag ⟨.load, 0#32, false, none, none⟩ (s2.a64 ag a) [(s2.a64 ag a, 64)] = (s3, .ok ps))
      (h4 : s3.readParts ag ps = (s4, some r)) (hn : shapeReason r dir.toNat = some n) :
      CopyRow (.tcopy c dir cmode scope d a b x) ag s s4 (.trap 0x05 0#64 (BitVec.ofNat 32 (2 ^ 31 + n)))
  | ctwaitPad c scope d a b ag s (h : PadOk s ag (s.a32 ag a) 8)
      (hv : s.bZero ag b ≤ BitVec.ofNat 64 (leNat (s.padRead ag (s.a32 ag a).toNat 8))) : CopyRow (.ctwait c true scope d a b) ag s
      (s.out ag true false (toPair d (BitVec.ofNat 64 (leNat (s.padRead ag (s.a32 ag a).toNat 8)))) 0#5) .next
  | ctwait c scope d a b ag s s1 pa rb h11 s2 bs (hr : Reaches s ag (s.a64 ag a) 8 .load s1 pa rb h11)
      (hq : s1.readQueued ag pa 8 = (s2, some bs)) (hv : s.bZero ag b ≤ BitVec.ofNat 64 (leNat bs)) :
      CopyRow (.ctwait c false scope d a b) ag s (s2.out ag true false (toPair d (BitVec.ofNat 64 (leNat bs))) 0#5) .next
  | ctwaitNot c scope d a b ag s s1 pa rb h11 s2 bs (hr : Reaches s ag (s.a64 ag a) 8 .load s1 pa rb h11)
      (hq : s1.readQueued ag pa 8 = (s2, some bs)) (hv : BitVec.ofNat 64 (leNat bs) < s.bZero ag b) :
      CopyRow (.ctwait c false scope d a b) ag s s2 (.wait .counter)
  | chain c cmode scope d a x ag s s1 s2 s3 k (hd : s.drainGroup ag = (s1, true)) (ha : (s1.a32 ag a).toNat % 32 = 0)
      (hw : (s1.a32 ag a).toNat + 32 ≤ (s1.share (s1.shareOf ag)).size)
      (hc : s1.counterCheck ag cmode.toNat (s1.counterOf ag cmode.toNat x) = none)
      (hp : s1.checkPages ag (pagesOf (counterTouch cmode.toNat (s1.counterOf ag cmode.toNat x))) = (s2, none))
      (hm : Committed s2 (s2.taskOf ag) (holdsSend (s1.share (s1.shareOf ag)).pad (s1.share (s1.shareOf ag)).size
        ((s1.share (s1.shareOf ag)).size / 32 + 1) (s1.a32 ag a).toNat || (cmode.toNat == 0 && decide (4 ≤ scope.toNat))) s3)
      (hf : (s3.core (s3.coreOf ag)).freeChain = some k) : CopyRow (.chain c cmode scope d a x) ag s
      ((s3.modCore (s3.coreOf ag) fun z =>
          { z with chains := z.chains.set k (chainUses s3 ag k, some (newChain s1 s3 ag cmode.toNat scope.toNat x (s1.a32 ag a).toNat)) }).out ag true false
        [toReg d (BitVec.ofNat 32 (k + 8 * chainUses s3 ag k))] 0#5) .next
  | chkill c a ag s uses x
      (h : (s.core (s.coreOf ag)).chains.getD ((s.a32 ag a).toNat % 8) (0, none) = (uses, some x))
      (hh : chainHandle ((s.a32 ag a).toNat % 8) uses = s.a32 ag a) (hs : x.share = some (s.shareOf ag)) :
      CopyRow (.chkill c a) ag s (s.setChain (.core (s.coreOf ag) ((s.a32 ag a).toNat % 8)) (some { x with stop := true })) .next
  | chkillGone c a ag s uses
      (h : (s.core (s.coreOf ag)).chains.getD ((s.a32 ag a).toNat % 8) (0, none) = (uses, none)) : CopyRow (.chkill c a) ag s s .next

/-! ## The matrix engine (R286 to R305) -/

/-- The matrix queue of the thread's core takes an entry (R286). -/
def MxOpen (s : State) (ag : Nat) : Prop := (s.core (s.coreOf ag)).mxQ.length < 32 ∧ (s.core (s.coreOf ag)).mxReset = false
/-- A command of the thread's share at the end of its core's matrix queue. -/
def mxEnters (s : State) (ag : Nat) (c : MxCmd) : State := s.mxPut (s.coreOf ag) (s.shareOf ag) c
/-- Sources of a WLOAD: 64 columns, and the scales where there are any (R290, R291). -/
def weightRanges (va : DWord) (stride cb kc : Nat) (sc : Option DWord) : List Touch :=
  ((List.range 64).map fun n => Touch.mk (va + BitVec.ofNat 64 (n * stride)) cb false) ++ (match sc with
    | some p => [⟨p, 2 * kc, false⟩]
    | none => [])
/-- The scale pointer of a WLOAD: a pair, or none for vz (R290). -/
def scalePair (s : State) (ag : Nat) (c : Reg) : Option DWord := if c = 255#8 then none else some (s.c64 ag c)
/-- Rows of an ADRAIN in its destination. -/
def drainRanges (dest : DWord) (stride n rb : Nat) : List Touch :=
  (List.range n).map fun r => Touch.mk (dest + BitVec.ofNat 64 (r * stride)) rb true
/-- ROW0 and the count of an ADRAIN (R300): all 128 rows for vz; a count of 0 is 128. -/
def rowSpan (s : State) (ag : Nat) (c : Reg) : Nat × Nat :=
  if c = 255#8 then (0, 128)
  else ((s.c32 ag c).toNat % 128, if (s.c32 ag c).toNat / 256 % 256 = 0 then 128 else (s.c32 ag c).toNat / 256 % 256)
/-- The participants of an ADRAIN remember its entry (R302). -/
def remembers (s : State) (ag id : Nat) : State := s.modAgents (fun a => { a with drains := id :: a.drains }) [ag]
/-- The entry of an ADRAIN. -/
def drainCmd (s : State) (ag : Nat) (sat clr sp : Bool) (scale : BitVec 8) (fmt : BitVec 4) (t : BitVec 3) (dest : DWord) (stride : Nat) (c : Reg)
    (blocks : List Nat) : MxCmd := .adrain t fmt sat clr scale sp dest stride (rowSpan s ag c).1 (rowSpan s ag c).2 blocks
/-- The set that a declaration's operation is bound to, where it still is of use (R288). -/
def boundSet (s : State) (x : Cv) : Option WSet :=
  (x.bound.bind fun b => (s.share x.share).sets.find? fun w => w.id == b).filter fun w => !w.retired
/-- A register's declaration with one more signature (R145). -/
def signed1 (s : State) (ag c : Nat) (p : SigSpec) (src : RowSrc) (st : CvState) : State :=
  s.modCv (s.taskOf ag) c fun y =>
    { y with sigs := (s.cv (s.taskOf ag) c).sigs ++ [(ag, s.tid ag - (s.cv (s.taskOf ag) c).t0, src)], spec := some p, state := st, signed := (s.core (s.coreOf ag)).clock }
/-- A signature of a thread: refused, stale, one of several, or the last, with which the operation enters the queue or waits for room (R145, R289, R296). -/
inductive Signs (s : State) (ag c : Nat) (p : SigSpec) (src : RowSrc) : State → Fate → Prop where
  | refused r (h : (s.cv (s.taskOf ag) c).refuses ag (s.tid ag) p = some r) :
      Signs s ag c p src s (.trap 0x0A 0#64 (BitVec.ofNat 32 (c + 256 * r)))
  | stale (h : (s.cv (s.taskOf ag) c).refuses ag (s.tid ag) p = none) (hb : boundSet s (s.cv (s.taskOf ag) c) = none) :
      Signs s ag c p src (s.modCv (s.taskOf ag) c fun y => { y with bound := none }) (.trap 0x0F 0#64 (BitVec.ofNat 32 (65536 * c + 1)))
  | mismatch w (h : (s.cv (s.taskOf ag) c).refuses ag (s.tid ag) p = none) (hb : boundSet s (s.cv (s.taskOf ag) c) = some w)
      (hm : p.matches_ src.inMemory w = false) : Signs s ag c p src s (.trap 0x0F 0#64 (BitVec.ofNat 32 (65536 * c + 2)))
  | more w (h : (s.cv (s.taskOf ag) c).refuses ag (s.tid ag) p = none) (hb : boundSet s (s.cv (s.taskOf ag) c) = some w)
      (hm : p.matches_ src.inMemory w = true) (hl : (s.cv (s.taskOf ag) c).sigs.length + 1 ≠ (s.cv (s.taskOf ag) c).n) :
      Signs s ag c p src (signed1 s ag c p src .declared) .next
  | last w (h : (s.cv (s.taskOf ag) c).refuses ag (s.tid ag) p = none) (hb : boundSet s (s.cv (s.taskOf ag) c) = some w)
      (hm : p.matches_ src.inMemory w = true) (hl : (s.cv (s.taskOf ag) c).sigs.length + 1 = (s.cv (s.taskOf ag) c).n) :
      Signs s ag c p src ((signed1 s ag c p src .issuing).enterOp (s.taskOf ag) c)
        (if (((signed1 s ag c p src .issuing).enterOp (s.taskOf ag) c).cv (s.taskOf ag) c).state = .issuing then .past (.engine 2) else .next)
/-- Matrix instructions. -/
inductive MatrixRow : Instr → Nat → State → State → Fate → Prop where
  | wload c sparse hadn fmt a b x ag s s1 s2 (ho : MxOpen s ag) (hd : s.drainGroup ag = (s1, true))
      (ha : (s1.a64 ag a).toNat % 128 = 0) (hs : ((scalePair s1 ag x).getD 0#64).toNat % 64 = 0)
      (ht : (s1.b32 ag b).toNat % 16 = 0 ∧ colBytes fmt.toNat sparse.toNat ≤ (s1.b32 ag b).toNat ∧ (s1.b32 ag b).toNat < 2 ^ 24)
      (hc : s1.checkRanges ag (weightRanges (s1.a64 ag a) (s1.b32 ag b).toNat (colBytes fmt.toNat sparse.toNat)
        (kcOf fmt.toNat sparse.toNat) (scalePair s1 ag x)) = (s2, none)) : MatrixRow (.wload c sparse hadn fmt a b x) ag s
      (s2.enterWload ag sparse hadn fmt (s1.a64 ag a) (s1.b32 ag b).toNat (scalePair s1 ag x)) .next
  | mma c row0 z as ksz kh fmt t a cv ag s s1 t1 k (hd : s.drainIssuer ag = (s1, true))
      (hs : Signs s1 ag cv.toNat ⟨t, fmt, ksz, kh, as, z, row0, false⟩ (.reading a.toNat
        ((SigSpec.mk t fmt ksz kh as z row0 false).allBytes / 4) (s1.agent ag).issued) t1 k) :
      MatrixRow (.mma c row0 z as ksz kh fmt t a cv) ag s t1 k
  | mmamPad c row0 z as ksz fmt t a cv disp ag s s1 t1 k (hd : s.drainIssuer ag = (s1, true))
      (ha : (s1.eaPad ag a (Disp64 disp)).toNat % 16 = 0)
      (hw : (s1.eaPad ag a (Disp64 disp)).toNat + (SigSpec.mk t fmt ksz false as z row0 true).allBytes ≤ (s1.share (s1.shareOf ag)).size)
      (hs : Signs s1 ag cv.toNat ⟨t, fmt, ksz, false, as, z, row0, true⟩ (.pad (s1.eaPad ag a (Disp64 disp)).toNat) t1 k) :
      MatrixRow (.mmam c row0 z as ksz true fmt t a cv disp) ag s t1 k
  | mmam c row0 z as ksz fmt t a cv disp ag s s1 s2 t1 k (hd : s.drainIssuer ag = (s1, true))
      (ha : (s1.ea ag a (Disp64 disp)).toNat % 16 = 0)
      (hc : s1.checkRanges ag [⟨s1.ea ag a (Disp64 disp), (SigSpec.mk t fmt ksz false as z row0 false).allBytes, false⟩] = (s2, none))
      (hs : Signs s2 ag cv.toNat ⟨t, fmt, ksz, false, as, z, row0, false⟩ (.glob (s1.ea ag a (Disp64 disp))) t1 k) :
      MatrixRow (.mmam c row0 z as ksz false fmt t a cv disp) ag s t1 k
  | aclr c t ag s (ho : MxOpen s ag) : MatrixRow (.aclr c t) ag s (mxEnters s ag (.aclr t)) .next
  | ard c chunk d t b ag s (ho : MxOpen s ag) : MatrixRow (.ard c chunk d t b) ag s
      ((s.out ag false false ((List.range 8).map fun j => toRegN (d.toNat + j) 0#32) 0#5).mxPut (s.coreOf ag) (s.shareOf ag)
        (.ard t chunk.toNat [(ag, s.resNo ag, (s.b32 ag b).toNat % 128)])) .next
  | awr c chunk t a b ag s (ho : MxOpen s ag) : MatrixRow (.awr c chunk t a b) ag s
      (mxEnters s ag (.awr t chunk.toNat [((s.b32 ag b).toNat % 128, (List.range 8).map fun j => s.regN ag (10 + j) (a.toNat + j))])) .next
  | adrainPad c sat clr scale fmt t a b x ag s s1 (ho : MxOpen s ag) (hd : s.drainGroup ag = (s1, true))
      (ha : ((s1.a32 ag a).setWidth 64).toNat % 16 = 0)
      (ht : (s1.b32 ag b).toNat % 16 = 0 ∧ 64 * eltBytes fmt.toNat ≤ (s1.b32 ag b).toNat ∧ (s1.b32 ag b).toNat < 2 ^ 24)
      (hr : (rowSpan s1 ag x).1 + (rowSpan s1 ag x).2 ≤ 128)
      (hw : ((s1.a32 ag a).setWidth 64).toNat + ((rowSpan s1 ag x).2 - 1) * (s1.b32 ag b).toNat + 64 * eltBytes fmt.toNat ≤
        (s1.share (s1.shareOf ag)).size)
      (hid : (s1.core (s1.coreOf ag)).mxNo = (s.core (s.coreOf ag)).mxNo) (hco : s1.coreOf ag = s.coreOf ag)
      (hcl : s.coreOf ag < s1.lanes.cores.length) : MatrixRow (.adrain c sat clr true scale fmt t a b x) ag s
        (remembers (((List.range (rowSpan s1 ag x).2).foldl (fun s r => s.padAbsent (s1.shareOf ag)
          (((s1.a32 ag a).setWidth 64).toNat + r * (s1.b32 ag b).toNat) (64 * eltBytes fmt.toNat)) s1).mxPut (s1.coreOf ag) (s1.shareOf ag)
          (drainCmd s1 ag sat clr true scale fmt t ((s1.a32 ag a).setWidth 64) (s1.b32 ag b).toNat x [])) ag
          (s.core (s.coreOf ag)).mxNo) .next
  | adrain c sat clr scale fmt t a b x ag s s1 s2 s3 bs (ho : MxOpen s ag) (hd : s.drainGroup ag = (s1, true))
      (ha : (s1.a64 ag a).toNat % 16 = 0)
      (ht : (s1.b32 ag b).toNat % 16 = 0 ∧ 64 * eltBytes fmt.toNat ≤ (s1.b32 ag b).toNat ∧ (s1.b32 ag b).toNat < 2 ^ 24)
      (hr : (rowSpan s1 ag x).1 + (rowSpan s1 ag x).2 ≤ 128)
      (hp : s1.checkRanges ag (drainRanges (s1.a64 ag a) (s1.b32 ag b).toNat (rowSpan s1 ag x).2 (64 * eltBytes fmt.toNat)) = (s2, none))
      (hg : s2.chargeBlocks (s2.vdOf ag) (s2.coreOf ag) (blocksOf (drainRanges (s1.a64 ag a) (s1.b32 ag b).toNat (rowSpan s1 ag x).2
        (64 * eltBytes fmt.toNat))) = (s3, .taken bs))
      (hid : (s3.core (s3.coreOf ag)).mxNo = (s.core (s.coreOf ag)).mxNo) (hco : s3.coreOf ag = s.coreOf ag)
      (hcl : s.coreOf ag < s3.lanes.cores.length) : MatrixRow (.adrain c sat clr false scale fmt t a b x) ag s
        (remembers (s3.mxPut (s3.coreOf ag) (s1.shareOf ag)
          (drainCmd s1 ag sat clr false scale fmt t (s1.a64 ag a) (s1.b32 ag b).toNat x bs)) ag (s.core (s.coreOf ag)).mxNo) .next
  | wrel c ag s (ho : MxOpen s ag) : MatrixRow (.wrel c) ag s (s.wrel1 ag) .next
  | mstat c keep d ag s (ho : MxOpen s ag) : MatrixRow (.mstat c keep d) ag s
      ((s.out ag false false [toReg d 0#32] 0#5).mxPut (s.coreOf ag) (s.shareOf ag) (.mstat keep [(ag, s.resNo ag)])) .next
  | full c t ag s (h : 32 ≤ (s.core (s.coreOf ag)).mxQ.length) : MatrixRow (.aclr c t) ag s s (.wait (.engine 2))

/-! ## The extrapolation unit (R313 to R323) -/

/-- An extrapolation instruction: the command its thread enters, and the results it waits for (R314). -/
inductive XOf : Instr → (State → Nat → XCmd) → List (Option Dst × Word) → Prop where
  | xcfg c depth meth x a b e : XOf (.xcfg c depth meth x a b e) (fun s g => .cfg x meth depth (s.b32 g b) (s.a32 g a) (s.c32 g e)) []
  | xpush c x a pc : XOf (.xpush c x a pc) (fun s g => .push x (s.a32 g a) (s.resNo g)) [toPred pc false]
  | xest c d x pc : XOf (.xest c d x pc) (fun s g => .est x (s.resNo g)) [toRegN d.toNat 0#32, toRegN (d.toNat + 1) 0#32, toPred pc false]
  | xclr c x : XOf (.xclr c x) (fun _ _ => .clr x) []
  | xstat c d x : XOf (.xstat c d x) (fun s g => .stat x (s.resNo g)) [toReg d 0#32]
/-- The results it waits for, where it has any. -/
def awaits (s : State) (ag : Nat) (rs : List (Option Dst × Word)) : State := if rs = [] then s else s.out ag false false rs 0#5
/-- Extrapolation instructions enter the queue of 16 as the entry of their pass, or wait for room (R13, R313). -/
inductive XRow : Instr → Nat → State → State → Fate → Prop where
  | enters i cmd rs ag s (h : XOf i cmd rs) (hi : (s.agent ag).home.idx < 128) (hq : (s.core (s.coreOf ag)).xQ.length < 16) : XRow i ag s
      ((awaits s ag rs).modCore (s.coreOf ag) fun k => { k with xQ := k.xQ ++ [[(ag, cmd s ag)]] }) .next
  | full i cmd rs ag s (h : XOf i cmd rs) (hi : (s.agent ag).home.idx < 128) (hq : 16 ≤ (s.core (s.coreOf ag)).xQ.length) : XRow i ag s s (.wait (.engine 3))

/-! ## The task engine (R387 to R393) -/

/-- Before an entry a settled task's thread drains its own stores (R389, R391). -/
def Released (s : State) (ag : Nat) (s1 : State) : Prop :=
  (s.unsettled (s.taskOf ag) = true ∧ s1 = s) ∨ (s.unsettled (s.taskOf ag) = false ∧ s.drainIssuer ag = (s1, true))
/-- A value of TASKQ, from what the task and its launch hold (R393). -/
inductive TaskqOf : Instr → Reg → (State → Nat → Nat) → Prop where
  | prio c d b : TaskqOf (.taskqPrio c d b) d fun s g => (s.task (s.taskOf g)).prio
  | restart c d b : TaskqOf (.taskqRestart c d b) d fun s g => (s.task (s.taskOf g)).restarts.n
  | settled c d b : TaskqOf (.taskqSettled c d b) d fun s g => if (s.task (s.taskOf g)).settled = true then 1 else 0
  | vlines c d b : TaskqOf (.taskqVlines c d b) d fun s g => (s.task (s.taskOf g)).ver.lines
  | bqueue c d b : TaskqOf (.taskqBqueue c d b) d fun s g => (s.launchFor g).readyAt ((s.b32 g b).toNat % 256)
  | nqueue c d b : TaskqOf (.taskqNqueue c d b) d fun s g => (s.launchFor g).waitingRecords (s.b32 g b).toNat
  | cursor c d b : TaskqOf (.taskqCursor c d b) d fun s g => (s.launchFor g).cursor
/-- Task-engine instructions. -/
inductive TaskRow : Instr → Nat → State → State → Fate → Prop where
  | spawn c d a b x off ag s n s1 (hb : (s.launchFor ag).billets = true) (hf : (s.launchFor ag).freeSlot = some n)
      (hr : Released s ag s1) : TaskRow (.spawn c d a b x off) ag s
      ((s1.putBillet ag n ⟨(s1.agent ag).pc + 4#64 * Disp64 off, (s.a64 ag a).setWidth 48, (s.b32 ag (.reg b)).setWidth 16⟩
          (if x = 255#8 then (s1.task (s1.taskOf ag)).prio else (s.c32 ag x).toNat % 256) none).out ag true false
        [toReg d ((s1.launchFor ag).handle n)] 0#5) .next
  | spawnFull c d a b x off ag s (hb : (s.launchFor ag).billets = true) (hf : (s.launchFor ag).freeSlot = none) :
      TaskRow (.spawn c d a b x off) ag s s (.wait .slots)
  | spawnNone c d a b x off ag s (hb : (s.launchFor ag).billets = false) :
      TaskRow (.spawn c d a b x off) ag s s (.trap 0x05 0#64 19#32)
  | enqn c a b ag s x s1 bs j n s2 (hb : (s.launchFor ag).billets = true)
      (hx : (s.launchFor ag).nodes[(s.b32 ag b).toNat]? = some x)
      (hr : s.readRecord ag (s.a64 ag a) x.rsize 16 0#32 = (s1, .ok bs)) (hj : x.freeRecord = some j)
      (hn : (s1.launchFor ag).freeSlot = some n) (hd : Released s1 ag s2) : TaskRow (.enqn c a b) ag s
      (((s2.hearthPost (s.vdOf ag) 9 (x.qbase + BitVec.ofNat 64 (j * x.rsize)) (.store bs)).modLaunch
          ((s2.hearthPost (s.vdOf ag) 9 (x.qbase + BitVec.ofNat 64 (j * x.rsize)) (.store bs)).launchOf ag) fun y =>
          { y with nodes := y.nodes.modify (s.b32 ag b).toNat fun z => { z with used := z.used ++ [j] } }).putBillet ag n
        ⟨x.code, (x.qbase + BitVec.ofNat 64 (j * x.rsize)).setWidth 48, 0#16⟩ x.prio (some ((s.b32 ag b).toNat, j))) .next
  | jdec c d a b ag s s1 s2 s3 j (hb : (s.launchFor ag).billets = true) (hh : ¬(s.unsettled (s.taskOf ag) = true ∧ d = 255#8))
      (hc : Committed s (s.taskOf ag) true s1) (hr : Released s1 ag s2)
      (hj : s2.jdecOn (s2.launchOf ag) (s.a32 ag a) ((s.b32 ag b).setWidth 16) = .ok (s3, j)) : TaskRow (.jdec c d a b) ag s
      (s3.out ag true false [toReg d (j.setWidth 32)] 0#5) .next
  | jdecHeld c a b ag s (hb : (s.launchFor ag).billets = true) (hu : s.unsettled (s.taskOf ag) = true) :
      TaskRow (.jdec c 255#8 a b) ag s (s.modTask (s.taskOf ag) fun k => { k with ver := { k.ver with held := k.ver.held ++
        [.jdec (s.a32 ag a) ((s.b32 ag b).setWidth 16) (s.agent ag).pc (s.tidWord ag)] } }) .next
  | settle c ag s s1 (h : (s.agent ag).settleable = true)
      (hc : Committed (s.modAgent ag Agent.settle) ((s.modAgent ag Agent.settle).taskOf ag) true s1) : TaskRow (.settle c) ag s s1 .next
  | taskq i d f ag s (h : TaskqOf i d f) : TaskRow i ag s (s.out ag true false [toReg d (BitVec.ofNat 32 (f s ag))] 0#5) .next

/-! ## System instructions (R252 to R256) -/

/-- A system instruction first commits (R252). -/
def SysFirst (s : State) (ag : Nat) (s0 : State) : Prop := Committed s (s.taskOf ag) true s0
/-- A system instruction is ordered after the issuer's accesses (R111, R252). -/
def SysReady (s : State) (ag : Nat) (s2 : State) : Prop := s.drainIssuer ag = (s2, true)
/-- The counter of a system instruction is aligned and can be written (R252). -/
def CounterOk (s : State) (ag : Nat) (va : DWord) (s1 : State) : Prop := va.toNat % 8 = 0 ∧
  ∃ pa rb h11, s.translate (s.vdOf ag) (s.coreOf ag) va .store = (s1, .ok pa rb h11)
/-- A TLBI drops the entries in its scope that it names, and every access in the scope that used one is performed (R254). -/
def Forgets (s2 : State) (core scope : Nat) (p : TlbEntry → Bool) (t : State) : Prop :=
  (s2.dropTlb fun e => e.at_.inScope core scope && p e).drainAgents
    ((s2.dropTlb fun e => e.at_.inScope core scope && p e).agentsInScope core scope) = (t, true)
/-- A CFLUSH, with its operation, scope, address and length (R255). -/
inductive FlushOf : Instr → Nat → Nat → (State → Nat → DWord) → (State → Nat → Nat) → Prop where
  | clean c sc a b : FlushOf (.cflushClean c sc a b) 0 sc.toNat (fun s g => s.a64 g a) (fun s g => (s.b32 g b).toNat)
  | inv c sc a b : FlushOf (.cflushInv c sc a b) 1 sc.toNat (fun s g => s.a64 g a) (fun s g => (s.b32 g b).toNat)
  | discard c sc a b : FlushOf (.cflushDiscard c sc a b) 2 sc.toNat (fun s g => s.a64 g a) (fun s g => (s.b32 g b).toNat)
/-- What a CFLUSH does to one block of a range (R255). -/
def flushBlock (op scope pa n : Nat) (s : State) (no : Nat) : State :=
  if op = 2 then s.discardLines scope pa n no
  else if scope = 6 ∧ ((s.block no).dirty.any fun (l, _) => meets pa n (l * 128) 128) = true then s.writeback no
  else s
/-- What it does to ranges. -/
def flushRanges (op scope : Nat) (ps : List (Nat × Nat)) (s : State) : State :=
  ps.foldl (fun s p => (blocksIn p.1 p.2).foldl (flushBlock op scope p.1 p.2) s) s
/-- System instructions. -/
inductive SystemRow : Instr → Nat → State → State → Fate → Prop where
  | stkho c die sc a b ag s s0 s1 s2 (hm : SysFirst s ag s0) (hc : CounterOk s0 ag (s.a64 ag a) s1) (hb : (s.b32 ag b).toNat < 8)
      (hl : s1.loanLacks (partOf (s0.vdOf ag)) (s.b32 ag b).toNat die.toNat = false) (hr : SysReady s1 ag s2) :
      SystemRow (.stkho c die sc a b) ag s (s2.modStore fun m => { m with handovers := m.handovers ++
        [⟨(s.b32 ag b).toNat, die.toNat, 0, some (s.a64 ag a, s0.vdOf ag, sc.toNat)⟩] }) .next
  | stkhoBad c die sc a b ag s s0 s1 (hm : SysFirst s ag s0) (hc : CounterOk s0 ag (s.a64 ag a) s1) (hb : 8 ≤ (s.b32 ag b).toNat) :
      SystemRow (.stkho c die sc a b) ag s s1 (.trap 0x05 0#64 1#32)
  | tlbiPage c sc a b ag s s0 s2 t (hm : SysFirst s ag s0) (ha : (s.a64 ag a).toNat % 65536 = 0) (hr : SysReady s0 ag s2)
      (hd : Forgets s2 (s0.coreOf ag) sc.toNat (fun e => e.vd == s.vdOf ag && decide (0 < (s.b32 ag b).toNat) &&
        e.hits (s.a64 ag a).toNat ((s.b32 ag b).toNat * 65536)) t) : SystemRow (.tlbiPage c sc a b) ag s t .next
  | tlbiVdev c sc b ag s s0 s2 t (hm : SysFirst s ag s0) (hr : SysReady s0 ag s2) (hd : Forgets s2 (s0.coreOf ag) sc.toNat (fun e => e.vd == s.vdOf ag) t) :
      SystemRow (.tlbiVdev c sc b) ag s t .next
  | tlbiVdevn c sc b ag s s0 s2 t (hm : SysFirst s ag s0) (hn : (s.b32 ag b).toNat < 16) (hr : SysReady s0 ag s2)
      (hd : Forgets s2 (s0.coreOf ag) sc.toNat (fun e => e.vd == 16 * partOf (s.vdOf ag) + (s.b32 ag b).toNat) t) :
      SystemRow (.tlbiVdevn c sc b) ag s t .next
  | tlbiAll c sc b ag s s0 s2 t (hm : SysFirst s ag s0) (hr : SysReady s0 ag s2) (hd : Forgets s2 (s0.coreOf ag) sc.toNat (fun _ => true) t) :
      SystemRow (.tlbiAll c sc b) ag s t .next
  | cflush i op sc a n ag s s0 ps s2 (hm : SysFirst s ag s0) (h : FlushOf i op sc a n) (ha : (a s ag).toNat % 128 = 0) (hn : n s ag % 128 = 0)
      (hp : s0.flushPages (s0.vdOf ag) (op == 2) (pageParts (n s ag / 65536 + 2) (a s ag) (n s ag)) = .ok ps)
      (hr : SysReady s0 ag s2) : SystemRow i ag s (flushRanges op sc ps s2) .next
  | cflushBad i op sc a n ag s s0 (hm : SysFirst s ag s0) (h : FlushOf i op sc a n) (ha : (a s ag).toNat % 128 ≠ 0 ∨ n s ag % 128 ≠ 0) :
      SystemRow i ag s s0 (.trap 0x03 (a s ag) 0#32)
  | ctxsw c force sc d a b ag s s0 s1 s2 desc s3 (hm : SysFirst s ag s0) (hc : CounterOk s0 ag (s.d64 ag d) s1)
      (hr : s1.readRecordBy none ag (s.a64 ag a) 64 1 0#32 = (s2, .ok desc))
      (hi : s2.coreIn (partOf (s.vdOf ag)) (s.b32 ag b).toNat = true) (hn : s2.rejectsSwitch ag (s.b32 ag b).toNat desc = false)
      (ho : SysReady s2 ag s3) : SystemRow (.ctxsw c force sc d a b) ag s
      ((s3.modSlice (s.b32 ag b).toNat fun x =>
        { x with next := some (16 * partOf (s.vdOf ag) + field desc 0 2, field desc 2 1 == 1, field desc 4 4 * 1000),
                 counter := some (s.d64 ag d, s.vdOf ag, sc.toNat), force := force }).sliceEnd (s.b32 ag b).toNat (some ag)) .next
  | ctxswOutside c force sc d a b ag s s0 s1 s2 desc (hm : SysFirst s ag s0) (hc : CounterOk s0 ag (s.d64 ag d) s1)
      (hr : s1.readRecordBy none ag (s.a64 ag a) 64 1 0#32 = (s2, .ok desc))
      (hi : s2.coreIn (partOf (s.vdOf ag)) (s.b32 ag b).toNat = false) :
      SystemRow (.ctxsw c force sc d a b) ag s s2 (.trap 0x05 0#64 1#32)

end Sys2Proof.Claims
end

