-- ==== Sys2Proof/Safety/Control.lean ====
section
/-! DEFINITION. Rows of control-flow, barrier and special-register instructions for claims: what an instruction that a
thread performs alone leaves, and how the thread goes on. In every row of this folder `ag` is the thread, `s` the state
in which it performs the instruction, and the last two entries are the state its effect leaves and its fate. -/

namespace Sys2Proof.Claims
open Sys2Proof.Machine

/-- Byte displacement of a word offset: 4 × sext(offset) (R181). -/
def jumpBy {n : Nat} (off : BitVec n) : DWord := BitVec.ofInt 64 (4 * off.toInt)
/-- The address a thread resumes at after SRET: %trpc, as its reads of %trpc and %trpchi see it (R234). -/
def resumeAt (s : State) (ag : Nat) : DWord := s.rd ag 1 (.csr 0x36) ++ s.rd ag 1 (.csr 0x31)
/-- The members of its group that live, as a mask set with the issuer's group (R184). -/
def armed (s : State) (g m : Nat) : State :=
  s.modGroup g fun x => { x with masks := x.masks.set m (some (s.liveSet g)) }

/-- An entry at the end of a share's decision queue; the threads that wait for one go on, and an entry that nobody will read is freed (R142, R143). -/
def pushed (s : State) (h : Nat) (x : Word) : State :=
  let s := s.modShare h fun y => { y with dq := y.dq ++ [x] }
  (s.modAgents (unparkIf .queue) ((s.share h).groups.flatMap fun g => (s.group g).members)).dqFree h
/-- The next entry of its share's decision queue for a thread (R143). -/
def nextEntry (s : State) (ag : Nat) : Option Word := (s.share (s.shareOf ag)).dq[(s.agent ag).dqRead - (s.share (s.shareOf ag)).dqFreed]?
/-- A thread has read one entry of the queue; one that every live thread has read is freed (R142, R143). -/
def popped (s : State) (ag : Nat) : State := (s.modAgent ag fun a => { a with dqRead := a.dqRead + 1 }).dqFree (s.shareOf ag)
/-- YIELD in both forms (R187). -/
inductive YieldOf : Instr → Prop where
  | base w : YieldOf (.yield w)
  | ext c : YieldOf (.yieldExt c)
/-- A thread once its outstanding results are written (R61). -/
def settledAt (s : State) (ag : Nat) : Agent := (s.modAgent ag Agent.settle).agent ag
/-- Calls, rejoin masks, exit, yield, software traps, SRET and the decision queue (R142, R143, R182 to R190, R234). -/
inductive ControlRow : Instr → Nat → State → State → Fate → Prop where
  | call w off ag s (h : (s.agent ag).link.length < 16) :
      ControlRow (.call w off) ag s (s.modAgent ag fun a => { a with link := (a.pc + 4#64) :: a.link })
        (.jump ((s.agent ag).pc + jumpBy off))
  | callFull w off ag s (h : 16 ≤ (s.agent ag).link.length) :
      ControlRow (.call w off) ag s s (.trap 0x0C 0#64 0x80040001#32)
  | ret w ag s r rest (h : (s.agent ag).link = r :: rest) :
      ControlRow (.ret w) ag s (s.modAgent ag fun a => { a with link := rest }) (.jump r)
  | retEmpty w ag s (h : (s.agent ag).link = []) : ControlRow (.ret w) ag s s (.trap 0x0C 0#64 0x80040002#32)
  | retExt c ag s r rest (h : (s.agent ag).link = r :: rest) :
      ControlRow (.retExt c) ag s (s.modAgent ag fun a => { a with link := rest }) (.jump r)
  | retExtEmpty c ag s (h : (s.agent ag).link = []) : ControlRow (.retExt c) ag s s (.trap 0x0C 0#64 0x800C0002#32)
  | jarm w m ag s : ControlRow (.jarm w m) ag s ((armed s (s.groupOf ag) m.toNat).maskTest (s.groupOf ag) m.toNat) .next
  | jarmExt c m ag s : ControlRow (.jarmExt c m) ag s ((armed s (s.groupOf ag) m.toNat).maskTest (s.groupOf ag) m.toNat) .next
  | jwaitOut w m ag s (h : s.inMask ag m.toNat = false) : ControlRow (.jwait w m) ag s s .next
  | jwaitExtOut c m ag s (h : s.inMask ag m.toNat = false) : ControlRow (.jwaitExt c m) ag s s .next
  | jwait w m ag s (h : s.inMask ag m.toNat = true) (hr : (s.agent ag).settleable = true) : ControlRow (.jwait w m) ag s
      ((s.modAgent ag fun a => { a.settle with status := .parked (.mask m.toNat), pc := a.pc + 4#64 }).maskTest (s.groupOf ag) m.toNat) .own
  | jwaitExt c m ag s (h : s.inMask ag m.toNat = true) (hr : (s.agent ag).settleable = true) : ControlRow (.jwaitExt c m) ag s
      ((s.modAgent ag fun a => { a.settle with status := .parked (.mask m.toNat), pc := a.pc + 12#64 }).maskTest (s.groupOf ag) m.toNat) .own
  | jdrop w m ag s (h : s.inMask ag m.toNat = true) :
      ControlRow (.jdrop w m) ag s (s.maskDrop (s.groupOf ag) m.toNat (s.agent ag).home.idx) .next
  | jdropExt c m ag s (h : s.inMask ag m.toNat = true) :
      ControlRow (.jdropExt c m) ag s (s.maskDrop (s.groupOf ag) m.toNat (s.agent ag).home.idx) .next
  | jdropOut w m ag s (h : s.inMask ag m.toNat = false) : ControlRow (.jdrop w m) ag s s .next
  | jdropExtOut c m ag s (h : s.inMask ag m.toNat = false) : ControlRow (.jdropExt c m) ag s s .next
  | exit w ag s (h : (s.agent ag).settleable = true) : ControlRow (.exit w) ag s ((s.modAgent ag Agent.settle).endAgent ag) .own
  | exitExt c ag s (h : (s.agent ag).settleable = true) : ControlRow (.exitExt c) ag s ((s.modAgent ag Agent.settle).endAgent ag) .own
  | yield i ag s g (hi : YieldOf i) (h : (s.agent ag).settleable = true) (hg : (settledAt s ag).home.group = some g) :
      ControlRow i ag s
        ((s.modAgent ag Agent.settle).modGroup g fun x => { x with lastF := s.moves + 1, lastG := s.moves + 1 }) .next
  | yieldFe i ag s (hi : YieldOf i) (h : (s.agent ag).settleable = true) (hg : (settledAt s ag).home.group = none)
      (he : (settledAt s ag).sliceEnd = false) : ControlRow i ag s
        ((s.modAgent ag Agent.settle).modShare (settledAt s ag).home.share fun x => { x with feLast := s.moves + 1 }) .next
  | yieldSlice i ag s (hi : YieldOf i) (h : (s.agent ag).settleable = true) (hg : (settledAt s ag).home.group = none)
      (he : (settledAt s ag).sliceEnd = true) : ControlRow i ag s
        ((s.modAgent ag Agent.settle).modAgent ag fun a => { a with sliceEnd := false }) (.past .switch)
  | ill x w l ag s : ControlRow (.ill x w l) ag s s (.trap 0x01 0#64 2#32)
  | trap w b ag s : ControlRow (.trap w b) ag s s (.trap 0x0C 0#64 (BitVec.ofNat 32 ((s.b7 ag b).toNat % 65536 + 4 * 65536)))
  | trapExt c b ag s : ControlRow (.trapExt c b) ag s s (.trap 0x0C 0#64 (BitVec.ofNat 32 ((s.b32 ag b).toNat % 65536 + b.len * 65536)))
  | brk w b ag s : ControlRow (.brk w b) ag s s (.trap 0x0B 0#64 (BitVec.ofNat 32 ((s.b7 ag b).toNat % 65536 + 4 * 65536)))
  | brkExt c b ag s : ControlRow (.brkExt c b) ag s s (.trap 0x0B 0#64 (BitVec.ofNat 32 ((s.b32 ag b).toNat % 65536 + b.len * 65536)))
  | sret w ag s : ControlRow (.sret w) ag s (s.modAgent ag fun a => a.sret (resumeAt s ag)) (.jump (resumeAt s ag))
  | sretExt c ag s : ControlRow (.sretExt c) ag s (s.modAgent ag fun a => a.sret (resumeAt s ag)) (.jump (resumeAt s ag))
  | brq w off ag s x (h : nextEntry s ag = some x) :
      ControlRow (.brq w off) ag s (popped s ag)
        (if x = 0#32 then .next
          else .jump ((s.agent ag).pc + jumpBy off))
  | brqEmpty w off ag s (h : nextEntry s ag = none) :
      ControlRow (.brq w off) ag s s (.wait .queue)
  | dqpop w d ag s x (h : nextEntry s ag = some x) :
      ControlRow (.dqpop w d) ag s
        ((popped s ag).out ag true false [toReg d x] 0#5) .next
  | dqpopExt c d ag s x (h : nextEntry s ag = some x) :
      ControlRow (.dqpopExt c d) ag s
        ((popped s ag).out ag true false [toReg d x] 0#5) .next
  | dqpush w b ag s (h : (s.share (s.shareOf ag)).dq.length < 64) : ControlRow (.dqpush w b) ag s
      (pushed s (s.shareOf ag) (s.b7 ag b)) .next
  | dqpushExt c b ag s (h : (s.share (s.shareOf ag)).dq.length < 64) : ControlRow (.dqpushExt c b) ag s
      (pushed s (s.shareOf ag) (s.b32 ag b)) .next
  | dqpopEmpty w d ag s (h : nextEntry s ag = none) : ControlRow (.dqpop w d) ag s s (.wait .queue)
  | dqpopExtEmpty c d ag s (h : nextEntry s ag = none) : ControlRow (.dqpopExt c d) ag s s (.wait .queue)
  | dqpushExtFull c b ag s (h : 64 ≤ (s.share (s.shareOf ag)).dq.length) : ControlRow (.dqpushExt c b) ag s s (.wait .queue)
  | dqpushFull w b ag s (h : 64 ≤ (s.share (s.shareOf ag)).dq.length) : ControlRow (.dqpush w b) ag s s (.wait .queue)

/-- A CSRR with its destination and register number, in both forms (R162). -/
inductive CsrrOf : Instr → Reg → Nat → Prop where
  | base w d num : CsrrOf (.csrr w d num) d num.toNat
  | ext c d num : CsrrOf (.csrrExt c d num) d num.toNat
/-- A CSRW with its source and register number, in both forms (R162). -/
inductive CsrwOf : Instr → Reg → Nat → Prop where
  | base w a num : CsrwOf (.csrw w a num) a num.toNat
  | ext c a num : CsrwOf (.csrwExt c a num) a num.toNat
/-- Special registers that are no plain read or write: the captures of %time and %clock, %fstat and the debug registers (R65, R162, R163, R243). -/
inductive CsrRow : Instr → Nat → State → State → Fate → Prop where
  | time i d ag s (h : CsrrOf i d 0x010) : CsrRow i ag s
      ((s.modAgent ag fun a => { a with fp := { a.fp with time := some (s.counter64 ag false) } }).wrReg ag 1 d
        (half (s.counter64 ag false) false)) .next
  | clock i d ag s (h : CsrrOf i d 0x012) : CsrRow i ag s
      ((s.modAgent ag fun a => { a with fp := { a.fp with clock := some (s.counter64 ag true) } }).wrReg ag 1 d
        (half (s.counter64 ag true) false)) .next
  | fstat i d ag s (h : CsrrOf i d 0x020) : CsrRow i ag s (s.wrReg ag 1 d (s.readFstat ag)) .next
  | setFstat i a ag s (h : CsrwOf i a 0x020) : CsrRow i ag s (s.writeFstat ag (s.a32 ag a)) .next
  | debug i a n ag s (h : CsrwOf i a n) (h1 : 0x801 ≤ n) (h2 : n ≤ 0x809) : CsrRow i ag s
      ((s.modTask (s.taskOf ag) fun k => { k with debug := Debug.write k.debug n (s.a32 ag a) }).modAgent ag fun x =>
        { x with pend := ⟨.csr n, Debug.get (s.task (s.taskOf ag)).debug n, x.issued + 2⟩ :: x.pend }) .next

/-- A barrier of N arrivals, phase 0, nothing arrived or expected (R223). -/
def newBarrier (s : State) (t b : Nat) (n : Word) : State := s.modBar t b fun _ => ⟨true, false, n.setWidth 7, 0#7, 0#36, 0#32⟩
/-- No agent of a task has arrived at a barrier. -/
def unarrived (s : State) (t b : Nat) : State :=
  s.modAgents (fun a => { a with arrived := a.arrived.filter fun y => y.1 != b }) (s.agentsOfTask t)
/-- Barriers and convergence declarations (R145, R222 to R226). `t` is the issuer's task, `x` the barrier. -/
inductive BarrierRow : Instr → Nat → State → State → Fate → Prop where
  | arr c d b ag s s1 (hi : (s.bar (s.taskOf ag) b.toNat).initd = true) (hb : (s.bar (s.taskOf ag) b.toNat).broken = false)
      (ha : (s.agent ag).hasArrived b.toNat (s.bar (s.taskOf ag) b.toNat).ph = false) (hd : s.drainIssuer ag = (s1, true)) :
      BarrierRow (.barArr c d b) ag s ((s1.barArrive (s.taskOf ag) b.toNat ag).out ag true false [toReg d (s.bar (s.taskOf ag) b.toNat).ph] 0#5) .next
  | sync c d b ag s s1 (hi : (s.bar (s.taskOf ag) b.toNat).initd = true) (hb : (s.bar (s.taskOf ag) b.toNat).broken = false)
      (ha : (s.agent ag).hasArrived b.toNat (s.bar (s.taskOf ag) b.toNat).ph = false) (hd : s.drainIssuer ag = (s1, true)) :
      BarrierRow (.barSync c d b) ag s ((s1.barArrive (s.taskOf ag) b.toNat ag).out ag true false [toReg d (s.bar (s.taskOf ag) b.toNat).ph] 0#5)
        (.atBarrier b.toNat (s.bar (s.taskOf ag) b.toNat).ph)
  | wait c b x ag s (hi : (s.bar (s.taskOf ag) b.toNat).initd = true) (hb : (s.bar (s.taskOf ag) b.toNat).broken = false) :
      BarrierRow (.barWait c b x) ag s s (.atBarrier b.toNat (s.b32 ag x))
  | expect c b x ag s (hi : (s.bar (s.taskOf ag) b.toNat).initd = true) (hb : (s.bar (s.taskOf ag) b.toNat).broken = false)
      (hn : (s.bar (s.taskOf ag) b.toNat).p.toInt + ((s.b32 ag x).toNat : Int) ≤ 2 ^ 35 - 1) : BarrierRow (.barExpect c b x) ag s
      ((s.modBar (s.taskOf ag) b.toNat fun y => { y with p := y.p + (s.b32 ag x).setWidth 36 }).barTest (s.taskOf ag) b.toNat) .next
  | init c b x ag s (h1 : 1 ≤ (s.b32 ag x).toNat) (h2 : (s.b32 ag x).toNat ≤ 104) : BarrierRow (.barInit c b x) ag s
      (((unarrived (newBarrier s (s.taskOf ag) b.toNat (s.b32 ag x)) (s.taskOf ag) b.toNat).barTrap
        (s.taskOf ag) b.toNat (BitVec.ofNat 32 (256 * b.toNat + 5))).barTest (s.taskOf ag) b.toNat) .next
  | uninit c d b ag s (hi : (s.bar (s.taskOf ag) b.toNat).initd = false) :
      BarrierRow (.barArr c d b) ag s s (.trap 0x16 0#64 (BitVec.ofNat 32 (256 * b.toNat + 2)))
  | badCount c b x ag s (h : (s.b32 ag x).toNat = 0 ∨ 104 < (s.b32 ag x).toNat) :
      BarrierRow (.barInit c b x) ag s s (.trap 0x16 0#64 (BitVec.ofNat 32 (256 * b.toNat + 1)))
  | cvset c n cv b ag s (set : List Nat) (h : Nat)
      (hn : set.length = n.toNat + 1) (hs : ∀ k, k < n.toNat + 1 →
        s.agentOfTid (s.taskOf ag) ((s.b32 ag b).toNat + k) = some (set.getD k 0))
      (hh : ∀ a ∈ set, s.shareOf a = h ∧ s.live a = true)
      (hc : (s.cv (s.taskOf ag) cv.toNat).state ≠ .issuing ∧
        ((s.cv (s.taskOf ag) cv.toNat).state = .declared → (s.cv (s.taskOf ag) cv.toNat).sigs = [])) :
      BarrierRow (.cvset c n cv b) ag s
        (s.modCv (s.taskOf ag) cv.toNat fun _ => ⟨.declared, (s.b32 ag b).toNat, n.toNat + 1, h, [], none, s.currentSet h, (s.core (s.share h).core).clock, 0⟩) .next

end Sys2Proof.Claims
end

