-- ==== Sys2Proof/Safety/Values.lean ====
section
/-! DEFINITION. Values that instructions give, in the words of the spec's tables, for claims. -/

namespace Sys2Proof.Claims
open Sys2Proof.Machine

/-- Sat(x, lo, hi) of R152. -/
def clamp (lo hi x : Int) : Int := if x < lo then lo else if hi < x then hi else x
/-- An integer as a 32-bit value, modulo 2^32. -/
def wrap (x : Int) : Word := BitVec.ofInt 32 x
/-- A sum or difference, saturated to signed 32 bits where SAT asks for it (R152). -/
def satTo (sat : Bool) (x : Int) : Word := wrap (if sat = true then clamp (-(2 ^ 31)) (2 ^ 31 - 1) x else x)
/-- The signed, or with U the unsigned, value of an operand (R152). -/
def valOf (u : Bool) (a : Word) : Int := if u = true then a.toNat else a.toInt
/-- d[i] ← a[31 − i] (R160). -/
def mirror (a : Word) : Word := (BitVec.ofBoolListLE ((List.range 32).map fun i => a.getLsbD (31 - i))).setWidth 32
/-- Position of a field spec (R154). -/
def fieldPos (b : Word) : Nat := b.toNat % 32
/-- The length n of a field spec (R154). -/
def fieldLen (b : Word) : Nat := min (b.toNat / 256 % 64) 32
/-- The bits m that a field covers in its word (R154). -/
def fieldBits (b : Word) : Nat := min (fieldLen b) (32 - fieldPos b)
/-- BFX: the field, zero-extended or with S sign-extended from its top bit (R154). -/
def field32 (sx : Bool) (a b : Word) : Word :=
  let m := fieldBits b
  let f := a.toNat / 2 ^ fieldPos b % 2 ^ m
  if fieldLen b = 0 then 0#32
  else if sx = true ∧ 2 ^ (m - 1) ≤ f then wrap ((f : Int) - 2 ^ m) else BitVec.ofNat 32 f
/-- BFI: c inserted under the mask of the field (R154). -/
def insert32 (a b c : Word) : Word :=
  let mask := BitVec.ofNat 32 ((2 ^ fieldBits b - 1) * 2 ^ fieldPos b)
  (a &&& ~~~mask) ||| ((c <<< fieldPos b) &&& mask)
/-- An instruction of the integer families with its latency, its destination and its value, from what its operands read (R58, R152 to R155, R160). -/
inductive IntRow : Instr → Nat → Reg → (State → Nat → Word) → Prop where
  | mov x0 d b : IntRow (.mov x0 d b) 2 d (fun s g => s.b7 g b)
  | movExt x0 d b : IntRow (.movExt x0 d b) 2 d (fun s g => s.b32 g b)
  | add x0 d a b : IntRow (.add x0 d a b) 2 d (fun s g => satTo false ((s.a32 g a).toInt + (s.b7 g b).toInt))
  | addExt x0 sat d a b : IntRow (.addExt x0 sat d a b) 2 d (fun s g => satTo sat ((s.a32 g a).toInt + (s.b32 g b).toInt))
  | sub x0 d a b : IntRow (.sub x0 d a b) 2 d (fun s g => satTo false ((s.a32 g a).toInt - (s.b7 g b).toInt))
  | subExt x0 sat d a b : IntRow (.subExt x0 sat d a b) 2 d (fun s g => satTo sat ((s.a32 g a).toInt - (s.b32 g b).toInt))
  | mul x0 d a b : IntRow (.mul x0 d a b) 4 d (fun s g => wrap ((s.a32 g a).toInt * (s.b7 g b).toInt))
  | mulExt x0 d a b : IntRow (.mulExt x0 d a b) 4 d (fun s g => wrap ((s.a32 g a).toInt * (s.b32 g b).toInt))
  | mulh x0 d a b : IntRow (.mulh x0 d a b) 4 d (fun s g => wrap (valOf false (s.a32 g a) * valOf false (s.b7 g b) / 2 ^ 32))
  | mulhExt x0 u d a b : IntRow (.mulhExt x0 u d a b) 4 d (fun s g => wrap (valOf u (s.a32 g a) * valOf u (s.b32 g b) / 2 ^ 32))
  | mad x0 d a b c : IntRow (.mad x0 d a b c) 4 d (fun s g => wrap ((s.a32 g a).toInt * (s.b32 g b).toInt + (s.c32 g c).toInt))
  | min x0 d a b : IntRow (.min x0 d a b) 2 d (fun s g => wrap (min (valOf false (s.a32 g a)) (valOf false (s.b7 g b))))
  | minExt x0 u d a b : IntRow (.minExt x0 u d a b) 2 d (fun s g => wrap (min (valOf u (s.a32 g a)) (valOf u (s.b32 g b))))
  | max x0 d a b : IntRow (.max x0 d a b) 2 d (fun s g => wrap (max (valOf false (s.a32 g a)) (valOf false (s.b7 g b))))
  | maxExt x0 u d a b : IntRow (.maxExt x0 u d a b) 2 d (fun s g => wrap (max (valOf u (s.a32 g a)) (valOf u (s.b32 g b))))
  | and x0 d a b : IntRow (.and x0 d a b) 2 d (fun s g => s.a32 g a &&& s.b7 g b)
  | andExt x0 d a b : IntRow (.andExt x0 d a b) 2 d (fun s g => s.a32 g a &&& s.b32 g b)
  | or x0 d a b : IntRow (.or x0 d a b) 2 d (fun s g => s.a32 g a ||| s.b7 g b)
  | orExt x0 d a b : IntRow (.orExt x0 d a b) 2 d (fun s g => s.a32 g a ||| s.b32 g b)
  | xor x0 d a b : IntRow (.xor x0 d a b) 2 d (fun s g => s.a32 g a ^^^ s.b7 g b)
  | xorExt x0 d a b : IntRow (.xorExt x0 d a b) 2 d (fun s g => s.a32 g a ^^^ s.b32 g b)
  | shl x0 d a b : IntRow (.shl x0 d a b) 2 d (fun s g => BitVec.ofNat 32 ((s.a32 g a).toNat * 2 ^ (s.b7 g b).toNat))
  | shlExt x0 d a b : IntRow (.shlExt x0 d a b) 2 d (fun s g => BitVec.ofNat 32 ((s.a32 g a).toNat * 2 ^ (s.b32 g b).toNat))
  | shr x0 d a b : IntRow (.shr x0 d a b) 2 d (fun s g => BitVec.ofNat 32 ((s.a32 g a).toNat / 2 ^ (s.b7 g b).toNat))
  | shrExt x0 d a b : IntRow (.shrExt x0 d a b) 2 d (fun s g => BitVec.ofNat 32 ((s.a32 g a).toNat / 2 ^ (s.b32 g b).toNat))
  | sar x0 d a b : IntRow (.sar x0 d a b) 2 d (fun s g => wrap ((s.a32 g a).toInt / 2 ^ (s.b7 g b).toNat))
  | sarExt x0 d a b : IntRow (.sarExt x0 d a b) 2 d (fun s g => wrap ((s.a32 g a).toInt / 2 ^ (s.b32 g b).toNat))
  | rot x0 d a b : IntRow (.rot x0 d a b) 2 d (fun s g => (s.a32 g a).rotateLeft ((s.b7 g b).toNat % 32))
  | rotExt x0 d a b : IntRow (.rotExt x0 d a b) 2 d (fun s g => (s.a32 g a).rotateLeft ((s.b32 g b).toNat % 32))
  | bfx x0 d a b : IntRow (.bfx x0 d a b) 2 d (fun s g => field32 false (s.a32 g a) (s.b7 g b))
  | bfxExt x0 sx d a b : IntRow (.bfxExt x0 sx d a b) 2 d (fun s g => field32 sx (s.a32 g a) (s.b32 g b))
  | bfi x0 d a b c : IntRow (.bfi x0 d a b c) 2 d (fun s g => insert32 (s.a32 g a) (s.b32 g b) (s.c32 g c))
  | sel x0 n d a b p : IntRow (.sel x0 n d a b p) 2 d (fun s g => if (s.pred g 3 p != n) = true then s.a32 g a else s.b32 g b)
  | abs x0 sat d a : IntRow (.abs x0 sat d a) 2 d (fun s g => satTo sat (s.a32 g a).toInt.natAbs)
  | neg x0 sat d a : IntRow (.neg x0 sat d a) 2 d (fun s g => satTo sat (-(s.a32 g a).toInt))
  | not x0 d a : IntRow (.not x0 d a) 2 d (fun s g => wrap (-1 - (s.a32 g a).toInt))
  | popc x0 d a : IntRow (.popc x0 d a) 2 d (fun s g => BitVec.ofNat 32 ((List.range 32).countP (s.a32 g a).getLsbD))
  | clz x0 d a : IntRow (.clz x0 d a) 2 d (fun s g => BitVec.ofNat 32 (((List.range 32).map (s.a32 g a).getMsbD).findIdx id))
  | brev x0 d a : IntRow (.brev x0 d a) 2 d (fun s g => mirror (s.a32 g a))
  | sext8 x0 d a : IntRow (.sext8 x0 d a) 2 d (fun s g => wrap (Int.bmod (s.a32 g a).toNat 256))
  | sext16 x0 d a : IntRow (.sext16 x0 d a) 2 d (fun s g => wrap (Int.bmod (s.a32 g a).toNat 65536))
  | zext8 x0 d a : IntRow (.zext8 x0 d a) 2 d (fun s g => BitVec.ofNat 32 ((s.a32 g a).toNat % 256))
  | zext16 x0 d a : IntRow (.zext16 x0 d a) 2 d (fun s g => BitVec.ofNat 32 ((s.a32 g a).toNat % 65536))
end Sys2Proof.Claims
end

