-- ==== Sys2Proof/Safety/Rows.lean ====
section
/-! DEFINITION. Rows of instructions whose effect on each thread of a fragment is the thread's own, with that effect, for
claims: predicates, pairs, floating point, cross-lane operations, special registers. -/

namespace Sys2Proof.Claims
open Sys2Proof.Machine

/-! ## Predicates and pairs (R156 to R159) -/

/-- A condition code on signed and unsigned values (R156). -/
def condition (cc : Nat) (x y : Int) (u v : Nat) : Bool :=
  match cc with
  | 0 => decide (u = v)
  | 1 => decide (u ≠ v)
  | 2 => decide (x < y)
  | 3 => decide (x ≤ y)
  | 4 => decide (y < x)
  | 5 => decide (y ≤ x)
  | 6 => decide (u < v)
  | 7 => decide (u ≤ v)
  | 8 => decide (v < u)
  | _ => decide (v ≤ u)
/-- An instruction that writes one predicate: its latency, the predicate, the value (R58, R156, R157, R159, R194). Condition codes 10 to 15 are reserved. -/
inductive PredRow : Instr → Nat → BitVec 3 → (State → Nat → Bool) → Prop where
  | cmp c cc pd a b (h : cc.toNat < 10) : PredRow (.cmp c cc pd a b) 2 pd fun s g =>
      condition cc.toNat (s.a32 g a).toInt (s.b32 g b).toInt (s.a32 g a).toNat (s.b32 g b).toNat
  | cmp64 c cc pd a b (h : cc.toNat < 10) : PredRow (.cmp64 c cc pd a b) 3 pd fun s g =>
      condition cc.toNat (s.a64 g a).toInt (s.b64 g b).toInt (s.a64 g a).toNat (s.b64 g b).toNat
  | plog c lut pd pa pb pc : PredRow (.plog c lut pd pa pb pc) 2 pd fun s g =>
      lut.getLsbD (4 * (s.pred g 1 pa).toNat + 2 * (s.pred g 2 pb).toNat + (s.pred g 3 pc).toNat)
/-- An instruction that writes a pair: its latency, the pair, the value (R58, R158, R159). -/
inductive PairRow : Instr → Nat → Reg → (State → Nat → DWord) → Prop where
  | lea w d a b : PairRow (.lea w d a b) 2 d fun s g => BitVec.ofInt 64 ((s.a64 g a).toNat + (s.b7 g b).toInt)
  | leaExt c sh u d a b : PairRow (.leaExt c sh u d a b) 2 d fun s g =>
      BitVec.ofInt 64 ((s.a64 g a).toNat + valOf u (s.b32 g b) * 2 ^ sh.toNat)
  | add64 c d a b : PairRow (.add64 c d a b) 3 d fun s g => BitVec.ofNat 64 ((s.a64 g a).toNat + (s.b64 g b).toNat)
  | sub64 c d a b : PairRow (.sub64 c d a b) 3 d fun s g => BitVec.ofInt 64 ((s.a64 g a).toNat - (s.b64 g b).toNat)
  | shl64 c d a b : PairRow (.shl64 c d a b) 3 d fun s g => BitVec.ofNat 64 ((s.a64 g a).toNat * 2 ^ (s.b32 g b).toNat)
  | shr64 c d a b : PairRow (.shr64 c d a b) 3 d fun s g => BitVec.ofNat 64 ((s.a64 g a).toNat / 2 ^ (s.b32 g b).toNat)

/-! ## Floating point (R164 to R178) -/

/-- An instruction with one FP register of a fixed latency: the register, the value and the flags (R58, R166 to R174). -/
inductive FpRow : Instr → Nat → Reg → (State → Nat → Word × FFlags) → Prop where
  | fadd w d a b : FpRow (.fadd w d a b) 4 d fun s g => vFadd (s.mode g 0#3) (s.a32 g a) (s.b7 g b)
  | faddExt c rm d a b : FpRow (.faddExt c rm d a b) 4 d fun s g => vFadd (s.mode g rm) (s.a32 g a) (s.b32 g b)
  | fsub w d a b : FpRow (.fsub w d a b) 4 d fun s g => vFsub (s.mode g 0#3) (s.a32 g a) (s.b7 g b)
  | fsubExt c rm d a b : FpRow (.fsubExt c rm d a b) 4 d fun s g => vFsub (s.mode g rm) (s.a32 g a) (s.b32 g b)
  | fmul w d a b : FpRow (.fmul w d a b) 4 d fun s g => vFmul (s.mode g 0#3) (s.a32 g a) (s.b7 g b)
  | fmulExt c rm d a b : FpRow (.fmulExt c rm d a b) 4 d fun s g => vFmul (s.mode g rm) (s.a32 g a) (s.b32 g b)
  | ffma c rm d a b x : FpRow (.ffma c rm d a b x) 4 d fun s g => vFfma (s.mode g rm) (s.a32 g a) (s.b32 g b) (s.c32 g x)
  | fmin w d a b : FpRow (.fmin w d a b) 4 d fun s g => vFminmax false (s.a32 g a) (s.b7 g b)
  | fminExt c d a b : FpRow (.fminExt c d a b) 4 d fun s g => vFminmax false (s.a32 g a) (s.b32 g b)
  | fmax w d a b : FpRow (.fmax w d a b) 4 d fun s g => vFminmax true (s.a32 g a) (s.b7 g b)
  | fmaxExt c d a b : FpRow (.fmaxExt c d a b) 4 d fun s g => vFminmax true (s.a32 g a) (s.b32 g b)
  | fabs c d a : FpRow (.fabs c d a) 4 d fun s g => (BitVec.ofNat 32 ((s.a32 g a).toNat % 2 ^ 31), 0#5)
  | fneg c d a : FpRow (.fneg c d a) 4 d fun s g => (s.a32 g a + BitVec.ofNat 32 (2 ^ 31), 0#5)
  | fclass c d a : FpRow (.fclass c d a) 4 d fun s g => (fclassV (s.a32 g a), 0#5)
  | frint c rm d a : FpRow (.frint c rm d a) 4 d fun s g => frintV (s.a32 g a) (s.mode g rm)
  | hadd2 c rm fmt d a b : FpRow (.hadd2 c rm fmt d a b) 4 d fun s g => pack2 fun e =>
      pk16 fmt.toNat (s.mode g rm) [] [elem 16 (s.a32 g a) e, elem 16 (s.b32 g (.reg b)) e]
  | hmul2 c rm fmt d a b : FpRow (.hmul2 c rm fmt d a b) 4 d fun s g => pack2 fun e =>
      pk16 fmt.toNat (s.mode g rm) [(elem 16 (s.a32 g a) e, elem 16 (s.b32 g (.reg b)) e)] []
  | hfma2 c rm fmt d a b x : FpRow (.hfma2 c rm fmt d a b x) 4 d fun s g => pack2 fun e =>
      pk16 fmt.toNat (s.mode g rm) [(elem 16 (s.a32 g a) e, elem 16 (s.b32 g (.reg b)) e)] [elem 16 (s.c32 g x) e]
  | hmin2 c fmt d a b : FpRow (.hmin2 c fmt d a b) 4 d fun s g => pack2 fun e =>
      fminmax fmt.toNat (elem 16 (s.a32 g a) e) (elem 16 (s.b32 g (.reg b)) e) false
  | hmax2 c fmt d a b : FpRow (.hmax2 c fmt d a b) 4 d fun s g => pack2 fun e =>
      fminmax fmt.toNat (elem 16 (s.a32 g a) e) (elem 16 (s.b32 g (.reg b)) e) true
  | fdot2 c rm fmt d a b x : FpRow (.fdot2 c rm fmt d a b x) 5 d fun s g =>
      fdot32 ((List.range 2).map fun e =>
          (elemValue fmt.toNat (elem 16 (s.a32 g a) e), elemValue fmt.toNat (elem 16 (s.b32 g (.reg b)) e)))
        [fp32 (s.c32 g x)] (s.mode g rm)
  | i2f c rm d a : FpRow (.i2f c rm d a) 5 d fun s g => toFp32 (FV.ofInt (s.a32 g a).toInt) (s.mode g rm)
  | u2f c rm d a : FpRow (.u2f c rm d a) 5 d fun s g => toFp32 (FV.ofInt (s.a32 g a).toNat) (s.mode g rm)
  | f2i c sat rm d a : FpRow (.f2i c sat rm d a) 5 d fun s g => vToInt 8 (s.mode g rm) sat (s.a32 g a)
  | f2u c sat rm d a : FpRow (.f2u c sat rm d a) 5 d fun s g => vToInt 15 (s.mode g rm) sat (s.a32 g a)
/-- An FXU instruction: the register, the value and the flags (R170). -/
inductive FxuRow : Instr → Reg → (State → Nat → Word × FFlags) → Prop where
  | frcp c d a : FxuRow (.frcp c d a) d fun s g => frcpV (s.a32 g a)
  | frsq c d a : FxuRow (.frsq c d a) d fun s g => frsqV (s.a32 g a)
  | fexp2 c d a : FxuRow (.fexp2 c d a) d fun s g => fexp2V (s.a32 g a)
  | flog2 c d a : FxuRow (.flog2 c d a) d fun s g => flog2V (s.a32 g a)
  | fsqrt c rm d a : FxuRow (.fsqrt c rm d a) d fun s g => fsqrtV (s.a32 g a) (s.mode g rm)
  | fsin c d a : FxuRow (.fsin c d a) d fun s g => ftrigV (s.a32 g a) false
  | fcos c d a : FxuRow (.fcos c d a) d fun s g => ftrigV (s.a32 g a) true
/-- The registers that QNT reads, in order (R175). -/
def qntWords (s : State) (g : Nat) (a : Reg) (fmt : BitVec 4) : List Word :=
  (List.range (32 / widthOf fmt.toNat)).map fun k => s.regN g (10 + k) (a.toNat + k)
/-- An instruction with several FP results or a step of the stochastic state: its flags, and its effect on the thread where no enabled flag is among them (R168, R173, R175 to R178). -/
inductive FpManyRow : Instr → (State → Nat → FFlags) → (State → Nat → Agent → Agent) → Prop where
  | fcmp c cc pd a b : FpManyRow (.fcmp c cc pd a b) (fun s g => (fcmpV cc.toNat (fp32 (s.a32 g a)) (fp32 (s.b32 g b))).2)
      fun s g x =>
        let r := fcmpV cc.toNat (fp32 (s.a32 g a)) (fp32 (s.b32 g b))
        (x.put 4 (dstPred pd) (if r.1 = true then 1#32 else 0#32)).flagLater 4 r.2
  | widen c sat elt rm fmt d a : FpManyRow (.fcvt c sat true elt rm fmt d a)
      (fun s g => (vWiden fmt.toNat (widthOf fmt.toNat) elt.toNat (s.a32 g a)).2)
      fun s g x =>
        let r := vWiden fmt.toNat (widthOf fmt.toNat) elt.toNat (s.a32 g a)
        (x.put 5 (dstReg d) r.1).flagLater 5 r.2
  | narrow c sat elt rm fmt d a : FpManyRow (.fcvt c sat false elt rm fmt d a)
      (fun s g => (vNarrow fmt.toNat (widthOf fmt.toNat) elt.toNat (s.mode g rm) sat (s.seed g) (s.d32 g d) (s.a32 g a)).1.2)
      fun s g x =>
        let r := vNarrow fmt.toNat (widthOf fmt.toNat) elt.toNat (s.mode g rm) sat (s.seed g) (s.d32 g d) (s.a32 g a)
        let x := if s.mode g rm = .rs then x.put 0 (some (.csr 0x22)) r.2 else x
        (x.put 5 (dstReg d) r.1.1).flagLater 5 r.1.2
  | qnt c sat rm fmt d a b (h : fmt.toNat ≠ 9) : FpManyRow (.qnt c sat rm fmt d a b)
      (fun s g => (vQnt fmt.toNat (s.mode g rm) sat ((s.b32 g b).toNat % 256) (qntWords s g a fmt) (s.seed g)).2.1)
      fun s g x =>
        let r := vQnt fmt.toNat (s.mode g rm) sat ((s.b32 g b).toNat % 256) (qntWords s g a fmt) (s.seed g)
        let x := if s.mode g rm = .rs then x.put 0 (some (.csr 0x22)) r.2.2 else x
        (x.put 5 (dstReg d) (BitVec.ofNat 32 r.1)).flagLater 5 r.2.1
  | qntScale c sat rm d a b : FpManyRow (.qnt c sat rm 9#4 d a b) (fun _ _ => 0#5)
      fun s g x => x.put 5 (dstReg d) (BitVec.ofNat 32 (toE8 (fp32 (s.a32 g a))))
  | dqnt c sat rm fmt d a b : FpManyRow (.dqnt c sat rm fmt d a b)
      (fun s g => orAll (((List.range (32 / widthOf fmt.toNat)).map fun k =>
        vDqnt fmt.toNat (s.mode g rm) sat ((s.b32 g b).toNat % 256) (elem (widthOf fmt.toNat) (s.a32 g a) k)).map (·.2)))
      fun s g x =>
        let rs := (List.range (32 / widthOf fmt.toNat)).map fun k =>
          vDqnt fmt.toNat (s.mode g rm) sat ((s.b32 g b).toNat % 256) (elem (widthOf fmt.toNat) (s.a32 g a) k)
        (x.putRange 5 d.toNat (rs.map (·.1))).flagLater 5 (orAll (rs.map (·.2)))
  | had c sz rm fmt d a : FpManyRow (.had c sz rm fmt d a)
      (fun s g => (vHad fmt.toNat (s.mode g rm) (s.regs g a.toNat (hadSpan sz fmt))).2)
      fun s g x =>
        let r := vHad fmt.toNat (s.mode g rm) (s.regs g a.toNat (hadSpan sz fmt))
        (x.putRange 6 d.toNat r.1).flagLater 6 r.2
  | cmpr c s48 fmt d a x : FpManyRow (.cmpr c s48 fmt d a x) (fun _ _ => 0#5)
      fun s g y =>
        let w := widthOf fmt.toNat
        let r := vCmpr s48 fmt.toNat (bif s48 then 2 else 4) (elems w (s.regs g a.toNat (cmprSpan fmt)))
        (y.putRange 6 d.toNat (packElems w (cmprSpan fmt / 2) r.1)).put 6 (dstReg x) (BitVec.ofNat 32 r.2)

/-! ## Cross-lane operations (R191 to R195): what each participating thread receives from the set -/

/-- The participating thread of an index that SHFL reads (R193). -/
def shflFrom (mode : Nat) (seg : BitVec 3) (b : Src) (s : State) (ags : List Nat) (g : Nat) : Option Nat :=
  (shflSource mode (segWidth seg (s.gwidth g)) (s.idx g) (s.b32 g b).toNat).bind fun k => ags.find? fun a => s.idx a == k
/-- Effect of a SHFL on a thread: d from the source or from itself, and whether the source participates (R193). -/
def shflEffect (mode : Nat) (seg : BitVec 3) (d a : Reg) (b : Src) (pc : BitVec 3) (s : State) (ags : List Nat) (g : Nat) (x : Agent) : Agent :=
  let src := shflFrom mode seg b s ags g
  x.owe true false [toReg d (s.a32 (src.getD g) a), toPred pc src.isSome] 0#5
/-- A cross-lane instruction without flags, with its effect on a thread of the participating set. -/
inductive CrossRow : Instr → (State → List Nat → Nat → Agent → Agent) → Prop where
  | shflIdx c seg d a b pc : CrossRow (.shflIdx c seg d a b pc) (shflEffect 0 seg d a b pc)
  | shflUp c seg d a b pc : CrossRow (.shflUp c seg d a b pc) (shflEffect 1 seg d a b pc)
  | shflDown c seg d a b pc : CrossRow (.shflDown c seg d a b pc) (shflEffect 2 seg d a b pc)
  | shflXor c seg d a b pc : CrossRow (.shflXor c seg d a b pc) (shflEffect 3 seg d a b pc)
  | voteAny c pd pa : CrossRow (.voteAny c pd pa) fun s ags _ x =>
      x.put 2 (dstPred pd) (if ags.any (fun y => s.pred y 1 pa) = true then 1#32 else 0#32)
  | voteAll c pd pa : CrossRow (.voteAll c pd pa) fun s ags _ x =>
      x.put 2 (dstPred pd) (if ags.all (fun y => s.pred y 1 pa) = true then 1#32 else 0#32)
  | voteEq c pd a : CrossRow (.voteEq c pd a) fun s ags _ x =>
      x.put 2 (dstPred pd) (if ags.all (fun y => s.a32 y a == s.a32 (ags.headD 0) a) = true then 1#32 else 0#32)
  | voteBallot c d pa : CrossRow (.voteBallot c d pa) fun s ags g x =>
      x.putRange 2 d.toNat ((List.range (s.gwidth g / 32)).map (s.ballot ags pa))
/-- A GRED with its value and flags from the words of the segment's participating members, in ascending index (R195). -/
inductive GredRow : Instr → BitVec 3 → Reg → Reg → (State → Nat → List Word → Word × FFlags) → Prop where
  | add c seg d a : GredRow (.gredAdd c seg d a) seg d a fun _ _ ws => (combine (· + ·) ws, 0#5)
  | min c u seg d a : GredRow (.gredMin c u seg d a) seg d a fun _ _ ws => (combine (vMin u) ws, 0#5)
  | max c u seg d a : GredRow (.gredMax c u seg d a) seg d a fun _ _ ws => (combine (vMax u) ws, 0#5)
  | and c seg d a : GredRow (.gredAnd c seg d a) seg d a fun _ _ ws => (combine (· &&& ·) ws, 0#5)
  | or c seg d a : GredRow (.gredOr c seg d a) seg d a fun _ _ ws => (combine (· ||| ·) ws, 0#5)
  | xor c seg d a : GredRow (.gredXor c seg d a) seg d a fun _ _ ws => (combine (· ^^^ ·) ws, 0#5)
  | fadd c rm seg d a : GredRow (.gredFadd c rm seg d a) seg d a fun s lead ws => gredSum (s.mode lead rm) ws
  | fmin c seg d a : GredRow (.gredFmin c seg d a) seg d a fun _ _ ws => gredMinmax false ws
  | fmax c seg d a : GredRow (.gredFmax c seg d a) seg d a fun _ _ ws => gredMinmax true ws

/-! ## Special registers (R64, R65, R162) -/

/-- A CSRR of a register that is no capture and not %fstat, or a CSRW of one of the thread's own registers but %fstat, or an instruction without effect: its effect on a thread. -/
inductive PlainRow : Instr → (State → Nat → Agent → Agent) → Prop where
  | csrr w d num (h : num.toNat ≠ 0x010 ∧ num.toNat ≠ 0x012 ∧ num.toNat ≠ 0x020) : PlainRow (.csrr w d num) fun s g x =>
      x.put 1 (dstReg d) (s.csrRead g num.toNat).2
  | csrrExt c d num (h : num.toNat ≠ 0x010 ∧ num.toNat ≠ 0x012 ∧ num.toNat ≠ 0x020) : PlainRow (.csrrExt c d num) fun s g x =>
      x.put 1 (dstReg d) (s.csrRead g num.toNat).2
  | csrw w a num (h : num.toNat ≠ 0x020 ∧ num.toNat < 0x800) : PlainRow (.csrw w a num) fun s g x =>
      x.put 2 (some (.csr num.toNat)) (s.a32 g a)
  | csrwExt c a num (h : num.toNat ≠ 0x020 ∧ num.toNat < 0x800) : PlainRow (.csrwExt c a num) fun s g x =>
      x.put 2 (some (.csr num.toNat)) (s.a32 g a)
  | nop w : PlainRow (.nop w) fun _ _ x => x
  | pref c lvl hint a disp : PlainRow (.pref c lvl hint a disp) fun _ _ x => x
  | fence c : PlainRow (.fence c 0#3) fun _ _ x => x

end Sys2Proof.Claims
end

