-- ==== Sys2Proof/Safety/Frames.lean ====
section
/-! DEFINITION. Words of the claims about whole fragments: what a fetch finds, what an instruction leaves untouched, and
how a thread stands before a trap. -/

namespace Sys2Proof.Claims
open Sys2Proof.Machine

/-! ## Fetch and issue (R45, R134, R138) -/

/-- The fragment that an owner nominates stands, without a breakpoint, at words that decode to an instruction; fetching them leaves t, in which it is performed. -/
def Fetched (s : State) (o : Sys2Proof.Owner) (i : Instr) (t : State) : Prop :=
  ∃ a rest v w ws, (s.nominate o).cur.agents = a :: rest ∧ (∀ b ∈ a :: rest, (s.nominate o).breakpoint b = none) ∧
    State.fetch { s.nominate o with cur := ⟨a :: rest, (s.nominate o).cur.pc, 0⟩ } a (s.nominate o).cur.pc = (v, .ok (w :: ws)) ∧
    decodeFor (v.gwidth a) (w :: ws) = .ok i ∧
    t = { v.noteIssue a ((decide (4 ≤ majorOf w) && decide (majorOf w ≤ 6)) || (decide (0x20 ≤ majorOf w) && decide (majorOf w ≤ 0x2F))) with
      cur := ⟨a :: rest, (s.nominate o).cur.pc, i.ctl.1⟩ }
/-- An owner whose turn it is issues an instruction, performed in t: the one it fetched, once no engine command of a later source, and no barrier event of a higher rank, has come before it on this clock (R13, R138, R140, R224). -/
def Issues (s : State) (o : Sys2Proof.Owner) (i : Instr) (t : State) : Prop :=
  s.hasTurn o = true ∧ ∃ u a rest, Fetched s o i u ∧ u.cur.agents = a :: rest ∧ u.inOrder i a = true ∧ t = u.noteOrder i a
/-- A thread that the decode checks, the guard or a scoreboard may stop, alone in its fragment. -/
def Single (s : State) (ag : Nat) : Prop := s.cur.agents = [ag] ∧ Unstepped s ag

/-! ## Frames -/

/-- An integer, predicate or pair instruction with the registers it writes. -/
inductive LaneRow : Instr → List Dst → Prop where
  | int i lat d v (h : IntRow i lat d v) : LaneRow i (dstReg d).toList
  | pred i lat p v (h : PredRow i lat p v) : LaneRow i (dstPred p).toList
  | pair i lat d v (h : PairRow i lat d v) : LaneRow i [.reg d.toNat, .reg (d.toNat + 1)]
/-- A thread keeps every register but those named, %fstat where no earlier flag is due, and all its other state that is not about its issue: p7 apart, which always reads true. -/
structure Untouched (a b : Agent) (ds : List Dst) : Prop where
  regs : ∀ x, x ∉ ds → x ≠ .pred 7 → x ≠ .csr 0x20 → b.get x = a.get x
  flags : a.fp.fpend = [] → b.fp.fstat = a.fp.fstat
  captures : b.fp.time = a.fp.time ∧ b.fp.clock = a.fp.clock
  trap : b.trap = a.trap
  link : b.link = a.link
  home : b.home = a.home
  queue : b.dqRead = a.dqRead
  stores : b.supp = a.supp
  arrivals : b.arrived = a.arrived
  contexts : b.xctx = a.xctx
/-- A state with only its threads replaced by those of another. -/
def withThreads (s t : State) : State := { s with lanes := { s.lanes with agents := t.lanes.agents } }

/-! ## Traps (R232 to R235) -/

/-- A software trap: its cause, and %tinfo from its operand (R188). -/
inductive TrapOf : Instr → Nat → (State → Nat → Word) → Prop where
  | trap w b : TrapOf (.trap w b) 0x0C fun s g => BitVec.ofNat 32 ((s.b7 g b).toNat % 65536 + 4 * 65536)
  | trapExt c b : TrapOf (.trapExt c b) 0x0C fun s g => BitVec.ofNat 32 ((s.b32 g b).toNat % 65536 + b.len * 65536)
  | brk w b : TrapOf (.brk w b) 0x0B fun s g => BitVec.ofNat 32 ((s.b7 g b).toNat % 65536 + 4 * 65536)
  | brkExt c b : TrapOf (.brkExt c b) 0x0B fun s g => BitVec.ofNat 32 ((s.b32 g b).toNat % 65536 + b.len * 65536)
/-- A floating-point instruction with the flags it raises for a thread: of a fixed latency, of the FXU, of several elements, or a GRED of the thread alone (R165 to R178, R195). -/
inductive RaisesOf : Instr → (State → Nat → FFlags) → Prop where
  | one i lat d v (h : FpRow i lat d v) : RaisesOf i fun s g => (v s g).2
  | fxu i d v (h : FxuRow i d v) : RaisesOf i fun s g => (v s g).2
  | many i fl f (h : FpManyRow i fl f) : RaisesOf i fl
  | gred i seg d a v (h : GredRow i seg d a v) : RaisesOf i fun s g => (v s g [s.a32 g a]).2
/-- The results of a thread are written and it has a handler to enter: H is clear and %tvec is not zero. -/
def HandlerReady (a : Agent) : Prop := a.outst = [] ∧ a.trap.h = false ∧ a.trap.vec ≠ 0#64
/-- A thread once it has entered its handler (R233). -/
def inHandler (a : Agent) (cause : Nat) (pc addr : DWord) (info : Word) : Agent :=
  { a with trap := { a.trap with h := true, cause := BitVec.ofNat 32 cause, rpc := pc, addr := addr, info := info },
           pc := a.trap.vec, status := .ready, sliceEnd := cause == 0x14 }

/-! ## Replicas of a page (R108, R365) -/

/-- No page with replicas of a local home lies at a physical address. -/
def Unreplicated (s : State) (pa : Nat) : Prop :=
  ∀ r ∈ s.store.replicas, ∀ l, s.walk r.vd (canon (r.vpn * 65536)) = some l → l.res = 3 → region l.base = 0 → l.maps pa = false

/-! ## Distance (R57) -/

/-- A thread n issues later. -/
def laterBy : Nat → Agent → Agent
  | 0, a => a
  | n + 1, a => laterBy n a.tick

/-! ## Billet launches (R388) -/

/-- An instruction that needs a billet launch. -/
inductive BilletOp : Instr → Prop where
  | spawn c d a b x off : BilletOp (.spawn c d a b x off)
  | enqn c a b : BilletOp (.enqn c a b)
  | jdec c d a b : BilletOp (.jdec c d a b)

end Sys2Proof.Claims
end

