-- ==== Sys2Proof/Safety/LaneEvents.lean ====
section
/-! DEFINITION. Rows of the events of lanes, tasks and engines for claims: an event, the state in which it is due, and the
state it leaves (05, 06, 11, 13, 15, 17, 19, 21, 22). -/

namespace Sys2Proof.Claims
open Sys2Proof.Machine

/-! ## Threads, queues and shares (R59, R98, R101, R132, R135, R143, R148, R149) -/

/-- The forwarding tables of a core without the entries of a share. -/
def withoutForwards (s : State) (core h : Nat) : State :=
  (List.range 6).foldl (fun s p => s.flushFwd core p fun e => e.share == h) s
/-- A share is waiting to be placed and nothing stands before it (R132, R377, R395). -/
structure PlaceDue (s : State) (h : Nat) : Prop where
  waiting : (s.share h).state = .waiting
  live : (s.task (s.share h).task).state = .live
  region : s.reservedFor (s.taskVd (s.share h).task) (clusterOf (s.share h).core) = false
  first : s.shareServed h (s.share h).core = true
/-- Events of threads, store queues and shares. -/
inductive ThreadEvent : Instr → State → State → Prop where
  | resultWriteback ag k o s (h : (s.agent ag).outst[k]? = some o) (hd : o.done = true) :
      ThreadEvent (.resultWriteback ag k) s (s.modAgent ag fun a => { a.settleOne o with outst := a.outst.eraseIdx k })
  | storeQueueDrain o s ag e rest (ho : (s.ownerAgents o).head? = some ag) (hq : s.sq ag = e :: rest)
      (hc : region e.pa = 0 → s.handing (stackOf e.pa) = false) : ThreadEvent (.storeQueueDrain o) s ((s.setSq ag rest).perform e)
  | stsBankWrite c p s e rest (h : (s.core c).fwd.getD p [] = e :: rest) : ThreadEvent (.stsBankWrite c p) s
      ((s.modShare e.share fun x => { x with pad := x.pad.putN e.off e.bytes }).modCore c fun k => { k with fwd := k.fwd.set p rest })
  | parkRelease ag s w (h : (s.agent ag).status = .parked w) (hr : s.running ag = true) (hc : s.released ag w = true)
      (hw : ∀ enc, w ≠ .wmark enc) (hd : ∀ d y, w ≠ .record d y) :
      ThreadEvent (.parkRelease ag) s (s.modAgents (fun a => { a with status := .ready }) (s.parkedWith ag w))
  | wPointMet ag s enc (h : (s.agent ag).status = .parked (.wmark enc)) (hr : s.running ag = true)
      (ho : (s.agent ag).outst = []) (hs : ((s.modAgent ag fun a => { a.settle with status := .ready }).agent ag).supp = none) :
      ThreadEvent (.parkRelease ag) s (s.modAgent ag fun a => { a.settle with status := .ready })
  | nominate o s f pc (h : (s.readied o).fragment o = (f, pc)) :
      ThreadEvent (.sliceNomination o) s { (bif f.isEmpty then s.readied o
          else (s.readied o).buffer o pc) with cur := ⟨f, pc, 0⟩ }
  | takeHeld ag s d y (h : (s.agent ag).status = .parked (.record d y)) (hr : s.running ag = true)
      (hc : s.released ag (.record d y) = true) : ThreadEvent (.parkRelease ag) s (s.takeHeld ag d y)
  | kill ag s (h : s.killClear ag = true) : ThreadEvent (.threadKill ag) s
      (((List.range 16).foldl (fun s b => s.noteBar (s.taskOf ag) b (s.barRank ag)) s).endAgent ag)
  | shareRetire h s (hk : (s.task (s.share h).task).state ≠ .killed) (hc : s.canRetire h = true) :
      ThreadEvent (.shareRetire h) s
        (((withoutForwards s (s.share h).core h).modShare h fun x => { x with state := .retired }).dueWalk (s.taskVd (s.share h).task))
  | placed h s t (hd : PlaceDue s h) (hp : s.place h (s.share h).core = some t) :
      ThreadEvent (.sharePlacement h (s.share h).core) s t
  | switchedIn h c s t (hs : (s.share h).state = .saved) (hc : s.inCord h = false)
      (hr : s.reservedFor (s.taskVd (s.share h).task) (clusterOf c) = false) (ht : s.resumeShare h c = some t) : ThreadEvent (.sharePlacement h c) s t
  | heldCharge ag s (h : (s.vdev (s.vdOf ag)).balloon.suspended = false) (ht : s.inTurn ag false = true) :
      ThreadEvent (.heldChargeDecided ag) s (s.modAgent ag (unparkIf (.store 2)))

/-! ## Engines (R265 to R276, R286 to R305, R313) -/

/-- A chain with its place in the program and its runner, at an entry it has read (R274). -/
structure AtEntry (s : State) (u : ChainRef) (x : Chain) (s1 : State) (e : Entry) : Prop where
  chain : s.chainAt u = some x
  live : x.ending = none
  whole : x.failing = none
  going : x.stop = false
  awake : s.frozenFor (s.runner u x).vd = false
  reads : s.fetchEntry (s.runner u x) x = (s1, .ok e)
/-- What a running copy touches in global memory, its counter last. -/
def copyTouches (x : Copy) : List Touch :=
  (Shape.parse x.shape).touches x.dir x.coord x.tile ++ counterTouch x.cmode x.counter
/-- A running copy that still touches ts can go on: its task does, no hand-over holds a page of it, and its lines fit its version (R370, R379). -/
structure CopyDue (s : State) (c k : Nat) (x : Copy) (ts : List Touch) (s1 : State) : Prop where
  at_ : (s.core c).copies[k]? = some x
  goes : s.stopped (s.share x.share).task = false
  free : s.engHeld (s.share x.share).task c (pagesOf ts) = false
  charged : s.engShort (s.share x.share).task c ts = false
  budget : s.engBudget (s.share x.share).task (some x.ag) (s.engLines (s.share x.share).task c ts)
    (((ts.find? (·.store)).map (·.va)).getD 0#64) = .done s1
/-- A copy that is done leaves its core: its locks go, and the charges of blocks that nothing else holds (R116, R271). -/
def copyGone (s : State) (c k : Nat) (x : Copy) : State :=
  (s.modCore c fun y => { y with copies := y.copies.eraseIdx k, locks := y.locks.map (unlock x.id) }).releaseIdle x.blocks
/-- What the task of a chain lets it do: it is not stopped, and an entry that commits finds it settled (R120, R237). -/
structure ChainGoes (s s1 : State) (r : Runner) (e : Entry) : Prop where
  goes : ∀ t, r.task = some t → s.stopped t = false
  settled : ∀ t, r.task = some t → (e.commits && s1.unsettled t) = false
/-- An entry of an unsettled task that commits the version first (R120). -/
structure ChainCommits (s s1 : State) (r : Runner) (e : Entry) (t : Nat) : Prop where
  task : r.task = some t
  goes : s.stopped t = false
  unsettled : (e.commits && s1.unsettled t) = true
/-- A matrix command of a share can be performed: the engine is not in reset, the share's tiles stand on the core. -/
structure MatrixGoes (s : State) (c h : Nat) : Prop where
  up : (s.core c).mxReset = false
  tiles : s.mxWaits h = false
/-- Events of the engines. -/
inductive EngineEvent : Instr → State → State → Prop where
  | copyStart c s x rest (h : (s.core c).copyQ = x :: rest) (hn : (s.core c).copies.length < 4) :
      EngineEvent (.copyStart c) s (s.modCore c fun k => { k with copyQ := rest, copies := k.copies ++ [x] })
  | copyComplete c k s x s0 s1 n (h : CopyDue s c k x (copyTouches x) s0) (hd : x.moved = none)
      (hm : s0.moveCopy (s.share x.share).task c x = (s1, n)) (hp : s1.copyPosts c x = false) :
      EngineEvent (.copyComplete c k) s (copyGone (s1.report (s1.share x.share).task c x n) c k x)
  | copyPosted c k s x s0 n (h : CopyDue s c k x (counterTouch x.cmode x.counter) s0) (hd : x.moved = some n)
      (hp : s0.copyPosts c x = false) :
      EngineEvent (.copyComplete c k) s (copyGone (s0.report (s0.share x.share).task c x n) c k x)
  | copyPosts c k s x s0 s1 n (h : CopyDue s c k x (copyTouches x) s0) (hd : x.moved = none) (hm : s0.moveCopy (s.share x.share).task c x = (s1, n))
      (hp : s1.copyPosts c x = true) : EngineEvent (.copyComplete c k) s
        (s1.modCore c fun y => { y with copies := y.copies.set k { x with moved := some n } })
  | chainEntry u s x s1 e s2 y (h : AtEntry s u x s1 e)
      (hc : ChainGoes s s1 (s.runner u x) e) (hd : s1.chainDo (s.runner u x) x e = .go s2 y) :
      EngineEvent (.chainEntry u) s (s2.setChain u (some y))
  | chainWaits u s x s1 e s2 (h : AtEntry s u x s1 e) (hc : ChainGoes s s1 (s.runner u x) e)
      (hd : s1.chainDo (s.runner u x) x e = .stop s2 .wait) : EngineEvent (.chainEntry u) s s2
  | chainCommit u s x s1 e t s2 s3 y (h : AtEntry s u x s1 e) (hc : ChainCommits s s1 (s.runner u x) e t)
      (hm : s1.commit t = .done s2) (hd : s2.chainDo (s.runner u x) x e = .go s3 y) :
      EngineEvent (.chainEntry u) s (s3.setChain u (some y))
  | chainCommitFails u s x s1 e t s2 (h : AtEntry s u x s1 e) (hc : ChainCommits s s1 (s.runner u x) e t)
      (hm : s1.commit t = .failed s2) : EngineEvent (.chainEntry u) s s2
  | chainFault u s x s1 e s2 c a n (h : AtEntry s u x s1 e)
      (hc : ChainGoes s s1 (s.runner u x) e) (hn : x.sends = []) (hd : s1.chainDo (s.runner u x) x e = .stop s2 (.fault c a n)) :
      EngineEvent (.chainEntry u) s (s2.chainFault u (s.runner u x) x c a n)
  | chainStopped u s x (h : s.chainAt u = some x) (hl : x.ending = none) (hw : x.failing = none) (hs : x.stop = true) (hn : s.sendsLeft x = [])
      (hf : s.frozenFor (s.runner u x).vd = false) (hc : ∀ t, (s.runner u x).task = some t → s.stopped t = false) :
      EngineEvent (.chainEntry u) s (s.setChain u (some { x with sends := [], ending := some 0x4000000000000001#64 }))
  | sendAccepted u s x p rest (h : s.chainAt u = some x) (hs : x.sends = p :: rest) (hl : ∀ q ∈ rest.head?, q.1 ≠ lostPort) :
      EngineEvent (.chainSendAck u true) s (s.setChain u (some { x with sends := rest }))
  | lostReached u s x p a rest (h : s.chainAt u = some x) (hs : x.sends = p :: (lostPort, a) :: rest) :
      EngineEvent (.chainSendAck u true) s ((s.setChain u (some { x with sends := (lostPort, a) :: rest })).chainFault u
        ((s.setChain u (some { x with sends := (lostPort, a) :: rest })).runner u { x with sends := (lostPort, a) :: rest })
        { x with sends := (lostPort, a) :: rest, pos := a } 0x11 0#64 0)
  | sendRejected u s x p rest (h : s.chainAt u = some x) (hs : x.sends = p :: rest) :
      EngineEvent (.chainSendAck u false) s (s.chainFault u (s.runner u x) { x with pos := p.2 } 0x05 0#64 0)
  | recvwaitMet u s x s1 e s2 p v (h : AtEntry s u x s1 e) (hn : x.sends = []) (ht : e.type = 4) (ho : e.ok = true)
      (hc : s1.chainCounter (s.runner u x) false .load e.x = (s2, .ok (p, v))) (hv : e.y ≤ v) :
      EngineEvent (.chainRecvwaitMet u) s (s2.setChain u (some { x with pos := x.pos + 32#64, since := s2.moves }))
  | chainEnd c k s x v h t s1 (hx : s.chainAt (.core c k) = some x) (he : x.ending = some v) (hs : x.share = some h)
      (ht : (s.share h).task = t) (hg : s.stopped t = false) (hh : s.engHeld t c (pagesOf (counterTouch x.cmode x.counter)) = false)
      (hw : s.engShort t c (counterTouch x.cmode x.counter) = false)
      (hp : (x.sys && (s.postingOf (chainMaker (.core c k)) || s.postedBy (partOf (s.taskVd t)) x.since)) = false)
      (hb : s.engBudget t x.ag (s.engLines t c (counterTouch x.cmode x.counter)) x.counter = .done s1) :
      EngineEvent (.chainEnd (.core c k)) s
        ((bif x.cmode == 0 then s1.engAdd t (chainMaker (.core c k)) c x.counter v
          else s1.padAdd h x.counter.toNat v : State).setChain (.core c k) none)
  | chainrunEnd d k s x v (hx : s.chainAt (.hearth d k) = some x) (he : x.ending = some v) :
      EngineEvent (.chainEnd (.hearth d k)) s ((s.completePacket x.packet.1 x.packet.2 v).setChain (.hearth d k) none)
  | weightLatch h s t (hr : (s.core (s.share h).core).mxReset = false) (hl : s.latch h = some t) : EngineEvent (.weightLatch h) s t
  | matrixOperation c s k e cv p rows set w s1 rs (hr : MatrixGoes s c e.share)
      (hk : (s.core c).mxQ.findIdx? (fun e => e.cmd.isOp) = some k) (he : (s.core c).mxQ.getD k default = e)
      (hc : e.cmd = .op cv p rows set) (hw : (s.share e.share).sets.find? (fun w => w.id == set) = some w)
      (hl : w.latched = true) (hf : tileFree (s.core c).mxQ k e = true)
      (hm : ((rows.any fun r => r.2.2.inMemory) && (aheadOf (s.core c).mxQ k e.share).any fun x => x.cmd.isAdrain) = false)
      (hs : s.readRows e.share (s.share e.share).task c p rows = some (s1, rs)) : EngineEvent (.matrixOperation c) s
        ((s1.setTile e.share p.tile (fun _ => (performRows p w rs ((s1.share e.share).tiles.getD p.tile.toNat [])).1)
          (performRows p w rs ((s1.share e.share).tiles.getD p.tile.toNat [])).2).mxDone c e.id e.share)
  | aclr c k s e t (hr : (s.core c).mxReset = false)
      (hw : (s.share e.share).saved.tiles = false) (he : (s.core c).mxQ[k]? = some e) (hc : e.cmd = .aclr t)
      (hf : tileFree (s.core c).mxQ k e = true) :
      EngineEvent (.tilePathEntry c k) s ((s.setTile e.share t (fun _ => []) 0).mxDone c e.id e.share)
  | awr c k s e t chunk rows (hr : (s.core c).mxReset = false)
      (hw : (s.share e.share).saved.tiles = false) (he : (s.core c).mxQ[k]? = some e) (hc : e.cmd = .awr t chunk rows)
      (hf : tileFree (s.core c).mxQ k e = true) : EngineEvent (.tilePathEntry c k) s
      ((s.setTile e.share t (fun x => rows.foldl (fun x r => putChunk x r.1 chunk r.2) x) 0).mxDone c e.id e.share)
  | wrel c k s e (hr : (s.core c).mxReset = false) (he : (s.core c).mxQ[k]? = some e) (hc : e.cmd = .wrel) :
      EngineEvent (.tilePathEntry c k) s (s.mxDone c e.id e.share)
  | ard c k s e t chunk ts (hr : (s.core c).mxReset = false)
      (hw : (s.share e.share).saved.tiles = false) (he : (s.core c).mxQ[k]? = some e) (hc : e.cmd = .ard t chunk ts)
      (hf : tileFree (s.core c).mxQ k e = true) : EngineEvent (.tilePathEntry c k) s
      ((ts.foldl (fun s1 x => s1.fillOut x.1 x.2.1 ((List.range 8).map fun j =>
        ((s.share e.share).tiles.getD t.toNat []).get (x.2.2 * 64 + 8 * chunk + j))) s).mxDone c e.id e.share)
  | mstat c k s e ts (hr : (s.core c).mxReset = false) (he : (s.core c).mxQ[k]? = some e) (hc : e.cmd = .mstat true ts)
      (hf : aheadOf (s.core c).mxQ k e.share = []) : EngineEvent (.tilePathEntry c k) s
      ((ts.foldl (fun s1 x => s1.fillOut x.1 x.2 [(s.share e.share).mstatus]) s).mxDone c e.id e.share)
  | mstatClears c k s e ts (hr : (s.core c).mxReset = false) (he : (s.core c).mxQ[k]? = some e) (hc : e.cmd = .mstat false ts)
      (hf : aheadOf (s.core c).mxQ k e.share = []) : EngineEvent (.tilePathEntry c k) s
      (((ts.foldl (fun s1 x => s1.fillOut x.1 x.2 [(s.share e.share).mstatus]) s).modShare e.share fun x =>
        { x with mstatus := 0#32 }).mxDone c e.id e.share)
  | adrain c k s t (h : s.finishDrain c k = some t) : EngineEvent (.adrainComplete c k) s t
  | engineReset c s (h : (s.core c).mxReset = false) (hh : ∀ x ∈ s.residents c, s.resetHeld x = false) : EngineEvent (.matrixEngineReset c) s
      (((s.residents c).foldl State.resetShare s).modCore c fun k =>
        { k with mxReset := true, mxQ := k.mxQ.filter fun e => !(e.cmd.isOp || e.cmd.isWload) })
  | engineResetEnd c s : EngineEvent (.matrixResetEnd c) s ((s.modCore c fun k => { k with mxReset := false }).enterIssuing c)
  | extrapolation c s e rest (h : (s.core c).xQ = e :: rest) : EngineEvent (.extrapolationEntry c) s
      ((e.filter fun x => s.live x.1).foldl (fun s x => x.2.perform x.1 s) (s.modCore c fun k => { k with xQ := rest }))

/-! ## Tasks and launches (R119, R203, R237, R337, R374 to R382, R385, R395) -/

/-- A task's shares have all retired. -/
def SharesRetired (s : State) (t : Nat) : Prop := (s.task t).shares ≠ [] ∧ ∀ h ∈ (s.task t).shares, (s.share h).state = .retired
/-- A retired task of a launch, and the launch's cursor (R376). -/
def teamRetired (s : State) (t : Nat) (killed : Bool) : State :=
  ((s.modTask t fun x => { x with state := .retired }).freeToken t).modLaunch (s.task t).launch fun l =>
    { l with
      idleNs := 0, fault := l.fault || killed,
      cursor := if l.billets = true ∨ (s.task t).billet = true then l.cursor
        else (advance (l.retired.length + 1) l.cursor ((s.task t).team :: l.retired)).1,
      retired := if l.billets = true ∨ (s.task t).billet = true then l.retired
        else (advance (l.retired.length + 1) l.cursor ((s.task t).team :: l.retired)).2 }
/-- A task stands in a fault that hearth core 4 can handle now (R237). -/
structure Faulted (s : State) (t : Nat) (f : FaultInfo) : Prop where
  state : (s.task t).state = .faulted
  fault : (s.task t).fault = some f
  heard : s.faultWaits t = false
  awake : (s.vdev (s.taskVd t)).state ≠ .frozen
/-- Restarts in a row for the same cause and address (R237). -/
def faultRow (s : State) (t : Nat) (f : FaultInfo) : Nat :=
  if (s.task t).restarts.cause = f.cause ∧ (s.task t).restarts.addr = f.addr then (s.task t).restarts.same else 0
/-- The task's launch takes capacity faults as traps (POLICY's CAPT). -/
def capacityTraps (s : State) (t : Nat) : Bool := (s.launch (s.task t).launch).par.policy.getLsbD 4
/-- A fault that no restart meets: the sixteenth in a row, or not a page that could be brought, not a capacity fault outside CAPT (R237). -/
structure FaultFinal (s : State) (t : Nat) (f : FaultInfo) : Prop extends Faulted s t f where
  final : faultRow s t f < 16 → (f.cause = 6 → s.bringFault t f = none) ∧ (f.cause = 8 → capacityTraps s t = true)
/-- The record of a task fault, after its version and engine commands are discarded (R237, R240). -/
def faultRecorded (s : State) (t : Nat) (f : FaultInfo) (flags : Nat) : State :=
  (((s.task t).shares.foldl State.dropEngines (s.discard t)).modTask t fun x => { x with bars := startBars }).taskRecord t flags f 0
/-- A fault met by a restart: it is counted for its cause and address (R237). -/
def faultMet (s : State) (t : Nat) (f : FaultInfo) (row : Nat) : State :=
  s.modTask t fun x =>
    { x with fault := none, missed := none, restarts := { x.restarts with same := row + 1, cause := f.cause, addr := f.addr } }
/-- The ranges from which a die distributor without teams takes some of a launch (R374). -/
def chipRanges (d : Nat) (y : Launch) : List Range :=
  if (keepRanges (y.dist.die.getD d [])).isEmpty = true then [y.dist.chip] else []
/-- A launch that the distributors serve, on a die and cluster that exist. -/
structure Served (s : State) (l die cluster : Nat) : Prop where
  grid : (s.launch l).grid = true
  die : die < 2
  cluster : cluster < 12
/-- Events of tasks, launches and their distribution. -/
inductive TaskEvent : Instr → State → State → Prop where
  | fault t s f (h : FaultFinal s t f) : TaskEvent (.taskFault t) s
      (((faultRecorded s t f 0x100).modTask t fun x => { x with state := .restarting }).freeToken t)
  | pageFault t s f s1 (h : Faulted s t f) (hc : f.cause = 6) (hn : faultRow s t f < 16) (hb : s.bringFault t f ≠ none)
      (hm : (faultRecorded s t f 0x500).bringFault t f = some s1) :
      TaskEvent (.taskFault t) s ((faultMet s1 t f (faultRow s t f)).toRestart t)
  | capacityFault t s f (h : Faulted s t f) (hc : f.cause = 8) (hn : faultRow s t f < 16) (ht : capacityTraps s t = false) :
      TaskEvent (.taskFault t) s ((faultMet (faultRecorded s t f 0x500) t f (faultRow s t f)).modTask t fun x => { x with state := .capWait })
  | faultHeld t s (h : s.faultWaits t = true) (hv : (s.vdev (s.taskVd t)).state ≠ .frozen) : TaskEvent (.taskFault t) s s
  | faultFrozen t s f (h : (s.task t).fault = some f) (hv : (s.vdev (s.taskVd t)).state = .frozen) : TaskEvent (.taskFault t) s
      ((s.secondFault (s.taskVd t) 0 f.cause).modTask t fun x => { x with fault := none })
  | restart t cores s s1 (hr : (s.task t).state = .restarting) (hn : (s.task t).fault = none)
      (hc : coresFit cores (s.task t).shares.length = true)
      (hg : s.cordAgrees t (clusterOf (cores.headD 0)) = true) (ho : s.reservedFor (s.taskVd t) (clusterOf (cores.headD 0)) = false)
      (hp : s.outranked (s.taskVd t) (clusterOf (cores.headD 0)) (s.task t).prio (s.launch (s.task t).launch).order = false)
      (h : s.restart t cores = some s1) : TaskEvent (.taskRestart t cores) s (s1.grantToken t)
  | capacityRestart t s (h : (s.task t).state = .capWait)
      (hf : ∀ u, u < s.lanes.tasks.length → (s.task u).state = .capWait → s.taskVd u = s.taskVd t →
        (s.task t).faultAt < (s.task u).faultAt ∨ ((s.task t).faultAt = (s.task u).faultAt ∧ t ≤ u))
      (hw : ∀ w ∈ (s.task t).need, w.2 ≤ (s.kshare (s.taskVd t) w.1).res) : TaskEvent (.capacityWaitRestart t) s (s.toRestart t)
  | commitRequest t s (h : (s.task t).state = .live) (hu : (s.task t).settled = false) (hs : SharesRetired s t)
      (hc : s.commitOk t = true) : TaskEvent (.commitRequest t) s (s.modTask t fun x => { x with state := .committing })
  | commitConflict t s (h : (s.task t).state = .live) (hu : (s.task t).settled = false) (hs : SharesRetired s t)
      (hc : s.commitOk t = false) : TaskEvent (.commitRequest t) s (s.conflict t)
  | versionCommit t s s1 (h : (s.task t).state = .committing) (hc : s.commit t = .done s1) :
      TaskEvent (.versionCommit t) s (s1.modTask t fun x => { x with state := .live })
  | tokenGrant p t s (hp : p < 2) (hv : partOf (s.taskVd t) = p) (h : s.tokenFor p = some t) (hr : (s.task t).state = .restarting) :
      TaskEvent (.commitTokenGrant p) s (s.modStore fun m => { m with tokens := m.tokens.set p (some t) })
  | teamRetire t s (h : (s.task t).state = .live) (hu : (s.task t).settled = true) (hs : SharesRetired s t) :
      TaskEvent (.teamRetire t) s ((teamRetired s t false).launchTest (s.task t).launch)
  | teamKilled t s (h : (s.task t).state = .killed) (hs : SharesRetired s t) :
      TaskEvent (.teamRetire t) s ((teamRetired s t true).launchTest (s.task t).launch)
  | watchdog l s (h : (s.launch l).started = true) (he : (s.launch l).ended = false)
      (hw : (s.launch l).par.wdog * 1000000 ≤ (s.launch l).idleNs) (hv : (s.vdev (s.launch l).par.vd).state ≠ .frozen) :
      TaskEvent (.launchWatchdogExpiry l) s (s.killLaunch l 0#32)
  | watchdogFrozen l s (h : (s.launch l).started = true) (he : (s.launch l).ended = false)
      (hw : (s.launch l).par.wdog * 1000000 ≤ (s.launch l).idleNs) (hv : (s.vdev (s.launch l).par.vd).state = .frozen) :
      TaskEvent (.launchWatchdogExpiry l) s
        ((s.secondFault (s.launch l).par.vd 1 0).modLaunch l fun x => { x with idleNs := 0, dying := none })
  | dieRequest d l s a b rest (h : (s.launch l).grid = true) (hd : d < 2)
      (hr : (s.regions (s.launch l).par.vd).any (fun k => k / 12 == d) = true)
      (hb : s.rangeBefore l (chipRanges d) (dieClusters d) = false) (he : keepRanges ((s.launch l).dist.die.getD d []) = [])
      (ht : takeRange 64 [(s.launch l).dist.chip] = some ((a, b), rest)) : TaskEvent (.dieDistributorRequest d l) s
      (s.modLaunch l fun y => { y with dist := { y.dist with chip := rest.headD (b, b), die := y.dist.die.set d [(a, b)] } })
  | handout d c l s r rest (h : Served s l d c) (hr : s.hasRoom l (d * 12 + c) = true)
      (hb : s.rangeBefore l (fun y => y.dist.die.getD d []) [d * 12 + c] = false)
      (ht : takeRange 8 ((s.launch l).dist.die.getD d []) = some (r, rest)) : TaskEvent (.clusterRangeHandout d c l) s
      (s.modLaunch l fun y => { y with dist := { y.dist with
        die := y.dist.die.set d rest, cluster := y.dist.cluster.modify (d * 12 + c) fun q => joinRanges (q ++ [r]) } })
  | placement d c l s a b rest w (h : Served s l d c) (hr : s.reservedFor (s.launch l).par.vd (d * 12 + c) = false)
      (ho : s.outranked (s.launch l).par.vd (d * 12 + c) (s.launch l).prio (s.launch l).order = false)
      (ht : takeRange 1 ((s.launch l).dist.clusterRanges d c) = some ((a, b), rest)) (ha : a < (s.launch l).cursor + 1024)
      (hp : s.placeTeam l a (d * 12 + c) = some w) : TaskEvent (.teamPlacement d c l) s
      (w.modLaunch l fun y => { y with dist := { y.dist with cluster := y.dist.cluster.set (d * 12 + c) rest } })
  | steal d c f l s rs got (h : (s.launch l).grid = true) (hd : d < 2) (hc : c < 12) (hf : f < 12) (hn : c ≠ f)
      (he : keepRanges ((s.launch l).dist.clusterRanges d c) = []) (hr : s.hasRoom l (d * 12 + c) = true)
      (hb : s.rangeBefore l (fun y => y.dist.clusterRanges d c ++ y.dist.clusterRanges d f) [d * 12 + c] = false)
      (hs : stealFrom ((s.launch l).dist.clusterRanges d f) = some (rs, got)) :
      TaskEvent (.rangeSteal (.cluster d c) (.cluster d f) l) s (s.modLaunch l fun y =>
        { y with dist := { y.dist with cluster := (y.dist.cluster.set (d * 12 + f) rs).set (d * 12 + c) got } })
  | dieSteal d e l s rs got (h : (s.launch l).grid = true) (hd : d < 2) (he : e < 2) (hn : d ≠ e) (hu : s.hearth.config.unified = true)
      (hk : keepRanges ((s.launch l).dist.die.getD d []) = []) (hr : (List.range 12).any (fun c => s.hasRoom l (d * 12 + c)) = true)
      (hb : s.rangeBefore l (fun y => y.dist.die.getD d [] ++ y.dist.die.getD e []) (dieClusters d) = false)
      (hs : stealFrom ((s.launch l).dist.die.getD e []) = some (rs, got)) :
      TaskEvent (.rangeSteal (.die d) (.die e) l) s (s.modLaunch l fun y =>
        { y with dist := { y.dist with die := (y.dist.die.set e rs).set d got } })
  | pop c l s n (h : (s.launch l).oldest = some n) (hp : s.mayPop c l = true)
      (hb : s.binRoom c ((s.launch l).slots.getD n default).billet.code = true) :
      TaskEvent (.gangFormerPop c l) s
        ((s.modLaunch l fun z =>
            { z with level := z.level.filter (· != n),
                     slots := z.slots.modify n fun w => { w with state := .free, gen := w.gen + 1, record := none } }).fileBillet c
          (bits ((s.launch l).slots.getD n default).billet.code.toNat 2 6) l
          (((s.launch l).slots.getD n default).billet, ((s.launch l).slots.getD n default).record, ((s.launch l).slots.getD n default).prio))
  | binTimeout c b s x (h : s.binOf c b = some x) (ht : x.since + 2048 ≤ (s.core c).clock) (hn : x.billets ≠ []) :
      TaskEvent (.binTimeout c b) s ((s.formGroup c x.launch x.billets).setBin c b none)
  | cordWalk v s : TaskEvent (.cordScheduleWalk v) s (s.cordWalk v)
  | cordAgeing v s : TaskEvent (.cordAgeingTick v) s (s.cordWalk v)

/-! ## The kiln, translation and loans (R214, R330 to R340, R358, R363 to R373) -/

/-- A page of an address, by its number. -/
def pageNo (va : DWord) : Nat := va48 va / 65536
/-- A page may be given a replica on a die: it has none there, its home lies elsewhere and is not being handed over, and it is replicated, or resident with DUP (R364, R369). -/
structure WantsReplica (s : State) (v d : Nat) (va : DWord) (l : Leaf) : Prop where
  none : ∀ r ∈ s.store.replicas, ¬(r.die = d ∧ r.vd = v ∧ r.vpn = pageNo va)
  away : region l.base ≠ 0 ∨ s.ownerDie (stackOf l.base) ≠ d
  free : region l.base = 0 → s.handing (stackOf l.base) = false
  reach : s.closed v l.base = false ∧ s.offPart v l.base = false
  dup : l.res = 3 ∨ (l.res = 0 ∧ region l.base = 0 ∧ bits l.e 52 1 = 1)
/-- An agreement whose end is under way: the lender has asked, and the deadline runs (R373). -/
def demanded (s : State) (l : Loan) (x : Loan) : Loan :=
  if x.stack = l.stack then { x with due := some (s.now + l.seconds * 1000000000), endAsked := [1 - l.borrower] } else x
/-- Events of the kiln and of translation. -/
inductive MemoryEvent : Instr → State → State → Prop where
  | writeback b s (h : s.handing (stackOf (b * 1024)) = false) (hp : s.pinned b = false) : MemoryEvent (.blockWriteback b) s (s.writeback b)
  | grantMove v st s : MemoryEvent (.grantMove v st) s ((s.grantTo v st).balloonTest v)
  | balloonOpen v s s1 (h1 : (List.range 8).foldl (fun s st => s.grantTo v st) s = s1) (hd : (s1.vdev v).balloon.due = none)
      (hv : (s1.vdev v).state ≠ .absent) (hl : s1.reserveOf v < s1.lowWater v) : MemoryEvent (.balloonRequestOpen v) s
      ((s1.modBalloon v fun _ => ⟨s1.highWater v - s1.reserveOf v, some (s1.now + s1.balloonLimit v), false, false⟩).hyperPost v 3
        (BitVec.ofNat 64 (field ((s1.modBalloon v fun _ =>
          ⟨s1.highWater v - s1.reserveOf v, some (s1.now + s1.balloonLimit v), false, false⟩).vdev v).desc 56 8)).toNat (.add 1#64))
  | balloonExpiry v s d (h : (s.vdev v).balloon.due = some d) (hd : d ≤ s.now) (he : (s.vdev v).balloon.expired = false) :
      MemoryEvent (.balloonDeadlineExpiry v) s
        ((s.modBalloon v fun b => { b with expired := true, suspended := true }).logEntry 0 1)
  | chargeLift v s : MemoryEvent (.chargePathLift v) s (s.modBalloon v fun b => { b with suspended := false })
  | pageWalk c v va k s (h : c < 192) (hv : (s.core c).slice.vd = some v) : MemoryEvent (.pageWalk c v va k) s (s.translate v c va k).1
  | makeResident v va d s s1 (h : (v, pageNo va, d) ∈ s.store.requests)
      (hh : ∀ l, s.walk v va = some l → s.placeHeld v va l = false) (hp : s.makePageResident v d va true = some s1) :
      MemoryEvent (.makeResident v va d true) s
        ((s1.modStore fun m => { m with requests := m.requests.erase (v, pageNo va, d) }).wake v (pageNo va) true)
  | pageRefused v va d s (h : (v, pageNo va, d) ∈ s.store.requests)
      (hh : ∀ l, s.walk v va = some l → s.placeHeld v va l = false) (hp : s.makePageResident v d va true = none) :
      MemoryEvent (.makeResident v va d true) s
        ((s.modStore fun m => { m with requests := m.requests.erase (v, pageNo va, d) }).wake v (pageNo va) false)
  | notRequested v va d dup s (h : (v, pageNo va, d) ∉ s.store.requests) : MemoryEvent (.makeResident v va d dup) s s
  | replicaCreate v va d s l s1 (h : s.walk v va = some l) (hr : WantsReplica s v d va l) (hd : d < 2) (hh : s.placeHeld v va l = false)
      (hm : s.makeReplica v d va l = some s1) : MemoryEvent (.replicaCreate v va d) s s1
  | replicaCollapse v va d s l (h : s.walk v va = some l) (hp : permOk l.e .store = true) (hd : d < 2) (hh : s.placeHeld v va l = false) :
      MemoryEvent (.replicaCollapse v va d) s (s.collapse v d va)
  | handover st s x (h : s.store.handovers.find? (fun h => h.stack == st) = some x) : MemoryEvent (.stackHandover st) s
      ((s.handoverStep x).1.modStore fun m =>
        { m with handovers := (s.handoverStep x).2.toList ++ s.store.handovers.erase x })
  | loanAgreement st b n s (hu : s.hearth.config.unified = false) (hs : st < 8) (hb : b < 2) (hd : s.ownerDie st ≠ b)
      (h1 : 1 ≤ n) (h2 : n ≤ 60) (hh : s.handing st = false) (hl : ∀ l ∈ s.store.loans, l.stack ≠ st) (s1 : State)
      (hm : s.leaveStack (s.ownerDie st) (s.ownerDie st) st = s1) (he : s1.emptyStack (s.ownerDie st) st = true) :
      MemoryEvent (.loanAgreement st b n) s (s1.modStore fun m => { m with loans := m.loans ++ [⟨st, b, n, [0, 1], true, [], none⟩] })
  | loanEnd st s l (h : s.store.loans.find? (fun l => l.stack == st && l.agreed && l.due.isNone) = some l) :
      MemoryEvent (.loanEnd st false) s (s.modStore fun m =>
        { m with loans := m.loans.filter (fun x => x.stack != l.stack),
                 handovers := m.handovers ++ [⟨l.stack, 1 - l.borrower, 0, none⟩] })
  | loanDemand st s l (h : s.store.loans.find? (fun l => l.stack == st && l.agreed && l.due.isNone) = some l) :
      MemoryEvent (.loanEnd st true) s
        ((s.modStore fun m => { m with loans := m.loans.map (demanded s l) }).leaveStack l.borrower l.borrower st)
  | loanExpiry st s l d (h : s.store.loans.find? (fun l => l.stack == st) = some l) (hd : l.due = some d) (hn : d ≤ s.now) :
      MemoryEvent (.loanDeadlineExpiry st) s
        (((((s.dropReplicas l.borrower st).pagesOn l.borrower st).filter fun x => x.2.2.res != 2).foldl
          (fun s x => s.surrender s.lanes.tasks.length x.1 x.2.2 x.2.1) (s.dropReplicas l.borrower st)).returnLoan l)

end Sys2Proof.Claims
end

