-- ==== Sys2Proof/Certificates/Slice0/Obligations.lean ====
section
/-! DEFINITION. The statements for the provers. -/

open Sys2Proof Sys2Proof.Machine Sys2Proof.Claims

/-! ## The whole machine -/

/-- What the spec gives for reset: dies 0 and 1 own stacks 0 to 3 and 4 to 7 (R7), no thread runs, both commit tokens are free, the hearth is not booted and runs at 1700 MHz, every link is down (R7, R428, R430). -/
def Obligations.ResetState : Prop :=
  (∀ k, k < 8 → State.reset.ownerDie k = if k < 4 then 0 else 1) ∧ State.reset.lanes.agents = [] ∧
  State.reset.store.tokens = [none, none] ∧ State.reset.hearth.booted = false ∧ State.reset.hearth.mhz = 1700 ∧
  ∀ k, k < 18 → State.reset.linkIs k .down = true
/-- Local memory is in its canonical form at reset. -/
def Obligations.ResetMemory : Prop := MemCanonical State.reset
/-- Every step keeps local memory in its canonical form (R354). -/
def Obligations.MemoryStaysCanonical : Prop := ∀ s t : State, MemCanonical s → step s = .next t → MemCanonical t
/-- Every instruction and event has a next state in every state: a cause, a wait or an event that is not due is one too. -/
def Obligations.NothingStops : Prop := ∀ (i : Instr) (s : State), ∃ t, exec i s = .next t
/-- A step runs what it fetches: a scheduled nomination of an owner whose turn it is issues the instruction decoded at the fragment's address; an owner whose turn it is not issues nothing (R13, R134, R138, R140). A scheduled event is performed, or is put behind the scheduled moves where a hearth core that serves it restarts (R409). The model's choices, log entry 5: a step is one move, the schedule says which, and with nothing scheduled the owner that has waited longest issues on even moves. -/
def Obligations.StepRunsInstruction : Prop :=
  (∀ (s : State) dt dclk o rest i t, s.sched = ⟨dt, dclk, .sliceNomination o⟩ :: rest →
    Issues (({ s with sched := rest } : State).elapse dt dclk) o i t → step s = afterMove t (exec i t)) ∧
  (∀ (s : State) dt dclk o rest, s.sched = ⟨dt, dclk, .sliceNomination o⟩ :: rest →
    (({ s with sched := rest } : State).elapse dt dclk).hasTurn o = false →
    step s = afterMove (({ s with sched := rest } : State).elapse dt dclk) (.next (({ s with sched := rest } : State).elapse dt dclk))) ∧
  (∀ (s : State) dt dclk ev rest, s.sched = ⟨dt, dclk, ev⟩ :: rest → (∀ o, ev ≠ .sliceNomination o) →
    (({ s with sched := rest } : State).elapse dt dclk).serviceWaits ev = true →
    step s = afterMove (({ s with sched := rest } : State).elapse dt dclk) (.next { ({ s with sched := rest } : State).elapse dt dclk with
      sched := (({ s with sched := rest } : State).elapse dt dclk).sched ++ [⟨1, 1, ev⟩] })) ∧
  (∀ (s : State) dt dclk ev rest, s.sched = ⟨dt, dclk, ev⟩ :: rest → (∀ o, ev ≠ .sliceNomination o) →
    (({ s with sched := rest } : State).elapse dt dclk).serviceWaits ev = false →
    step s = afterMove (({ s with sched := rest } : State).elapse dt dclk) (exec ev (({ s with sched := rest } : State).elapse dt dclk))) ∧
  (∀ (s : State) o i t, s.sched = [] → (s.elapse 1 1).moves % 2 = 0 → (s.elapse 1 1).nextOwner = some o →
    Issues (s.elapse 1 1) o i t → step s = afterMove t (exec i t))

/-! ## Encodings -/

/-- The words of every well-formed instruction decode to it, with every operand; every row that is an instruction has words, and a row that is an event has none. -/
def Obligations.DecodeEncode : Prop :=
  (∀ (i : Instr) (ws : List Word), i.wf = true → encode i = some ws → decodeWords ws = .ok i) ∧
  (∀ i : Instr, i.raw ≠ none → ∃ ws, encode i = some ws) ∧ ∀ i : Instr, i.raw = none → encode i = none
/-- Words that the spec writes out decode to the instructions it gives for them, an unlisted minor is refused with reason 3, and the all-zero word is ILL (R48, R71, R156, R193 and the tables of worked encodings). -/
def Obligations.DecodeWords : Prop :=
  decodeWords [0x85020C10#32] = .ok (.add false 3#8 1#8 (.imm 5#7)) ∧
  decodeWords [0x00020C11#32, 0x00010000#32, 0#32] = .ok (.addExt ⟨false, 7#4⟩ false 3#8 1#8 (.blit 0x10000#64)) ∧
  decodeWords [0x00000012#32, 0xFFC80103#32, 0x0000000B#32] = .ok (.addExt ⟨false, 11#4⟩ false 3#8 1#8 (.reg 200#8)) ∧
  decodeWords [0x8000009A#32, 0xFFFF0103#32, 0x00640027#32] = .ok (.cmp ⟨false, 7#4⟩ 2#4 3#3 1#8 (.imm 100#16)) ∧
  decodeWords [0x80000D9A#32, 0x07FF0203#32, 0x00010007#32] = .ok (.shflXor ⟨false, 7#4⟩ 0#3 3#8 2#8 (.imm 1#16) 7#3) ∧
  decodeWords [0x90080E40#32] = .ok (.ld false 3#8 4#8 16#7) ∧
  decodeWords [0x000000D0#32] = .ok (.nop false) ∧
  decodeWords [0x000030BA#32, 0#32, 0#32] = .error 3 ∧
  decodeWords [0#32] = .ok (.ill 0#22 false 0#2)
/-- BRA, CALL and BRQ have only the form with L = 0b00, whose OFFSET, W and OP stand as R49 shows, and go to their own address plus 4 × OFFSET. -/
def Obligations.BranchForm : Prop :=
  (∀ (off : BitVec 22) (w : Bool), decodeWords [off ++ 0x38#7 ++ BitVec.ofBool w ++ 0#2] = .ok (.bra w off) ∧
    decodeWords [off ++ 0x3B#7 ++ BitVec.ofBool w ++ 0#2] = .ok (.call w off) ∧
    decodeWords [off ++ 0x3A#7 ++ BitVec.ofBool w ++ 0#2] = .ok (.brq w off)) ∧
  (∀ (op : BitVec 7) (l : BitVec 2) (x : BitVec 22) (w : Bool) ws, (op = 0x38#7 ∨ op = 0x3A#7 ∨ op = 0x3B#7) → l ≠ 0#2 →
    ∃ r, decodeWords ((x ++ op ++ BitVec.ofBool w ++ l) :: ws) = .error r) ∧
  (∀ (s : State) (w : Bool) (off : BitVec 22), Together s (.bra w off) →
    ∃ t, exec (.bra w off) s = .next t ∧ EachGoes s (.bra w off) (fun _ a => a) (fun ag => (s.agent ag).pc + jumpBy off) t) ∧
  (∀ (s : State) (w : Bool) (off : BitVec 22) (ag : Nat), Alone s (.call w off) ag → (s.ticked.agent ag).link.length < 16 →
    exec (.call w off) s = .next (Ends s (.call w off) ag
      (s.ticked.modAgent ag fun a => { a with link := (a.pc + 4#64) :: a.link }) (.jump ((s.ticked.agent ag).pc + jumpBy off)))) ∧
  ∀ (s : State) (w : Bool) (off : BitVec 22) (ag : Nat) x, Alone s (.brq w off) ag → nextEntry s.ticked ag = some x → x ≠ 0#32 →
    exec (.brq w off) s = .next (Ends s (.brq w off) ag (popped s.ticked ag) (.jump ((s.ticked.agent ag).pc + jumpBy off)))
/-- BRC has only the form with L = 0b00, its fields stand as R50 shows, and each thread branches where its predicate, inverted when N = 1, is true. -/
def Obligations.ConditionalBranch : Prop :=
  (∀ (off : BitVec 18) (n w : Bool) (p : BitVec 3),
    decodeWords [off ++ BitVec.ofBool n ++ p ++ 0x39#7 ++ BitVec.ofBool w ++ 0#2] = .ok (.brc w off n p)) ∧
  (∀ (l : BitVec 2) (x : BitVec 22) (w : Bool) ws, l ≠ 0#2 → ∃ r, decodeWords ((x ++ 0x39#7 ++ BitVec.ofBool w ++ l) :: ws) = .error r) ∧
  ∀ (s : State) (w : Bool) (off : BitVec 18) (n : Bool) (p : BitVec 3), Together s (.brc w off n p) →
    ∃ t, exec (.brc w off n p) s = .next t ∧ EachGoes s (.brc w off n p) (fun _ a => a)
      (fun ag => if (s.ticked.pred ag 1 p ^^ n) = true then (s.agent ag).pc + jumpBy off else (s.agent ag).nextPc (.brc w off n p)) t

/-! ## What each thread of a fragment receives (R56 to R60, R79 to R94, R150 to R178, R191 to R195, R208, R216) -/

/-- Moves, integer arithmetic, logic, shifts, fields and selection give the value of their row. -/
def Obligations.IntegerResults : Prop :=
  ∀ (s : State) (i : Instr) (lat : Nat) (d : Reg) (v : State → Nat → Word), IntRow i lat d v → Together s i →
    ∃ t, exec i s = .next t ∧ EachBecomes s i (fun ag a => a.put lat (dstReg d) (v s.ticked ag)) t
/-- Comparisons and PLOG give the predicate of their row. -/
def Obligations.PredicateResults : Prop :=
  ∀ (s : State) (i : Instr) (lat : Nat) (p : BitVec 3) (v : State → Nat → Bool), PredRow i lat p v → Together s i →
    ∃ t, exec i s = .next t ∧ EachBecomes s i (fun ag a => a.put lat (dstPred p) (if v s.ticked ag = true then 1#32 else 0#32)) t
/-- LEA and the 64-bit instructions give the pair of their row, its lower half in the even register. -/
def Obligations.PairResults : Prop :=
  ∀ (s : State) (i : Instr) (lat : Nat) (d : Reg) (v : State → Nat → DWord), PairRow i lat d v → Together s i →
    ∃ t, exec i s = .next t ∧ EachBecomes s i (fun ag a => (a.put lat (some (.reg d.toNat)) ((v s.ticked ag).extractLsb' 0 32)).put lat
      (some (.reg (d.toNat + 1))) ((v s.ticked ag).extractLsb' 32 32)) t
/-- Floating point of a fixed latency gives the value and the flags of its row, where no enabled flag is among them (R163 to R175). -/
def Obligations.FpResults : Prop :=
  ∀ (s : State) (i : Instr) (lat : Nat) (d : Reg) (v : State → Nat → Word × FFlags), FpRow i lat d v → Together s i →
    (∀ ag ∈ s.cur.agents, s.ticked.enabled ag (v s.ticked ag).2 = false) →
    ∃ t, exec i s = .next t ∧ EachBecomes s i
      (fun ag a => (a.put lat (dstReg d) (v s.ticked ag).1).flagLater lat (v s.ticked ag).2) t
/-- FXU instructions owe the value and the flags of their row (R59, R170). -/
def Obligations.FxuResults : Prop :=
  ∀ (s : State) (i : Instr) (d : Reg) (v : State → Nat → Word × FFlags), FxuRow i d v → Together s i →
    (∀ ag ∈ s.cur.agents, s.ticked.enabled ag (v s.ticked ag).2 = false) →
    ∃ t, exec i s = .next t ∧ EachBecomes s i (fun ag a => a.owe true true [toReg d (v s.ticked ag).1] (v s.ticked ag).2) t
/-- FCMP, FCVT, QNT, DQNT, HAD and CMPR do what their row says (R168, R173, R175 to R178). -/
def Obligations.FpManyResults : Prop :=
  ∀ (s : State) (i : Instr) (fl : State → Nat → FFlags) (f : State → Nat → Agent → Agent), FpManyRow i fl f → Together s i →
    (∀ ag ∈ s.cur.agents, s.ticked.enabled ag (fl s.ticked ag) = false) →
    ∃ t, exec i s = .next t ∧ EachBecomes s i (f s.ticked) t
/-- SHFL and VOTE give each participating thread what its row takes from the participating set (R191 to R194). -/
def Obligations.CrossResults : Prop :=
  ∀ (s : State) (i : Instr) (f : State → List Nat → Nat → Agent → Agent), CrossRow i f → Together s i →
    ∃ t, exec i s = .next t ∧ EachBecomes s i (f s.ticked (s.performers i)) t
/-- GRED gives each participating thread the value of its segment (R192, R195). -/
def Obligations.GredResults : Prop :=
  ∀ (s : State) (i : Instr) (seg : BitVec 3) (d a : Reg) (v : State → Nat → List Word → Word × FFlags), GredRow i seg d a v → Together s i →
    (∀ ag ∈ s.cur.agents, s.ticked.enabled ag (v s.ticked ((s.ticked.segOf (s.performers i) seg ag).headD ag)
      ((s.ticked.segOf (s.performers i) seg ag).map fun x => s.ticked.a32 x a)).2 = false) →
    ∃ t, exec i s = .next t ∧ EachBecomes s i (fun ag x =>
      x.owe true false [toReg d (v s.ticked ((s.ticked.segOf (s.performers i) seg ag).headD ag)
        ((s.ticked.segOf (s.performers i) seg ag).map fun x => s.ticked.a32 x a)).1]
        (v s.ticked ((s.ticked.segOf (s.performers i) seg ag).headD ag)
          ((s.ticked.segOf (s.performers i) seg ag).map fun x => s.ticked.a32 x a)).2) t
/-- CSRR and CSRW of plain registers, NOP, PREF and FENCE at thread scope do what their row says (R48, R162, R208, R216). -/
def Obligations.PlainResults : Prop :=
  ∀ (s : State) (i : Instr) (f : State → Nat → Agent → Agent), PlainRow i f → Together s i →
    ∃ t, exec i s = .next t ∧ EachBecomes s i (f s.ticked) t
/-- SEL: MOD[16] is N, C[2:0] the predicate, C[7:3] not zero is reason 8, and d receives a where pS XOR N is 1, else b (R155). -/
def Obligations.Select : Prop :=
  (∀ (n w : Bool) (d a b : Reg) (p : BitVec 3) (g : BitVec 4),
    decodeWords [0#15 ++ BitVec.ofBool n ++ 0#6 ++ 0x12#7 ++ BitVec.ofBool w ++ 2#2, 0#5 ++ p ++ b ++ a ++ d, 0#28 ++ g] =
      .ok (.sel ⟨w, g⟩ n d a (.reg b) p)) ∧
  (∀ (n w : Bool) (d a b : Reg) (x : BitVec 5) (p : BitVec 3) (g : BitVec 4) (k : BitVec 16),
    decodeWords [1#1 ++ 0#14 ++ BitVec.ofBool n ++ 0#6 ++ 0x12#7 ++ BitVec.ofBool w ++ 2#2, 0#5 ++ p ++ 255#8 ++ a ++ d, k ++ 0#12 ++ g] =
      .ok (.sel ⟨w, g⟩ n d a (.imm k) p) ∧
    (x ≠ 0#5 → decodeWords [0#15 ++ BitVec.ofBool n ++ 0#6 ++ 0x12#7 ++ BitVec.ofBool w ++ 2#2, x ++ p ++ b ++ a ++ d, 0#28 ++ g] = .error 8)) ∧
  ∀ (s : State) (c : Ctl) (n : Bool) (d a : Reg) (b : Src) (p : BitVec 3), Together s (.sel c n d a b p) →
    ∃ t, exec (.sel c n d a b p) s = .next t ∧ EachBecomes s (.sel c n d a b p) (fun ag x =>
      x.put 2 (dstReg d) (if (s.ticked.pred ag 3 p ^^ n) = true then s.ticked.a32 ag a else s.ticked.b32 ag b)) t

/-! ## What an instruction leaves alone -/

/-- Integer, predicate and pair instructions change, of every thread of the fragment, only the registers they write, and nothing else of the machine: memory byte for byte, every other thread, every queue. -/
def Obligations.LaneFrame : Prop :=
  ∀ (s : State) (i : Instr) (ds : List Dst), LaneRow i ds → Together s i →
    ∃ t, exec i s = .next t ∧ t = withThreads s t ∧ (∀ a, t.store.mem.get a = s.store.mem.get a) ∧
      (∀ ag ∈ s.cur.agents, Untouched (s.agent ag) (t.agent ag) ds) ∧ ∀ ag, ag ∉ s.cur.agents → t.agent ag = s.agent ag
/-- vz and p7 are constants: they read 0 and true, and a write to them leaves the thread as it is (R47, R56, R150, R156). -/
def Obligations.ConstantRegisters : Prop :=
  ∀ (s : State) (ag pos lat : Nat) (a : Agent) (x : Word), s.reg ag pos 255#8 = 0#32 ∧ s.pred ag pos 7#3 = true ∧
    a.put lat (dstReg 255#8) x = a ∧ a.put lat (dstPred 7#3) x = a
/-- A result of latency L: a read at distance L or more gives the new value, a read below it the new value or the old one (R57). -/
def Obligations.ReadsOfLateResults : Prop :=
  ∀ (a : Agent) (free ag pos lat n : Nat) (r : Nat) (x : Word), r < a.regs.length → (∀ p ∈ a.pend, p.dst ≠ .reg r) →
    (lat ≤ n → (laterBy n (a.put lat (some (.reg r)) x)).see free ag pos (.reg r) = x) ∧
    ((laterBy n (a.put lat (some (.reg r)) x)).see free ag pos (.reg r) = x ∨
      (laterBy n (a.put lat (some (.reg r)) x)).see free ag pos (.reg r) = a.get (.reg r))

/-- A floating-point instruction that raises an enabled flag traps at itself with cause 0x0D: the flags it raised are set in %fstat, %tinfo holds them, and it writes no destination, element or predicate and no %rngseed; with a handler the thread enters it with its registers and predicates as they were (R85, R89, R165). -/
def Obligations.EnabledFlags : Prop :=
  ∀ (s : State) (i : Instr) (ag : Nat) (fl : State → Nat → FFlags), RaisesOf i fl → Alone s i ag →
    s.ticked.enabled ag (fl s.ticked ag) = true →
    exec i s = .next (Ends s i ag (s.ticked.modAgent ag fun a => a.orFlags (fl s.ticked ag))
      (.trap 0x0D 0#64 ((fl s.ticked ag).setWidth 32))) ∧
    (HandlerReady (s.agent ag) → (s.agent ag).pend = [] → (s.agent ag).fp.fpend = [] → ∃ t, exec i s = .next t ∧ t = withThreads s t ∧
      (t.agent ag).regs = (s.agent ag).regs ∧ (t.agent ag).preds = (s.agent ag).preds ∧
      (t.agent ag).fp.rngseed = (s.agent ag).fp.rngseed ∧ (t.agent ag).fp.fstat = (s.agent ag).fp.fstat ||| fl s.ticked ag ∧
      (t.agent ag).pc = (s.agent ag).trap.vec ∧ (t.agent ag).trap.cause = 0x0D#32 ∧ (t.agent ag).trap.rpc = (s.agent ag).pc ∧
      (t.agent ag).trap.info = (fl s.ticked ag).setWidth 32)

/-! ## Checks, guards and traps (R56, R70 to R72, R188, R232 to R235, R242) -/

/-- A thread that decode stops takes cause 0x01 with its reason, or cause 0x02, and the instruction has no effect; one whose guard is false passes it without effect; one that has to wait, as for a register that is not written yet, stays where it is, and a CSRR of %fstat waits for the outstanding results of the FP majors (R56, R59, R70, R72, R163, R242). -/
def Obligations.ChecksAndGuards : Prop :=
  ∀ (s : State) (i : Instr) (ag : Nat), i.raw ≠ none → Single s ag →
    (∀ r, s.ticked.pre i ag = .illegal r → exec i s = .next (Ends s i ag s.ticked (.trap 0x01 0#64 (BitVec.ofNat 32 r)))) ∧
    (s.ticked.pre i ag = .priv → exec i s = .next (Ends s i ag s.ticked (.trap 0x02 0#64 0#32))) ∧
    (Skips s i ag → exec i s = .next (Ends s i ag s.ticked .next)) ∧
    (s.ticked.pre i ag = .stall → exec i s = .next (Ends s i ag s.ticked .stall)) ∧
    (∀ d, CsrrOf i d 0x020 → s.ticked.fpOutstanding ag = true → s.ticked.pre i ag ≠ .go) ∧
    ((s.ticked.context ag i).reason = none → i.needsPriv (s.launch (s.launchOf ag)).par.priv (s.launch (s.launchOf ag)).par.hv
      (s.launch (s.launchOf ag)).par.deleg = true → s.ticked.pre i ag = .priv)
/-- TRAP and BRK of a thread with a handler enter it: the trap registers are written, H is set, the thread continues at %tvec, and its registers, predicates, link stack and masks are its own as before (R188, R233). A BRK under DBG is left out: it halts. -/
def Obligations.SoftwareTraps : Prop :=
  ∀ (s : State) (i : Instr) (ag cause : Nat) (info : State → Nat → Word), TrapOf i cause info → Alone s i ag →
    HandlerReady (s.agent ag) → (cause = 0x0B → (s.policyOf ag).getLsbD 7 = false) →
    ∃ t, exec i s = .next t ∧ t = withThreads s t ∧ t.agent ag = inHandler (s.agent ag).tick.settle cause (s.agent ag).pc 0#64 (info s.ticked ag) ∧
      (t.agent ag).regs = (s.agent ag).regs ∧ (t.agent ag).preds = (s.agent ag).preds
/-- SRET sets H to 0 and the pc to %trpc and restores nothing else (R234). -/
def Obligations.ReturnFromTrap : Prop :=
  ∀ (s : State) (ag : Nat), Alone s (.sret false) ag → (s.ticked.agent ag).pend = [] →
    ∃ t, exec (.sret false) s = .next t ∧ t = withThreads s t ∧
      (t.agent ag).pc = (s.agent ag).trap.rpc ∧ (t.agent ag).trap = { (s.agent ag).trap with h := false } ∧
      (t.agent ag).regs = (s.agent ag).regs ∧ (t.agent ag).preds = (s.agent ag).preds ∧ (t.agent ag).link = (s.agent ag).link
/-- A trap with H = 1, or without a handler, is unhandled: with UNH = 0 the thread ends (R235), once hearth core 4 can write its record and no event of a higher rank has taken effect on its barriers on this clock (R224, R240); until then it waits with the trap. -/
def Obligations.UnhandledTraps : Prop :=
  ∀ (s : State) (ag cause : Nat) (pc addr : DWord) (info : Word), ag < s.lanes.agents.length → (s.agent ag).settleable = true →
    ((s.agent ag).settle.trap.h = true ∨ (s.agent ag).settle.trap.vec = 0#64) → ¬(cause = 0x0B ∧ (s.policyOf ag).getLsbD 7 = true) →
    bits (s.policyOf ag).toNat 0 2 = 0 →
    ((s.modAgent ag Agent.settle).trapWaits ag cause = false → ((s.takeTrap ag cause pc addr info).agent ag).status = .ended) ∧
    ((s.modAgent ag Agent.settle).trapWaits ag cause = true → ∃ x, ((s.takeTrap ag cause pc addr info).agent ag).status = .parked (.record false x))

/-! ## What an instruction that a thread performs alone leaves -/

/-- Calls, returns, masks, exit, yield, software traps, SRET and the decision queue (R142, R143, R182 to R190). -/
def Obligations.ControlEffects : Prop :=
  ∀ (s : State) (i : Instr) (ag : Nat) (t : State) (k : Fate), ControlRow i ag s.ticked t k → Alone s i ag →
    exec i s = .next (Ends s i ag t k)
/-- Captures, %fstat and the debug registers (R65, R162, R163, R243). The model's choices: a CSRW of %dbctl or %dbpc reaches the task's registers at once, and only its writer may see the old value below distance 2, log entry 23; of flags nearer than their latency a CSRR sees, and a CSRW keeps, what a free choice says, log entry 8. -/
def Obligations.SpecialRegisterEffects : Prop :=
  ∀ (s : State) (i : Instr) (ag : Nat) (t : State) (k : Fate), CsrRow i ag s.ticked t k → Alone s i ag →
    exec i s = .next (Ends s i ag t k)
/-- Barriers and convergence declarations (R145, R222 to R226). -/
def Obligations.BarrierEffects : Prop :=
  ∀ (s : State) (i : Instr) (ag : Nat) (t : State) (k : Fate), BarrierRow i ag s.ticked t k → Alone s i ag →
    exec i s = .next (Ends s i ag t k)
/-- Loads, stores, atomics, reductions, fences and page requests, with what stops them: alignment, translation, a refused charge, the version budget, a range lock, and the stores of a suppressed thread (R98 to R106, R205 to R221, R239, R379). The model's choices: a load is performed as it issues, log entry 6; LDC reads the committed bytes as it issues, log entry 22; a store waits in issue order where its queue is full or its charge is held, log entry 16; queued stores and the lines of engine commands count toward the version budget, log entry 20; a release at system scope waits for every write its partition posted before it, log entry 21. -/
def Obligations.MemoryEffects : Prop :=
  ∀ (s : State) (i : Instr) (ag : Nat) (t : State) (k : Fate), MemoryRow i ag s.ticked t k → Alone s i ag →
    exec i s = .next (Ends s i ag t k)
/-- Kiln instructions, with their traps and their waits (R341 to R348). The model's choices: RSVQ and BALQ give the values of their issue, log entry 30; BLKFILL of memory that is not local is a posted store of 1,024 bytes whose block size is free, log entry 29. -/
def Obligations.KilnEffects : Prop :=
  ∀ (s : State) (i : Instr) (ag : Nat) (t : State) (k : Fate), KilnRow i ag s.ticked t k → Alone s i ag →
    exec i s = .next (Ends s i ag t k)
/-- BOXT, TRIT and REBIN (R196 to R204). The model's choice: the billet of a REBIN has the priority of the issuing task, log entry 52. -/
def Obligations.RayEffects : Prop :=
  ∀ (s : State) (i : Instr) (ag : Nat) (t : State) (k : Fate), RayRow i ag s.ticked t k → Alone s i ag →
    exec i s = .next (Ends s i ag t k)
/-- TCOPY, CHAIN, CTWAIT and CHKILL (R260 to R277). The model's choices: %taddr is 0 for reason codes, log entry 24; a chain takes the lowest free slot and its handle holds the use count after the increase, log entry 25. -/
def Obligations.CopyEffects : Prop :=
  ∀ (s : State) (i : Instr) (ag : Nat) (t : State) (k : Fate), CopyRow i ag s.ticked t k → Alone s i ag →
    exec i s = .next (Ends s i ag t k)
/-- Matrix instructions (R282 to R305). The model's choices, log entry 19: a signature made while the engine resets is checked at once, and the checks of a signature stand in the order of the rule's text. -/
def Obligations.MatrixEffects : Prop :=
  ∀ (s : State) (i : Instr) (ag : Nat) (t : State) (k : Fate), MatrixRow i ag s.ticked t k → Alone s i ag →
    exec i s = .next (Ends s i ag t k)
/-- Extrapolation instructions (R312 to R323). -/
def Obligations.ExtrapolationEffects : Prop :=
  ∀ (s : State) (i : Instr) (ag : Nat) (t : State) (k : Fate), XRow i ag s.ticked t k → Alone s i ag →
    exec i s = .next (Ends s i ag t k)
/-- Task-engine instructions (R383 to R393). The model's choices, log entry 30: TASKQ gives the values of its issue, NQUEUE counts the ready records, and ENQN writes its record as a hearth write. -/
def Obligations.TaskEffects : Prop :=
  ∀ (s : State) (i : Instr) (ag : Nat) (t : State) (k : Fate), TaskRow i ag s.ticked t k → Alone s i ag →
    exec i s = .next (Ends s i ag t k)
/-- System instructions (R252 to R256). The model's choices, log entry 31: a second CTXSW for a core replaces the next tenant and the counter of the first, and its descriptor has no alignment rule. -/
def Obligations.SystemEffects : Prop :=
  ∀ (s : State) (i : Instr) (ag : Nat) (t : State) (k : Fate), SystemRow i ag s.ticked t k → Alone s i ag →
    exec i s = .next (Ends s i ag t k)
/-- SPAWN, ENQN and JDEC outside a billet launch, and ENQN in a launch without a node table, trap with cause 0x05 and reason 19 (R388). -/
def Obligations.OutsideBilletLaunches : Prop :=
  (∀ (s : State) (i : Instr) (ag : Nat), BilletOp i → Alone s i ag → (s.ticked.launchFor ag).billets = false →
    exec i s = .next (Ends s i ag s.ticked (.trap 0x05 0#64 19#32))) ∧
  ∀ (s : State) (c : Ctl) (a : Reg) (b : Src) (ag : Nat), Alone s (.enqn c a b) ag → (s.ticked.launchFor ag).nodes = [] →
    exec (.enqn c a b) s = .next (Ends s (.enqn c a b) ag s.ticked (.trap 0x05 0#64 19#32))

/-! ## Values in memory and in the engines -/

/-- A store of a settled task to local memory changes exactly its bytes, after the replicas of its page collapse; the collapse changes nothing where the page has none (R98, R108, R118, R365). -/
def Obligations.StoreFrame : Prop :=
  (∀ (s : State) (pa : Nat), Unreplicated s pa → s.collapseHome pa = s) ∧
  ∀ (s : State) (t ag pa : Nat) (h11 : Bool) (bs : List Byte), MemCanonical s → s.unsettled t = false → region pa = 0 →
    ∀ a, (s.writeHome t ag pa h11 bs).store.mem.get a =
      if pa ≤ a ∧ a < pa + bs.length then bs.getD (a - pa) 0#8 else (s.collapseHome pa).store.mem.get a
/-- A store of an unsettled task, wherever it lies, leaves memory whole and posts nothing outside the device, and the task reads its own bytes (R118). -/
def Obligations.VersionedStores : Prop :=
  ∀ (s : State) (t ag pa : Nat) (h11 : Bool) (bs : List Byte), t < s.lanes.tasks.length → s.unsettled t = true →
    (s.writeHome t ag pa h11 bs).store.mem = s.store.mem ∧ (s.writeHome t ag pa h11 bs).store.posted = s.store.posted ∧
    (s.writeHome t ag pa h11 bs).readAs t pa bs.length = bs
/-- A load whose bytes lie in the youngest entry of its queue that meets them, a store, reads that store's bytes; entries behind it that meet none of them change nothing (R99). -/
def Obligations.QueuedStoresForward : Prop :=
  ∀ (s : State) (ag pa n : Nat) (q rest : List SqEntry) (e : SqEntry) (bs : List Byte), s.sq ag = q ++ e :: rest → e.op = .store bs → 0 < n →
    e.pa ≤ pa → pa + n ≤ e.pa + bs.length → (∀ x ∈ rest, x.pa + x.size ≤ pa ∨ pa + n ≤ x.pa) → (s.readQueued ag pa n).2 = some ((bs.drop (pa - e.pa)).take n)
/-- The values that the integer atomics and reductions write, on 4 and on 8 bytes (R217, R218). -/
def Obligations.AtomicValues : Prop :=
  (∀ a b c : Word,
    amoNew 0 4 a.toNat b.toNat c.toNat = (a + b).toNat ∧
    amoNew 1 4 a.toNat b.toNat c.toNat = (if a.toInt ≤ b.toInt then a else b).toNat ∧
    amoNew 2 4 a.toNat b.toNat c.toNat = (if a.toInt ≤ b.toInt then b else a).toNat ∧
    amoNew 3 4 a.toNat b.toNat c.toNat = (if a ≤ b then a else b).toNat ∧
    amoNew 4 4 a.toNat b.toNat c.toNat = (if a ≤ b then b else a).toNat ∧
    amoNew 5 4 a.toNat b.toNat c.toNat = (a &&& b).toNat ∧ amoNew 6 4 a.toNat b.toNat c.toNat = (a ||| b).toNat ∧
    amoNew 7 4 a.toNat b.toNat c.toNat = (a ^^^ b).toNat ∧ amoNew 8 4 a.toNat b.toNat c.toNat = b.toNat ∧
    amoNew 9 4 a.toNat b.toNat c.toNat = (if a = b then c else a).toNat) ∧
  ∀ a b c : DWord,
    amoNew 0 8 a.toNat b.toNat c.toNat = (a + b).toNat ∧
    amoNew 1 8 a.toNat b.toNat c.toNat = (if a.toInt ≤ b.toInt then a else b).toNat ∧
    amoNew 2 8 a.toNat b.toNat c.toNat = (if a.toInt ≤ b.toInt then b else a).toNat ∧
    amoNew 3 8 a.toNat b.toNat c.toNat = (if a ≤ b then a else b).toNat ∧
    amoNew 4 8 a.toNat b.toNat c.toNat = (if a ≤ b then b else a).toNat ∧
    amoNew 5 8 a.toNat b.toNat c.toNat = (a &&& b).toNat ∧ amoNew 6 8 a.toNat b.toNat c.toNat = (a ||| b).toNat ∧
    amoNew 7 8 a.toNat b.toNat c.toNat = (a ^^^ b).toNat ∧ amoNew 8 8 a.toNat b.toNat c.toNat = b.toNat ∧
    amoNew 9 8 a.toNat b.toNat c.toNat = (if a = b then c else a).toNat
/-- E8 scales: e from 0x00 to 0xFE has the value 2^(e − 127), 0xFF is a NaN, and the scale of a value is 0xFF for a NaN or infinity, 0x00 for zero, otherwise floor(log2 |v|) + 127 clamped to 0x00 to 0xFE (R80). -/
def Obligations.Scales : Prop :=
  (∀ e, e < 255 → elemValue 9 e = .fin false 1 ((e : Int) - 127)) ∧ elemValue 9 255 = .nan false ∧
  (∀ sn, toE8 (.nan sn) = 0xFF) ∧ (∀ n, toE8 (.inf n) = 0xFF) ∧ (∀ n e, toE8 (.fin n 0 e) = 0) ∧
  ∀ (n : Bool) (m : Nat) (e k : Int), (2 : Rat) ^ k ≤ m * (2 : Rat) ^ e → m * (2 : Rat) ^ e < (2 : Rat) ^ (k + 1) →
    (toE8 (.fin n m e) : Int) = max 0 (min 0xFE (k + 127))
/-- Aitken's estimate from the newest three entries, whatever DEPTH is, where no step of it stops (R318). -/
def Obligations.AitkenEstimate : Prop :=
  ∀ (x : XCtx) (a b c d1 d0 den q w est : Word) (old : List Word), x.meth = 1#2 → x.entries = old ++ [a, b, c] →
    xKeep (xSub c b) = .ok d1 → xKeep (xSub b a) = .ok d0 → xDivisor x.tz (xSub d1 d0) = .ok den → xKeep (xMul d1 d1) = .ok q →
    xKeep (xDiv q den) = .ok w → xKeep (xSub c w) = .ok est → x.run = .ok est

/-! ## Events -/

/-- Results, queues, parks, nominations and shares (R59, R98, R101, R132, R134, R135, R143, R148, R149), with the charge a waiting store takes (R332, R340), the share a switch brings back (R250) and where a share is placed (R377, R395, R422). The model's choices: a resumed share has what the model keeps of it, log entry 32; a placement respects the reserved region, a walk that is due and the priorities, log entry 33. -/
def Obligations.ThreadEvents : Prop := ∀ (i : Instr) (s t : State), ThreadEvent i s t → exec i s = .next t
/-- Copies, chains, matrix and extrapolation queues (R265 to R276, R286 to R305, R313). The model's choices: a copy, a latch and a drain each move all their bytes in their one step, with a copy's addresses translated again, log entry 24; of the SENDs of a chain the oldest is answered first, and a fault at a later entry waits for those before it, log entry 25. -/
def Obligations.EngineEvents : Prop := ∀ (i : Instr) (s t : State), EngineEvent i s t → exec i s = .next t
/-- Faults, restarts, commits, launches and their distribution (R119, R203, R237, R374 to R382, R385, R395), and the end of a capacity-wait (R337). The model's choices: the record of a capacity-wait has RESTART set, log entry 33; the walk of the cords and its moments, log entry 44; a bin is known by the code address alone, log entry 52. -/
def Obligations.TaskEvents : Prop := ∀ (i : Instr) (s t : State), TaskEvent i s t → exec i s = .next t
/-- Walks, residency, replicas, balloon requests and stacks (R214, R253, R330, R337, R339, R358, R363 to R365, R369, R372, R373). The model's choices: a hand-over performs one step of R369 for each of its events, log entry 31; a balloon request stays open as the charge path resumes, log entry 33; MAKE_RESIDENT is the service of a PGREQ, log entry 36. -/
def Obligations.MemoryEvents : Prop := ∀ (i : Instr) (s t : State), MemoryEvent i s t → exec i s = .next t
/-- Slices, budgets and context switches (R247 to R256, R412 to R417). The model's choices: a spill writes free bytes, and what a resumed share has is what the model keeps of it, since R246 gives the save area no layout, log entry 32; the save area lies at an opaque frame of the hypervisor's translation, log entry 51. -/
def Obligations.SliceEvents : Prop := ∀ (i : Instr) (s t : State), SliceEvent i s t → exec i s = .next t
/-- Packets, doorbells and queue messages (R398 to R410). The model's choices: the doorbell register of a new queue is 0, log entry 2; which reason a rejection has where R406 names none, log entry 35; when a hearth core takes a message, log entry 54. -/
def Obligations.QueueEvents : Prop := ∀ (i : Instr) (s t : State), QueueEvent i s t → exec i s = .next t
/-- Tenancy, saves and messages of virtual devices (R340, R411, R418, R419). The model's choices: what is held while a device is cleared, frozen or behind a hand-over is applied in order, log entry 37; an import is tested against the grant of each stack, log entry 38; a descriptor whose LOW or HIGH lies outside its range is refused, log entry 36. -/
def Obligations.TenantEvents : Prop := ∀ (i : Instr) (s t : State), TenantEvent i s t → exec i s = .next t
/-- Links, power, boot, alarms, identity and telemetry (R420 to R431), the device faults of R410 and the acknowledgement of posted writes (R124). The model's choices: the kind numbers of the lifetime log, log entry 34; what a device fault resets, log entry 42; bodies of 60 bytes and when a configuration record takes effect, log entry 43; where the counts stand in a telemetry record, log entry 38; how long a hearth core restarts and whether core 1 repeats its micro-step, log entry 54; the windows that a link opens, log entry 41. -/
def Obligations.PlatformEvents : Prop := ∀ (i : Instr) (s t : State), PlatformEvent i s t → exec i s = .next t
/-- Accesses of outside agents and of the debugger (R106, R107, R245, R324, R425). The model's choices, log entry 40: the value of an application core's load stands beside the hart, outside writes are charged to the device that maps the page, held accesses wait in order for their partition and stack, a hart's own registers change by its own account, and the drivers of the Ethernet ports, the block devices and the root ports act at the level of their contracts. The debugger's rows, where a resumed thread stands and how the fields of a context are numbered, rest on log entry 39, and a TS or TZ it writes is stored as it stands, log entry 28. -/
def Obligations.OutsideEvents : Prop := ∀ (i : Instr) (s t : State), OutsideEvent i s t → exec i s = .next t
end

