-- ==== Sys2Proof/Laws/State.lean ====
section
/-! SUPPORT. What each named update of the state leaves and what it changes: one lemma a field. -/

namespace Sys2Proof.Machine

/-! ## modAgent -/

@[simp] theorem State.modAgent_store (s : State) (a : Nat) (f : Agent → Agent) : (s.modAgent a f).store = s.store := rfl
@[simp] theorem State.modAgent_queues (s : State) (a : Nat) (f : Agent → Agent) : (s.modAgent a f).queues = s.queues := rfl
@[simp] theorem State.modAgent_vdevs (s : State) (a : Nat) (f : Agent → Agent) : (s.modAgent a f).vdevs = s.vdevs := rfl
@[simp] theorem State.modAgent_hearth (s : State) (a : Nat) (f : Agent → Agent) : (s.modAgent a f).hearth = s.hearth := rfl
@[simp] theorem State.modAgent_now (s : State) (a : Nat) (f : Agent → Agent) : (s.modAgent a f).now = s.now := rfl
@[simp] theorem State.modAgent_sched (s : State) (a : Nat) (f : Agent → Agent) : (s.modAgent a f).sched = s.sched := rfl
@[simp] theorem State.modAgent_cur (s : State) (a : Nat) (f : Agent → Agent) : (s.modAgent a f).cur = s.cur := rfl
@[simp] theorem State.modAgent_free (s : State) (a : Nat) (f : Agent → Agent) : (s.modAgent a f).free = s.free := rfl
@[simp] theorem State.modAgent_moves (s : State) (a : Nat) (f : Agent → Agent) : (s.modAgent a f).moves = s.moves := rfl
@[simp] theorem State.modAgent_agents (s : State) (a : Nat) (f : Agent → Agent) : (s.modAgent a f).lanes.agents = s.lanes.agents.modify a f := rfl
@[simp] theorem State.modAgent_groups (s : State) (a : Nat) (f : Agent → Agent) : (s.modAgent a f).lanes.groups = s.lanes.groups := rfl
@[simp] theorem State.modAgent_group (s : State) (a : Nat) (f : Agent → Agent) (n : Nat) : (s.modAgent a f).group n = s.group n := rfl
@[simp] theorem State.modAgent_shares (s : State) (a : Nat) (f : Agent → Agent) : (s.modAgent a f).lanes.shares = s.lanes.shares := rfl
@[simp] theorem State.modAgent_share (s : State) (a : Nat) (f : Agent → Agent) (n : Nat) : (s.modAgent a f).share n = s.share n := rfl
@[simp] theorem State.modAgent_tasks (s : State) (a : Nat) (f : Agent → Agent) : (s.modAgent a f).lanes.tasks = s.lanes.tasks := rfl
@[simp] theorem State.modAgent_task (s : State) (a : Nat) (f : Agent → Agent) (n : Nat) : (s.modAgent a f).task n = s.task n := rfl
@[simp] theorem State.modAgent_launches (s : State) (a : Nat) (f : Agent → Agent) : (s.modAgent a f).lanes.launches = s.lanes.launches := rfl
@[simp] theorem State.modAgent_launch (s : State) (a : Nat) (f : Agent → Agent) (n : Nat) : (s.modAgent a f).launch n = s.launch n := rfl
@[simp] theorem State.modAgent_cores (s : State) (a : Nat) (f : Agent → Agent) : (s.modAgent a f).lanes.cores = s.lanes.cores := rfl
@[simp] theorem State.modAgent_core (s : State) (a : Nat) (f : Agent → Agent) (n : Nat) : (s.modAgent a f).core n = s.core n := rfl
@[simp] theorem State.modAgent_queue (s : State) (a : Nat) (f : Agent → Agent) (n : Nat) : (s.modAgent a f).queue n = s.queue n := rfl
@[simp] theorem State.modAgent_vdev (s : State) (a : Nat) (f : Agent → Agent) (n : Nat) : (s.modAgent a f).vdev n = s.vdev n := rfl

/-! ## modGroup -/

@[simp] theorem State.modGroup_store (s : State) (g : Nat) (f : Group → Group) : (s.modGroup g f).store = s.store := rfl
@[simp] theorem State.modGroup_queues (s : State) (g : Nat) (f : Group → Group) : (s.modGroup g f).queues = s.queues := rfl
@[simp] theorem State.modGroup_vdevs (s : State) (g : Nat) (f : Group → Group) : (s.modGroup g f).vdevs = s.vdevs := rfl
@[simp] theorem State.modGroup_hearth (s : State) (g : Nat) (f : Group → Group) : (s.modGroup g f).hearth = s.hearth := rfl
@[simp] theorem State.modGroup_now (s : State) (g : Nat) (f : Group → Group) : (s.modGroup g f).now = s.now := rfl
@[simp] theorem State.modGroup_sched (s : State) (g : Nat) (f : Group → Group) : (s.modGroup g f).sched = s.sched := rfl
@[simp] theorem State.modGroup_cur (s : State) (g : Nat) (f : Group → Group) : (s.modGroup g f).cur = s.cur := rfl
@[simp] theorem State.modGroup_free (s : State) (g : Nat) (f : Group → Group) : (s.modGroup g f).free = s.free := rfl
@[simp] theorem State.modGroup_moves (s : State) (g : Nat) (f : Group → Group) : (s.modGroup g f).moves = s.moves := rfl
@[simp] theorem State.modGroup_agents (s : State) (g : Nat) (f : Group → Group) : (s.modGroup g f).lanes.agents = s.lanes.agents := rfl
@[simp] theorem State.modGroup_agent (s : State) (g : Nat) (f : Group → Group) (n : Nat) : (s.modGroup g f).agent n = s.agent n := rfl
@[simp] theorem State.modGroup_groups (s : State) (g : Nat) (f : Group → Group) : (s.modGroup g f).lanes.groups = s.lanes.groups.modify g f := rfl
@[simp] theorem State.modGroup_shares (s : State) (g : Nat) (f : Group → Group) : (s.modGroup g f).lanes.shares = s.lanes.shares := rfl
@[simp] theorem State.modGroup_share (s : State) (g : Nat) (f : Group → Group) (n : Nat) : (s.modGroup g f).share n = s.share n := rfl
@[simp] theorem State.modGroup_tasks (s : State) (g : Nat) (f : Group → Group) : (s.modGroup g f).lanes.tasks = s.lanes.tasks := rfl
@[simp] theorem State.modGroup_task (s : State) (g : Nat) (f : Group → Group) (n : Nat) : (s.modGroup g f).task n = s.task n := rfl
@[simp] theorem State.modGroup_launches (s : State) (g : Nat) (f : Group → Group) : (s.modGroup g f).lanes.launches = s.lanes.launches := rfl
@[simp] theorem State.modGroup_launch (s : State) (g : Nat) (f : Group → Group) (n : Nat) : (s.modGroup g f).launch n = s.launch n := rfl
@[simp] theorem State.modGroup_cores (s : State) (g : Nat) (f : Group → Group) : (s.modGroup g f).lanes.cores = s.lanes.cores := rfl
@[simp] theorem State.modGroup_core (s : State) (g : Nat) (f : Group → Group) (n : Nat) : (s.modGroup g f).core n = s.core n := rfl
@[simp] theorem State.modGroup_queue (s : State) (g : Nat) (f : Group → Group) (n : Nat) : (s.modGroup g f).queue n = s.queue n := rfl
@[simp] theorem State.modGroup_vdev (s : State) (g : Nat) (f : Group → Group) (n : Nat) : (s.modGroup g f).vdev n = s.vdev n := rfl

/-! ## modShare -/

@[simp] theorem State.modShare_store (s : State) (h : Nat) (f : Share → Share) : (s.modShare h f).store = s.store := rfl
@[simp] theorem State.modShare_queues (s : State) (h : Nat) (f : Share → Share) : (s.modShare h f).queues = s.queues := rfl
@[simp] theorem State.modShare_vdevs (s : State) (h : Nat) (f : Share → Share) : (s.modShare h f).vdevs = s.vdevs := rfl
@[simp] theorem State.modShare_hearth (s : State) (h : Nat) (f : Share → Share) : (s.modShare h f).hearth = s.hearth := rfl
@[simp] theorem State.modShare_now (s : State) (h : Nat) (f : Share → Share) : (s.modShare h f).now = s.now := rfl
@[simp] theorem State.modShare_sched (s : State) (h : Nat) (f : Share → Share) : (s.modShare h f).sched = s.sched := rfl
@[simp] theorem State.modShare_cur (s : State) (h : Nat) (f : Share → Share) : (s.modShare h f).cur = s.cur := rfl
@[simp] theorem State.modShare_free (s : State) (h : Nat) (f : Share → Share) : (s.modShare h f).free = s.free := rfl
@[simp] theorem State.modShare_moves (s : State) (h : Nat) (f : Share → Share) : (s.modShare h f).moves = s.moves := rfl
@[simp] theorem State.modShare_agents (s : State) (h : Nat) (f : Share → Share) : (s.modShare h f).lanes.agents = s.lanes.agents := rfl
@[simp] theorem State.modShare_agent (s : State) (h : Nat) (f : Share → Share) (n : Nat) : (s.modShare h f).agent n = s.agent n := rfl
@[simp] theorem State.modShare_groups (s : State) (h : Nat) (f : Share → Share) : (s.modShare h f).lanes.groups = s.lanes.groups := rfl
@[simp] theorem State.modShare_group (s : State) (h : Nat) (f : Share → Share) (n : Nat) : (s.modShare h f).group n = s.group n := rfl
@[simp] theorem State.modShare_shares (s : State) (h : Nat) (f : Share → Share) : (s.modShare h f).lanes.shares = s.lanes.shares.modify h f := rfl
@[simp] theorem State.modShare_tasks (s : State) (h : Nat) (f : Share → Share) : (s.modShare h f).lanes.tasks = s.lanes.tasks := rfl
@[simp] theorem State.modShare_task (s : State) (h : Nat) (f : Share → Share) (n : Nat) : (s.modShare h f).task n = s.task n := rfl
@[simp] theorem State.modShare_launches (s : State) (h : Nat) (f : Share → Share) : (s.modShare h f).lanes.launches = s.lanes.launches := rfl
@[simp] theorem State.modShare_launch (s : State) (h : Nat) (f : Share → Share) (n : Nat) : (s.modShare h f).launch n = s.launch n := rfl
@[simp] theorem State.modShare_cores (s : State) (h : Nat) (f : Share → Share) : (s.modShare h f).lanes.cores = s.lanes.cores := rfl
@[simp] theorem State.modShare_core (s : State) (h : Nat) (f : Share → Share) (n : Nat) : (s.modShare h f).core n = s.core n := rfl
@[simp] theorem State.modShare_queue (s : State) (h : Nat) (f : Share → Share) (n : Nat) : (s.modShare h f).queue n = s.queue n := rfl
@[simp] theorem State.modShare_vdev (s : State) (h : Nat) (f : Share → Share) (n : Nat) : (s.modShare h f).vdev n = s.vdev n := rfl

/-! ## modTask -/

@[simp] theorem State.modTask_store (s : State) (t : Nat) (f : Task → Task) : (s.modTask t f).store = s.store := rfl
@[simp] theorem State.modTask_queues (s : State) (t : Nat) (f : Task → Task) : (s.modTask t f).queues = s.queues := rfl
@[simp] theorem State.modTask_vdevs (s : State) (t : Nat) (f : Task → Task) : (s.modTask t f).vdevs = s.vdevs := rfl
@[simp] theorem State.modTask_hearth (s : State) (t : Nat) (f : Task → Task) : (s.modTask t f).hearth = s.hearth := rfl
@[simp] theorem State.modTask_now (s : State) (t : Nat) (f : Task → Task) : (s.modTask t f).now = s.now := rfl
@[simp] theorem State.modTask_sched (s : State) (t : Nat) (f : Task → Task) : (s.modTask t f).sched = s.sched := rfl
@[simp] theorem State.modTask_cur (s : State) (t : Nat) (f : Task → Task) : (s.modTask t f).cur = s.cur := rfl
@[simp] theorem State.modTask_free (s : State) (t : Nat) (f : Task → Task) : (s.modTask t f).free = s.free := rfl
@[simp] theorem State.modTask_moves (s : State) (t : Nat) (f : Task → Task) : (s.modTask t f).moves = s.moves := rfl
@[simp] theorem State.modTask_agents (s : State) (t : Nat) (f : Task → Task) : (s.modTask t f).lanes.agents = s.lanes.agents := rfl
@[simp] theorem State.modTask_agent (s : State) (t : Nat) (f : Task → Task) (n : Nat) : (s.modTask t f).agent n = s.agent n := rfl
@[simp] theorem State.modTask_groups (s : State) (t : Nat) (f : Task → Task) : (s.modTask t f).lanes.groups = s.lanes.groups := rfl
@[simp] theorem State.modTask_group (s : State) (t : Nat) (f : Task → Task) (n : Nat) : (s.modTask t f).group n = s.group n := rfl
@[simp] theorem State.modTask_shares (s : State) (t : Nat) (f : Task → Task) : (s.modTask t f).lanes.shares = s.lanes.shares := rfl
@[simp] theorem State.modTask_share (s : State) (t : Nat) (f : Task → Task) (n : Nat) : (s.modTask t f).share n = s.share n := rfl
@[simp] theorem State.modTask_tasks (s : State) (t : Nat) (f : Task → Task) : (s.modTask t f).lanes.tasks = s.lanes.tasks.modify t f := rfl
@[simp] theorem State.modTask_launches (s : State) (t : Nat) (f : Task → Task) : (s.modTask t f).lanes.launches = s.lanes.launches := rfl
@[simp] theorem State.modTask_launch (s : State) (t : Nat) (f : Task → Task) (n : Nat) : (s.modTask t f).launch n = s.launch n := rfl
@[simp] theorem State.modTask_cores (s : State) (t : Nat) (f : Task → Task) : (s.modTask t f).lanes.cores = s.lanes.cores := rfl
@[simp] theorem State.modTask_core (s : State) (t : Nat) (f : Task → Task) (n : Nat) : (s.modTask t f).core n = s.core n := rfl
@[simp] theorem State.modTask_queue (s : State) (t : Nat) (f : Task → Task) (n : Nat) : (s.modTask t f).queue n = s.queue n := rfl
@[simp] theorem State.modTask_vdev (s : State) (t : Nat) (f : Task → Task) (n : Nat) : (s.modTask t f).vdev n = s.vdev n := rfl

/-! ## modLaunch -/

@[simp] theorem State.modLaunch_store (s : State) (l : Nat) (f : Launch → Launch) : (s.modLaunch l f).store = s.store := rfl
@[simp] theorem State.modLaunch_queues (s : State) (l : Nat) (f : Launch → Launch) : (s.modLaunch l f).queues = s.queues := rfl
@[simp] theorem State.modLaunch_vdevs (s : State) (l : Nat) (f : Launch → Launch) : (s.modLaunch l f).vdevs = s.vdevs := rfl
@[simp] theorem State.modLaunch_hearth (s : State) (l : Nat) (f : Launch → Launch) : (s.modLaunch l f).hearth = s.hearth := rfl
@[simp] theorem State.modLaunch_now (s : State) (l : Nat) (f : Launch → Launch) : (s.modLaunch l f).now = s.now := rfl
@[simp] theorem State.modLaunch_sched (s : State) (l : Nat) (f : Launch → Launch) : (s.modLaunch l f).sched = s.sched := rfl
@[simp] theorem State.modLaunch_cur (s : State) (l : Nat) (f : Launch → Launch) : (s.modLaunch l f).cur = s.cur := rfl
@[simp] theorem State.modLaunch_free (s : State) (l : Nat) (f : Launch → Launch) : (s.modLaunch l f).free = s.free := rfl
@[simp] theorem State.modLaunch_moves (s : State) (l : Nat) (f : Launch → Launch) : (s.modLaunch l f).moves = s.moves := rfl
@[simp] theorem State.modLaunch_agents (s : State) (l : Nat) (f : Launch → Launch) : (s.modLaunch l f).lanes.agents = s.lanes.agents := rfl
@[simp] theorem State.modLaunch_agent (s : State) (l : Nat) (f : Launch → Launch) (n : Nat) : (s.modLaunch l f).agent n = s.agent n := rfl
@[simp] theorem State.modLaunch_groups (s : State) (l : Nat) (f : Launch → Launch) : (s.modLaunch l f).lanes.groups = s.lanes.groups := rfl
@[simp] theorem State.modLaunch_group (s : State) (l : Nat) (f : Launch → Launch) (n : Nat) : (s.modLaunch l f).group n = s.group n := rfl
@[simp] theorem State.modLaunch_shares (s : State) (l : Nat) (f : Launch → Launch) : (s.modLaunch l f).lanes.shares = s.lanes.shares := rfl
@[simp] theorem State.modLaunch_share (s : State) (l : Nat) (f : Launch → Launch) (n : Nat) : (s.modLaunch l f).share n = s.share n := rfl
@[simp] theorem State.modLaunch_tasks (s : State) (l : Nat) (f : Launch → Launch) : (s.modLaunch l f).lanes.tasks = s.lanes.tasks := rfl
@[simp] theorem State.modLaunch_task (s : State) (l : Nat) (f : Launch → Launch) (n : Nat) : (s.modLaunch l f).task n = s.task n := rfl
@[simp] theorem State.modLaunch_launches (s : State) (l : Nat) (f : Launch → Launch) : (s.modLaunch l f).lanes.launches = s.lanes.launches.modify l f := rfl
@[simp] theorem State.modLaunch_cores (s : State) (l : Nat) (f : Launch → Launch) : (s.modLaunch l f).lanes.cores = s.lanes.cores := rfl
@[simp] theorem State.modLaunch_core (s : State) (l : Nat) (f : Launch → Launch) (n : Nat) : (s.modLaunch l f).core n = s.core n := rfl
@[simp] theorem State.modLaunch_queue (s : State) (l : Nat) (f : Launch → Launch) (n : Nat) : (s.modLaunch l f).queue n = s.queue n := rfl
@[simp] theorem State.modLaunch_vdev (s : State) (l : Nat) (f : Launch → Launch) (n : Nat) : (s.modLaunch l f).vdev n = s.vdev n := rfl

/-! ## modCore -/

@[simp] theorem State.modCore_store (s : State) (c : Nat) (f : Core → Core) : (s.modCore c f).store = s.store := rfl
@[simp] theorem State.modCore_queues (s : State) (c : Nat) (f : Core → Core) : (s.modCore c f).queues = s.queues := rfl
@[simp] theorem State.modCore_vdevs (s : State) (c : Nat) (f : Core → Core) : (s.modCore c f).vdevs = s.vdevs := rfl
@[simp] theorem State.modCore_hearth (s : State) (c : Nat) (f : Core → Core) : (s.modCore c f).hearth = s.hearth := rfl
@[simp] theorem State.modCore_now (s : State) (c : Nat) (f : Core → Core) : (s.modCore c f).now = s.now := rfl
@[simp] theorem State.modCore_sched (s : State) (c : Nat) (f : Core → Core) : (s.modCore c f).sched = s.sched := rfl
@[simp] theorem State.modCore_cur (s : State) (c : Nat) (f : Core → Core) : (s.modCore c f).cur = s.cur := rfl
@[simp] theorem State.modCore_free (s : State) (c : Nat) (f : Core → Core) : (s.modCore c f).free = s.free := rfl
@[simp] theorem State.modCore_moves (s : State) (c : Nat) (f : Core → Core) : (s.modCore c f).moves = s.moves := rfl
@[simp] theorem State.modCore_agents (s : State) (c : Nat) (f : Core → Core) : (s.modCore c f).lanes.agents = s.lanes.agents := rfl
@[simp] theorem State.modCore_agent (s : State) (c : Nat) (f : Core → Core) (n : Nat) : (s.modCore c f).agent n = s.agent n := rfl
@[simp] theorem State.modCore_groups (s : State) (c : Nat) (f : Core → Core) : (s.modCore c f).lanes.groups = s.lanes.groups := rfl
@[simp] theorem State.modCore_group (s : State) (c : Nat) (f : Core → Core) (n : Nat) : (s.modCore c f).group n = s.group n := rfl
@[simp] theorem State.modCore_shares (s : State) (c : Nat) (f : Core → Core) : (s.modCore c f).lanes.shares = s.lanes.shares := rfl
@[simp] theorem State.modCore_share (s : State) (c : Nat) (f : Core → Core) (n : Nat) : (s.modCore c f).share n = s.share n := rfl
@[simp] theorem State.modCore_tasks (s : State) (c : Nat) (f : Core → Core) : (s.modCore c f).lanes.tasks = s.lanes.tasks := rfl
@[simp] theorem State.modCore_task (s : State) (c : Nat) (f : Core → Core) (n : Nat) : (s.modCore c f).task n = s.task n := rfl
@[simp] theorem State.modCore_launches (s : State) (c : Nat) (f : Core → Core) : (s.modCore c f).lanes.launches = s.lanes.launches := rfl
@[simp] theorem State.modCore_launch (s : State) (c : Nat) (f : Core → Core) (n : Nat) : (s.modCore c f).launch n = s.launch n := rfl
@[simp] theorem State.modCore_cores (s : State) (c : Nat) (f : Core → Core) : (s.modCore c f).lanes.cores = s.lanes.cores.modify c f := rfl
@[simp] theorem State.modCore_queue (s : State) (c : Nat) (f : Core → Core) (n : Nat) : (s.modCore c f).queue n = s.queue n := rfl
@[simp] theorem State.modCore_vdev (s : State) (c : Nat) (f : Core → Core) (n : Nat) : (s.modCore c f).vdev n = s.vdev n := rfl

/-! ## modQueue -/

@[simp] theorem State.modQueue_lanes (s : State) (q : Nat) (f : Queue → Queue) : (s.modQueue q f).lanes = s.lanes := rfl
@[simp] theorem State.modQueue_store (s : State) (q : Nat) (f : Queue → Queue) : (s.modQueue q f).store = s.store := rfl
@[simp] theorem State.modQueue_vdevs (s : State) (q : Nat) (f : Queue → Queue) : (s.modQueue q f).vdevs = s.vdevs := rfl
@[simp] theorem State.modQueue_hearth (s : State) (q : Nat) (f : Queue → Queue) : (s.modQueue q f).hearth = s.hearth := rfl
@[simp] theorem State.modQueue_now (s : State) (q : Nat) (f : Queue → Queue) : (s.modQueue q f).now = s.now := rfl
@[simp] theorem State.modQueue_sched (s : State) (q : Nat) (f : Queue → Queue) : (s.modQueue q f).sched = s.sched := rfl
@[simp] theorem State.modQueue_cur (s : State) (q : Nat) (f : Queue → Queue) : (s.modQueue q f).cur = s.cur := rfl
@[simp] theorem State.modQueue_free (s : State) (q : Nat) (f : Queue → Queue) : (s.modQueue q f).free = s.free := rfl
@[simp] theorem State.modQueue_moves (s : State) (q : Nat) (f : Queue → Queue) : (s.modQueue q f).moves = s.moves := rfl
@[simp] theorem State.modQueue_agent (s : State) (q : Nat) (f : Queue → Queue) (n : Nat) : (s.modQueue q f).agent n = s.agent n := rfl
@[simp] theorem State.modQueue_group (s : State) (q : Nat) (f : Queue → Queue) (n : Nat) : (s.modQueue q f).group n = s.group n := rfl
@[simp] theorem State.modQueue_share (s : State) (q : Nat) (f : Queue → Queue) (n : Nat) : (s.modQueue q f).share n = s.share n := rfl
@[simp] theorem State.modQueue_task (s : State) (q : Nat) (f : Queue → Queue) (n : Nat) : (s.modQueue q f).task n = s.task n := rfl
@[simp] theorem State.modQueue_launch (s : State) (q : Nat) (f : Queue → Queue) (n : Nat) : (s.modQueue q f).launch n = s.launch n := rfl
@[simp] theorem State.modQueue_core (s : State) (q : Nat) (f : Queue → Queue) (n : Nat) : (s.modQueue q f).core n = s.core n := rfl
@[simp] theorem State.modQueue_vdev (s : State) (q : Nat) (f : Queue → Queue) (n : Nat) : (s.modQueue q f).vdev n = s.vdev n := rfl
@[simp] theorem State.modQueue_queues (s : State) (q : Nat) (f : Queue → Queue) : (s.modQueue q f).queues = s.queues.modify q f := rfl

/-! ## modVdev -/

@[simp] theorem State.modVdev_lanes (s : State) (v : Nat) (f : Vdev → Vdev) : (s.modVdev v f).lanes = s.lanes := rfl
@[simp] theorem State.modVdev_store (s : State) (v : Nat) (f : Vdev → Vdev) : (s.modVdev v f).store = s.store := rfl
@[simp] theorem State.modVdev_queues (s : State) (v : Nat) (f : Vdev → Vdev) : (s.modVdev v f).queues = s.queues := rfl
@[simp] theorem State.modVdev_hearth (s : State) (v : Nat) (f : Vdev → Vdev) : (s.modVdev v f).hearth = s.hearth := rfl
@[simp] theorem State.modVdev_now (s : State) (v : Nat) (f : Vdev → Vdev) : (s.modVdev v f).now = s.now := rfl
@[simp] theorem State.modVdev_sched (s : State) (v : Nat) (f : Vdev → Vdev) : (s.modVdev v f).sched = s.sched := rfl
@[simp] theorem State.modVdev_cur (s : State) (v : Nat) (f : Vdev → Vdev) : (s.modVdev v f).cur = s.cur := rfl
@[simp] theorem State.modVdev_free (s : State) (v : Nat) (f : Vdev → Vdev) : (s.modVdev v f).free = s.free := rfl
@[simp] theorem State.modVdev_moves (s : State) (v : Nat) (f : Vdev → Vdev) : (s.modVdev v f).moves = s.moves := rfl
@[simp] theorem State.modVdev_agent (s : State) (v : Nat) (f : Vdev → Vdev) (n : Nat) : (s.modVdev v f).agent n = s.agent n := rfl
@[simp] theorem State.modVdev_group (s : State) (v : Nat) (f : Vdev → Vdev) (n : Nat) : (s.modVdev v f).group n = s.group n := rfl
@[simp] theorem State.modVdev_share (s : State) (v : Nat) (f : Vdev → Vdev) (n : Nat) : (s.modVdev v f).share n = s.share n := rfl
@[simp] theorem State.modVdev_task (s : State) (v : Nat) (f : Vdev → Vdev) (n : Nat) : (s.modVdev v f).task n = s.task n := rfl
@[simp] theorem State.modVdev_launch (s : State) (v : Nat) (f : Vdev → Vdev) (n : Nat) : (s.modVdev v f).launch n = s.launch n := rfl
@[simp] theorem State.modVdev_core (s : State) (v : Nat) (f : Vdev → Vdev) (n : Nat) : (s.modVdev v f).core n = s.core n := rfl
@[simp] theorem State.modVdev_queue (s : State) (v : Nat) (f : Vdev → Vdev) (n : Nat) : (s.modVdev v f).queue n = s.queue n := rfl
@[simp] theorem State.modVdev_vdevs (s : State) (v : Nat) (f : Vdev → Vdev) : (s.modVdev v f).vdevs = s.vdevs.modify v f := rfl

/-! ## modStore -/

@[simp] theorem State.modStore_lanes (s : State) (f : Store → Store) : (s.modStore f).lanes = s.lanes := rfl
@[simp] theorem State.modStore_queues (s : State) (f : Store → Store) : (s.modStore f).queues = s.queues := rfl
@[simp] theorem State.modStore_vdevs (s : State) (f : Store → Store) : (s.modStore f).vdevs = s.vdevs := rfl
@[simp] theorem State.modStore_hearth (s : State) (f : Store → Store) : (s.modStore f).hearth = s.hearth := rfl
@[simp] theorem State.modStore_now (s : State) (f : Store → Store) : (s.modStore f).now = s.now := rfl
@[simp] theorem State.modStore_sched (s : State) (f : Store → Store) : (s.modStore f).sched = s.sched := rfl
@[simp] theorem State.modStore_cur (s : State) (f : Store → Store) : (s.modStore f).cur = s.cur := rfl
@[simp] theorem State.modStore_free (s : State) (f : Store → Store) : (s.modStore f).free = s.free := rfl
@[simp] theorem State.modStore_moves (s : State) (f : Store → Store) : (s.modStore f).moves = s.moves := rfl
@[simp] theorem State.modStore_agent (s : State) (f : Store → Store) (n : Nat) : (s.modStore f).agent n = s.agent n := rfl
@[simp] theorem State.modStore_group (s : State) (f : Store → Store) (n : Nat) : (s.modStore f).group n = s.group n := rfl
@[simp] theorem State.modStore_share (s : State) (f : Store → Store) (n : Nat) : (s.modStore f).share n = s.share n := rfl
@[simp] theorem State.modStore_task (s : State) (f : Store → Store) (n : Nat) : (s.modStore f).task n = s.task n := rfl
@[simp] theorem State.modStore_launch (s : State) (f : Store → Store) (n : Nat) : (s.modStore f).launch n = s.launch n := rfl
@[simp] theorem State.modStore_core (s : State) (f : Store → Store) (n : Nat) : (s.modStore f).core n = s.core n := rfl
@[simp] theorem State.modStore_queue (s : State) (f : Store → Store) (n : Nat) : (s.modStore f).queue n = s.queue n := rfl
@[simp] theorem State.modStore_vdev (s : State) (f : Store → Store) (n : Nat) : (s.modStore f).vdev n = s.vdev n := rfl
@[simp] theorem State.modStore_store (s : State) (f : Store → Store) : (s.modStore f).store = f s.store := rfl

/-! ## modHearth -/

@[simp] theorem State.modHearth_lanes (s : State) (f : Hearth → Hearth) : (s.modHearth f).lanes = s.lanes := rfl
@[simp] theorem State.modHearth_store (s : State) (f : Hearth → Hearth) : (s.modHearth f).store = s.store := rfl
@[simp] theorem State.modHearth_queues (s : State) (f : Hearth → Hearth) : (s.modHearth f).queues = s.queues := rfl
@[simp] theorem State.modHearth_vdevs (s : State) (f : Hearth → Hearth) : (s.modHearth f).vdevs = s.vdevs := rfl
@[simp] theorem State.modHearth_now (s : State) (f : Hearth → Hearth) : (s.modHearth f).now = s.now := rfl
@[simp] theorem State.modHearth_sched (s : State) (f : Hearth → Hearth) : (s.modHearth f).sched = s.sched := rfl
@[simp] theorem State.modHearth_cur (s : State) (f : Hearth → Hearth) : (s.modHearth f).cur = s.cur := rfl
@[simp] theorem State.modHearth_free (s : State) (f : Hearth → Hearth) : (s.modHearth f).free = s.free := rfl
@[simp] theorem State.modHearth_moves (s : State) (f : Hearth → Hearth) : (s.modHearth f).moves = s.moves := rfl
@[simp] theorem State.modHearth_agent (s : State) (f : Hearth → Hearth) (n : Nat) : (s.modHearth f).agent n = s.agent n := rfl
@[simp] theorem State.modHearth_group (s : State) (f : Hearth → Hearth) (n : Nat) : (s.modHearth f).group n = s.group n := rfl
@[simp] theorem State.modHearth_share (s : State) (f : Hearth → Hearth) (n : Nat) : (s.modHearth f).share n = s.share n := rfl
@[simp] theorem State.modHearth_task (s : State) (f : Hearth → Hearth) (n : Nat) : (s.modHearth f).task n = s.task n := rfl
@[simp] theorem State.modHearth_launch (s : State) (f : Hearth → Hearth) (n : Nat) : (s.modHearth f).launch n = s.launch n := rfl
@[simp] theorem State.modHearth_core (s : State) (f : Hearth → Hearth) (n : Nat) : (s.modHearth f).core n = s.core n := rfl
@[simp] theorem State.modHearth_queue (s : State) (f : Hearth → Hearth) (n : Nat) : (s.modHearth f).queue n = s.queue n := rfl
@[simp] theorem State.modHearth_vdev (s : State) (f : Hearth → Hearth) (n : Nat) : (s.modHearth f).vdev n = s.vdev n := rfl
@[simp] theorem State.modHearth_hearth (s : State) (f : Hearth → Hearth) : (s.modHearth f).hearth = f s.hearth := rfl

/-! ## modTele -/

@[simp] theorem State.modTele_lanes (s : State) (f : Telemetry → Telemetry) : (s.modTele f).lanes = s.lanes := rfl
@[simp] theorem State.modTele_store (s : State) (f : Telemetry → Telemetry) : (s.modTele f).store = s.store := rfl
@[simp] theorem State.modTele_queues (s : State) (f : Telemetry → Telemetry) : (s.modTele f).queues = s.queues := rfl
@[simp] theorem State.modTele_vdevs (s : State) (f : Telemetry → Telemetry) : (s.modTele f).vdevs = s.vdevs := rfl
@[simp] theorem State.modTele_now (s : State) (f : Telemetry → Telemetry) : (s.modTele f).now = s.now := rfl
@[simp] theorem State.modTele_sched (s : State) (f : Telemetry → Telemetry) : (s.modTele f).sched = s.sched := rfl
@[simp] theorem State.modTele_cur (s : State) (f : Telemetry → Telemetry) : (s.modTele f).cur = s.cur := rfl
@[simp] theorem State.modTele_free (s : State) (f : Telemetry → Telemetry) : (s.modTele f).free = s.free := rfl
@[simp] theorem State.modTele_moves (s : State) (f : Telemetry → Telemetry) : (s.modTele f).moves = s.moves := rfl
@[simp] theorem State.modTele_agent (s : State) (f : Telemetry → Telemetry) (n : Nat) : (s.modTele f).agent n = s.agent n := rfl
@[simp] theorem State.modTele_group (s : State) (f : Telemetry → Telemetry) (n : Nat) : (s.modTele f).group n = s.group n := rfl
@[simp] theorem State.modTele_share (s : State) (f : Telemetry → Telemetry) (n : Nat) : (s.modTele f).share n = s.share n := rfl
@[simp] theorem State.modTele_task (s : State) (f : Telemetry → Telemetry) (n : Nat) : (s.modTele f).task n = s.task n := rfl
@[simp] theorem State.modTele_launch (s : State) (f : Telemetry → Telemetry) (n : Nat) : (s.modTele f).launch n = s.launch n := rfl
@[simp] theorem State.modTele_core (s : State) (f : Telemetry → Telemetry) (n : Nat) : (s.modTele f).core n = s.core n := rfl
@[simp] theorem State.modTele_queue (s : State) (f : Telemetry → Telemetry) (n : Nat) : (s.modTele f).queue n = s.queue n := rfl
@[simp] theorem State.modTele_vdev (s : State) (f : Telemetry → Telemetry) (n : Nat) : (s.modTele f).vdev n = s.vdev n := rfl

/-! ## Reading what an update changes -/

theorem getD_modify {α : Type} (l : List α) (f : α → α) (i j : Nat) (d : α) :
    (l.modify i f).getD j d = if i = j ∧ j < l.length then f (l.getD j d) else l.getD j d := by
  simp only [List.getD_eq_getElem?_getD, List.getElem?_modify]
  by_cases h : j < l.length
  · by_cases e : i = j <;> simp [h, e]
  · simp [h]

theorem State.modAgent_agent (s : State) (a : Nat) (f : Agent → Agent) (n : Nat) :
    (s.modAgent a f).agent n = if a = n ∧ n < s.lanes.agents.length then f (s.agent n) else s.agent n :=
  getD_modify ..
@[simp] theorem State.modAgent_agent_self (s : State) (a : Nat) (f : Agent → Agent) (h_ : a < s.lanes.agents.length) :
    (s.modAgent a f).agent a = f (s.agent a) := by
  simp [State.modAgent_agent, h_]
@[simp] theorem State.modAgent_agent_of_ne (s : State) (a : Nat) (f : Agent → Agent) (n : Nat) (h_ : a ≠ n) :
    (s.modAgent a f).agent n = s.agent n := by
  simp [State.modAgent_agent, h_]
theorem State.modGroup_group (s : State) (g : Nat) (f : Group → Group) (n : Nat) :
    (s.modGroup g f).group n = if g = n ∧ n < s.lanes.groups.length then f (s.group n) else s.group n :=
  getD_modify ..
@[simp] theorem State.modGroup_group_self (s : State) (g : Nat) (f : Group → Group) (h_ : g < s.lanes.groups.length) :
    (s.modGroup g f).group g = f (s.group g) := by
  simp [State.modGroup_group, h_]
@[simp] theorem State.modGroup_group_of_ne (s : State) (g : Nat) (f : Group → Group) (n : Nat) (h_ : g ≠ n) :
    (s.modGroup g f).group n = s.group n := by
  simp [State.modGroup_group, h_]
theorem State.modShare_share (s : State) (h : Nat) (f : Share → Share) (n : Nat) :
    (s.modShare h f).share n = if h = n ∧ n < s.lanes.shares.length then f (s.share n) else s.share n :=
  getD_modify ..
@[simp] theorem State.modShare_share_self (s : State) (h : Nat) (f : Share → Share) (h_ : h < s.lanes.shares.length) :
    (s.modShare h f).share h = f (s.share h) := by
  simp [State.modShare_share, h_]
@[simp] theorem State.modShare_share_of_ne (s : State) (h : Nat) (f : Share → Share) (n : Nat) (h_ : h ≠ n) :
    (s.modShare h f).share n = s.share n := by
  simp [State.modShare_share, h_]
theorem State.modTask_task (s : State) (t : Nat) (f : Task → Task) (n : Nat) :
    (s.modTask t f).task n = if t = n ∧ n < s.lanes.tasks.length then f (s.task n) else s.task n :=
  getD_modify ..
@[simp] theorem State.modTask_task_self (s : State) (t : Nat) (f : Task → Task) (h_ : t < s.lanes.tasks.length) :
    (s.modTask t f).task t = f (s.task t) := by
  simp [State.modTask_task, h_]
@[simp] theorem State.modTask_task_of_ne (s : State) (t : Nat) (f : Task → Task) (n : Nat) (h_ : t ≠ n) :
    (s.modTask t f).task n = s.task n := by
  simp [State.modTask_task, h_]
theorem State.modLaunch_launch (s : State) (l : Nat) (f : Launch → Launch) (n : Nat) :
    (s.modLaunch l f).launch n = if l = n ∧ n < s.lanes.launches.length then f (s.launch n) else s.launch n :=
  getD_modify ..
@[simp] theorem State.modLaunch_launch_self (s : State) (l : Nat) (f : Launch → Launch) (h_ : l < s.lanes.launches.length) :
    (s.modLaunch l f).launch l = f (s.launch l) := by
  simp [State.modLaunch_launch, h_]
@[simp] theorem State.modLaunch_launch_of_ne (s : State) (l : Nat) (f : Launch → Launch) (n : Nat) (h_ : l ≠ n) :
    (s.modLaunch l f).launch n = s.launch n := by
  simp [State.modLaunch_launch, h_]
theorem State.modCore_core (s : State) (c : Nat) (f : Core → Core) (n : Nat) :
    (s.modCore c f).core n = if c = n ∧ n < s.lanes.cores.length then f (s.core n) else s.core n :=
  getD_modify ..
@[simp] theorem State.modCore_core_self (s : State) (c : Nat) (f : Core → Core) (h_ : c < s.lanes.cores.length) :
    (s.modCore c f).core c = f (s.core c) := by
  simp [State.modCore_core, h_]
@[simp] theorem State.modCore_core_of_ne (s : State) (c : Nat) (f : Core → Core) (n : Nat) (h_ : c ≠ n) :
    (s.modCore c f).core n = s.core n := by
  simp [State.modCore_core, h_]
theorem State.modQueue_queue (s : State) (q : Nat) (f : Queue → Queue) (n : Nat) :
    (s.modQueue q f).queue n = if q = n ∧ n < s.queues.length then f (s.queue n) else s.queue n :=
  getD_modify ..
@[simp] theorem State.modQueue_queue_self (s : State) (q : Nat) (f : Queue → Queue) (h_ : q < s.queues.length) :
    (s.modQueue q f).queue q = f (s.queue q) := by
  simp [State.modQueue_queue, h_]
@[simp] theorem State.modQueue_queue_of_ne (s : State) (q : Nat) (f : Queue → Queue) (n : Nat) (h_ : q ≠ n) :
    (s.modQueue q f).queue n = s.queue n := by
  simp [State.modQueue_queue, h_]
theorem State.modVdev_vdev (s : State) (v : Nat) (f : Vdev → Vdev) (n : Nat) :
    (s.modVdev v f).vdev n = if v = n ∧ n < s.vdevs.length then f (s.vdev n) else s.vdev n :=
  getD_modify ..
@[simp] theorem State.modVdev_vdev_self (s : State) (v : Nat) (f : Vdev → Vdev) (h_ : v < s.vdevs.length) :
    (s.modVdev v f).vdev v = f (s.vdev v) := by
  simp [State.modVdev_vdev, h_]
@[simp] theorem State.modVdev_vdev_of_ne (s : State) (v : Nat) (f : Vdev → Vdev) (n : Nat) (h_ : v ≠ n) :
    (s.modVdev v f).vdev n = s.vdev n := by
  simp [State.modVdev_vdev, h_]

end Sys2Proof.Machine
end

