-- ==== Sys2Proof/Laws/Issue.lean ====
section
/-! SUPPORT. The issue of an instruction whose effect on each thread is the thread's own: what it leaves. -/

namespace Sys2Proof.Machine

/-- Change each listed thread in its own way. -/
def State.each (s : State) (f : Nat → Agent → Agent) : List Nat → State
  | [] => s
  | a :: rest => (s.modAgent a (f a)).each f rest

theorem modAgent_modAgent (s : State) (a : Nat) (f g : Agent → Agent) :
    (s.modAgent a f).modAgent a g = s.modAgent a (g ∘ f) := by
  simp [State.modAgent, List.modify_modify_eq]

theorem modAgent_comm (s : State) {a b : Nat} (h : a ≠ b) (f g : Agent → Agent) :
    (s.modAgent a f).modAgent b g = (s.modAgent b g).modAgent a f := by
  simp only [State.modAgent, State.mk.injEq, Lanes.mk.injEq, and_self, and_true]
  rw [List.modify_modify_ne _ _ _ h]

theorem modAgent_eq_const (s : State) (a : Nat) (f : Agent → Agent) :
    s.modAgent a f = s.modAgent a fun _ => f (s.agent a) := by
  simp only [State.modAgent, State.mk.injEq, Lanes.mk.injEq, and_self, and_true]
  apply List.ext_getElem? 
  intro j
  simp only [List.getElem?_modify, State.agent, List.getD_eq_getElem?_getD]
  by_cases h : a = j
  · subst h; cases s.lanes.agents[a]? <;> simp
  · simp [h]

theorem modAgents_eq_each (f : Agent → Agent) (l : List Nat) : ∀ s : State, s.modAgents f l = s.each (fun _ => f) l := by
  induction l with
  | nil => intro s; rfl
  | cons a l ih => intro s; exact ih _

theorem each_modAgent (f : Nat → Agent → Agent) (g : Agent → Agent) {a : Nat} (l : List Nat) :
    ∀ s : State, a ∉ l → (s.modAgent a g).each f l = (s.each f l).modAgent a g := by
  induction l with
  | nil => intro s _; rfl
  | cons b l ih =>
    intro s h
    simp only [List.mem_cons, not_or] at h
    simp only [State.each]
    rw [modAgent_comm s h.1, ih _ h.2]

theorem each_length (f : Nat → Agent → Agent) (l : List Nat) :
    ∀ s : State, (s.each f l).lanes.agents.length = s.lanes.agents.length := by
  induction l with
  | nil => intro s; rfl
  | cons a l ih => intro s; simp [State.each, ih]

theorem each_agent_out (f : Nat → Agent → Agent) {b : Nat} (l : List Nat) :
    ∀ s : State, b ∉ l → (s.each f l).agent b = s.agent b := by
  induction l with
  | nil => intro s _; rfl
  | cons a l ih =>
    intro s h
    simp only [List.mem_cons, not_or] at h
    simp [State.each, ih _ h.2, Ne.symm h.1]

theorem each_agent_in (f : Nat → Agent → Agent) {b : Nat} (l : List Nat) :
    ∀ s : State, l.Nodup → b ∈ l → b < s.lanes.agents.length → (s.each f l).agent b = f b (s.agent b) := by
  induction l with
  | nil => intro s _ h; simp at h
  | cons a l ih =>
    intro s hn h hb
    simp only [List.nodup_cons] at hn
    simp only [State.each]
    by_cases e : b = a
    · subst e; rw [each_agent_out _ _ _ hn.1]; simp [hb]
    · have : b ∈ l := by simpa [e] using h
      rw [ih _ hn.2 this (by simpa using hb)]; simp [Ne.symm e]

theorem each_frame (f : Nat → Agent → Agent) (l : List Nat) :
    ∀ s : State, s.each f l = { s with lanes := { s.lanes with agents := (s.each f l).lanes.agents } } := by
  induction l with
  | nil => intro s; rfl
  | cons a l ih => intro s; simp only [State.each]; rw [ih]; rfl

theorem each_onlyAgents (f : Nat → Agent → Agent) (l : List Nat) (s : State) : OnlyAgents l s (s.each f l) :=
  ⟨each_frame f l s, each_length f l s, fun _ h => each_agent_out f l s h⟩

/-- Two passes over different threads are one. -/
theorem each_each (f g : Nat → Agent → Agent) (l : List Nat) :
    ∀ s : State, l.Nodup → (s.each f l).each g l = s.each (fun a => g a ∘ f a) l := by
  induction l with
  | nil => intro s _; rfl
  | cons a l ih =>
    intro s h
    simp only [List.nodup_cons] at h
    simp only [State.each]
    rw [← each_modAgent f (g a) l _ h.1, modAgent_modAgent, ih _ h.2]

/-- A pass over some of the threads is a pass over all of them that leaves the others. -/
theorem each_filter (p : Nat → Bool) (f : Nat → Agent → Agent) (l : List Nat) :
    ∀ s : State, s.each f (l.filter p) = s.each (fun a => if p a then f a else id) l := by
  induction l with
  | nil => intro s; rfl
  | cons a l ih =>
    intro s
    by_cases h : p a = true
    · simp [h, State.each, ih]
    · have : s.modAgent a id = s := by
        simp only [State.modAgent]
        rw [List.modify_id]
      simp [h, State.each, ih, this]

/-- An effect on a thread alone that leaves its status and its suppression. -/
structure Keeps (f : Agent → Agent) : Prop where
  status : ∀ a, (f a).status = a.status
  supp : ∀ a, (f a).supp = a.supp

theorem orFlags_status (a : Agent) (f : BitVec 5) : (a.orFlags f).status = a.status := by
  simp only [Agent.orFlags]; cases (f == 0#5) <;> rfl
theorem orFlags_supp (a : Agent) (f : BitVec 5) : (a.orFlags f).supp = a.supp := by
  simp only [Agent.orFlags]; cases (f == 0#5) <;> rfl

theorem tick_keeps : Keeps Agent.tick := by
  constructor
  · intro a
    simp only [Agent.tick]
    generalize List.filter _ _ = l
    induction l generalizing a with
    | nil => rfl
    | cons x l ih => simp only [List.foldl_cons]; rw [ih, orFlags_status]
  · intro a
    simp only [Agent.tick]
    generalize List.filter _ _ = l
    induction l generalizing a with
    | nil => rfl
    | cons x l ih => simp only [List.foldl_cons]; rw [ih, orFlags_supp]

theorem live_of {s : State} {a : Nat} (h : a < s.lanes.agents.length) (r : (s.agent a).status = .ready) : s.live a = true := by
  simp [State.live, h, r]

theorem ite_same_live {α : Type} (c : Bool) (x : α) : (if (!c) = true then x else x) = x := by cases c <;> rfl

theorem afterIssue_ready {s : State} {i : Instr} {a : Nat} {o : Agent}
    (hr : (s.agent a).status = .ready) (hs : (s.agent a).supp = o.supp) (ho : o.stepOnce = false) :
    s.afterIssue i a o false = s.modAgent a fun x => x.wPoint i s.free a o := by
  have hsup : (i.ctl.2.w && o.supp.isNone && (s.agent a).supp.isSome) = false := by
    rw [hs]; cases o.supp <;> simp
  have hsee : s.rd a 80 (.csr 0x21) = (s.agent a).see s.free a 80 (.csr 0x21) := rfl
  by_cases hw : waitsFor i ((s.agent a).see s.free a 80 (.csr 0x21)) = true
  · by_cases hout : (s.agent a).outst.isEmpty = true
    · have e : (s.agent a).wPoint i s.free a o = (s.agent a).settle := by simp only [Agent.wPoint, hw, hout, if_true]
      rw [modAgent_eq_const, e, ← modAgent_eq_const s a Agent.settle]
      simp only [State.afterIssue, hsee, hr, hw, hout, hsup, if_true, Bool.not_true, Bool.false_eq_true, if_false,
        Bool.false_and, ite_self, ho]
    · have e : (s.agent a).wPoint i s.free a o =
          (fun x : Agent => { x with status := .parked (.wmark (i.ctl.2.w && o.supp.isNone)) }) (s.agent a) := by
        simp only [Agent.wPoint, hw, hout, if_true, Bool.false_eq_true, if_false]
      rw [modAgent_eq_const, e, ← modAgent_eq_const s a fun x => { x with status := .parked (.wmark (i.ctl.2.w && o.supp.isNone)) }]
      simp only [State.afterIssue, hsee, hr, hw, hout, if_true, Bool.not_false, Bool.false_eq_true, if_false,
        Bool.false_and, ite_self, ho]
  · have e : (s.agent a).wPoint i s.free a o = id (s.agent a) := by
      simp only [Agent.wPoint, hw, Bool.false_eq_true, if_false, id]
    rw [modAgent_eq_const, e, ← modAgent_eq_const s a id]
    simp only [State.afterIssue, hsee, hr, hw, if_false, Bool.false_eq_true, Bool.false_and, ite_self, ho]
    simp only [State.modAgent]; rw [List.modify_id]

/-- A thread that goes on, unstepped, ends as `Agent.after` says. -/
theorem settle_jump {s : State} {i : Instr} {a : Nat} {o : Agent} (pc : DWord) (hl : a < s.lanes.agents.length)
    (hr : (s.agent a).status = .ready) (hs : (s.agent a).supp = o.supp) (ho : o.stepOnce = false) :
    s.settleFate i a o false (.jump pc) = s.modAgent a fun x => x.after i s.free a o pc := by
  have e : (s.continueAt a pc).agent a = (s.agent a).atPc pc := by simp [State.continueAt, hl]; rfl
  simp only [State.settleFate, live_of hl hr, Bool.not_true, Bool.false_eq_true, if_false]
  rw [afterIssue_ready (by rw [e]; exact hr) (by rw [e]; exact hs) ho]
  simp only [State.continueAt, modAgent_modAgent]
  rfl
theorem settle_next {s : State} {i : Instr} {a : Nat} {o : Agent} (hl : a < s.lanes.agents.length)
    (hr : (s.agent a).status = .ready) (hs : (s.agent a).supp = o.supp) (ho : o.stepOnce = false) :
    s.settleFate i a o false .next = s.modAgent a fun x => x.after i s.free a o (o.nextPc i) :=
  settle_jump _ hl hr hs ho

theorem each_congr {f g : Nat → Agent → Agent} (m : List Nat) : ∀ t : State, (∀ a ∈ m, f a = g a) → t.each f m = t.each g m := by
  induction m with
  | nil => intro t _; rfl
  | cons b m ih =>
    intro t h
    simp only [State.each]
    rw [h b (by simp), ih _ fun a ha => h a (by simp [ha])]

theorem each_congr_at {f g : Nat → Agent → Agent} (m : List Nat) : ∀ t : State, m.Nodup →
    (∀ a ∈ m, f a (t.agent a) = g a (t.agent a)) → t.each f m = t.each g m := by
  induction m with
  | nil => intro t _ _; rfl
  | cons b m ih =>
    intro t hn h
    simp only [List.nodup_cons] at hn
    simp only [State.each]
    rw [modAgent_eq_const t b (f b), modAgent_eq_const t b (g b), h b List.mem_cons_self]
    apply ih _ hn.2
    intro a ha
    have hne : b ≠ a := by rintro rfl; exact hn.1 ha
    rw [State.modAgent_agent_of_ne _ _ _ _ hne]
    exact h a (List.mem_cons_of_mem _ ha)

/-- Every thread of a list goes on: to the next instruction, or where it jumps. -/
def Goes (k : Fate) (nxt pc : DWord) : Prop := (k = .next ∧ pc = nxt) ∨ k = .jump pc

theorem settle_all {i : Instr} (l : List (Nat × Agent × Pre × Bool × Fate)) (dest : Nat → DWord) : ∀ s : State,
    (l.map (·.1)).Nodup →
    (∀ x ∈ l, x.1 < s.lanes.agents.length ∧ (s.agent x.1).status = .ready ∧ (s.agent x.1).supp = x.2.1.supp ∧
      x.2.1.stepOnce = false ∧ x.2.2.1 ≠ .deferred ∧ x.2.2.2.1 = false ∧ Goes x.2.2.2.2 (x.2.1.nextPc i) (dest x.1)) →
    l.foldl (fun s (x : Nat × Agent × Pre × Bool × Fate) =>
      bif x.2.2.1 == .deferred then s else s.settleFate i x.1 x.2.1 x.2.2.2.1 x.2.2.2.2) s =
    s.each (fun a x => x.after i s.free a (((l.lookup a).map (·.1)).getD default) (dest a)) (l.map (·.1)) := by
  induction l with
  | nil => intro s _ _; rfl
  | cons x l ih =>
    obtain ⟨a0, o0, p0, st0, k0⟩ := x
    intro s hn hx
    obtain ⟨h1, h2, h3, h4, h5, h6, h7⟩ := hx _ List.mem_cons_self
    dsimp only at h1 h2 h3 h4 h5 h6 h7
    have hstep : (bif p0 == Pre.deferred then s else s.settleFate i a0 o0 st0 k0) =
        s.modAgent a0 fun y => y.after i s.free a0 o0 (dest a0) := by
      have : (p0 == Pre.deferred) = false := by simpa using h5
      rw [this, h6]
      rcases h7 with ⟨e, p⟩ | e
      · rw [e, p]; exact settle_next h1 h2 h3 h4
      · rw [e]; exact settle_jump _ h1 h2 h3 h4
    simp only [List.map_cons, List.nodup_cons] at hn
    simp only [List.foldl_cons, List.map_cons, State.each]
    rw [hstep, ih]
    · have c0 : (fun y : Agent => y.after i s.free a0 o0 (dest a0)) =
          fun y => y.after i s.free a0 (((((a0, o0, p0, st0, k0) :: l).lookup a0).map (·.1)).getD default) (dest a0) := by
        simp
      rw [c0]
      apply each_congr
      intro a ha
      have hne : (a == a0) = false := by
        simp only [beq_eq_false_iff_ne, ne_eq]
        rintro rfl; exact hn.1 ha
      simp only [List.lookup_cons, hne, State.modAgent_free]
    · exact hn.2
    · intro y hy
      have hne : a0 ≠ y.1 := by
        intro e; exact hn.1 (e ▸ List.mem_map_of_mem hy)
      have := hx y (List.mem_cons_of_mem _ hy)
      simpa [State.modAgent_agent_of_ne, hne] using this

theorem ticked_eq (s : State) : s.ticked = s.each (fun _ => Agent.tick) s.cur.agents := modAgents_eq_each ..
@[simp] theorem each_free (f : Nat → Agent → Agent) (l : List Nat) (s : State) : (s.each f l).free = s.free := by
  rw [each_frame]
@[simp] theorem each_cur (f : Nat → Agent → Agent) (l : List Nat) (s : State) : (s.each f l).cur = s.cur := by
  rw [each_frame]
@[simp] theorem ticked_free (s : State) : s.ticked.free = s.free := by rw [ticked_eq, each_free]

theorem lookup_map {β : Type} (l : List Nat) (g : Nat → β) : ∀ a, a ∈ l → (l.map fun x => (x, g x)).lookup a = some (g a) := by
  induction l with
  | nil => intro a h; simp at h
  | cons b l ih =>
    intro a h
    by_cases e : a = b
    · subst e; simp
    · have : (a == b) = false := by simpa using e
      simp [List.lookup_cons, this, ih a (by simpa [e] using h)]

theorem trap_all_next (l : List (Nat × Agent × Pre × Bool × Fate)) (hd : ∀ x ∈ l, x.2.2.1 ≠ .deferred)
    (hk : ∀ x ∈ l, x.2.2.2.2 = .next ∨ ∃ pc, x.2.2.2.2 = .jump pc) : ∀ s : State,
    l.foldl (fun s (x : Nat × Agent × Pre × Bool × Fate) =>
      bif x.2.2.1 == .deferred then s.deferFate x.1 x.2.1 else s.trapFate x.1 x.2.1 x.2.2.2.2) s = s := by
  induction l with
  | nil => intro s; rfl
  | cons x l ih =>
    intro s
    have h1 : (x.2.2.1 == Pre.deferred) = false := by simpa using hd x List.mem_cons_self
    have h2 : s.trapFate x.1 x.2.1 x.2.2.2.2 = s := by
      simp only [State.trapFate]
      split
      · rfl
      · rcases hk x List.mem_cons_self with e | ⟨pc, e⟩ <;> rw [e]
    rw [List.foldl_cons, h1, cond_false, h2]
    exact ih (fun y hy => hd y (List.mem_cons_of_mem _ hy)) (fun y hy => hk y (List.mem_cons_of_mem _ hy)) s

/-- The issue of an instruction whose effect on each thread that performs it is the thread's own. -/
theorem issue_each {s : State} {i : Instr} {body : List Nat → State → State × List (Nat × Fate)}
    (f : Nat → Agent → Agent) (k : Nat → Fate) (dest : Nat → DWord) (ht : Together s i) (hf : ∀ a, Keeps (f a))
    (hb : body (s.performers i) s.ticked = (s.ticked.each f (s.performers i), (s.performers i).map fun a => (a, k a)))
    (hk : ∀ a, Goes (k a) ((s.agent a).nextPc i) (dest a)) :
    s.issue i body = s.each (fun a _ =>
      if s.goes i a = true then (f a (s.agent a).tick).after i s.free a (s.agent a) (dest a)
      else (s.agent a).tick.after i s.free a (s.agent a) ((s.agent a).nextPc i)) s.cur.agents := by
  obtain ⟨hn, hall⟩ := ht
  have hlen : ∀ a ∈ s.cur.agents, a < s.lanes.agents.length := fun a h => (hall a h).1.1
  -- the fates
  have hgo : (s.cur.agents.map fun a => (a, s.agent a)).map (fun (x : Nat × Agent) =>
      (x.1, x.2, s.ticked.pre i x.1, (s.ticked.debugSeen x.1 82 0x801 (s.ticked.agent x.1).issued).getLsbD 8)) =
      s.cur.agents.map fun a => (a, s.agent a, s.ticked.pre i a, false) := by
    rw [List.map_map]
    apply List.map_congr_left
    intro a ha
    simp only [Function.comp, (hall a ha).1.2.2.2]
  have hfilter : (s.cur.agents.map fun a => (a, s.agent a, s.ticked.pre i a, false)).filterMap
      (fun (x : Nat × Agent × Pre × Bool) => bif x.2.2.1 == .go then some x.1 else none) = s.performers i := by
    rw [List.filterMap_map]
    simp only [State.performers]
    generalize s.cur.agents = l
    induction l with
    | nil => rfl
    | cons a l ih =>
      by_cases e : (s.ticked.pre i a == Pre.go) = true
      · rw [List.filter_cons_of_pos (by exact e), List.filterMap_cons_some (b := a) (by simp [e]), ih]
      · rw [List.filter_cons_of_neg (by exact e), List.filterMap_cons_none (by simp [e]), ih]
  let fin : Nat → Fate := fun a => if s.goes i a then k a else .next
  have hfates : (s.cur.agents.map fun a => (a, s.agent a, s.ticked.pre i a, false)).map
      (fun (x : Nat × Agent × Pre × Bool) => (x.1, x.2.1, x.2.2.1, x.2.2.2,
        x.2.2.1.fate none ((((s.performers i).map fun a => (a, k a)).lookup x.1).getD .next))) =
      s.cur.agents.map fun a => (a, s.agent a, s.ticked.pre i a, false, fin a) := by
    rw [List.map_map]
    apply List.map_congr_left
    intro a ha
    simp only [Function.comp, fin]
    rcases (hall a ha).2 with e | e
    · have e' : s.ticked.pre i a = .go := e
      have hg : s.goes i a = true := by simp [State.goes, e']
      have hm : a ∈ s.performers i := by simp [State.performers, ha, hg]
      rw [lookup_map _ _ a hm, e', hg]; rfl
    · have e' : s.ticked.pre i a = .skip := e
      have hg : s.goes i a = false := by simp [State.goes, e']
      rw [e', hg]; rfl
  have hstuck : (issuesAsOne i && (s.cur.agents.map fun a => (a, s.agent a, s.ticked.pre i a, false)).any
      fun (x : Nat × Agent × Pre × Bool) => x.2.2.1 == Pre.stall) = false := by
    refine Bool.and_eq_false_imp.mpr fun _ => ?_
    rw [List.any_map, List.any_eq_false]
    intro a ha
    rcases (hall a ha).2 with e | e
    · have e' : s.ticked.pre i a = .go := e
      simp [e']
    · have e' : s.ticked.pre i a = .skip := e
      simp [e']
  have hheld : commandHold i ((s.performers i).map fun a => (a, k a)) = none := by
    simp only [commandHold, List.findSome?_eq_none_iff, List.mem_map]
    rintro _ ⟨a, _, rfl⟩
    rcases hk a with ⟨e, _⟩ | e <;> simp [e]
  have main : s.issue i body =
      let l := s.cur.agents.map fun a => (a, s.agent a, s.ticked.pre i a, false, fin a)
      l.foldl (fun s (x : Nat × Agent × Pre × Bool × Fate) =>
          bif x.2.2.1 == .deferred then s.deferFate x.1 x.2.1 else s.trapFate x.1 x.2.1 x.2.2.2.2)
        (l.foldl (fun s (x : Nat × Agent × Pre × Bool × Fate) =>
          bif x.2.2.1 == .deferred then s else s.settleFate i x.1 x.2.1 x.2.2.2.1 x.2.2.2.2)
          (s.ticked.each f (s.performers i))) := by
    have e1 : s.issue i body =
        let pres := (s.cur.agents.map fun a => (a, s.agent a)).map (fun (x : Nat × Agent) =>
          (x.1, x.2, s.ticked.pre i x.1, (s.ticked.debugSeen x.1 82 0x801 (s.ticked.agent x.1).issued).getLsbD 8))
        let stuck := issuesAsOne i && pres.any fun (x : Nat × Agent × Pre × Bool) => x.2.2.1 == Pre.stall
        let r := body (pres.filterMap fun (x : Nat × Agent × Pre × Bool) => bif x.2.2.1 == .go && !stuck then some x.1 else none) s.ticked
        let fates := pres.map fun (x : Nat × Agent × Pre × Bool) => (x.1, x.2.1, x.2.2.1, x.2.2.2,
          x.2.2.1.fate (bif stuck then some .stall else commandHold i r.2) ((r.2.lookup x.1).getD (bif stuck then .stall else .next)))
        fates.foldl (fun s (x : Nat × Agent × Pre × Bool × Fate) =>
            bif x.2.2.1 == .deferred then s.deferFate x.1 x.2.1 else s.trapFate x.1 x.2.1 x.2.2.2.2)
          (fates.foldl (fun s (x : Nat × Agent × Pre × Bool × Fate) =>
            bif x.2.2.1 == .deferred then s else s.settleFate i x.1 x.2.1 x.2.2.2.1 x.2.2.2.2) r.1) := rfl
    rw [e1]
    simp only [hgo, hstuck, Bool.not_false, Bool.and_true, hfilter, hb, cond_false, hheld, hfates]
  have hto : ∀ a, Goes (fin a) ((s.agent a).nextPc i) (if s.goes i a then dest a else (s.agent a).nextPc i) := by
    intro a
    by_cases e : s.goes i a = true
    · simpa [fin, e] using hk a
    · simp [fin, e, Goes]
  have hagent : ∀ a ∈ s.cur.agents, (s.ticked.each f (s.performers i)).agent a =
      (if s.goes i a then f a (s.agent a).tick else (s.agent a).tick) := by
    intro a ha
    have ht : s.ticked.agent a = (s.agent a).tick := by
      rw [ticked_eq]; exact each_agent_in _ _ s hn ha (hlen a ha)
    by_cases e : s.goes i a = true
    · have hm : a ∈ s.performers i := by simp [State.performers, ha, e]
      have hl : a < s.ticked.lanes.agents.length := by rw [ticked_eq, each_length]; exact hlen a ha
      have hp : (s.performers i).Nodup := hn.filter _
      rw [each_agent_in _ _ _ hp hm hl, ht]
      simp [e]
    · have hm : a ∉ s.performers i := by simp [State.performers, e]
      rw [each_agent_out _ _ _ hm, ht]; simp [e]
  rw [main]
  simp only
  rw [settle_all _ fun a => if s.goes i a then dest a else (s.agent a).nextPc i]
  · rw [trap_all_next]
    · rw [List.map_map]
      have hid : s.cur.agents.map ((fun (x : Nat × Agent × Pre × Bool × Fate) => x.1) ∘
          fun a => (a, s.agent a, s.ticked.pre i a, false, fin a)) = s.cur.agents := by
        rw [show ((fun (x : Nat × Agent × Pre × Bool × Fate) => x.1) ∘
          fun a => (a, s.agent a, s.ticked.pre i a, false, fin a)) = id from rfl, List.map_id]
      rw [hid]
      simp only [State.performers, each_filter, ticked_eq, each_free]
      rw [each_each _ _ _ _ hn, each_each _ _ _ _ hn]
      apply each_congr_at _ _ hn
      intro a ha
      rw [← ticked_eq, lookup_map _ (fun a => (s.agent a, s.ticked.pre i a, false, fin a)) a ha]
      simp only [Function.comp, Option.map_some, Option.getD_some]
      by_cases e : s.goes i a = true
      · simp [e]
      · simp [e]
    · intro x hx; simp only [List.mem_map] at hx; obtain ⟨a, ha, rfl⟩ := hx
      rcases (hall a ha).2 with e | e
      · have e' : s.ticked.pre i a = .go := e
        simp [e']
      · have e' : s.ticked.pre i a = .skip := e
        simp [e']
    · intro x hx; simp only [List.mem_map] at hx; obtain ⟨a, ha, rfl⟩ := hx
      rcases hto a with ⟨e, _⟩ | e
      · exact .inl e
      · exact .inr ⟨_, e⟩
  · rw [List.map_map]
    rw [show ((fun (x : Nat × Agent × Pre × Bool × Fate) => x.1) ∘
          fun a => (a, s.agent a, s.ticked.pre i a, false, fin a)) = id from rfl, List.map_id]
    exact hn
  · intro x hx; simp only [List.mem_map] at hx; obtain ⟨a, ha, rfl⟩ := hx
    refine ⟨by rw [each_length, ticked_eq, each_length]; exact hlen a ha, ?_, ?_, (hall a ha).1.2.2.1, ?_, rfl, hto a⟩
    · rw [hagent a ha]; split
      · rw [(hf a).status, tick_keeps.status]; exact (hall a ha).1.2.1
      · rw [tick_keeps.status]; exact (hall a ha).1.2.1
    · rw [hagent a ha]; split
      · rw [(hf a).supp, tick_keeps.supp]
      · rw [tick_keeps.supp]
    · rcases (hall a ha).2 with e | e
      · have e' : s.ticked.pre i a = .go := e
        simp [e']
      · have e' : s.ticked.pre i a = .skip := e
        simp [e']

end Sys2Proof.Machine
end

