-- ==== Sys2Proof/Laws/Local.lean ====
section
/-! SUPPORT. Effects of an instruction that are a thread's own: bodies that change each thread alone, and reads of its own registers. -/

namespace Sys2Proof.Machine

/-- Two states that differ in threads only. -/
def Beside (s t : State) : Prop := t = { s with lanes := { s.lanes with agents := t.lanes.agents } }

theorem Beside.refl (s : State) : Beside s s := rfl
theorem Beside.modAgent {s t : State} (h : Beside s t) (a : Nat) (f : Agent → Agent) : Beside s (t.modAgent a f) := by
  unfold Beside at *; rw [h]; rfl
theorem Beside.free {s t : State} (h : Beside s t) : t.free = s.free := by rw [h]

/-- A body whose effect on each thread is the thread's own changes each listed thread. -/
theorem perThread_each {T : State} {g : Nat → State → State × Fate} (f : Nat → Agent → Agent) (k : Nat → Fate) (l : List Nat) :
    l.Nodup →
    (∀ a ∈ l, ∀ s', Beside T s' → s'.agent a = T.agent a → g a s' = (s'.modAgent a (f a), k a)) →
    ∀ s', Beside T s' → (∀ a ∈ l, s'.agent a = T.agent a) →
    perThread g l s' = (s'.each f l, l.map fun a => (a, k a)) := by
  induction l with
  | nil => intro _ _ s' _ _; rfl
  | cons a l ih =>
    intro hn hg s' hb ha
    simp only [List.nodup_cons] at hn
    have h1 := hg a List.mem_cons_self s' hb (ha a List.mem_cons_self)
    have h2 := ih hn.2 (fun b hb' => hg b (List.mem_cons_of_mem _ hb')) (s'.modAgent a (f a)) (hb.modAgent a (f a)) (by
      intro b hb'
      have hne : a ≠ b := by rintro rfl; exact hn.1 hb'
      rw [State.modAgent_agent_of_ne _ _ _ _ hne]
      exact ha b (List.mem_cons_of_mem _ hb'))
    simp only [perThread, h1, h2, State.each, List.map_cons]

/-- The same for a body that never traps, waits or jumps. -/
theorem plain_each {T : State} {g : Nat → State → State} (f : Nat → Agent → Agent) {l : List Nat} (hn : l.Nodup)
    (hg : ∀ a ∈ l, ∀ s', Beside T s' → s'.agent a = T.agent a → g a s' = s'.modAgent a (f a)) :
    plain g l T = (T.each f l, l.map fun a => (a, .next)) :=
  perThread_each f (fun _ => .next) l hn (fun a ha s' hb h => by rw [hg a ha s' hb h]) T (.refl T) fun _ _ => rfl

/-- What `issue_each` says, in the words of claims. -/
theorem issue_becomes {s : State} {i : Instr} {body : List Nat → State → State × List (Nat × Fate)}
    (f : Nat → Agent → Agent) (ht : Together s i) (hf : ∀ a, Keeps (f a))
    (hb : ∀ l, l.Nodup → (∀ a ∈ l, a ∈ s.cur.agents) → body l s.ticked = (s.ticked.each f l, l.map fun a => (a, .next))) :
    EachBecomes s i f (s.issue i body) := by
  rw [issue_each f (fun _ => .next) (fun a => (s.agent a).nextPc i) ht hf
    (hb _ (ht.1.filter _) (fun a h => (List.mem_filter.1 h).1)) (fun a => .inl ⟨rfl, rfl⟩)]
  refine ⟨each_onlyAgents _ _ _, fun ag h => ?_⟩
  rw [each_agent_in _ _ s ht.1 h (ht.2 ag h).1.1]
  constructor
  · intro (e : s.ticked.pre i ag = .go)
    simp [State.goes, e]
  · intro (e : s.ticked.pre i ag = .skip)
    simp [State.goes, e]

/-! ## Reads of a thread's own registers -/

theorem rd_local {s t : State} {a : Nat} (hb : Beside s t) (h : t.agent a = s.agent a) (pos : Nat) (d : Dst) :
    t.rd a pos d = s.rd a pos d := by simp only [State.rd, h, hb.free]

theorem wr_eq (s : State) (ag lat : Nat) (d : Option Dst) (x : Word) :
    s.wr ag lat d x = s.modAgent ag fun a => match d with
      | none => a
      | some d => a.write lat d x := by
  cases d with
  | none =>
    show s = s.modAgent ag id
    simp [State.modAgent, List.modify_id]
  | some d => rfl
theorem wr_put (s : State) (ag lat : Nat) (d : Option Dst) (x : Word) : s.wr ag lat d x = s.modAgent ag fun a => a.put lat d x := wr_eq ..

theorem write_keeps (lat : Nat) (d : Dst) (x : Word) : Keeps fun a => a.write lat d x := by
  constructor <;> intro a <;> cases d with
  | reg n => rfl
  | pred n => rfl
  | csr n => simp only [Agent.write, Agent.set]; split <;> rfl
theorem put_keeps (lat : Nat) (d : Option Dst) (x : Word) : Keeps fun a => a.put lat d x := by
  cases d with
  | none => exact ⟨fun _ => rfl, fun _ => rfl⟩
  | some d => exact write_keeps lat d x

theorem reg_local {s t : State} {a : Nat} (hb : Beside s t) (h : t.agent a = s.agent a) (pos : Nat) (r : Reg) :
    t.reg a pos r = s.reg a pos r := by simp only [State.reg, rd_local hb h]
theorem regN_local {s t : State} {a : Nat} (hb : Beside s t) (h : t.agent a = s.agent a) (pos n : Nat) :
    t.regN a pos n = s.regN a pos n := by simp only [State.regN, rd_local hb h]
theorem pair_local {s t : State} {a : Nat} (hb : Beside s t) (h : t.agent a = s.agent a) (pos : Nat) (r : Reg) :
    t.pair a pos r = s.pair a pos r := by simp only [State.pair, regN_local hb h]
theorem pred_local {s t : State} {a : Nat} (hb : Beside s t) (h : t.agent a = s.agent a) (pos : Nat) (p : BitVec 3) :
    t.pred a pos p = s.pred a pos p := by simp only [State.pred, rd_local hb h]
theorem b7_local {s t : State} {a : Nat} (hb : Beside s t) (h : t.agent a = s.agent a) (b : Src7) : t.b7 a b = s.b7 a b := by
  cases b <;> simp only [State.b7, reg_local hb h]
theorem b32_local {s t : State} {a : Nat} (hb : Beside s t) (h : t.agent a = s.agent a) (b : Src) : t.b32 a b = s.b32 a b := by
  cases b <;> simp only [State.b32, reg_local hb h]
theorem b64_local {s t : State} {a : Nat} (hb : Beside s t) (h : t.agent a = s.agent a) (b : Src) : t.b64 a b = s.b64 a b := by
  cases b <;> simp only [State.b64, pair_local hb h]

end Sys2Proof.Machine
end

