-- ==== Sys2Proof/Laws/Alone.lean ====
section
/-! SUPPORT. The issue of an instruction by one thread alone. -/

namespace Sys2Proof.Machine

/-- What an instruction that a thread performs alone leaves: its effect, and what becomes of the thread. -/
theorem issue_alone {s : State} {i : Instr} {ag : Nat} {body : List Nat → State → State × List (Nat × Fate)}
    (h : Alone s i ag) :
    s.issue i body = Ends s i ag (body [ag] s.ticked).1 (((body [ag] s.ticked).2.lookup ag).getD .next) := by
  obtain ⟨hc, ⟨_, _, _, hst⟩, hp⟩ := h
  have hp' : (s.modAgents Agent.tick [ag]).pre i ag = .go := by
    have : s.ticked = s.modAgents Agent.tick [ag] := by simp only [State.ticked, hc]
    rw [← this]; exact hp
  have hst' : ((s.modAgents Agent.tick [ag]).debugSeen ag 82 0x801 ((s.modAgents Agent.tick [ag]).agent ag).issued).getLsbD 8 = false := by
    have : s.ticked = s.modAgents Agent.tick [ag] := by simp only [State.ticked, hc]
    rw [← this]; exact hst
  have ht : s.ticked = s.modAgents Agent.tick [ag] := by simp only [State.ticked, hc]
  have hs : (Pre.go == Pre.stall) = false := rfl
  simp only [State.issue, hc, List.map_cons, List.map_nil, hp', hst', List.filterMap_cons, List.filterMap_nil, beq_self_eq_true,
    List.any_cons, List.any_nil, hs, Bool.or_self, Bool.and_false, Bool.not_false, Bool.and_self, cond_false, cond_true,
    List.foldl_cons, List.foldl_nil, Ends, ht, Pre.fate]
  rfl
/-- The same for a body that treats each thread alone. -/
theorem perThread_alone {s : State} {i : Instr} {ag : Nat} {g : Nat → State → State × Fate} {t : State} {k : Fate}
    (h : Alone s i ag) (hg : g ag s.ticked = (t, k)) : s.issue i (perThread g) = Ends s i ag t k := by
  rw [issue_alone h]; simp [perThread, hg]
/-- The same for a body that never traps or waits. -/
theorem plain_alone {s : State} {i : Instr} {ag : Nat} {g : Nat → State → State} {t : State}
    (h : Alone s i ag) (hg : g ag s.ticked = t) : s.issue i (plain g) = Ends s i ag t .next :=
  perThread_alone h (by simp [hg])
/-- The same for a body that the elected thread performs. -/
theorem elected_alone {s : State} {i : Instr} {ag : Nat} {g : Nat → State → State × Fate} {t : State} {k : Fate}
    (h : Alone s i ag) (hg : g ag s.ticked = (t, k)) : s.issue i (elected g) = Ends s i ag t k := by
  rw [issue_alone h]; simp [elected, hg]

theorem orFlags_home (a : Agent) (f : BitVec 5) : (a.orFlags f).home = a.home := by
  simp only [Agent.orFlags]; cases (f == 0#5) <;> rfl
theorem set_home (a : Agent) (d : Dst) (x : Word) : (a.set d x).home = a.home := by
  cases d with
  | reg n => rfl
  | pred n => rfl
  | csr n => simp only [Agent.set]; split <;> rfl
/-- Writing its results leaves what a thread is. -/
theorem settle_home (a : Agent) : a.settle.home = a.home := by
  have h1 : ∀ (l : List (Dst × Word)) (a : Agent), (l.foldl (fun a x => a.set x.1 x.2) a).home = a.home := by
    intro l; induction l with
    | nil => intro a; rfl
    | cons x l ih => intro a; rw [List.foldl_cons, ih, set_home]
  have h2 : ∀ (l : List Outst) (a : Agent), (l.foldl Agent.settleOne a).home = a.home := by
    intro l; induction l with
    | nil => intro a; rfl
    | cons x l ih => intro a; rw [List.foldl_cons, ih]; simp only [Agent.settleOne, orFlags_home]; exact h1 _ _
  exact h2 _ _
/-- A change of a thread that leaves what it is leaves its group. -/
theorem modAgent_groupOf (s : State) (ag : Nat) (f : Agent → Agent) (h : ∀ a, (f a).home = a.home) :
    (s.modAgent ag f).groupOf ag = s.groupOf ag := by
  have : ((s.modAgent ag f).agent ag).home = (s.agent ag).home := by
    simp only [State.agent, State.modAgent, List.getD_eq_getElem?_getD, List.getElem?_modify, if_true]
    cases s.lanes.agents[ag]? <;> simp [h]
  simp only [State.groupOf, this]

end Sys2Proof.Machine
end

