-- ==== Sys2Proof/Laws/Values.lean ====
section
/-! SUPPORT. The model's integer values are those of the spec's tables. -/

namespace Sys2Proof.Claims
open Sys2Proof.Machine

theorem add_val (sat : Bool) (a b : Word) : vAdd sat a b = satTo sat (a.toInt + b.toInt) := by
  cases sat
  · simp [vAdd, satTo, wrap, BitVec.ofInt_add]
  · simp only [vAdd, sat32, satTo, wrap, clamp, cond_true, if_true]
    congr 1; split <;> (try split) <;> omega
theorem sub_val (sat : Bool) (a b : Word) : vSub sat a b = satTo sat (a.toInt - b.toInt) := by
  cases sat
  · simp only [vSub, satTo, wrap, cond_false, Bool.false_eq_true, if_false]
    exact BitVec.eq_of_toInt_eq (by simp [BitVec.toInt_sub, BitVec.toInt_ofInt])
  · simp only [vSub, sat32, satTo, wrap, clamp, cond_true, if_true]
    congr 1; split <;> (try split) <;> omega
theorem mul_val (a b : Word) : a * b = wrap (a.toInt * b.toInt) := by
  simp [wrap, BitVec.ofInt_mul]
theorem mad_val (a b c : Word) : a * b + c = wrap (a.toInt * b.toInt + c.toInt) := by
  simp [wrap, BitVec.ofInt_mul, BitVec.ofInt_add]
theorem extract_hi (x : BitVec 64) : x.extractLsb' 32 32 = BitVec.ofNat 32 (x.toNat / 2 ^ 32) := by
  apply BitVec.eq_of_toNat_eq
  simp [BitVec.toNat_ofNat, Nat.shiftRight_eq_div_pow]
theorem mulh_val (u : Bool) (a b : Word) : vMulh u a b = wrap (valOf u a * valOf u b / 2 ^ 32) := by
  cases u
  · simp only [vMulh, valOf, cond_false, Bool.false_eq_true, if_false, wrap]
    rw [extract_hi]
    have ha := BitVec.toInt_signExtend_of_le (x := a) (v := 64) (by omega)
    have hb := BitVec.toInt_signExtend_of_le (x := b) (v := 64) (by omega)
    have h : (a.signExtend 64 * b.signExtend 64) = BitVec.ofInt 64 (a.toInt * b.toInt) := by
      rw [← ha, ← hb, BitVec.ofInt_mul]; simp
    rw [h]
    apply BitVec.eq_of_toNat_eq
    simp only [BitVec.toNat_ofNat, BitVec.toNat_ofInt]
    generalize a.toInt * b.toInt = z
    omega
  · simp only [vMulh, valOf, cond_true, if_true, wrap]
    have ha := a.isLt
    have hb := b.isLt
    have hz : (a.setWidth 64 * b.setWidth 64).toNat = a.toNat * b.toNat := by
      rw [BitVec.toNat_mul, BitVec.toNat_setWidth, BitVec.toNat_setWidth, Nat.mod_eq_of_lt (a := a.toNat) (by omega),
        Nat.mod_eq_of_lt (a := b.toNat) (by omega), Nat.mod_eq_of_lt (by nlinarith)]
    rw [extract_hi, hz, ← Int.natCast_mul]
    exact (BitVec.ofInt_natCast ..).symm
theorem wrap_toInt (a : Word) : wrap a.toInt = a := by simp [wrap]
theorem wrap_toNat (a : Word) : wrap a.toNat = a := by simp [wrap]
theorem min_val (u : Bool) (a b : Word) : vMin u a b = wrap (min (valOf u a) (valOf u b)) := by
  cases u
  · simp only [vMin, valOf, cond_false, Bool.false_eq_true, if_false, BitVec.sle]
    by_cases h : a.toInt ≤ b.toInt
    · simp [h, wrap_toInt]
    · rw [min_eq_right (by omega)]; simp [h, wrap_toInt]
  · simp only [vMin, valOf, cond_true, if_true, BitVec.ule]
    by_cases h : a.toNat ≤ b.toNat
    · rw [min_eq_left (by omega)]; simp [h, wrap_toNat]
    · rw [min_eq_right (by omega)]; simp [h, wrap_toNat]
theorem max_val (u : Bool) (a b : Word) : vMax u a b = wrap (max (valOf u a) (valOf u b)) := by
  cases u
  · simp only [vMax, valOf, cond_false, Bool.false_eq_true, if_false, BitVec.sle]
    by_cases h : b.toInt ≤ a.toInt
    · simp [h, wrap_toInt]
    · rw [max_eq_right (by omega)]; simp [h, wrap_toInt]
  · simp only [vMax, valOf, cond_true, if_true, BitVec.ule]
    by_cases h : b.toNat ≤ a.toNat
    · rw [max_eq_left (by omega)]; simp [h, wrap_toNat]
    · rw [max_eq_right (by omega)]; simp [h, wrap_toNat]
theorem pow_big {n : Nat} (h : 32 ≤ n) : 2 ^ n = 2 ^ 32 * 2 ^ (n - 32) := by rw [← pow_add]; congr 1; omega
theorem shl_val (a b : Word) : vShl a b = BitVec.ofNat 32 (a.toNat * 2 ^ b.toNat) := by
  simp only [vShl, BitVec.ult]
  by_cases h : b.toNat < 32
  · simp only [BitVec.toNat_ofNat, Nat.reducePow, Nat.reduceMod, h, decide_true, cond_true]
    apply BitVec.eq_of_toNat_eq
    simp [Nat.shiftLeft_eq]
  · simp only [BitVec.toNat_ofNat, Nat.reducePow, Nat.reduceMod, h, decide_false, cond_false]
    apply BitVec.eq_of_toNat_eq
    rw [BitVec.toNat_ofNat, pow_big (n := b.toNat) (by omega), show a.toNat * (2 ^ 32 * 2 ^ (b.toNat - 32)) = 2 ^ 32 * (a.toNat * 2 ^ (b.toNat - 32)) by ring]
    simp
theorem shr_val (a b : Word) : vShr a b = BitVec.ofNat 32 (a.toNat / 2 ^ b.toNat) := by
  simp only [vShr, BitVec.ult]
  by_cases h : b.toNat < 32
  · simp only [BitVec.toNat_ofNat, Nat.reducePow, Nat.reduceMod, h, decide_true, cond_true]
    apply BitVec.eq_of_toNat_eq
    simp only [BitVec.toNat_ushiftRight, Nat.shiftRight_eq_div_pow, BitVec.toNat_ofNat]
    exact (Nat.mod_eq_of_lt (lt_of_le_of_lt (Nat.div_le_self _ _) a.isLt)).symm
  · simp only [BitVec.toNat_ofNat, Nat.reducePow, Nat.reduceMod, h, decide_false, cond_false]
    rw [Nat.div_eq_of_lt]
    exact lt_of_lt_of_le a.isLt (Nat.pow_le_pow_right (by omega) (by omega))
theorem sar_val (a b : Word) : vSar a b = wrap (a.toInt / 2 ^ b.toNat) := by
  have key : ∀ n, a.sshiftRight n = wrap (a.toInt / 2 ^ n) := by
    intro n
    apply BitVec.eq_of_toInt_eq
    simp only [BitVec.toInt_sshiftRight, wrap, Int.shiftRight_eq_div_pow, BitVec.toInt_ofInt]
    have h1 := BitVec.toInt_lt (x := a)
    have h2 := BitVec.le_toInt (x := a)
    have hp : (0 : Int) < 2 ^ n := by positivity
    rw [Int.bmod_eq_of_le]
    · simp
    · have : (-(2 ^ 31) : Int) ≤ a.toInt / 2 ^ n := by
        rw [Int.le_ediv_iff_mul_le hp]
        have : (1 : Int) ≤ 2 ^ n := by exact_mod_cast Nat.one_le_two_pow
        norm_num at h2
        nlinarith
      norm_num; simpa using this
    · have : a.toInt / 2 ^ n < 2 ^ 31 := by
        rw [Int.ediv_lt_iff_lt_mul hp]
        have : (1 : Int) ≤ 2 ^ n := by exact_mod_cast Nat.one_le_two_pow
        norm_num at h1
        nlinarith
      norm_num; simpa using this
  simp only [vSar, BitVec.ult]
  by_cases h : b.toNat < 32
  · simp only [BitVec.toNat_ofNat, Nat.reducePow, Nat.reduceMod, h, decide_true, cond_true]
    exact key _
  · simp only [BitVec.toNat_ofNat, Nat.reducePow, Nat.reduceMod, h, decide_false, cond_false]
    rw [key]
    have h1 := BitVec.toInt_lt (x := a)
    have h2 := BitVec.le_toInt (x := a)
    norm_num at h1 h2
    congr 1
    have hb : ∀ n, 31 ≤ n → a.toInt / 2 ^ n = if a.toInt < 0 then -1 else 0 := by
      intro n hn
      have hle : (2 ^ 31 : Int) ≤ 2 ^ n := by exact_mod_cast Nat.pow_le_pow_right (by omega) hn
      norm_num at hle
      have hp : (0 : Int) < 2 ^ n := by positivity
      split
      · rw [Int.ediv_eq_iff_of_pos hp]; constructor <;> linarith
      · rw [Int.ediv_eq_zero_of_lt] <;> linarith
    rw [hb 31 (le_refl _), hb b.toNat (by omega)]

theorem toInt_min {a : Word} (h : a ≠ 0x80000000#32) : -(2 ^ 31) < a.toInt := by
  have h2 := BitVec.le_toInt (x := a)
  norm_num at h2
  rcases lt_or_eq_of_le h2 with e | e
  · norm_num; exact e
  · exact absurd (BitVec.eq_of_toInt_eq (by rw [← e]; rfl)) h
theorem neg_val (sat : Bool) (a : Word) : vNeg sat a = satTo sat (-a.toInt) := by
  unfold vNeg
  by_cases h : a = 0x80000000#32
  · subst h; cases sat <;> rfl
  · have h1 := BitVec.toInt_lt (x := a)
    have h2 := toInt_min h
    norm_num at h1 h2
    have hb : (a == 0x80000000#32) = false := by simpa using h
    rw [hb, cond_false]
    have e : satTo sat (-a.toInt) = wrap (-a.toInt) := by
      cases sat
      · rfl
      · simp only [satTo, clamp, if_true]
        rw [if_neg (by norm_num; omega), if_neg (by norm_num; omega)]
    rw [e]
    exact BitVec.eq_of_toInt_eq (by simp [wrap, BitVec.toInt_neg, BitVec.toInt_ofInt])
theorem abs_val (sat : Bool) (a : Word) : vAbs sat a = satTo sat a.toInt.natAbs := by
  have hm : a.msb = decide (a.toInt < 0) := BitVec.msb_eq_toInt ..
  have hn := neg_val sat a
  unfold vNeg at hn
  unfold vAbs
  by_cases h : a = 0x80000000#32
  · subst h; cases sat <;> rfl
  · have h1 := BitVec.toInt_lt (x := a)
    have h2 := toInt_min h
    norm_num at h1 h2
    have hb : (a == 0x80000000#32) = false := by simpa using h
    rw [hb, cond_false] at hn
    rw [hb, cond_false]
    by_cases hs : a.toInt < 0
    · rw [hm, decide_eq_true hs, cond_true, hn]; congr 1; omega
    · rw [hm, decide_eq_false hs, cond_false]
      have : (a.toInt.natAbs : Int) = a.toInt := by omega
      rw [this]
      cases sat
      · exact (wrap_toInt a).symm
      · simp only [satTo, clamp, if_true]
        rw [if_neg (by norm_num; omega), if_neg (by norm_num; omega), wrap_toInt]
theorem not_val (a : Word) : ~~~a = wrap (-1 - a.toInt) := by
  have h : ~~~a = -a - 1#32 := by rw [BitVec.neg_eq_not_add]; simp
  rw [h]
  exact BitVec.eq_of_toInt_eq (by simp [wrap, BitVec.toInt_sub, BitVec.toInt_neg, BitVec.toInt_ofInt]; congr 1; omega)
theorem zext_val (n : Nat) (a : Word) : (a.extractLsb' 0 n).setWidth 32 = BitVec.ofNat 32 (a.toNat % 2 ^ n) := by
  apply BitVec.eq_of_toNat_eq
  simp
theorem sext_val (n : Nat) (a : Word) : (a.extractLsb' 0 n).signExtend 32 = wrap (Int.bmod a.toNat (2 ^ n)) := by
  rw [BitVec.signExtend, wrap, BitVec.toInt_extractLsb']
  simp
theorem popcount_eq (n : Nat) : ∀ x : Nat, popcount n x = (List.range n).countP x.testBit := by
  induction n with
  | zero => intro x; rfl
  | succ n ih =>
    intro x
    rw [popcount, ih, List.range_succ_eq_map, List.countP_cons, List.countP_map, Nat.add_comm]
    congr 1
    · apply List.countP_congr; intro i _; simp [Nat.testBit_succ]
    · rw [Nat.testBit_zero]; rcases Nat.mod_two_eq_zero_or_one x with h | h <;> simp [h]
theorem popc_val (a : Word) : vPopc a = BitVec.ofNat 32 ((List.range 32).countP a.getLsbD) := by
  unfold vPopc; rw [popcount_eq]; rfl
theorem brev_val (a : Word) : vBrev a = mirror a := by
  unfold mirror
  apply BitVec.eq_of_getLsbD_eq
  intro i hi
  rw [vBrev, BitVec.getLsbD_reverse, BitVec.getMsbD_eq_getLsbD, BitVec.getLsbD_setWidth, BitVec.getLsbD_ofBoolListLE]
  simp [hi]
theorem clz_val (a : Word) : vClz a = BitVec.ofNat 32 (((List.range 32).map a.getMsbD).findIdx id) := by
  unfold vClz
  by_cases h : a = 0#32
  · subst h; decide
  · have hb : (a == 0#32) = false := by simpa using h
    have hn : a.toNat ≠ 0 := fun e => h (BitVec.eq_of_toNat_eq (by simpa using e))
    have hk : Nat.log2 a.toNat < 32 := (Nat.log2_lt hn).2 a.isLt
    rw [hb, cond_false]
    congr 1
    symm
    rw [List.findIdx_eq (by simp; omega)]
    constructor
    · simp only [List.getElem_map, List.getElem_range, id, BitVec.getMsbD_eq_getLsbD]
      have e : 32 - 1 - (31 - Nat.log2 a.toNat) = Nat.log2 a.toNat := by omega
      rw [e, show a.getLsbD (Nat.log2 a.toNat) = a.toNat.testBit (Nat.log2 a.toNat) from rfl, Nat.testBit_log2 hn]
      simp; omega
    · intro j hj
      simp only [List.getElem_map, List.getElem_range, id, BitVec.getMsbD_eq_getLsbD]
      have : a.getLsbD (32 - 1 - j) = false := by
        show a.toNat.testBit (32 - 1 - j) = false
        apply Nat.testBit_lt_two_pow
        exact (Nat.log2_lt hn).1 (by omega)
      simp [this]
theorem spec_eqs (b : Word) : specPos b = fieldPos b ∧ specLen b = fieldLen b := by
  constructor
  · simp [specPos, fieldPos]
  · simp only [specLen, fieldLen, BitVec.extractLsb'_toNat, Nat.shiftRight_eq_div_pow]
theorem bfi_val (a b c : Word) : vBfi a b c = insert32 a b c := by
  obtain ⟨hp, hn⟩ := spec_eqs b
  have hm : specMask b <<< fieldPos b = BitVec.ofNat 32 ((2 ^ fieldBits b - 1) * 2 ^ fieldPos b) := by
    apply BitVec.eq_of_toNat_eq
    simp only [specMask, hp, hn, BitVec.toNat_shiftLeft, BitVec.toNat_ofNat, Nat.shiftLeft_eq, fieldBits]
    rw [Nat.mod_mul_mod]
  simp only [vBfi, insert32, hp, hm]
theorem bfx_val (sx : Bool) (a b : Word) : vBfx sx a b = field32 sx a b := by
  obtain ⟨hp, hn⟩ := spec_eqs b
  have hmle : fieldBits b ≤ 32 := by simp only [fieldBits]; omega
  have hmask : specMask b = BitVec.ofNat 32 (2 ^ fieldBits b - 1) := by simp only [specMask, hp, hn, fieldBits]
  have hpow : 2 ^ fieldBits b ≤ 2 ^ 32 := Nat.pow_le_pow_right (by omega) hmle
  have hpos : 0 < 2 ^ fieldBits b := Nat.two_pow_pos _
  generalize hfv : a.toNat / 2 ^ fieldPos b % 2 ^ fieldBits b = f
  have hflt : f < 2 ^ fieldBits b := hfv ▸ Nat.mod_lt _ hpos
  have hf : (a >>> specPos b) &&& specMask b = BitVec.ofNat 32 f := by
    apply BitVec.eq_of_toNat_eq
    rw [hmask, hp, BitVec.toNat_and, BitVec.toNat_ushiftRight, BitVec.toNat_ofNat, BitVec.toNat_ofNat,
      Nat.mod_eq_of_lt (a := 2 ^ fieldBits b - 1) (by omega), Nat.mod_eq_of_lt (a := f) (by omega),
      Nat.shiftRight_eq_div_pow, Nat.and_two_pow_sub_one_eq_mod, hfv]
  simp only [vBfx, field32, hf, hn, hfv]
  by_cases h0 : fieldLen b = 0
  · simp [h0]
  · have hm1 : 1 ≤ fieldBits b := by simp only [fieldBits, fieldPos]; omega
    have hbits : min (fieldLen b) (32 - specPos b) = fieldBits b := by rw [hp]; rfl
    have htop : (BitVec.ofNat 32 f).getLsbD (fieldBits b - 1) = decide (2 ^ (fieldBits b - 1) ≤ f) := by
      have hd : 2 ^ fieldBits b = 2 * 2 ^ (fieldBits b - 1) := by rw [← pow_succ']; congr 1; omega
      rw [BitVec.getLsbD_ofNat, Nat.testBit_eq_decide_div_mod_eq]
      have hp2 : 0 < 2 ^ (fieldBits b - 1) := Nat.two_pow_pos _
      have hlt : fieldBits b - 1 < 32 := by omega
      rw [decide_eq_true hlt, Bool.true_and]
      congr 1
      rw [eq_iff_iff]
      constructor
      · intro h; by_contra hc
        rw [Nat.div_eq_of_lt (by omega)] at h; omega
      · intro h
        have : f / 2 ^ (fieldBits b - 1) = 1 := by
          apply Nat.div_eq_of_lt_le <;> omega
        rw [this]
    rw [hbits, htop]
    have h0' : (fieldLen b == 0) = false := by simpa using h0
    rw [h0', cond_false, if_neg h0]
    cases sx
    · simp
    · by_cases ht : 2 ^ (fieldBits b - 1) ≤ f
      · rw [if_pos ⟨rfl, ht⟩, decide_eq_true ht, Bool.and_self, cond_true, hmask]
        apply BitVec.eq_of_toNat_eq
        have he : 2 ^ 32 = 2 ^ fieldBits b * 2 ^ (32 - fieldBits b) := by rw [← pow_add]; congr 1; omega
        have h1 : 0 < 2 ^ (32 - fieldBits b) := Nat.two_pow_pos _
        have h2 : 2 ^ fieldBits b * (2 ^ (32 - fieldBits b) - 1) = 2 ^ 32 - 2 ^ fieldBits b := by
          rw [Nat.mul_sub, he, Nat.mul_one]
        rw [BitVec.toNat_or, BitVec.toNat_not, BitVec.toNat_ofNat, BitVec.toNat_ofNat,
          Nat.mod_eq_of_lt (a := 2 ^ fieldBits b - 1) (by omega), Nat.mod_eq_of_lt (a := f) (by omega),
          show 2 ^ 32 - 1 - (2 ^ fieldBits b - 1) = 2 ^ 32 - 2 ^ fieldBits b by omega, ← h2, Nat.or_comm,
          ← Nat.two_pow_add_eq_or_of_lt hflt, h2, wrap, BitVec.toNat_ofInt]
        have key : ∀ P : Nat, f < P → P ≤ 2 ^ 32 → 2 ^ 32 - P + f = (((f : Int) - (P : Int)) % ((2 ^ 32 : Nat) : Int)).toNat := by
          intro P h3 h4; omega
        have := key _ hflt hpow
        push_cast at this ⊢
        exact this
      · rw [if_neg (by simp [ht]), decide_eq_false ht, Bool.and_false, cond_false]
end Sys2Proof.Claims
end

