-- ==== Sys2Proof/Laws/Becomes.lean ====
section
/-! SUPPORT. Instructions of one shape, whose effect on each thread of a fragment is the thread's own: what each shape leaves. -/

namespace Sys2Proof.Machine

/-- A value reads nothing but its thread's own registers. -/
def Own {α : Type} (s : State) (v : State → Nat → α) : Prop :=
  ∀ a t, Beside s t → t.agent a = s.agent a → v t a = v s a

theorem flagLater_keeps (lat : Nat) (f : BitVec 5) : Keeps fun a => a.flagLater lat f := by
  constructor <;> intro a <;> simp only [Agent.flagLater] <;> split <;> rfl
theorem owe_keeps (done fp : Bool) (ws : List (Option Dst × Word)) (f : BitVec 5) : Keeps fun a => a.owe done fp ws f := by
  constructor <;> intro a <;> simp only [Agent.owe] <;> split <;> rfl
theorem Keeps.comp {f g : Agent → Agent} (hf : Keeps f) (hg : Keeps g) : Keeps fun a => g (f a) :=
  ⟨fun a => (hg.1 _).trans (hf.1 a), fun a => (hg.2 _).trans (hf.2 a)⟩
theorem Keeps.id : Keeps fun a : Agent => a := ⟨fun _ => rfl, fun _ => rfl⟩
theorem putRange_keeps (lat : Nat) (ws : List Word) : ∀ r, Keeps fun a => a.putRange lat r ws := by
  induction ws with
  | nil => exact fun _ => Keeps.id
  | cons w ws ih => exact fun r => (write_keeps lat (.reg r) w).comp (ih (r + 1))

theorem modAgent_id (s : State) (ag : Nat) : s.modAgent ag (fun a => a) = s := by
  show s.modAgent ag id = s
  simp [State.modAgent, List.modify_id]
theorem flagAt_later (s : State) (ag lat : Nat) (f : BitVec 5) : s.flagAt ag lat f = s.modAgent ag fun a => a.flagLater lat f := by
  by_cases h : f = 0#5
  · subst h; simp [State.flagAt, Agent.flagLater, modAgent_id]
  · have : (f == 0#5) = false := by simpa using h
    simp [State.flagAt, Agent.flagLater, this, h]
theorem wr_put_later (s : State) (ag lat : Nat) (d : Option Dst) (x : Word) (f : BitVec 5) :
    (s.wr ag lat d x).flagAt ag lat f = s.modAgent ag fun a => (a.put lat d x).flagLater lat f := by
  rw [wr_put, flagAt_later, modAgent_modAgent]; rfl
theorem out_owe (s : State) (ag : Nat) (done fp : Bool) (ws : List (Option Dst × Word)) (f : BitVec 5) :
    s.out ag done fp ws f = s.modAgent ag fun a => a.owe done fp ws f := by
  by_cases h : keepDst ws = [] ∧ f = 0#5 ∧ done = true
  · obtain ⟨h1, h2, h3⟩ := h
    simp [State.out, Agent.owe, h1, h2, h3, modAgent_id]
  · have hb : ((keepDst ws).isEmpty && f == 0#5 && done) = false := by
      rw [Bool.eq_false_iff]; intro e
      simp only [Bool.and_eq_true, List.isEmpty_iff, beq_iff_eq] at e
      exact h ⟨e.1.1, e.1.2, e.2⟩
    simp only [State.out, hb, cond_false]
    congr 1; funext a; rw [Agent.owe, if_neg h]

theorem frm_local {s t : State} {a : Nat} (hb : Beside s t) (h : t.agent a = s.agent a) : t.frm a = s.frm a := rd_local hb h ..
theorem mode_local {s t : State} {a : Nat} (hb : Beside s t) (h : t.agent a = s.agent a) (rm : BitVec 3) : t.mode a rm = s.mode a rm := by
  simp only [State.mode, frm_local hb h]
theorem enabled_local {s t : State} {a : Nat} (hb : Beside s t) (h : t.agent a = s.agent a) (f : FFlags) :
    t.enabled a f = s.enabled a f := by simp only [State.enabled, frm_local hb h]
theorem seed_local {s t : State} {a : Nat} (hb : Beside s t) (h : t.agent a = s.agent a) : t.seed a = s.seed a := rd_local hb h ..
theorem a32_local {s t : State} {a : Nat} (hb : Beside s t) (h : t.agent a = s.agent a) (r : Reg) : t.a32 a r = s.a32 a r := reg_local hb h ..
theorem c32_local {s t : State} {a : Nat} (hb : Beside s t) (h : t.agent a = s.agent a) (r : Reg) : t.c32 a r = s.c32 a r := reg_local hb h ..
theorem d32_local {s t : State} {a : Nat} (hb : Beside s t) (h : t.agent a = s.agent a) (r : Reg) : t.d32 a r = s.d32 a r := reg_local hb h ..
theorem a64_local {s t : State} {a : Nat} (hb : Beside s t) (h : t.agent a = s.agent a) (r : Reg) : t.a64 a r = s.a64 a r := pair_local hb h ..
theorem regs_local {s t : State} {a : Nat} (hb : Beside s t) (h : t.agent a = s.agent a) (r n : Nat) : t.regs a r n = s.regs a r n := by
  simp only [State.regs, regN_local hb h]

/-- An instruction whose only effect is one register of a fixed latency. -/
theorem reg1_becomes {s : State} {i : Instr} {lat : Nat} {d : Reg} {v w : State → Nat → Word} (ht : Together s i)
    (hx : exec i s = s.reg1 i lat d v) (he : ∀ t a, v t a = w t a) (hv : Own s.ticked w) :
    ∃ t, exec i s = .next t ∧ EachBecomes s i (fun ag a => a.put lat (dstReg d) (w s.ticked ag)) t := by
  refine ⟨_, hx, issue_becomes _ ht (fun a => put_keeps ..) fun l hn _ => plain_each _ hn fun a _ t hb h => ?_⟩
  rw [State.wrReg, wr_put, he, hv a t hb h]
/-- An instruction whose only effect is one pair of a fixed latency. -/
theorem reg2_becomes {s : State} {i : Instr} {lat : Nat} {d : Reg} {v w : State → Nat → DWord} (ht : Together s i)
    (hx : exec i s = s.reg2 i lat d v) (he : ∀ t a, v t a = w t a) (hv : Own s.ticked w) :
    ∃ t, exec i s = .next t ∧ EachBecomes s i (fun ag a => (a.put lat (some (.reg d.toNat)) ((w s.ticked ag).extractLsb' 0 32)).put lat
      (some (.reg (d.toNat + 1))) ((w s.ticked ag).extractLsb' 32 32)) t := by
  refine ⟨_, hx, issue_becomes _ ht (fun a => (put_keeps ..).comp (put_keeps ..)) fun l hn _ => plain_each _ hn fun a _ t hb h => ?_⟩
  rw [State.wrPair, wr_put, wr_put, modAgent_modAgent, he, hv a t hb h]; rfl
/-- An instruction whose only effect is one predicate of a fixed latency. -/
theorem pred1_becomes {s : State} {i : Instr} {lat : Nat} {p : BitVec 3} {v w : State → Nat → Bool} (ht : Together s i)
    (hx : exec i s = s.pred1 i lat p v) (he : ∀ t a, v t a = w t a) (hv : Own s.ticked w) :
    ∃ t, exec i s = .next t ∧
      EachBecomes s i (fun ag a => a.put lat (dstPred p) (if w s.ticked ag = true then 1#32 else 0#32)) t := by
  refine ⟨_, hx, issue_becomes _ ht (fun a => put_keeps ..) fun l hn _ => plain_each _ hn fun a _ t hb h => ?_⟩
  rw [State.wrPred, wr_put, he, hv a t hb h]
  congr 1; funext x; cases w s.ticked a <;> rfl
/-- Bodies whose flags, where none is enabled, leave an effect of the thread's own. -/
theorem guarded_becomes {s : State} {i : Instr} {body : State → Nat → State × Fate} (ht : Together s i) (fl : State → Nat → FFlags)
    (f : Nat → Agent → Agent) (hf : ∀ a, Keeps (f a)) (hx : exec i s = .next (s.issue i (perThread fun ag s => body s ag)))
    (he : ∀ ag ∈ s.cur.agents, s.ticked.enabled ag (fl s.ticked ag) = false)
    (hb : ∀ a t, Beside s.ticked t → t.agent a = s.ticked.agent a → t.enabled a (fl s.ticked a) = false →
      body t a = (t.modAgent a (f a), .next)) :
    ∃ t, exec i s = .next t ∧ EachBecomes s i f t := by
  refine ⟨_, hx, issue_becomes _ ht hf fun l hn hl => ?_⟩
  exact perThread_each f (fun _ => .next) l hn (fun a ha t hb' h => hb a t hb' h (by rw [enabled_local hb' h]; exact he a (hl a ha))) _
    (.refl _) fun _ _ => rfl
/-- A floating-point instruction of one register of a fixed latency, where no flag it raises is enabled (R85). -/
theorem fpOp_becomes {s : State} {i : Instr} {lat : Nat} {d : Reg} {v w : State → Nat → Word × FFlags} (ht : Together s i)
    (hx : exec i s = s.fpOp i lat d v) (hvw : ∀ t a, v t a = w t a) (hv : Own s.ticked w)
    (he : ∀ ag ∈ s.cur.agents, s.ticked.enabled ag (w s.ticked ag).2 = false) :
    ∃ t, exec i s = .next t ∧ EachBecomes s i
      (fun ag a => (a.put lat (dstReg d) (w s.ticked ag).1).flagLater lat (w s.ticked ag).2) t := by
  refine guarded_becomes ht (fun s g => (w s g).2) _ (fun a => (put_keeps ..).comp (flagLater_keeps ..)) hx he fun a t hb h hn => ?_
  show t.fpReg a lat d (v t a) = _
  rw [hvw, hv a t hb h, State.fpReg, State.fpGuard, if_neg (by rw [hn]; exact Bool.false_ne_true), State.wrReg, wr_put_later]
/-- An FXU instruction, where no flag it raises is enabled (R85, R170). -/
theorem fxuOp_becomes {s : State} {i : Instr} {d : Reg} {v w : State → Nat → Word × FFlags} (ht : Together s i)
    (hx : exec i s = s.fxuOp i d v) (hvw : ∀ t a, v t a = w t a) (hv : Own s.ticked w)
    (he : ∀ ag ∈ s.cur.agents, s.ticked.enabled ag (w s.ticked ag).2 = false) :
    ∃ t, exec i s = .next t ∧ EachBecomes s i
      (fun ag a => a.owe true true [toReg d (w s.ticked ag).1] (w s.ticked ag).2) t := by
  refine guarded_becomes ht (fun s g => (w s g).2) _ (fun a => owe_keeps ..) hx he fun a t hb h hn => ?_
  show (t.fpGuard a (v t a).2 fun s => s.out a true true [toReg d (v t a).1] (v t a).2) = _
  rw [hvw, hv a t hb h, State.fpGuard, if_neg (by rw [hn]; exact Bool.false_ne_true), out_owe]

/-- An instruction whose body treats each thread alone, with operands of the whole fragment read before any result is written. -/
theorem cross_becomes {s : State} {i : Instr} {body : List Nat → State → State × List (Nat × Fate)} (ht : Together s i)
    (f : Nat → Agent → Agent) (hf : ∀ a, Keeps (f a)) (hx : exec i s = .next (s.issue i body))
    (hb : body (s.performers i) s.ticked = (s.ticked.each f (s.performers i), (s.performers i).map fun a => (a, .next))) :
    ∃ t, exec i s = .next t ∧ EachBecomes s i f t := by
  refine ⟨_, hx, ?_⟩
  rw [issue_each f (fun _ => .next) (fun a => (s.agent a).nextPc i) ht hf hb (fun a => .inl ⟨rfl, rfl⟩)]
  refine ⟨each_onlyAgents _ _ _, fun ag h => ?_⟩
  rw [each_agent_in _ _ s ht.1 h (ht.2 ag h).1.1]
  constructor
  · intro (e : s.ticked.pre i ag = .go)
    simp [State.goes, e]
  · intro (e : s.ticked.pre i ag = .skip)
    simp [State.goes, e]
theorem performers_nodup {s : State} {i : Instr} (ht : Together s i) : (s.performers i).Nodup := ht.1.filter _

end Sys2Proof.Machine
end

