-- ==== Sys2Proof/Laws/Mem.lean ====
section
/-! SUPPORT. Laws of memory: a read after a write, and that every memory operation keeps the canonical form. -/

namespace Sys2Proof.Machine

theorem Mem.wfFrom_mono {m : Mem} : ∀ {lo hi : Nat}, lo ≤ hi → m.wfFrom hi = true → m.wfFrom lo = true := by
  cases m with
  | nil => simp [Mem.wfFrom]
  | cons c rest =>
    intro lo hi h
    simp only [Mem.wfFrom, Bool.and_eq_true, decide_eq_true_eq]
    rintro ⟨⟨h1, h2⟩, h3⟩
    exact ⟨⟨by omega, h2⟩, h3⟩

/-- In a canonical list every listed address reaches its bound. -/
theorem Mem.get_below {m : Mem} : ∀ {lo a : Nat}, m.wfFrom lo = true → a < lo → m.get a = 0#8 := by
  cases m with
  | nil => intros; rfl
  | cons c rest =>
    intro lo a h ha
    simp only [Mem.wfFrom, Bool.and_eq_true, decide_eq_true_eq] at h
    have : ¬ c.1 = a := by omega
    have : a < c.1 := by omega
    simp [Mem.get, *]

theorem Mem.put_wfFrom {m : Mem} {b : Byte} : ∀ {lo a : Nat}, m.wfFrom lo = true → lo ≤ a → (m.put a b).wfFrom lo = true := by
  induction m with
  | nil =>
    intro lo a _ ha
    by_cases hb : b = 0#8 <;> simp [Mem.put, Mem.wfFrom, hb, ha]
  | cons c rest ih =>
    intro lo a h ha
    simp only [Mem.wfFrom, Bool.and_eq_true, decide_eq_true_eq, bne_iff_ne, ne_eq] at h
    obtain ⟨⟨h1, h2⟩, h3⟩ := h
    simp only [Mem.put]
    split
    · next e =>
      split
      · exact Mem.wfFrom_mono (by omega) h3
      · next hb => subst e; simp [Mem.wfFrom, hb, h1, h3]
    · split
      · split
        · simp [Mem.wfFrom, h1, h2, h3]
        · next hb => simp [Mem.wfFrom, hb, ha, h2, h3]; omega
      · have := ih h3 (a := a) (by omega)
        simp [Mem.wfFrom, h1, h2, this]

/-- Writing a byte keeps the canonical form. -/
theorem Mem.put_wf {m : Mem} (a : Nat) (b : Byte) (h : m.wf = true) : (m.put a b).wf = true :=
  Mem.put_wfFrom h (Nat.zero_le a)

/-- Writing bytes keeps the canonical form. -/
theorem Mem.putN_wf (bs : List Byte) : ∀ {m : Mem} (a : Nat), m.wf = true → (m.putN a bs).wf = true := by
  induction bs with
  | nil => intro m a h; exact h
  | cons b bs ih => intro m a h; exact ih (a + 1) (Mem.put_wf a b h)

theorem Mem.filter_wfFrom (p : Host.Cell → Bool) {m : Mem} : ∀ {lo : Nat}, m.wfFrom lo = true → Mem.wfFrom lo (m.filter p) = true := by
  induction m with
  | nil => intro lo h; exact h
  | cons c rest ih =>
    intro lo h
    simp only [Mem.wfFrom, Bool.and_eq_true, decide_eq_true_eq] at h
    obtain ⟨⟨h1, h2⟩, h3⟩ := h
    by_cases hp : p c = true
    · simp [hp, Mem.wfFrom, h1, h2, ih h3]
    · simp only [hp, Bool.false_eq_true, not_false_eq_true, List.filter_cons_of_neg]
      exact Mem.wfFrom_mono (by omega) (ih h3)

/-- Clearing a range keeps the canonical form. -/
theorem Mem.clear_wf {m : Mem} (lo n : Nat) (h : m.wf = true) : (m.clear lo n).wf = true := Mem.filter_wfFrom _ h

/-- Moving bytes keeps the canonical form. -/
theorem Mem.move_wf (src dst : Nat) (cs : Mem) : ∀ {m : Mem}, m.wf = true → (m.move src dst cs).wf = true := by
  induction cs with
  | nil => intro m h; exact h
  | cons c rest ih => intro m h; exact ih (Mem.put_wf _ _ h)

/-- A read after a write to the same address gives the value written. -/
theorem Mem.get_put_self {m : Mem} {b : Byte} : ∀ {lo : Nat} (a : Nat), m.wfFrom lo = true → (m.put a b).get a = b := by
  induction m with
  | nil => intro lo a _; by_cases hb : b = 0#8 <;> simp [Mem.put, Mem.get, hb]
  | cons c rest ih =>
    intro lo a h
    simp only [Mem.wfFrom, Bool.and_eq_true, decide_eq_true_eq] at h
    obtain ⟨⟨h1, h2⟩, h3⟩ := h
    simp only [Mem.put]
    split
    · next e =>
      split
      · next hb => rw [Mem.get_below h3 (by omega), hb]
      · simp [Mem.get]
    · next e =>
      split
      · next l =>
        split
        · next hb => simp [Mem.get, e, l, hb]
        · simp [Mem.get]
      · next l => simp [Mem.get, e, l, ih a h3]

/-- A write leaves every other address alone. -/
theorem Mem.get_put_of_ne {m : Mem} {b : Byte} : ∀ {lo a c : Nat}, m.wfFrom lo = true → a ≠ c → (m.put a b).get c = m.get c := by
  induction m with
  | nil =>
    intro lo a c _ hn
    by_cases hb : b = 0#8
    · simp [Mem.put, hb]
    · simp [Mem.put, hb, Mem.get, hn]
  | cons x rest ih =>
    intro lo a c h hn
    simp only [Mem.wfFrom, Bool.and_eq_true, decide_eq_true_eq] at h
    obtain ⟨⟨h1, h2⟩, h3⟩ := h
    simp only [Mem.put]
    split
    · next e =>
      have hx : ¬ x.1 = c := by omega
      split
      · simp only [Mem.get, hx, if_false]
        split
        · exact Mem.get_below h3 (by omega)
        · rfl
      · have : (a < c) ↔ (x.1 < c) := by omega
        by_cases hc : c < x.1
        · simp [Mem.get, hx, hn, hc, show c < a by omega]
        · simp [Mem.get, hx, hn, hc, show ¬ c < a by omega]
    · next e =>
      split
      · next l =>
        split
        · rfl
        · by_cases hc : c < a
          · simp [Mem.get, hn, hc, show ¬ x.1 = c by omega, show c < x.1 by omega]
          · simp [Mem.get, hn, hc]
      · simp only [Mem.get]
        split
        · rfl
        · split
          · rfl
          · exact ih h3 hn

/-- Reading outside the bytes written gives what it gave. -/
theorem Mem.get_putN_of_out (bs : List Byte) : ∀ {m : Mem} {a c : Nat}, m.wf = true → (c < a ∨ a + bs.length ≤ c) →
    (m.putN a bs).get c = m.get c := by
  induction bs with
  | nil => intros; rfl
  | cons b bs ih =>
    intro m a c h hc
    simp only [List.length_cons] at hc
    rw [Mem.putN, ih (Mem.put_wf a b h) (by omega), Mem.get_put_of_ne h (by omega)]

/-- Reading the bytes written gives them. -/
theorem Mem.get_putN_in (bs : List Byte) : ∀ {m : Mem} {a k : Nat}, m.wf = true → k < bs.length →
    (m.putN a bs).get (a + k) = bs.getD k 0#8 := by
  induction bs with
  | nil => intro m a k _ hk; simp at hk
  | cons b bs ih =>
    intro m a k h hk
    cases k with
    | zero =>
      rw [Mem.putN, Mem.get_putN_of_out bs (Mem.put_wf a b h) (by omega), Nat.add_zero, Mem.get_put_self a h]
      rfl
    | succ k =>
      rw [Mem.putN, show a + (k + 1) = (a + 1) + k by omega, ih (Mem.put_wf a b h) (by simpa using hk)]
      simp

end Sys2Proof.Machine
end

