-- ==== Sys2Proof/Laws/RowValues.lean ====
section
/-! SUPPORT. Values of the machine's predicate and 64-bit operations, in the words of the spec's tables (R156 to R159). -/

namespace Sys2Proof.Machine
open Sys2Proof.Claims

theorem cmp_val {n : Nat} {cc : BitVec 4} (h : cc.toNat < 10) (x y : BitVec n) :
    vCmp cc x y = condition cc.toNat x.toInt y.toInt x.toNat y.toNat := by
  simp only [vCmp]
  generalize cc.toNat = k at h
  have : k = 0 ∨ k = 1 ∨ k = 2 ∨ k = 3 ∨ k = 4 ∨ k = 5 ∨ k = 6 ∨ k = 7 ∨ k = 8 ∨ k = 9 := by omega
  rcases this with e|e|e|e|e|e|e|e|e|e <;> subst e <;> simp [condition, BitVec.slt, BitVec.sle, BitVec.ult, BitVec.ule]
  · rw [Bool.eq_iff_iff]; simp [← BitVec.toNat_inj]
  · rw [Bool.eq_iff_iff]; simp [← BitVec.toNat_inj]
theorem plog_val (lut : BitVec 8) (a b c : Bool) : vPlog lut a b c = lut.getLsbD (4 * a.toNat + 2 * b.toNat + c.toNat) := by
  cases a <;> cases b <;> cases c <;> rfl
theorem twoPow_ofInt (n : Nat) : BitVec.twoPow 64 n = BitVec.ofInt 64 (2 ^ n) := by
  apply BitVec.eq_of_toNat_eq
  have : (2 : Int) ^ n = ((2 ^ n : Nat) : Int) := by push_cast; rfl
  simp only [BitVec.toNat_twoPow, BitVec.toNat_ofInt, this]; omega
theorem lea_val (sh : BitVec 3) (u : Bool) (a : DWord) (b : Word) : vLea sh u a b = BitVec.ofInt 64 (a.toNat + valOf u b * 2 ^ sh.toNat) := by
  have h : (bif u then b.setWidth 64 else b.signExtend 64) = BitVec.ofInt 64 (valOf u b) := by
    cases u
    · simp [valOf, BitVec.signExtend]
    · simp [valOf]
  rw [vLea, h, BitVec.shiftLeft_eq_mul_twoPow, twoPow_ofInt, BitVec.ofInt_add, BitVec.ofInt_mul]
  simp
theorem shl64_val (a : DWord) (b : Word) : vShl64 a b = BitVec.ofNat 64 (a.toNat * 2 ^ b.toNat) := by
  simp only [vShl64, BitVec.ult, show (64#32).toNat = 64 from rfl]
  by_cases h : b.toNat < 64
  · simp only [h, decide_true, cond_true]
    apply BitVec.eq_of_toNat_eq; simp [Nat.shiftLeft_eq]
  · simp only [h, decide_false, cond_false]
    apply BitVec.eq_of_toNat_eq; simp
    have : 2 ^ b.toNat = 2 ^ 64 * 2 ^ (b.toNat - 64) := by rw [← pow_add]; congr 1; omega
    rw [this, ← Nat.mul_assoc, Nat.mul_comm a.toNat, Nat.mul_assoc]; simp
theorem shr64_val (a : DWord) (b : Word) : vShr64 a b = BitVec.ofNat 64 (a.toNat / 2 ^ b.toNat) := by
  simp only [vShr64, BitVec.ult, show (64#32).toNat = 64 from rfl]
  by_cases h : b.toNat < 64
  · simp only [h, decide_true, cond_true]
    apply BitVec.eq_of_toNat_eq; simp [Nat.shiftRight_eq_div_pow]
    exact (Nat.mod_eq_of_lt (Nat.lt_of_le_of_lt (Nat.div_le_self _ _) a.isLt)).symm
  · simp only [h, decide_false, cond_false]
    have h2 : 2 ^ 64 ≤ 2 ^ b.toNat := Nat.pow_le_pow_right (by omega) (by omega)
    rw [Nat.div_eq_of_lt (Nat.lt_of_lt_of_le a.isLt h2)]
theorem add64_val (a b : DWord) : a + b = BitVec.ofNat 64 (a.toNat + b.toNat) := by
  apply BitVec.eq_of_toNat_eq; simp
theorem sub64_val (a b : DWord) : a - b = BitVec.ofInt 64 (a.toNat - b.toNat) := by
  apply BitVec.eq_of_toNat_eq
  have := a.isLt; have := b.isLt
  simp only [BitVec.toNat_sub, BitVec.toNat_ofInt]; omega
theorem abs_bits (a : Word) : a &&& 0x7FFFFFFF#32 = BitVec.ofNat 32 (a.toNat % 2 ^ 31) := by
  apply BitVec.eq_of_toNat_eq
  have h : a.toNat &&& 2147483647 = a.toNat % 2 ^ 31 := Nat.and_two_pow_sub_one_eq_mod a.toNat 31
  simp [BitVec.toNat_and]
  rw [h]; omega
theorem xor_top {x : Nat} (h : x < 2 ^ 31) : x ^^^ 2 ^ 31 = 2 ^ 31 + x := by
  apply Nat.eq_of_testBit_eq; intro i
  rw [Nat.testBit_xor, Nat.testBit_two_pow]
  by_cases hi : i = 31
  · subst hi; rw [Nat.testBit_two_pow_add_eq, Nat.testBit_lt_two_pow h]; rfl
  · by_cases hl : i < 31
    · have h3 : (31 = i) = False := eq_false (by omega)
      rw [Nat.testBit_two_pow_add_gt hl]; simp [h3]
    · have h1 : x.testBit i = false := Nat.testBit_lt_two_pow (Nat.lt_of_lt_of_le h (Nat.pow_le_pow_right (by omega) (by omega)))
      have h2 : (2 ^ 31 + x).testBit i = false :=
        Nat.testBit_lt_two_pow (Nat.lt_of_lt_of_le (show 2 ^ 31 + x < 2 ^ 32 by omega) (Nat.pow_le_pow_right (by omega) (by omega)))
      rw [h1, h2]; simp; omega
theorem neg_bits (a : Word) : a ^^^ 0x80000000#32 = a + BitVec.ofNat 32 (2 ^ 31) := by
  apply BitVec.eq_of_toNat_eq
  have h := a.isLt
  rw [BitVec.toNat_xor, BitVec.toNat_add]
  show a.toNat ^^^ 2 ^ 31 = (a.toNat + 2 ^ 31) % 2 ^ 32
  by_cases hl : a.toNat < 2 ^ 31
  · rw [xor_top hl]; omega
  · have : a.toNat = 2 ^ 31 + (a.toNat - 2 ^ 31) := by omega
    have hx : a.toNat - 2 ^ 31 < 2 ^ 31 := by omega
    rw [this, ← xor_top hx, Nat.xor_assoc, Nat.xor_self, Nat.xor_zero, xor_top hx]; omega

end Sys2Proof.Machine
end

