-- ==== Sys2Proof/Laws/Store.lean ====
section
/-! SUPPORT. What a translation for the hearth can change: the tables, the TLBs and the counters that stand in memory's
part of the state, the signatures that follow a page, and nothing else (R122, R357, R360, R365, R432). -/

namespace Sys2Proof.Machine

/-- Two states that differ only in memory's part and in the tasks, whose signatures follow a page. -/
def ByTranslation (s t : State) : Prop := t = { s with store := t.store, lanes := { s.lanes with tasks := t.lanes.tasks } }

theorem ByTranslation.refl (s : State) : ByTranslation s s := rfl
theorem ByTranslation.trans {s t u : State} (h : ByTranslation s t) (k : ByTranslation t u) : ByTranslation s u := by
  unfold ByTranslation at *; rw [k, h]
theorem ByTranslation.modStore (s : State) (f : Store → Store) : ByTranslation s (s.modStore f) := rfl
theorem ByTranslation.cond {s t u : State} (b : Bool) (h : ByTranslation s t) (k : ByTranslation s u) : ByTranslation s (bif b then t else u) := by
  cases b <;> assumption
/-- A fold whose steps do what a translation can does so too. -/
theorem ByTranslation.foldl {α : Type} (f : State → α → State) (h : ∀ s x, ByTranslation s (f s x)) (l : List α) :
    ∀ s, ByTranslation s (l.foldl f s) := by
  induction l with
  | nil => exact fun s => .refl s
  | cons x l ih => exact fun s => (h s x).trans (ih (f s x))
theorem ByTranslation.queue {s t : State} (h : ByTranslation s t) (q : Nat) : t.queue q = s.queue q := by rw [h]; rfl
theorem ByTranslation.queues {s t : State} (h : ByTranslation s t) : t.queues = s.queues := by rw [h]

/-! ## The steps of a translation -/

theorem setBlock_only (s : State) (b : Block) : ByTranslation s (s.setBlock b) := rfl
theorem release_only (s : State) (no : Nat) : ByTranslation s (s.release no) := rfl
/-- Charge, where it accepts, changes the block's record and nothing else (R332). -/
theorem charge_accepted {s t : State} {v pa : Nat} {rb : Bool} (h : s.charge v pa rb = (t, .accepted)) :
    t = s ∨ ∃ b, t = s.setBlock b := by
  simp only [State.charge, Bool.cond_eq_ite] at h
  split at h
  · exact .inl (Prod.ext_iff.mp h).1.symm
  · split at h
    · simp at h
    · split at h
      · exact .inr ⟨_, (Prod.ext_iff.mp h).1.symm⟩
      · simp at h
/-- What charging a write that is never refused can do. -/
theorem chargeAs_cases (s : State) (v pa : Nat) (rb : Bool) : s.chargeAs v pa rb = s ∨ ∃ b, s.chargeAs v pa rb = s.setBlock b := by
  unfold State.chargeAs
  split
  · rename_i t h; exact charge_accepted h
  · exact .inl rfl
theorem chargeAs_only (s : State) (v pa : Nat) (rb : Bool) : ByTranslation s (s.chargeAs v pa rb) := by
  rcases chargeAs_cases s v pa rb with h | ⟨b, h⟩ <;> rw [h]
  · exact .refl s
  · exact setBlock_only s b
theorem chargeHeld_cases (s : State) (pa : Nat) : s.chargeHeld pa = s ∨ ∃ b, s.chargeHeld pa = s.setBlock b := by
  unfold State.chargeHeld
  split
  · exact chargeAs_cases s _ _ _
  · exact .inl rfl
theorem chargeHeld_only (s : State) (pa : Nat) : ByTranslation s (s.chargeHeld pa) := by
  rcases chargeHeld_cases s pa with h | ⟨b, h⟩ <;> rw [h]
  · exact .refl s
  · exact setBlock_only s b
theorem putByte_only (s : State) (pa : Nat) (x : Byte) : ByTranslation s (s.putByte pa x) := by
  unfold State.putByte
  exact (ByTranslation.cond _ (.refl s) (.modStore s _)).trans (.modStore _ _)
theorem putBytes_only (bs : List Byte) : ∀ (s : State) (pa : Nat), ByTranslation s (s.putBytes pa bs) := by
  induction bs with
  | nil => exact fun s _ => .refl s
  | cons x bs ih => exact fun s pa => (putByte_only s pa x).trans (ih _ _)
theorem setLeaf_only (s : State) (a e : Nat) : ByTranslation s (s.setLeaf a e) :=
  .cond _ (.refl s) ((chargeHeld_only s _).trans (putBytes_only _ _ _))
theorem dropPage_only (s : State) (v vpn : Nat) : ByTranslation s (s.dropPage v vpn) := rfl
theorem freePage_only (s : State) (base : Nat) : ByTranslation s (s.freePage base) := rfl
theorem followSigs_only (s : State) (o n : Nat) : ByTranslation s (s.followSigs o n) := by
  unfold State.followSigs
  exact .cond _ (.refl s) rfl
theorem collapse_only (s : State) (v d : Nat) (va : DWord) : ByTranslation s (s.collapse v d va) := by
  unfold State.collapse
  split
  · exact .refl s
  · split
    · exact .refl s
    · refine (dropPage_only s v _).trans (.trans (.cond _ (.refl _) (.foldl _ (fun s b => followSigs_only s _ _) _ _)) (.trans (.foldl _ (fun s r => ?_) _ _)
        (.trans (.modStore _ _) (setLeaf_only _ _ _))))
      exact .cond _ (.refl s) (freePage_only s _)
theorem collapseFor_only (s : State) (v d : Nat) (va : DWord) : ByTranslation s (s.collapseFor v d va) := by
  unfold State.collapseFor
  split
  · exact .cond _ (collapse_only s v d va) (.refl s)
  · exact .refl s
theorem fillTlb_only (s : State) (v : Nat) (who : Seeker) (va : DWord) (l : Leaf) (r : Option Nat) :
    ByTranslation s (s.fillTlb v who va l r) := rfl
theorem promote_only (s : State) (v : Nat) (who : Seeker) (e : TlbEntry) : ByTranslation s (s.promote v who e) := by
  unfold State.promote
  split
  · exact .refl s
  · split <;> rfl
  · rfl
theorem walkNow_only (s : State) (v : Nat) (who : Seeker) (va : DWord) (k : Access) : ByTranslation s (s.walkNow v who va k).1 := by
  unfold State.walkNow
  split
  · exact .refl s
  · exact .refl s
  · dsimp only
    split
    · cases touched k _ != _ && !s.chargeable _
      · exact (setLeaf_only s _ _).trans (fillTlb_only _ v who va _ _)
      · exact .refl s
    · exact .refl s
    · exact .refl s
/-- The hearth makes no replica for its own accesses (R364). -/
theorem replicaFor_hearth (s : State) (v : Nat) (va : DWord) (k : Access) : ByTranslation s (s.replicaFor v .hearth va k) := by
  unfold State.replicaFor
  split <;> exact .refl s
/-- What a walk for the hearth changes, after a TLB miss (R358, R365). -/
theorem walkFor_only (s : State) (v : Nat) (va : DWord) (k : Access) : ByTranslation s (s.walkFor v .hearth va k).1 := by
  unfold State.walkFor
  split
  · exact .refl s
  · cases s.needsCore3 v .hearth va k && s.core3Waits v va
    · exact ByTranslation.trans (.cond _ (collapseFor_only s v _ va) (replicaFor_hearth s v va k)) (walkNow_only _ v .hearth va k)
    · exact .refl s
/-- What a translation for the hearth changes (R357, R360, R365). -/
theorem xlat_only (s : State) (v : Nat) (va : DWord) (k : Access) : ByTranslation s (s.xlat v .hearth va k).1 := by
  unfold State.xlat
  split
  · exact .refl s
  · split
    · exact .cond _ (.refl s) (promote_only s v .hearth _)
    · exact walkFor_only s v va k
theorem hearthPlaces_only (v : Nat) (k : Access) (l : List DWord) : ∀ s : State, ByTranslation s (s.hearthPlaces v k l).1 := by
  induction l with
  | nil => exact fun s => .refl s
  | cons va l ih => exact fun s => (xlat_only s v va k).trans (ih _)
/-- What a load of the hearth changes (R357, R432). -/
theorem hearthTouch_only (s : State) (v : Nat) (va : DWord) (n : Nat) : ByTranslation s (s.hearthTouch v va n) := hearthPlaces_only v .load _ s
/-- Reading a packet changes no queue (R399). -/
@[simp] theorem packetRead_queue (s : State) (q k : Nat) : (s.packetRead q).queue k = s.queue k := (hearthTouch_only s _ _ _).queue k
@[simp] theorem hearthTouch_queue (s : State) (v : Nat) (va : DWord) (n k : Nat) : (s.hearthTouch v va n).queue k = s.queue k :=
  (hearthTouch_only s v va n).queue k

end Sys2Proof.Machine
end

