-- ==== Sys2Proof/Laws/Updates.lean ====
section
/-! SUPPORT. What the updates of one part of a record leave and what they change: one lemma a field. -/

namespace Sys2Proof.Machine

/-! ## modSlice -/

@[simp] theorem State.modSlice_store (s : State) (c : Nat) (f : Slice → Slice) : (s.modSlice c f).store = s.store := rfl
@[simp] theorem State.modSlice_queues (s : State) (c : Nat) (f : Slice → Slice) : (s.modSlice c f).queues = s.queues := rfl
@[simp] theorem State.modSlice_vdevs (s : State) (c : Nat) (f : Slice → Slice) : (s.modSlice c f).vdevs = s.vdevs := rfl
@[simp] theorem State.modSlice_hearth (s : State) (c : Nat) (f : Slice → Slice) : (s.modSlice c f).hearth = s.hearth := rfl
@[simp] theorem State.modSlice_now (s : State) (c : Nat) (f : Slice → Slice) : (s.modSlice c f).now = s.now := rfl
@[simp] theorem State.modSlice_sched (s : State) (c : Nat) (f : Slice → Slice) : (s.modSlice c f).sched = s.sched := rfl
@[simp] theorem State.modSlice_cur (s : State) (c : Nat) (f : Slice → Slice) : (s.modSlice c f).cur = s.cur := rfl
@[simp] theorem State.modSlice_free (s : State) (c : Nat) (f : Slice → Slice) : (s.modSlice c f).free = s.free := rfl
@[simp] theorem State.modSlice_moves (s : State) (c : Nat) (f : Slice → Slice) : (s.modSlice c f).moves = s.moves := rfl
@[simp] theorem State.modSlice_agents (s : State) (c : Nat) (f : Slice → Slice) : (s.modSlice c f).lanes.agents = s.lanes.agents := rfl
@[simp] theorem State.modSlice_groups (s : State) (c : Nat) (f : Slice → Slice) : (s.modSlice c f).lanes.groups = s.lanes.groups := rfl
@[simp] theorem State.modSlice_shares (s : State) (c : Nat) (f : Slice → Slice) : (s.modSlice c f).lanes.shares = s.lanes.shares := rfl
@[simp] theorem State.modSlice_tasks (s : State) (c : Nat) (f : Slice → Slice) : (s.modSlice c f).lanes.tasks = s.lanes.tasks := rfl
@[simp] theorem State.modSlice_launches (s : State) (c : Nat) (f : Slice → Slice) : (s.modSlice c f).lanes.launches = s.lanes.launches := rfl
@[simp] theorem State.modSlice_core_self (s : State) (c : Nat) (f : Slice → Slice) (h : c < s.lanes.cores.length) :
    ((s.modSlice c f).core c).slice = f (s.core c).slice := by
  simp [State.modSlice, h]

/-! ## modBar -/

@[simp] theorem State.modBar_store (s : State) (t b : Nat) (f : Barrier → Barrier) : (s.modBar t b f).store = s.store := rfl
@[simp] theorem State.modBar_queues (s : State) (t b : Nat) (f : Barrier → Barrier) : (s.modBar t b f).queues = s.queues := rfl
@[simp] theorem State.modBar_vdevs (s : State) (t b : Nat) (f : Barrier → Barrier) : (s.modBar t b f).vdevs = s.vdevs := rfl
@[simp] theorem State.modBar_hearth (s : State) (t b : Nat) (f : Barrier → Barrier) : (s.modBar t b f).hearth = s.hearth := rfl
@[simp] theorem State.modBar_now (s : State) (t b : Nat) (f : Barrier → Barrier) : (s.modBar t b f).now = s.now := rfl
@[simp] theorem State.modBar_sched (s : State) (t b : Nat) (f : Barrier → Barrier) : (s.modBar t b f).sched = s.sched := rfl
@[simp] theorem State.modBar_cur (s : State) (t b : Nat) (f : Barrier → Barrier) : (s.modBar t b f).cur = s.cur := rfl
@[simp] theorem State.modBar_free (s : State) (t b : Nat) (f : Barrier → Barrier) : (s.modBar t b f).free = s.free := rfl
@[simp] theorem State.modBar_moves (s : State) (t b : Nat) (f : Barrier → Barrier) : (s.modBar t b f).moves = s.moves := rfl
@[simp] theorem State.modBar_agents (s : State) (t b : Nat) (f : Barrier → Barrier) : (s.modBar t b f).lanes.agents = s.lanes.agents := rfl
@[simp] theorem State.modBar_groups (s : State) (t b : Nat) (f : Barrier → Barrier) : (s.modBar t b f).lanes.groups = s.lanes.groups := rfl
@[simp] theorem State.modBar_shares (s : State) (t b : Nat) (f : Barrier → Barrier) : (s.modBar t b f).lanes.shares = s.lanes.shares := rfl
@[simp] theorem State.modBar_launches (s : State) (t b : Nat) (f : Barrier → Barrier) : (s.modBar t b f).lanes.launches = s.lanes.launches := rfl
@[simp] theorem State.modBar_cores (s : State) (t b : Nat) (f : Barrier → Barrier) : (s.modBar t b f).lanes.cores = s.lanes.cores := rfl
@[simp] theorem State.modBar_bar (s : State) (t b : Nat) (f : Barrier → Barrier) (h : t < s.lanes.tasks.length)
    (hb : b < (s.task t).bars.length) : (s.modBar t b f).bar t b = f (s.bar t b) := by
  simp [State.modBar, State.bar, h, hb]

/-! ## modCv -/

@[simp] theorem State.modCv_store (s : State) (t c : Nat) (f : Cv → Cv) : (s.modCv t c f).store = s.store := rfl
@[simp] theorem State.modCv_queues (s : State) (t c : Nat) (f : Cv → Cv) : (s.modCv t c f).queues = s.queues := rfl
@[simp] theorem State.modCv_vdevs (s : State) (t c : Nat) (f : Cv → Cv) : (s.modCv t c f).vdevs = s.vdevs := rfl
@[simp] theorem State.modCv_hearth (s : State) (t c : Nat) (f : Cv → Cv) : (s.modCv t c f).hearth = s.hearth := rfl
@[simp] theorem State.modCv_now (s : State) (t c : Nat) (f : Cv → Cv) : (s.modCv t c f).now = s.now := rfl
@[simp] theorem State.modCv_sched (s : State) (t c : Nat) (f : Cv → Cv) : (s.modCv t c f).sched = s.sched := rfl
@[simp] theorem State.modCv_cur (s : State) (t c : Nat) (f : Cv → Cv) : (s.modCv t c f).cur = s.cur := rfl
@[simp] theorem State.modCv_free (s : State) (t c : Nat) (f : Cv → Cv) : (s.modCv t c f).free = s.free := rfl
@[simp] theorem State.modCv_moves (s : State) (t c : Nat) (f : Cv → Cv) : (s.modCv t c f).moves = s.moves := rfl
@[simp] theorem State.modCv_agents (s : State) (t c : Nat) (f : Cv → Cv) : (s.modCv t c f).lanes.agents = s.lanes.agents := rfl
@[simp] theorem State.modCv_groups (s : State) (t c : Nat) (f : Cv → Cv) : (s.modCv t c f).lanes.groups = s.lanes.groups := rfl
@[simp] theorem State.modCv_shares (s : State) (t c : Nat) (f : Cv → Cv) : (s.modCv t c f).lanes.shares = s.lanes.shares := rfl
@[simp] theorem State.modCv_launches (s : State) (t c : Nat) (f : Cv → Cv) : (s.modCv t c f).lanes.launches = s.lanes.launches := rfl
@[simp] theorem State.modCv_cores (s : State) (t c : Nat) (f : Cv → Cv) : (s.modCv t c f).lanes.cores = s.lanes.cores := rfl
@[simp] theorem State.modCv_cv (s : State) (t c : Nat) (f : Cv → Cv) (h : t < s.lanes.tasks.length)
    (hc : c < (s.task t).cvs.length) : (s.modCv t c f).cv t c = f (s.cv t c) := by
  simp [State.modCv, State.cv, h, hc]

/-! ## modSlot -/

@[simp] theorem State.modSlot_store (s : State) (l n : Nat) (f : Slot → Slot) : (s.modSlot l n f).store = s.store := rfl
@[simp] theorem State.modSlot_queues (s : State) (l n : Nat) (f : Slot → Slot) : (s.modSlot l n f).queues = s.queues := rfl
@[simp] theorem State.modSlot_vdevs (s : State) (l n : Nat) (f : Slot → Slot) : (s.modSlot l n f).vdevs = s.vdevs := rfl
@[simp] theorem State.modSlot_hearth (s : State) (l n : Nat) (f : Slot → Slot) : (s.modSlot l n f).hearth = s.hearth := rfl
@[simp] theorem State.modSlot_now (s : State) (l n : Nat) (f : Slot → Slot) : (s.modSlot l n f).now = s.now := rfl
@[simp] theorem State.modSlot_sched (s : State) (l n : Nat) (f : Slot → Slot) : (s.modSlot l n f).sched = s.sched := rfl
@[simp] theorem State.modSlot_cur (s : State) (l n : Nat) (f : Slot → Slot) : (s.modSlot l n f).cur = s.cur := rfl
@[simp] theorem State.modSlot_free (s : State) (l n : Nat) (f : Slot → Slot) : (s.modSlot l n f).free = s.free := rfl
@[simp] theorem State.modSlot_moves (s : State) (l n : Nat) (f : Slot → Slot) : (s.modSlot l n f).moves = s.moves := rfl
@[simp] theorem State.modSlot_agents (s : State) (l n : Nat) (f : Slot → Slot) : (s.modSlot l n f).lanes.agents = s.lanes.agents := rfl
@[simp] theorem State.modSlot_groups (s : State) (l n : Nat) (f : Slot → Slot) : (s.modSlot l n f).lanes.groups = s.lanes.groups := rfl
@[simp] theorem State.modSlot_shares (s : State) (l n : Nat) (f : Slot → Slot) : (s.modSlot l n f).lanes.shares = s.lanes.shares := rfl
@[simp] theorem State.modSlot_tasks (s : State) (l n : Nat) (f : Slot → Slot) : (s.modSlot l n f).lanes.tasks = s.lanes.tasks := rfl
@[simp] theorem State.modSlot_cores (s : State) (l n : Nat) (f : Slot → Slot) : (s.modSlot l n f).lanes.cores = s.lanes.cores := rfl

/-! ## modBalloon -/

@[simp] theorem State.modBalloon_store (s : State) (v : Nat) (f : Balloon → Balloon) : (s.modBalloon v f).store = s.store := rfl
@[simp] theorem State.modBalloon_queues (s : State) (v : Nat) (f : Balloon → Balloon) : (s.modBalloon v f).queues = s.queues := rfl
@[simp] theorem State.modBalloon_hearth (s : State) (v : Nat) (f : Balloon → Balloon) : (s.modBalloon v f).hearth = s.hearth := rfl
@[simp] theorem State.modBalloon_now (s : State) (v : Nat) (f : Balloon → Balloon) : (s.modBalloon v f).now = s.now := rfl
@[simp] theorem State.modBalloon_sched (s : State) (v : Nat) (f : Balloon → Balloon) : (s.modBalloon v f).sched = s.sched := rfl
@[simp] theorem State.modBalloon_cur (s : State) (v : Nat) (f : Balloon → Balloon) : (s.modBalloon v f).cur = s.cur := rfl
@[simp] theorem State.modBalloon_free (s : State) (v : Nat) (f : Balloon → Balloon) : (s.modBalloon v f).free = s.free := rfl
@[simp] theorem State.modBalloon_moves (s : State) (v : Nat) (f : Balloon → Balloon) : (s.modBalloon v f).moves = s.moves := rfl
@[simp] theorem State.modBalloon_agents (s : State) (v : Nat) (f : Balloon → Balloon) : (s.modBalloon v f).lanes.agents = s.lanes.agents := rfl
@[simp] theorem State.modBalloon_groups (s : State) (v : Nat) (f : Balloon → Balloon) : (s.modBalloon v f).lanes.groups = s.lanes.groups := rfl
@[simp] theorem State.modBalloon_shares (s : State) (v : Nat) (f : Balloon → Balloon) : (s.modBalloon v f).lanes.shares = s.lanes.shares := rfl
@[simp] theorem State.modBalloon_tasks (s : State) (v : Nat) (f : Balloon → Balloon) : (s.modBalloon v f).lanes.tasks = s.lanes.tasks := rfl
@[simp] theorem State.modBalloon_launches (s : State) (v : Nat) (f : Balloon → Balloon) : (s.modBalloon v f).lanes.launches = s.lanes.launches := rfl
@[simp] theorem State.modBalloon_cores (s : State) (v : Nat) (f : Balloon → Balloon) : (s.modBalloon v f).lanes.cores = s.lanes.cores := rfl
@[simp] theorem State.modBalloon_balloon_self (s : State) (v : Nat) (f : Balloon → Balloon) (h : v < s.vdevs.length) :
    ((s.modBalloon v f).vdev v).balloon = f (s.vdev v).balloon := by
  simp [State.modBalloon, h]

/-! ## modK -/

@[simp] theorem State.modK_queues (s : State) (v st : Nat) (f : KShare → KShare) : (s.modK v st f).queues = s.queues := rfl
@[simp] theorem State.modK_vdevs (s : State) (v st : Nat) (f : KShare → KShare) : (s.modK v st f).vdevs = s.vdevs := rfl
@[simp] theorem State.modK_hearth (s : State) (v st : Nat) (f : KShare → KShare) : (s.modK v st f).hearth = s.hearth := rfl
@[simp] theorem State.modK_now (s : State) (v st : Nat) (f : KShare → KShare) : (s.modK v st f).now = s.now := rfl
@[simp] theorem State.modK_sched (s : State) (v st : Nat) (f : KShare → KShare) : (s.modK v st f).sched = s.sched := rfl
@[simp] theorem State.modK_cur (s : State) (v st : Nat) (f : KShare → KShare) : (s.modK v st f).cur = s.cur := rfl
@[simp] theorem State.modK_free (s : State) (v st : Nat) (f : KShare → KShare) : (s.modK v st f).free = s.free := rfl
@[simp] theorem State.modK_moves (s : State) (v st : Nat) (f : KShare → KShare) : (s.modK v st f).moves = s.moves := rfl
@[simp] theorem State.modK_agents (s : State) (v st : Nat) (f : KShare → KShare) : (s.modK v st f).lanes.agents = s.lanes.agents := rfl
@[simp] theorem State.modK_groups (s : State) (v st : Nat) (f : KShare → KShare) : (s.modK v st f).lanes.groups = s.lanes.groups := rfl
@[simp] theorem State.modK_shares (s : State) (v st : Nat) (f : KShare → KShare) : (s.modK v st f).lanes.shares = s.lanes.shares := rfl
@[simp] theorem State.modK_tasks (s : State) (v st : Nat) (f : KShare → KShare) : (s.modK v st f).lanes.tasks = s.lanes.tasks := rfl
@[simp] theorem State.modK_launches (s : State) (v st : Nat) (f : KShare → KShare) : (s.modK v st f).lanes.launches = s.lanes.launches := rfl
@[simp] theorem State.modK_cores (s : State) (v st : Nat) (f : KShare → KShare) : (s.modK v st f).lanes.cores = s.lanes.cores := rfl
@[simp] theorem State.modK_mem (s : State) (v st : Nat) (f : KShare → KShare) : (s.modK v st f).store.mem = s.store.mem := rfl
@[simp] theorem State.modK_blocks (s : State) (v st : Nat) (f : KShare → KShare) : (s.modK v st f).store.blocks = s.store.blocks := rfl

/-! ## modOwner -/

@[simp] theorem State.modOwner_queues (s : State) (st : Nat) (f : Owner → Owner) : (s.modOwner st f).queues = s.queues := rfl
@[simp] theorem State.modOwner_vdevs (s : State) (st : Nat) (f : Owner → Owner) : (s.modOwner st f).vdevs = s.vdevs := rfl
@[simp] theorem State.modOwner_hearth (s : State) (st : Nat) (f : Owner → Owner) : (s.modOwner st f).hearth = s.hearth := rfl
@[simp] theorem State.modOwner_now (s : State) (st : Nat) (f : Owner → Owner) : (s.modOwner st f).now = s.now := rfl
@[simp] theorem State.modOwner_sched (s : State) (st : Nat) (f : Owner → Owner) : (s.modOwner st f).sched = s.sched := rfl
@[simp] theorem State.modOwner_cur (s : State) (st : Nat) (f : Owner → Owner) : (s.modOwner st f).cur = s.cur := rfl
@[simp] theorem State.modOwner_free (s : State) (st : Nat) (f : Owner → Owner) : (s.modOwner st f).free = s.free := rfl
@[simp] theorem State.modOwner_moves (s : State) (st : Nat) (f : Owner → Owner) : (s.modOwner st f).moves = s.moves := rfl
@[simp] theorem State.modOwner_agents (s : State) (st : Nat) (f : Owner → Owner) : (s.modOwner st f).lanes.agents = s.lanes.agents := rfl
@[simp] theorem State.modOwner_groups (s : State) (st : Nat) (f : Owner → Owner) : (s.modOwner st f).lanes.groups = s.lanes.groups := rfl
@[simp] theorem State.modOwner_shares (s : State) (st : Nat) (f : Owner → Owner) : (s.modOwner st f).lanes.shares = s.lanes.shares := rfl
@[simp] theorem State.modOwner_tasks (s : State) (st : Nat) (f : Owner → Owner) : (s.modOwner st f).lanes.tasks = s.lanes.tasks := rfl
@[simp] theorem State.modOwner_launches (s : State) (st : Nat) (f : Owner → Owner) : (s.modOwner st f).lanes.launches = s.lanes.launches := rfl
@[simp] theorem State.modOwner_cores (s : State) (st : Nat) (f : Owner → Owner) : (s.modOwner st f).lanes.cores = s.lanes.cores := rfl
@[simp] theorem State.modOwner_owners (s : State) (st : Nat) (f : Owner → Owner) : (s.modOwner st f).store.owners = s.store.owners.modify st f := rfl
@[simp] theorem State.modOwner_mem (s : State) (st : Nat) (f : Owner → Owner) : (s.modOwner st f).store.mem = s.store.mem := rfl

/-! ## setLink -/

@[simp] theorem State.setLink_store (s : State) (n : Nat) (x : LinkState) : (s.setLink n x).store = s.store := rfl
@[simp] theorem State.setLink_queues (s : State) (n : Nat) (x : LinkState) : (s.setLink n x).queues = s.queues := rfl
@[simp] theorem State.setLink_vdevs (s : State) (n : Nat) (x : LinkState) : (s.setLink n x).vdevs = s.vdevs := rfl
@[simp] theorem State.setLink_now (s : State) (n : Nat) (x : LinkState) : (s.setLink n x).now = s.now := rfl
@[simp] theorem State.setLink_sched (s : State) (n : Nat) (x : LinkState) : (s.setLink n x).sched = s.sched := rfl
@[simp] theorem State.setLink_cur (s : State) (n : Nat) (x : LinkState) : (s.setLink n x).cur = s.cur := rfl
@[simp] theorem State.setLink_free (s : State) (n : Nat) (x : LinkState) : (s.setLink n x).free = s.free := rfl
@[simp] theorem State.setLink_moves (s : State) (n : Nat) (x : LinkState) : (s.setLink n x).moves = s.moves := rfl
@[simp] theorem State.setLink_agents (s : State) (n : Nat) (x : LinkState) : (s.setLink n x).lanes.agents = s.lanes.agents := rfl
@[simp] theorem State.setLink_groups (s : State) (n : Nat) (x : LinkState) : (s.setLink n x).lanes.groups = s.lanes.groups := rfl
@[simp] theorem State.setLink_shares (s : State) (n : Nat) (x : LinkState) : (s.setLink n x).lanes.shares = s.lanes.shares := rfl
@[simp] theorem State.setLink_tasks (s : State) (n : Nat) (x : LinkState) : (s.setLink n x).lanes.tasks = s.lanes.tasks := rfl
@[simp] theorem State.setLink_launches (s : State) (n : Nat) (x : LinkState) : (s.setLink n x).lanes.launches = s.lanes.launches := rfl
@[simp] theorem State.setLink_cores (s : State) (n : Nat) (x : LinkState) : (s.setLink n x).lanes.cores = s.lanes.cores := rfl
@[simp] theorem State.setLink_links (s : State) (n : Nat) (x : LinkState) : (s.setLink n x).hearth.links = s.hearth.links.set n x := rfl

/-! ## setResv -/

@[simp] theorem State.setResv_store (s : State) (w : Nat) (r : Option (Nat × Nat)) : (s.setResv w r).store = s.store := rfl
@[simp] theorem State.setResv_queues (s : State) (w : Nat) (r : Option (Nat × Nat)) : (s.setResv w r).queues = s.queues := rfl
@[simp] theorem State.setResv_vdevs (s : State) (w : Nat) (r : Option (Nat × Nat)) : (s.setResv w r).vdevs = s.vdevs := rfl
@[simp] theorem State.setResv_now (s : State) (w : Nat) (r : Option (Nat × Nat)) : (s.setResv w r).now = s.now := rfl
@[simp] theorem State.setResv_sched (s : State) (w : Nat) (r : Option (Nat × Nat)) : (s.setResv w r).sched = s.sched := rfl
@[simp] theorem State.setResv_cur (s : State) (w : Nat) (r : Option (Nat × Nat)) : (s.setResv w r).cur = s.cur := rfl
@[simp] theorem State.setResv_free (s : State) (w : Nat) (r : Option (Nat × Nat)) : (s.setResv w r).free = s.free := rfl
@[simp] theorem State.setResv_moves (s : State) (w : Nat) (r : Option (Nat × Nat)) : (s.setResv w r).moves = s.moves := rfl
@[simp] theorem State.setResv_agents (s : State) (w : Nat) (r : Option (Nat × Nat)) : (s.setResv w r).lanes.agents = s.lanes.agents := rfl
@[simp] theorem State.setResv_groups (s : State) (w : Nat) (r : Option (Nat × Nat)) : (s.setResv w r).lanes.groups = s.lanes.groups := rfl
@[simp] theorem State.setResv_shares (s : State) (w : Nat) (r : Option (Nat × Nat)) : (s.setResv w r).lanes.shares = s.lanes.shares := rfl
@[simp] theorem State.setResv_tasks (s : State) (w : Nat) (r : Option (Nat × Nat)) : (s.setResv w r).lanes.tasks = s.lanes.tasks := rfl
@[simp] theorem State.setResv_launches (s : State) (w : Nat) (r : Option (Nat × Nat)) : (s.setResv w r).lanes.launches = s.lanes.launches := rfl
@[simp] theorem State.setResv_cores (s : State) (w : Nat) (r : Option (Nat × Nat)) : (s.setResv w r).lanes.cores = s.lanes.cores := rfl

end Sys2Proof.Machine
end

