-- ==== Sys2Proof/Laws/Writes.lean ====
section
/-! SUPPORT. What committed writes, write-backs and the collapse of replicas do to the bytes of memory, and what leaving a store line leaves alone. -/

namespace Sys2Proof.Machine

/-! ## Memory bytes -/
/-- A property of both branches holds of the choice. -/
theorem cond_prop {p : State → Prop} (b : Bool) {x y : State} (h : p x) (k : p y) : p (bif b then x else y) := by cases b <;> assumption
/-- A property that each step of a fold keeps holds at its end. -/
theorem foldl_prop {p : State → Prop} {α : Type} {f : State → α → State} (h : ∀ t x, p t → p (f t x)) (l : List α) :
    ∀ s, p s → p (l.foldl f s) := by
  induction l with
  | nil => exact fun _ h => h
  | cons x l ih => exact fun s hs => ih _ (h s x hs)
/-- A committed byte changes memory as a plain write of it does. -/
@[simp] theorem putByte_mem (s : State) (pa : Nat) (x : Byte) : (s.putByte pa x).store.mem = s.store.mem.put pa x :=
  congrArg (fun m => Mem.put m pa x) (cond_prop (p := fun t => t.store.mem = s.store.mem) _ rfl rfl)
/-- A committed write changes memory as a plain write of its bytes does. -/
@[simp] theorem putBytes_mem (bs : List Byte) : ∀ (s : State) (pa : Nat), (s.putBytes pa bs).store.mem = s.store.mem.putN pa bs := by
  induction bs with
  | nil => exact fun _ _ => rfl
  | cons x bs ih => exact fun s pa => (ih _ _).trans (by rw [putByte_mem]; rfl)
/-- A write-back changes classes and charges, and no byte (R330). -/
@[simp] theorem writeback_mem (s : State) (no : Nat) : (s.writeback no).store.mem = s.store.mem := by
  unfold State.writeback
  refine cond_prop (p := fun t => t.store.mem = s.store.mem) _ rfl ?_
  split
  · split
    · exact cond_prop (p := fun t => t.store.mem = s.store.mem) _ rfl rfl
    · exact cond_prop (p := fun t => t.store.mem = s.store.mem) _ rfl rfl
  · rfl
/-- Charging a block changes no byte. -/
@[simp] theorem chargeHeld_mem (s : State) (pa : Nat) : (s.chargeHeld pa).store.mem = s.store.mem := by
  rcases chargeHeld_cases s pa with h | ⟨b, h⟩
  · rw [h]
  · rw [h]; rfl
/-- A change of a share's accounting changes no byte. -/
@[simp] theorem modK_mem (s : State) (v st : Nat) (f : KShare → KShare) : (s.modK v st f).store.mem = s.store.mem := rfl
/-- Releasing a block's charge changes no byte. -/
@[simp] theorem release_mem (s : State) (no : Nat) : (s.release no).store.mem = s.store.mem := rfl
/-- Settling the blocks of a write that bypasses the caches changes no byte (R361). -/
@[simp] theorem settleHome_mem (s : State) (b : Bool) (pa n : Nat) : (s.settleHome b pa n).store.mem = s.store.mem := by
  refine cond_prop (p := fun t => t.store.mem = s.store.mem) _ ?_ rfl
  exact foldl_prop (p := fun t => t.store.mem = s.store.mem) (fun t no h => (writeback_mem t no).trans h) _ s rfl
/-- The collapse of replicas before a write changes what a translation can. -/
theorem collapseHome_only (s : State) (pa : Nat) : ByTranslation s (s.collapseHome pa) := by
  refine ByTranslation.foldl _ (fun t r => ?_) _ s
  dsimp only
  split
  · exact .cond _ (collapse_only _ _ _ _) (.refl t)
  · exact .refl t
/-- A leaf rewrite keeps the canonical form of memory. -/
theorem setLeaf_wf (s : State) (a e : Nat) (h : s.store.mem.wf = true) : (s.setLeaf a e).store.mem.wf = true := by
  have hp : ((s.chargeHeld a).putBytes a (natLe 8 e)).store.mem.wf = true := by
    rw [putBytes_mem, chargeHeld_mem]; exact Mem.putN_wf _ _ h
  unfold State.setLeaf
  exact cond_prop (p := fun t => t.store.mem.wf = true) _ h hp
/-- Freeing a frame keeps the canonical form of memory. -/
theorem freePage_wf (s : State) (b : Nat) (h : s.store.mem.wf = true) : (s.freePage b).store.mem.wf = true :=
  Mem.clear_wf b 65536 h
/-- Collapsing one page's replicas keeps the canonical form of memory (R365). -/
theorem collapse_wf (s : State) (v d : Nat) (va : DWord) (h : s.store.mem.wf = true) : (s.collapse v d va).store.mem.wf = true := by
  unfold State.collapse
  dsimp only
  split
  · exact h
  · split
    · exact h
    · refine setLeaf_wf _ _ _ ?_
      simp only [State.modStore]
      refine foldl_prop (p := fun t => t.store.mem.wf = true) (fun t r ht => ?_) _ _
        (cond_prop (p := fun t => t.store.mem.wf = true) _ h (foldl_prop (p := fun t => t.store.mem.wf = true) (fun t b ht => ?_) _ _ h))
      rotate_left
      · unfold State.followSigs
        exact cond_prop (p := fun t => t.store.mem.wf = true) _ ht ht
      exact cond_prop (p := fun t => t.store.mem.wf = true) _ ht (freePage_wf t _ ht)
/-- The collapse of replicas keeps the canonical form of memory. -/
theorem collapseHome_wf (s : State) (pa : Nat) (h : s.store.mem.wf = true) : (s.collapseHome pa).store.mem.wf = true := by
  refine foldl_prop (p := fun t => t.store.mem.wf = true) (fun t r ht => ?_) _ s h
  dsimp only
  split
  · exact cond_prop (p := fun t => t.store.mem.wf = true) _ (collapse_wf t _ _ _ ht) ht
  · exact ht

/-! ## Stores in issue order (R98, R101) -/

/-- A store that leaves its group's line changes no thread. -/
@[simp] theorem leaveLine_agent (s : State) (ag : Nat) (pad : Bool) (k : Nat) : (s.leaveLine ag pad).agent k = s.agent k := by
  unfold State.leaveLine
  split
  · rfl
  · exact cond_prop (p := fun t => t.agent k = s.agent k) _ rfl rfl
/-- A store that leaves its group's line moves no thread to another share. -/
@[simp] theorem leaveLine_shareOf (s : State) (ag : Nat) (pad : Bool) (k : Nat) : (s.leaveLine ag pad).shareOf k = s.shareOf k := by
  simp only [State.shareOf, leaveLine_agent]
end Sys2Proof.Machine
end

