-- ==== Sys2Proof/Tests/Slice0.lean ====
section
/-! SUPPORT. The model's own tests: ill-formed terms refused, the spec's words decoded, and for each statement that has
hypotheses a state and operands that meet them. -/

namespace Sys2Proof.Tests
open Sys2Proof.Machine Sys2Proof.Claims
set_option Elab.async false

/-! ## Small states -/

/-- Control fields: W set and guard 10, and no W with guard 7. -/
abbrev k0 : Ctl := ⟨true, 10#4⟩
abbrev g7 : Ctl := ⟨false, 7#4⟩
/-- A loaded launch whose thread 0, agent 1, is alone in the fragment at 0x10000. -/
def one : State := { State.reset.load [] false with cur := ⟨[1], 0x10000#64, 12⟩, sched := [] }
/-- The same with its front end, agent 0, in the fragment. -/
def front : State := { one with cur := ⟨[0], 0x10000#64, 12⟩ }
/-- A change of the thread of `one`. -/
def oneWith (f : Agent → Agent) : State := one.modAgent 1 f
/-- What `Alone` asks, as a Bool. -/
def isAlone (s : State) (i : Instr) (ag : Nat) : Bool :=
  s.cur.agents == [ag] && decide (ag < s.lanes.agents.length) && (s.agent ag).status == .ready && !(s.agent ag).stepOnce &&
  !(s.ticked.debugSeen ag 82 0x801 (s.ticked.agent ag).issued).getLsbD 8 && s.ticked.pre i ag == .go
theorem alone_of {s : State} {i : Instr} {ag : Nat} (h : isAlone s i ag = true) : Alone s i ag := by
  simpa [isAlone, Alone, Unstepped, Performs, and_assoc] using h
theorem together_of {s : State} {i : Instr} {ag : Nat} (h : isAlone s i ag = true) : Together s i := by
  obtain ⟨h1, h2, h3⟩ := alone_of h
  rw [Together, h1]
  exact ⟨List.nodup_singleton _, fun b hb => by obtain rfl := List.mem_singleton.mp hb; exact ⟨h2, .inl h3⟩⟩

/-! ## Ill-formed terms, one for each check of WellFormed -/

theorem test_wf_base_register : (Instr.add false 3#8 128#8 (.imm 5#7)).wf = false := by decide
theorem test_wf_base_operand : (Instr.trap false (.reg 200#8)).wf = false := by decide
theorem test_wf_literal_of_base_form : (Instr.addExt ⟨false, 3#4⟩ false 3#8 1#8 (.blit 7#64)).wf = false := by decide
theorem test_wf_wide_literal : (Instr.addExt g7 false 3#8 1#8 (.lit 0x100000000#64)).wf = false := by decide
theorem test_wf_pair : (Instr.add64 g7 3#8 4#8 (.reg 6#8)).wf = false := by decide
theorem test_wf_pair_operand : (Instr.add64 g7 2#8 4#8 (.reg 7#8)).wf = false := by decide
theorem test_wf_displacement : (Instr.ldz g7 0#3 0#2 2#8 1#3 4#8 (.blit 8#32)).wf = false := by decide
theorem test_wf_condition_code : (Instr.cmp g7 10#4 1#3 2#8 (.reg 3#8)).wf = false := by decide
theorem test_wf_rounding_mode : (Instr.i2f g7 5#3 1#8 2#8).wf = false := by decide
theorem test_wf_fcvt_element : (Instr.fcvt g7 false false 2#2 0#3 1#4 1#8 2#8).wf = false := by decide
theorem test_wf_fcvt_widening : (Instr.fcvt g7 true true 0#2 0#3 1#4 1#8 2#8).wf = false := by decide
theorem test_wf_qnt_run : (Instr.qnt g7 false 0#3 3#4 1#8 3#8 (.reg 4#8)).wf = false := by decide
theorem test_wf_had_overlap : (Instr.had g7 0#2 0#3 0#4 8#8 16#8).wf = false := by decide
theorem test_wf_cmpr_metadata : (Instr.cmpr g7 false 1#4 16#8 8#8 9#8).wf = false := by decide
theorem test_wf_boxt_overlap : (Instr.boxt g7 10#8 8#8 2#8).wf = false := by decide
theorem test_wf_width_pair : (Instr.ldExt g7 false 5#3 0#3 0#2 3#8 4#8 (.imm 0#16)).wf = false := by decide
theorem test_wf_scope_without_order : (Instr.ldExt g7 false 0#3 4#3 0#2 3#8 4#8 (.imm 0#16)).wf = false := by decide
theorem test_wf_wide_atomic : (Instr.atomAdd g7 false true 0#3 3#8 4#8 (.reg 6#8)).wf = false := by decide
theorem test_wf_stack : (Instr.rsvqFree g7 3#4 2#8).wf = false := by decide
theorem test_wf_wload_transform : (Instr.wload g7 1#2 1#2 3#4 2#8 (.reg 4#8) 255#8).wf = false := by decide
theorem test_wf_mma_k : (Instr.mma g7 0#7 false false 2#2 false 1#4 0#3 4#8 0#4).wf = false := by decide
theorem test_wf_tile_row : (Instr.ard g7 0#3 9#8 0#3 (.reg 1#8)).wf = false := by decide
theorem test_wf_drain_scale : (Instr.adrain g7 false false false 255#8 0#4 0#3 2#8 (.reg 4#8) 255#8).wf = false := by decide
theorem test_wf_depth : (Instr.xcfg g7 9#4 0#2 0#3 1#8 (.reg 2#8) 3#8).wf = false := by decide
theorem test_wf_copy_direction : (Instr.tcopy g7 3#2 0#2 4#3 2#8 4#8 6#8 8#8).wf = false := by decide
theorem test_wf_copy_scope : (Instr.tcopy g7 0#2 1#2 4#3 2#8 4#8 6#8 8#8).wf = false := by decide
theorem test_wf_counter_pair : (Instr.tcopy g7 0#2 0#2 4#3 2#8 4#8 6#8 9#8).wf = false := by decide
theorem test_wf_flush_scope : (Instr.cflushInv g7 3#3 2#8 (.reg 4#8)).wf = false := by decide
theorem test_wf_event_core : (Instr.copyStart 192).wf = false := by decide
theorem test_wf_event_bytes : (Instr.queueCreate 0 [0#8]).wf = false := by decide

/-! ## Decoding -/

/-- Worked words of the spec (08 after R49, R50 and R183; 07 after R164 and R175; 09 R210; 11 R252; 13 R264; 18 R325; 19 R344). -/
theorem test_decode_worked_words :
    decodeWords [0x000015C0#32] = .ok (.bra false 5#22) ∧
    decodeWords [0x7F05FDF0#32] = .ok (.jwait false 2#4) ∧
    decodeWords [0x0000011A#32, 0x0605040A#32, 0x00000022#32] = .ok (.ffma ⟨false, 2#4⟩ 2#3 10#8 4#8 (.reg 5#8) 6#8) ∧
    decodeWords [0x8000016A#32, 0xFFFF0408#32, 0x00810307#32] = .ok (.qnt g7 false 0#3 3#4 8#8 4#8 (.imm 0x81#16)) ∧
    decodeWords [0x80010242#32, 0xFFFF0406#32, 0x00080457#32] = .ok (.ldExt g7 true 5#3 4#3 0#2 6#8 4#8 (.imm 8#16)) ∧
    decodeWords [0x800103CA#32, 0xFFFF04FF#32, 0x00060607#32] = .ok (.stkho g7 1#1 6#3 4#8 (.imm 6#16)) ∧
    decodeWords [0x00080382#32, 0x010A0406#32, 0x00000007#32] = .ok (.tcopy g7 0#2 2#2 0#3 6#8 4#8 10#8 1#8) ∧
    decodeWords [0x80030362#32, 0xFFFF1200#32, 0x00020017#32] = .ok (.xcfg g7 3#4 1#2 0#3 18#8 (.imm 2#16) 255#8) ∧
    decodeWords [0x800002D2#32, 0x06FF04FF#32, 0x00000007#32] = .ok (.blkfill g7 4#8 (.imm 0#16) 6#8) := by decide
/-- Undefined words: an unlisted major, a form a row does not have, IMM16 beside a literal, a modifier, a code and an odd pair (R71). -/
theorem test_decode_undefined :
    decodeWords [0x000003F8#32] = .error 1 ∧ decodeWords [0x00000013#32, 0#32, 0#32] = .error 4 ∧
    decodeWords [0x000001C1#32, 0#32, 0#32] = .error 4 ∧ decodeWords [0x00020012#32, 0xFF020103#32, 0x00000007#32] = .error 5 ∧
    decodeWords [0x80000013#32, 0xFFFF0103#32, 0x00010007#32, 1#32, 0#32] = .error 6 ∧ decodeWords [0x000000BA#32, 0xFFFF0103#32, 0x00000017#32] = .error 7 ∧
    decodeWords [0x000000B2#32, 0xFF060403#32, 0x00000007#32] = .error 8 := by decide
/-- Bytes stand little-endian, the first word lowest; what follows the instruction is left (R37, R45). -/
theorem test_decode_bytes : decode [0x10#8, 0x0C#8, 0x02#8, 0x85#8, 1#8] = .ok (.add false 3#8 1#8 (.imm 5#7), [1#8]) := by decide
/-- The encoder gives the spec's words back. -/
theorem test_encode : encode (.add false 3#8 1#8 (.imm 5#7)) = some [0x85020C10#32] ∧
    encode (.ldExt g7 true 5#3 4#3 0#2 6#8 4#8 (.imm 8#16)) = some [0x80010242#32, 0xFFFF0406#32, 0x00080457#32] := by decide

/-! Operands d = v16, a = v8, b = v24 or an immediate or a literal, c = v32 in each row, W set and guard 10 where there is one. -/

/-- Words composed field by field of R47, R51, R152. -/
theorem test_decode_moves_and_arithmetic :
    decodeWords [0xFBFE400C#32] = .ok (.mov true 16#8 (.imm 0x7B#7)) ∧
    decodeWords [0x8000000E#32, 0xFFFFFF10#32, 0x8123000A#32] = .ok (.movExt k0 16#8 (.imm 0x8123#16)) ∧
    decodeWords [0xFB104014#32] = .ok (.add true 16#8 8#8 (.imm 0x7B#7)) ∧
    decodeWords [0x00010016#32, 0xFF180810#32, 0x0000000A#32] = .ok (.addExt k0 true 16#8 8#8 (.reg 24#8)) ∧
    decodeWords [0xFB10401C#32] = .ok (.sub true 16#8 8#8 (.imm 0x7B#7)) ∧
    decodeWords [0x8001001F#32, 0xFFFF0810#32, 0x0000000A#32, 0x89ABCDEF#32, 0x00000000#32] = .ok (.subExt k0 true 16#8 8#8 (.lit 0x89ABCDEF#64)) ∧
    decodeWords [0xFB104024#32] = .ok (.mul true 16#8 8#8 (.imm 0x7B#7)) ∧
    decodeWords [0x80000026#32, 0xFFFF0810#32, 0x8123000A#32] = .ok (.mulExt k0 16#8 8#8 (.imm 0x8123#16)) ∧
    decodeWords [0xFB10402C#32] = .ok (.mulh true 16#8 8#8 (.imm 0x7B#7)) ∧
    decodeWords [0x0001002E#32, 0xFF180810#32, 0x0000000A#32] = .ok (.mulhExt k0 true 16#8 8#8 (.reg 24#8)) ∧
    decodeWords [0x80000036#32, 0x20FF0810#32, 0x8123000A#32] = .ok (.mad k0 16#8 8#8 (.imm 0x8123#16) 32#8) ∧
    decodeWords [0x1810403C#32] = .ok (.min true 16#8 8#8 (.reg 24#8)) ∧
    decodeWords [0x0001003E#32, 0xFF180810#32, 0x0000000A#32] = .ok (.minExt k0 true 16#8 8#8 (.reg 24#8)) ∧
    decodeWords [0x18104044#32] = .ok (.max true 16#8 8#8 (.reg 24#8)) ∧
    decodeWords [0x80010047#32, 0xFFFF0810#32, 0x0000000A#32, 0x89ABCDEF#32, 0x00000000#32] = .ok (.maxExt k0 true 16#8 8#8 (.lit 0x89ABCDEF#64)) := by decide

/-- Words composed field by field of R47, R51, R153, R154. -/
theorem test_decode_logic_and_shifts :
    decodeWords [0x1810404C#32] = .ok (.and true 16#8 8#8 (.reg 24#8)) ∧
    decodeWords [0x8000004E#32, 0xFFFF0810#32, 0x8123000A#32] = .ok (.andExt k0 16#8 8#8 (.imm 0x8123#16)) ∧
    decodeWords [0x18104054#32] = .ok (.or true 16#8 8#8 (.reg 24#8)) ∧
    decodeWords [0x00000056#32, 0xFF180810#32, 0x0000000A#32] = .ok (.orExt k0 16#8 8#8 (.reg 24#8)) ∧
    decodeWords [0x1810405C#32] = .ok (.xor true 16#8 8#8 (.reg 24#8)) ∧
    decodeWords [0x8000005F#32, 0xFFFF0810#32, 0x0000000A#32, 0x89ABCDEF#32, 0x00000000#32] = .ok (.xorExt k0 16#8 8#8 (.lit 0x89ABCDEF#64)) ∧
    decodeWords [0x18104064#32] = .ok (.shl true 16#8 8#8 (.reg 24#8)) ∧
    decodeWords [0x80000066#32, 0xFFFF0810#32, 0x8123000A#32] = .ok (.shlExt k0 16#8 8#8 (.imm 0x8123#16)) ∧
    decodeWords [0x1810406C#32] = .ok (.shr true 16#8 8#8 (.reg 24#8)) ∧
    decodeWords [0x0000006E#32, 0xFF180810#32, 0x0000000A#32] = .ok (.shrExt k0 16#8 8#8 (.reg 24#8)) ∧
    decodeWords [0x18104074#32] = .ok (.sar true 16#8 8#8 (.reg 24#8)) ∧
    decodeWords [0x80000077#32, 0xFFFF0810#32, 0x0000000A#32, 0x89ABCDEF#32, 0x00000000#32] = .ok (.sarExt k0 16#8 8#8 (.lit 0x89ABCDEF#64)) ∧
    decodeWords [0x1810407C#32] = .ok (.rot true 16#8 8#8 (.reg 24#8)) ∧
    decodeWords [0x8000007E#32, 0xFFFF0810#32, 0x8123000A#32] = .ok (.rotExt k0 16#8 8#8 (.imm 0x8123#16)) ∧
    decodeWords [0x18104084#32] = .ok (.bfx true 16#8 8#8 (.reg 24#8)) ∧
    decodeWords [0x00010086#32, 0xFF180810#32, 0x0000000A#32] = .ok (.bfxExt k0 true 16#8 8#8 (.reg 24#8)) ∧
    decodeWords [0x8000008E#32, 0x20FF0810#32, 0x8123000A#32] = .ok (.bfi k0 16#8 8#8 (.imm 0x8123#16) 32#8) := by decide

/-- Words composed field by field of R155 to R159. -/
theorem test_decode_selection_and_pairs :
    decodeWords [0x80010097#32, 0x04FF0810#32, 0x0000000A#32, 0x89ABCDEF#32, 0x00000000#32] = .ok (.sel k0 true 16#8 8#8 (.lit 0x89ABCDEF#64) 4#3) ∧
    decodeWords [0x0000009E#32, 0xFF180801#32, 0x0000001A#32] = .ok (.cmp k0 1#4 1#3 8#8 (.reg 24#8)) ∧
    decodeWords [0x00E800A6#32, 0x04030201#32, 0x0000000A#32] = .ok (.plog k0 232#8 1#3 2#3 3#3 4#3) ∧
    decodeWords [0x181040AC#32] = .ok (.lea true 16#8 8#8 (.reg 24#8)) ∧
    decodeWords [0x000900AE#32, 0xFF180810#32, 0x0000000A#32] = .ok (.leaExt k0 1#3 true 16#8 8#8 (.reg 24#8)) ∧
    decodeWords [0x800000B6#32, 0xFFFF0810#32, 0x8123000A#32] = .ok (.add64 k0 16#8 8#8 (.imm 0x8123#16)) ∧
    decodeWords [0x800004B6#32, 0xFFFF0810#32, 0x8123000A#32] = .ok (.sub64 k0 16#8 8#8 (.imm 0x8123#16)) ∧
    decodeWords [0x000008B6#32, 0xFF180810#32, 0x0000000A#32] = .ok (.shl64 k0 16#8 8#8 (.reg 24#8)) ∧
    decodeWords [0x80000CB6#32, 0xFFFF0810#32, 0x8123000A#32] = .ok (.shr64 k0 16#8 8#8 (.imm 0x8123#16)) ∧
    decodeWords [0x800010B6#32, 0xFFFF0801#32, 0x8123001A#32] = .ok (.cmp64 k0 1#4 1#3 8#8 (.imm 0x8123#16)) := by decide

/-- Words composed field by field of R152, R160. -/
theorem test_decode_unary :
    decodeWords [0x000100BE#32, 0xFFFF0810#32, 0x0000000A#32] = .ok (.abs k0 true 16#8 8#8) ∧
    decodeWords [0x000104BE#32, 0xFFFF0810#32, 0x0000000A#32] = .ok (.neg k0 true 16#8 8#8) ∧
    decodeWords [0x000008BE#32, 0xFFFF0810#32, 0x0000000A#32] = .ok (.not k0 16#8 8#8) ∧
    decodeWords [0x00000CBE#32, 0xFFFF0810#32, 0x0000000A#32] = .ok (.popc k0 16#8 8#8) ∧
    decodeWords [0x000010BE#32, 0xFFFF0810#32, 0x0000000A#32] = .ok (.clz k0 16#8 8#8) ∧
    decodeWords [0x000014BE#32, 0xFFFF0810#32, 0x0000000A#32] = .ok (.brev k0 16#8 8#8) ∧
    decodeWords [0x000018BE#32, 0xFFFF0810#32, 0x0000000A#32] = .ok (.sext8 k0 16#8 8#8) ∧
    decodeWords [0x00001CBE#32, 0xFFFF0810#32, 0x0000000A#32] = .ok (.sext16 k0 16#8 8#8) ∧
    decodeWords [0x000020BE#32, 0xFFFF0810#32, 0x0000000A#32] = .ok (.zext8 k0 16#8 8#8) ∧
    decodeWords [0x000024BE#32, 0xFFFF0810#32, 0x0000000A#32] = .ok (.zext16 k0 16#8 8#8) := by decide

/-- Words composed field by field of R48, R162. -/
theorem test_decode_special_registers :
    decodeWords [0x006C40C4#32] = .ok (.csrr true 16#8 0x036#15) ∧
    decodeWords [0x000000C6#32, 0xFFFFFF10#32, 0x0036000A#32] = .ok (.csrrExt k0 16#8 0x036#16) ∧
    decodeWords [0x004240CC#32] = .ok (.csrw true 16#8 0x021#15) ∧
    decodeWords [0x000000CE#32, 0xFFFF08FF#32, 0x0021000A#32] = .ok (.csrwExt k0 8#8 0x021#16) ∧
    decodeWords [0x000000D4#32] = .ok (.nop true) := by decide

/-- Words composed field by field of R166 to R169. -/
theorem test_decode_floating_point :
    decodeWords [0x18104104#32] = .ok (.fadd true 16#8 8#8 (.reg 24#8)) ∧
    decodeWords [0x80000106#32, 0xFFFF0810#32, 0x8123001A#32] = .ok (.faddExt k0 1#3 16#8 8#8 (.imm 0x8123#16)) ∧
    decodeWords [0x1810410C#32] = .ok (.fsub true 16#8 8#8 (.reg 24#8)) ∧
    decodeWords [0x0000010E#32, 0xFF180810#32, 0x0000001A#32] = .ok (.fsubExt k0 1#3 16#8 8#8 (.reg 24#8)) ∧
    decodeWords [0x18104114#32] = .ok (.fmul true 16#8 8#8 (.reg 24#8)) ∧
    decodeWords [0x80000117#32, 0xFFFF0810#32, 0x0000001A#32, 0x89ABCDEF#32, 0x00000000#32] = .ok (.fmulExt k0 1#3 16#8 8#8 (.lit 0x89ABCDEF#64)) ∧
    decodeWords [0x0000011E#32, 0x20180810#32, 0x0000001A#32] = .ok (.ffma k0 1#3 16#8 8#8 (.reg 24#8) 32#8) ∧
    decodeWords [0xFB104124#32] = .ok (.fmin true 16#8 8#8 (.imm 0x7B#7)) ∧
    decodeWords [0x80000127#32, 0xFFFF0810#32, 0x0000000A#32, 0x89ABCDEF#32, 0x00000000#32] = .ok (.fminExt k0 16#8 8#8 (.lit 0x89ABCDEF#64)) ∧
    decodeWords [0xFB10412C#32] = .ok (.fmax true 16#8 8#8 (.imm 0x7B#7)) ∧
    decodeWords [0x8000012E#32, 0xFFFF0810#32, 0x8123000A#32] = .ok (.fmaxExt k0 16#8 8#8 (.imm 0x8123#16)) ∧
    decodeWords [0x80000137#32, 0xFFFF0801#32, 0x0000001A#32, 0x89ABCDEF#32, 0x00000000#32] = .ok (.fcmp k0 1#4 1#3 8#8 (.lit 0x89ABCDEF#64)) ∧
    decodeWords [0x0000013E#32, 0xFFFF0810#32, 0x0000000A#32] = .ok (.fabs k0 16#8 8#8) ∧
    decodeWords [0x0000053E#32, 0xFFFF0810#32, 0x0000000A#32] = .ok (.fneg k0 16#8 8#8) ∧
    decodeWords [0x0000093E#32, 0xFFFF0810#32, 0x0000000A#32] = .ok (.fclass k0 16#8 8#8) ∧
    decodeWords [0x00000D3E#32, 0xFFFF0810#32, 0x0000001A#32] = .ok (.frint k0 1#3 16#8 8#8) := by decide

/-- Words composed field by field of R170, R172. -/
theorem test_decode_fxu :
    decodeWords [0x00000146#32, 0xFFFF0810#32, 0x0000000A#32] = .ok (.frcp k0 16#8 8#8) ∧
    decodeWords [0x00000546#32, 0xFFFF0810#32, 0x0000000A#32] = .ok (.frsq k0 16#8 8#8) ∧
    decodeWords [0x00000946#32, 0xFFFF0810#32, 0x0000001A#32] = .ok (.fsqrt k0 1#3 16#8 8#8) ∧
    decodeWords [0x00000D46#32, 0xFFFF0810#32, 0x0000000A#32] = .ok (.fexp2 k0 16#8 8#8) ∧
    decodeWords [0x00001146#32, 0xFFFF0810#32, 0x0000000A#32] = .ok (.flog2 k0 16#8 8#8) ∧
    decodeWords [0x00001546#32, 0xFFFF0810#32, 0x0000000A#32] = .ok (.fsin k0 16#8 8#8) ∧
    decodeWords [0x00001946#32, 0xFFFF0810#32, 0x0000000A#32] = .ok (.fcos k0 16#8 8#8) := by decide

/-- Words composed field by field of R173 to R178. -/
theorem test_decode_packed_and_conversions :
    decodeWords [0x0000014E#32, 0xFF180810#32, 0x0000021A#32] = .ok (.hadd2 k0 1#3 2#4 16#8 8#8 24#8) ∧
    decodeWords [0x0000054E#32, 0xFF180810#32, 0x0000021A#32] = .ok (.hmul2 k0 1#3 2#4 16#8 8#8 24#8) ∧
    decodeWords [0x0000094E#32, 0x20180810#32, 0x0000021A#32] = .ok (.hfma2 k0 1#3 2#4 16#8 8#8 24#8 32#8) ∧
    decodeWords [0x00000D4E#32, 0xFF180810#32, 0x0000020A#32] = .ok (.hmin2 k0 2#4 16#8 8#8 24#8) ∧
    decodeWords [0x0000114E#32, 0xFF180810#32, 0x0000020A#32] = .ok (.hmax2 k0 2#4 16#8 8#8 24#8) ∧
    decodeWords [0x00000156#32, 0x20180810#32, 0x0000021A#32] = .ok (.fdot2 k0 1#3 2#4 16#8 8#8 24#8 32#8) ∧
    decodeWords [0x0011015E#32, 0xFFFF0810#32, 0x0000022A#32] = .ok (.fcvt k0 true false 1#2 2#3 2#4 16#8 8#8) ∧
    decodeWords [0x00000166#32, 0xFFFF0810#32, 0x0000001A#32] = .ok (.i2f k0 1#3 16#8 8#8) ∧
    decodeWords [0x00000566#32, 0xFFFF0810#32, 0x0000001A#32] = .ok (.u2f k0 1#3 16#8 8#8) ∧
    decodeWords [0x00010966#32, 0xFFFF0810#32, 0x0000001A#32] = .ok (.f2i k0 true 1#3 16#8 8#8) ∧
    decodeWords [0x00010D66#32, 0xFFFF0810#32, 0x0000001A#32] = .ok (.f2u k0 true 1#3 16#8 8#8) ∧
    decodeWords [0x8001016E#32, 0xFFFF1010#32, 0x8123031A#32] = .ok (.qnt k0 true 1#3 3#4 16#8 16#8 (.imm 0x8123#16)) ∧
    decodeWords [0x8001056F#32, 0xFFFF0810#32, 0x0000031A#32, 0x89ABCDEF#32, 0x00000000#32] = .ok (.dqnt k0 true 1#3 3#4 16#8 8#8 (.lit 0x89ABCDEF#64)) ∧
    decodeWords [0x00010176#32, 0xFFFF1050#32, 0x0000001A#32] = .ok (.had k0 1#2 1#3 0#4 80#8 16#8) ∧
    decodeWords [0x0001017E#32, 0x30FF1020#32, 0x0000010A#32] = .ok (.cmpr k0 true 1#4 32#8 16#8 48#8) := by decide

/-- Words composed field by field of R197 to R201. -/
theorem test_decode_rays :
    decodeWords [0x00000186#32, 0xFF180810#32, 0x0000000A#32] = .ok (.boxt k0 16#8 8#8 24#8) ∧
    decodeWords [0x0001018E#32, 0x04180810#32, 0x0000000A#32] = .ok (.trit k0 true 16#8 8#8 24#8 4#3) ∧
    decodeWords [0x00000196#32, 0xFF1808FF#32, 0x8004000A#32] = .ok (.rebin k0 24#8 8#8 (.imm 0x8004#16)) := by decide

/-- Words composed field by field of R192 to R195. -/
theorem test_decode_cross_lane :
    decodeWords [0x8000019F#32, 0x04FF0810#32, 0x0000100A#32, 0x89ABCDEF#32, 0x00000000#32] = .ok (.shflIdx k0 1#3 16#8 8#8 (.lit 0x89ABCDEF#64) 4#3) ∧
    decodeWords [0x0000059E#32, 0x04180810#32, 0x0000100A#32] = .ok (.shflUp k0 1#3 16#8 8#8 (.reg 24#8) 4#3) ∧
    decodeWords [0x8000099E#32, 0x04FF0810#32, 0x8123100A#32] = .ok (.shflDown k0 1#3 16#8 8#8 (.imm 0x8123#16) 4#3) ∧
    decodeWords [0x80000D9F#32, 0x04FF0810#32, 0x0000100A#32, 0x89ABCDEF#32, 0x00000000#32] = .ok (.shflXor k0 1#3 16#8 8#8 (.lit 0x89ABCDEF#64) 4#3) ∧
    decodeWords [0x000001A6#32, 0xFFFF0201#32, 0x0000000A#32] = .ok (.voteAny k0 1#3 2#3) ∧
    decodeWords [0x000005A6#32, 0xFFFF0201#32, 0x0000000A#32] = .ok (.voteAll k0 1#3 2#3) ∧
    decodeWords [0x000009A6#32, 0xFFFF0210#32, 0x0000000A#32] = .ok (.voteBallot k0 16#8 2#3) ∧
    decodeWords [0x00000DA6#32, 0xFFFF0801#32, 0x0000000A#32] = .ok (.voteEq k0 1#3 8#8) ∧
    decodeWords [0x000001AE#32, 0xFFFF0810#32, 0x0000100A#32] = .ok (.gredAdd k0 1#3 16#8 8#8) ∧
    decodeWords [0x000105AE#32, 0xFFFF0810#32, 0x0000100A#32] = .ok (.gredMin k0 true 1#3 16#8 8#8) ∧
    decodeWords [0x000109AE#32, 0xFFFF0810#32, 0x0000100A#32] = .ok (.gredMax k0 true 1#3 16#8 8#8) ∧
    decodeWords [0x00000DAE#32, 0xFFFF0810#32, 0x0000100A#32] = .ok (.gredAnd k0 1#3 16#8 8#8) ∧
    decodeWords [0x000011AE#32, 0xFFFF0810#32, 0x0000100A#32] = .ok (.gredOr k0 1#3 16#8 8#8) ∧
    decodeWords [0x000015AE#32, 0xFFFF0810#32, 0x0000100A#32] = .ok (.gredXor k0 1#3 16#8 8#8) ∧
    decodeWords [0x000019AE#32, 0xFFFF0810#32, 0x0000101A#32] = .ok (.gredFadd k0 1#3 1#3 16#8 8#8) ∧
    decodeWords [0x00001DAE#32, 0xFFFF0810#32, 0x0000100A#32] = .ok (.gredFmin k0 1#3 16#8 8#8) ∧
    decodeWords [0x000021AE#32, 0xFFFF0810#32, 0x0000100A#32] = .ok (.gredFmax k0 1#3 16#8 8#8) := by decide

/-- Words composed field by field of R47 to R50, R181 to R190. -/
theorem test_decode_control_base :
    decodeWords [0xFFFFC1C4#32] = .ok (.bra true 0x3FFFF0#22) ∧
    decodeWords [0x48D175CC#32] = .ok (.brc true 0x12345#18 true 5#3) ∧
    decodeWords [0xFFFFC1D4#32] = .ok (.brq true 0x3FFFF0#22) ∧
    decodeWords [0xFFFFC1DC#32] = .ok (.call true 0x3FFFF0#22) ∧
    decodeWords [0x7FFFFDE4#32] = .ok (.ret true) ∧
    decodeWords [0x7F0DFDEC#32] = .ok (.jarm true 6#4) ∧
    decodeWords [0x7F0DFDF4#32] = .ok (.jwait true 6#4) ∧
    decodeWords [0x7F0DFDFC#32] = .ok (.jdrop true 6#4) ∧
    decodeWords [0x7FFFFE04#32] = .ok (.exit true) ∧
    decodeWords [0x7FFFFE0C#32] = .ok (.yield true) ∧
    decodeWords [0x18FFFE14#32] = .ok (.trap true (.reg 24#8)) ∧
    decodeWords [0x18FFFE1C#32] = .ok (.brk true (.reg 24#8)) ∧
    decodeWords [0x18FFFE24#32] = .ok (.dqpush true (.reg 24#8)) ∧
    decodeWords [0x7FFE422C#32] = .ok (.dqpop true 16#8) ∧
    decodeWords [0x7FFFFE34#32] = .ok (.sret true) := by decide

/-- Words composed field by field of R51, R181 to R190. -/
theorem test_decode_control_extended :
    decodeWords [0x000001E6#32, 0xFFFFFFFF#32, 0x0000000A#32] = .ok (.retExt k0) ∧
    decodeWords [0x000001EE#32, 0xFFFF06FF#32, 0x0000000A#32] = .ok (.jarmExt k0 6#4) ∧
    decodeWords [0x000001F6#32, 0xFFFF06FF#32, 0x0000000A#32] = .ok (.jwaitExt k0 6#4) ∧
    decodeWords [0x000001FE#32, 0xFFFF06FF#32, 0x0000000A#32] = .ok (.jdropExt k0 6#4) ∧
    decodeWords [0x00000206#32, 0xFFFFFFFF#32, 0x0000000A#32] = .ok (.exitExt k0) ∧
    decodeWords [0x0000020E#32, 0xFFFFFFFF#32, 0x0000000A#32] = .ok (.yieldExt k0) ∧
    decodeWords [0x00000216#32, 0xFF18FFFF#32, 0x0000000A#32] = .ok (.trapExt k0 (.reg 24#8)) ∧
    decodeWords [0x8000021F#32, 0xFFFFFFFF#32, 0x0000000A#32, 0x89ABCDEF#32, 0x00000000#32] = .ok (.brkExt k0 (.lit 0x89ABCDEF#64)) ∧
    decodeWords [0x80000226#32, 0xFFFFFFFF#32, 0x8123000A#32] = .ok (.dqpushExt k0 (.imm 0x8123#16)) ∧
    decodeWords [0x0000022E#32, 0xFFFFFF10#32, 0x0000000A#32] = .ok (.dqpopExt k0 16#8) ∧
    decodeWords [0x00000236#32, 0xFFFFFFFF#32, 0x0000000A#32] = .ok (.sretExt k0) := by decide

/-- Words composed field by field of R205 to R213. -/
theorem test_decode_loads_and_stores :
    decodeWords [0xFC104244#32] = .ok (.ld true 16#8 8#8 0x7C#7) ∧
    decodeWords [0x80010247#32, 0xFFFF0810#32, 0x0000235A#32, 0xFFFFFFF8#32, 0x00000000#32] = .ok (.ldExt k0 true 5#3 3#3 2#2 16#8 8#8 (.lit 0xFFFFFFF8#32)) ∧
    decodeWords [0x8000024E#32, 0x04FF0810#32, 0x8004101A#32] = .ok (.ldz k0 1#3 1#2 16#8 4#3 8#8 (.imm 0x8004#16)) ∧
    decodeWords [0xFC104254#32] = .ok (.st true 16#8 8#8 0x7C#7) ∧
    decodeWords [0x80010256#32, 0xFFFF0810#32, 0x8004235A#32] = .ok (.stExt k0 true 5#3 3#3 2#2 16#8 8#8 (.imm 0x8004#16)) ∧
    decodeWords [0xFC10425C#32] = .ok (.lds true 16#8 8#8 0x7C#7) ∧
    decodeWords [0x8000025E#32, 0xFFFF0810#32, 0x8004006A#32] = .ok (.ldsExt k0 6#3 16#8 8#8 (.imm 0x8004#16)) ∧
    decodeWords [0xFC104264#32] = .ok (.sts true 16#8 8#8 0x7C#7) ∧
    decodeWords [0x80000266#32, 0xFFFF0810#32, 0x8004003A#32] = .ok (.stsExt k0 3#3 16#8 8#8 (.imm 0x8004#16)) ∧
    decodeWords [0xFC10426C#32] = .ok (.ldc true 16#8 8#8 0x7C#7) ∧
    decodeWords [0x8000026E#32, 0xFFFF0810#32, 0x8004106A#32] = .ok (.ldcExt k0 6#3 1#2 16#8 8#8 (.imm 0x8004#16)) := by decide

/-- Words composed field by field of R217, R218. -/
theorem test_decode_atomics :
    decodeWords [0x80010276#32, 0xFFFF0810#32, 0x8123015A#32] = .ok (.atomAdd k0 true true 1#3 16#8 8#8 (.imm 0x8123#16)) ∧
    decodeWords [0x00010676#32, 0xFF180810#32, 0x0000015A#32] = .ok (.atomMin k0 true true 1#3 16#8 8#8 (.reg 24#8)) ∧
    decodeWords [0x80010A76#32, 0xFFFF0810#32, 0x8123015A#32] = .ok (.atomMax k0 true true 1#3 16#8 8#8 (.imm 0x8123#16)) ∧
    decodeWords [0x80010E76#32, 0xFFFF0810#32, 0x8123015A#32] = .ok (.atomUmin k0 true true 1#3 16#8 8#8 (.imm 0x8123#16)) ∧
    decodeWords [0x00011276#32, 0xFF180810#32, 0x0000015A#32] = .ok (.atomUmax k0 true true 1#3 16#8 8#8 (.reg 24#8)) ∧
    decodeWords [0x80011676#32, 0xFFFF0810#32, 0x8123015A#32] = .ok (.atomAnd k0 true true 1#3 16#8 8#8 (.imm 0x8123#16)) ∧
    decodeWords [0x80011A76#32, 0xFFFF0810#32, 0x8123015A#32] = .ok (.atomOr k0 true true 1#3 16#8 8#8 (.imm 0x8123#16)) ∧
    decodeWords [0x00011E76#32, 0xFF180810#32, 0x0000015A#32] = .ok (.atomXor k0 true true 1#3 16#8 8#8 (.reg 24#8)) ∧
    decodeWords [0x80012276#32, 0xFFFF0810#32, 0x8123015A#32] = .ok (.atomExch k0 true true 1#3 16#8 8#8 (.imm 0x8123#16)) ∧
    decodeWords [0x80012676#32, 0x20FF0810#32, 0x8123015A#32] = .ok (.atomCas k0 true true 1#3 16#8 8#8 (.imm 0x8123#16) 32#8) ∧
    decodeWords [0x00012A76#32, 0xFF180810#32, 0x0000010A#32] = .ok (.atomFadd k0 true 1#3 16#8 8#8 (.reg 24#8)) := by decide

/-- Words composed field by field of R217, R219. -/
theorem test_decode_reductions :
    decodeWords [0x8000027E#32, 0xFFFF08FF#32, 0x8123015A#32] = .ok (.redAdd k0 true 1#3 8#8 (.imm 0x8123#16)) ∧
    decodeWords [0x8000067E#32, 0xFFFF08FF#32, 0x8123015A#32] = .ok (.redMin k0 true 1#3 8#8 (.imm 0x8123#16)) ∧
    decodeWords [0x00000A7E#32, 0xFF1808FF#32, 0x0000015A#32] = .ok (.redMax k0 true 1#3 8#8 (.reg 24#8)) ∧
    decodeWords [0x80000E7E#32, 0xFFFF08FF#32, 0x8123015A#32] = .ok (.redUmin k0 true 1#3 8#8 (.imm 0x8123#16)) ∧
    decodeWords [0x8000127E#32, 0xFFFF08FF#32, 0x8123015A#32] = .ok (.redUmax k0 true 1#3 8#8 (.imm 0x8123#16)) ∧
    decodeWords [0x0000167E#32, 0xFF1808FF#32, 0x0000015A#32] = .ok (.redAnd k0 true 1#3 8#8 (.reg 24#8)) ∧
    decodeWords [0x80001A7E#32, 0xFFFF08FF#32, 0x8123015A#32] = .ok (.redOr k0 true 1#3 8#8 (.imm 0x8123#16)) ∧
    decodeWords [0x80001E7E#32, 0xFFFF08FF#32, 0x8123015A#32] = .ok (.redXor k0 true 1#3 8#8 (.imm 0x8123#16)) ∧
    decodeWords [0x0000227E#32, 0xFF1808FF#32, 0x0000010A#32] = .ok (.redFadd k0 1#3 8#8 (.reg 24#8)) := by decide

/-- Words composed field by field of R207, R214 to R216, R222 to R226. -/
theorem test_decode_fences_and_barriers :
    decodeWords [0x00000286#32, 0xFFFFFFFF#32, 0x0000010A#32] = .ok (.fence k0 1#3) ∧
    decodeWords [0x8000028E#32, 0xFFFF08FF#32, 0x8004101A#32] = .ok (.pref k0 1#2 1#2 8#8 (.imm 0x8004#16)) ∧
    decodeWords [0x80000297#32, 0xFFFF0801#32, 0x0000000A#32, 0xFFFFFFF8#32, 0x00000000#32] = .ok (.spres k0 1#3 8#8 (.lit 0xFFFFFFF8#32)) ∧
    decodeWords [0x8001029E#32, 0xFFFF0801#32, 0x8004000A#32] = .ok (.pgreq k0 true 1#3 8#8 (.imm 0x8004#16)) ∧
    decodeWords [0x000002A6#32, 0xFFFF0510#32, 0x0000000A#32] = .ok (.barArr k0 16#8 5#4) ∧
    decodeWords [0x000006A6#32, 0xFF1805FF#32, 0x0000000A#32] = .ok (.barWait k0 5#4 (.reg 24#8)) ∧
    decodeWords [0x00000AA6#32, 0xFFFF0510#32, 0x0000000A#32] = .ok (.barSync k0 16#8 5#4) ∧
    decodeWords [0x80000EA7#32, 0xFFFF05FF#32, 0x0000000A#32, 0x89ABCDEF#32, 0x00000000#32] = .ok (.barExpect k0 5#4 (.lit 0x89ABCDEF#64)) ∧
    decodeWords [0x000012A6#32, 0xFF1805FF#32, 0x0000000A#32] = .ok (.barInit k0 5#4 (.reg 24#8)) ∧
    decodeWords [0x801F02AE#32, 0xFFFF09FF#32, 0x8123000A#32] = .ok (.cvset k0 31#7 9#4 (.imm 0x8123#16)) := by decide

/-- Words composed field by field of R341 to R348. -/
theorem test_decode_kiln :
    decodeWords [0x000802C6#32, 0xFFFFFF10#32, 0x0000000A#32] = .ok (.rsvqFree k0 8#4 16#8) ∧
    decodeWords [0x000906C6#32, 0xFFFFFF10#32, 0x0000000A#32] = .ok (.rsvqPend k0 9#4 16#8) ∧
    decodeWords [0x00000AC6#32, 0xFFFFFF10#32, 0x0000000A#32] = .ok (.rsvqNominal k0 0#4 16#8) ∧
    decodeWords [0x000F0EC6#32, 0xFFFFFF10#32, 0x0000000A#32] = .ok (.rsvqSurr k0 15#4 16#8) ∧
    decodeWords [0x800102CF#32, 0xFFFF0810#32, 0x0000000A#32, 0xFFFFFFF8#32, 0x00000000#32] = .ok (.blksz k0 true 16#8 8#8 (.lit 0xFFFFFFF8#32)) ∧
    decodeWords [0x800002D6#32, 0x20FF08FF#32, 0x8004000A#32] = .ok (.blkfill k0 8#8 (.imm 0x8004#16) 32#8) ∧
    decodeWords [0x000002DE#32, 0xFFFFFF10#32, 0x0000000A#32] = .ok (.balq k0 16#8) ∧
    decodeWords [0x800002E6#32, 0xFFFF08FF#32, 0x8004000A#32] = .ok (.pgsurr k0 8#8 (.imm 0x8004#16)) ∧
    decodeWords [0x800002EF#32, 0xFFFF08FF#32, 0x0000000A#32, 0xFFFFFFF8#32, 0x00000000#32] = .ok (.pgrecl k0 8#8 (.lit 0xFFFFFFF8#32)) := by decide

/-- Words composed field by field of R290 to R303. -/
theorem test_decode_matrix :
    decodeWords [0x80010307#32, 0x20FF08FF#32, 0x0000003A#32, 0x89ABCDEF#32, 0x00000000#32] = .ok (.wload k0 1#2 0#2 3#4 8#8 (.lit 0x89ABCDEF#64) 32#8) ∧
    decodeWords [0x0383030E#32, 0xFF092001#32, 0x0000003A#32] = .ok (.mma k0 3#7 true true 1#2 false 3#4 1#3 32#8 9#4) ∧
    decodeWords [0x03830316#32, 0xFF090801#32, 0x8010003A#32] = .ok (.mmam k0 3#7 true true 1#2 false 3#4 1#3 8#8 9#4 (.imm 0x8010#16)) ∧
    decodeWords [0x0000031E#32, 0xFFFFFF01#32, 0x0000000A#32] = .ok (.aclr k0 1#3) ∧
    decodeWords [0x00050326#32, 0xFF180210#32, 0x0000000A#32] = .ok (.ard k0 5#3 16#8 2#3 (.reg 24#8)) ∧
    decodeWords [0x8005032E#32, 0xFFFF2801#32, 0x8123000A#32] = .ok (.awr k0 5#3 1#3 40#8 (.imm 0x8123#16)) ∧
    decodeWords [0x87F30337#32, 0x20FF0801#32, 0x0000002A#32, 0x89ABCDEF#32, 0x00000000#32] = .ok (.adrain k0 true true false 127#8 2#4 1#3 8#8 (.lit 0x89ABCDEF#64) 32#8) ∧
    decodeWords [0x0000033E#32, 0xFFFFFFFF#32, 0x0000000A#32] = .ok (.wrel k0) ∧
    decodeWords [0x00010346#32, 0xFFFFFF10#32, 0x0000000A#32] = .ok (.mstat k0 true 16#8) := by decide

/-- Words composed field by field of R313 to R323. -/
theorem test_decode_extrapolation :
    decodeWords [0x80030367#32, 0x20FF0801#32, 0x0000002A#32, 0x89ABCDEF#32, 0x00000000#32] = .ok (.xcfg k0 3#4 2#2 1#3 8#8 (.lit 0x89ABCDEF#64) 32#8) ∧
    decodeWords [0x0000036E#32, 0x04FF0801#32, 0x0000000A#32] = .ok (.xpush k0 1#3 8#8 4#3) ∧
    decodeWords [0x00000376#32, 0x04FF0210#32, 0x0000000A#32] = .ok (.xest k0 16#8 2#3 4#3) ∧
    decodeWords [0x0000037E#32, 0xFFFFFF01#32, 0x0000000A#32] = .ok (.xclr k0 1#3) ∧
    decodeWords [0x0000077E#32, 0xFFFF0210#32, 0x0000000A#32] = .ok (.xstat k0 16#8 2#3) := by decide

/-- Words composed field by field of R262 to R277. -/
theorem test_decode_copies :
    decodeWords [0x00010386#32, 0x20180810#32, 0x0000040A#32] = .ok (.tcopy k0 1#2 0#2 4#3 16#8 8#8 24#8 32#8) ∧
    decodeWords [0x0000038E#32, 0x20FF0810#32, 0x0000040A#32] = .ok (.chain k0 0#1 4#3 16#8 8#8 32#8) ∧
    decodeWords [0x00000396#32, 0xFF180810#32, 0x0000040A#32] = .ok (.ctwait k0 false 4#3 16#8 8#8 (.reg 24#8)) ∧
    decodeWords [0x0000039E#32, 0xFFFF08FF#32, 0x0000000A#32] = .ok (.chkill k0 8#8) := by decide

/-- Words composed field by field of R387 to R393. -/
theorem test_decode_tasks :
    decodeWords [0x000003A6#32, 0x20180810#32, 0x8004000A#32] = .ok (.spawn k0 16#8 8#8 24#8 32#8 (.imm 0x8004#16)) ∧
    decodeWords [0x000003AE#32, 0xFF1808FF#32, 0x0000000A#32] = .ok (.enqn k0 8#8 (.reg 24#8)) ∧
    decodeWords [0x800003B6#32, 0xFFFF0810#32, 0x8123000A#32] = .ok (.jdec k0 16#8 8#8 (.imm 0x8123#16)) ∧
    decodeWords [0x000003BE#32, 0xFFFFFFFF#32, 0x0000000A#32] = .ok (.settle k0) ∧
    decodeWords [0x000003C6#32, 0xFF18FF10#32, 0x0000000A#32] = .ok (.taskqPrio k0 16#8 (.reg 24#8)) ∧
    decodeWords [0x800003C6#32, 0xFFFFFF10#32, 0x8123001A#32] = .ok (.taskqRestart k0 16#8 (.imm 0x8123#16)) ∧
    decodeWords [0x800003C7#32, 0xFFFFFF10#32, 0x0000002A#32, 0x89ABCDEF#32, 0x00000000#32] = .ok (.taskqSettled k0 16#8 (.lit 0x89ABCDEF#64)) ∧
    decodeWords [0x000003C6#32, 0xFF18FF10#32, 0x0000003A#32] = .ok (.taskqVlines k0 16#8 (.reg 24#8)) ∧
    decodeWords [0x800003C6#32, 0xFFFFFF10#32, 0x8123004A#32] = .ok (.taskqBqueue k0 16#8 (.imm 0x8123#16)) ∧
    decodeWords [0x800003C7#32, 0xFFFFFF10#32, 0x0000005A#32, 0x89ABCDEF#32, 0x00000000#32] = .ok (.taskqNqueue k0 16#8 (.lit 0x89ABCDEF#64)) ∧
    decodeWords [0x000003C6#32, 0xFF18FF10#32, 0x0000006A#32] = .ok (.taskqCursor k0 16#8 (.reg 24#8)) := by decide

/-- Words composed field by field of R252 to R256. -/
theorem test_decode_system :
    decodeWords [0x800103CE#32, 0xFFFF08FF#32, 0x8123030A#32] = .ok (.stkho k0 1#1 3#3 8#8 (.imm 0x8123#16)) ∧
    decodeWords [0x800003D7#32, 0xFFFF08FF#32, 0x0000040A#32, 0x89ABCDEF#32, 0x00000000#32] = .ok (.tlbiPage k0 4#3 8#8 (.lit 0x89ABCDEF#64)) ∧
    decodeWords [0x000003D6#32, 0xFF18FFFF#32, 0x0000041A#32] = .ok (.tlbiVdev k0 4#3 (.reg 24#8)) ∧
    decodeWords [0x800003D6#32, 0xFFFFFFFF#32, 0x8123042A#32] = .ok (.tlbiVdevn k0 4#3 (.imm 0x8123#16)) ∧
    decodeWords [0x800003D7#32, 0xFFFFFFFF#32, 0x0000043A#32, 0x89ABCDEF#32, 0x00000000#32] = .ok (.tlbiAll k0 4#3 (.lit 0x89ABCDEF#64)) ∧
    decodeWords [0x000003DE#32, 0xFF1808FF#32, 0x0000040A#32] = .ok (.cflushClean k0 4#3 8#8 (.reg 24#8)) ∧
    decodeWords [0x800003DE#32, 0xFFFF08FF#32, 0x8123041A#32] = .ok (.cflushInv k0 4#3 8#8 (.imm 0x8123#16)) ∧
    decodeWords [0x800003DF#32, 0xFFFF08FF#32, 0x0000042A#32, 0x89ABCDEF#32, 0x00000000#32] = .ok (.cflushDiscard k0 4#3 8#8 (.lit 0x89ABCDEF#64)) ∧
    decodeWords [0x000103E6#32, 0xFF180810#32, 0x0000030A#32] = .ok (.ctxsw k0 true 3#3 16#8 8#8 (.reg 24#8)) := by decide

/-! ## Effects, with values worked out by hand from the rule each test names -/

/-- The register d of thread 0 after an instruction, with v1, v2 and v4 as given and everything outstanding written. -/
def gives (a b c : Word) (i : Instr) (d : Nat) : Word :=
  match exec i (oneWith fun x => { x with regs := ((x.regs.set 1 a).set 2 b).set 4 c }) with
  | .next t => (t.agent 1).settle.get (.reg d)
  | _ => 0xDEAD#32
/-- A predicate likewise. -/
def tells (a b : Word) (i : Instr) (p : Nat) : Word :=
  match exec i (oneWith fun x => { x with regs := (x.regs.set 1 a).set 2 b }) with
  | .next t => (t.agent 1).settle.get (.pred p)
  | _ => 0xDEAD#32
/-- %fstat likewise. -/
def raises (a b : Word) (i : Instr) : BitVec 5 :=
  match exec i (oneWith fun x => { x with regs := (x.regs.set 1 a).set 2 b }) with
  | .next t => (t.agent 1).settle.fp.fstat
  | _ => 0#5

/-- R152 -/
theorem test_add_wraps : gives 0xFFFFFFFF#32 2#32 0#32 (.addExt g7 false 3#8 1#8 (.reg 2#8)) 3 = 1#32 := by decide +kernel
theorem test_add_sat : gives 0x7FFFFFFF#32 2#32 0#32 (.addExt g7 true 3#8 1#8 (.reg 2#8)) 3 = 0x7FFFFFFF#32 := by decide +kernel
theorem test_sub_order : gives 5#32 7#32 0#32 (.subExt g7 false 3#8 1#8 (.reg 2#8)) 3 = 0xFFFFFFFE#32 := by decide +kernel
theorem test_mulh_signed : gives 0xFFFFFFFF#32 2#32 0#32 (.mulhExt g7 false 3#8 1#8 (.reg 2#8)) 3 = 0xFFFFFFFF#32 := by decide +kernel
theorem test_mulh_unsigned : gives 0xFFFFFFFF#32 2#32 0#32 (.mulhExt g7 true 3#8 1#8 (.reg 2#8)) 3 = 1#32 := by decide +kernel
theorem test_mad : gives 3#32 5#32 7#32 (.mad g7 3#8 1#8 (.reg 2#8) 4#8) 3 = 22#32 := by decide +kernel
theorem test_min_signed : gives 0xFFFFFFFF#32 1#32 0#32 (.minExt g7 false 3#8 1#8 (.reg 2#8)) 3 = 0xFFFFFFFF#32 := by decide +kernel
theorem test_min_unsigned : gives 0xFFFFFFFF#32 1#32 0#32 (.minExt g7 true 3#8 1#8 (.reg 2#8)) 3 = 1#32 := by decide +kernel
/-- R153 -/
theorem test_shl_of_32 : gives 1#32 32#32 0#32 (.shlExt g7 3#8 1#8 (.reg 2#8)) 3 = 0#32 := by decide +kernel
theorem test_sar_of_33 : gives 0x80000000#32 33#32 0#32 (.sarExt g7 3#8 1#8 (.reg 2#8)) 3 = 0xFFFFFFFF#32 := by decide +kernel
theorem test_rot_left : gives 0x80000001#32 33#32 0#32 (.rotExt g7 3#8 1#8 (.reg 2#8)) 3 = 3#32 := by decide +kernel
/-- R154: bits 4 to 11 as a signed byte -/
theorem test_bfx : gives 0x00000F00#32 0x0804#32 0#32 (.bfxExt g7 true 3#8 1#8 (.reg 2#8)) 3 = 0xFFFFFFF0#32 := by decide +kernel
theorem test_bfi : gives 0xFFFFFFFF#32 0x0804#32 0x25#32 (.bfi g7 3#8 1#8 (.reg 2#8) 4#8) 3 = 0xFFFFF25F#32 := by decide +kernel
/-- R156, R157 -/
theorem test_cmp_ltu : tells 1#32 0xFFFFFFFF#32 (.cmp g7 6#4 3#3 1#8 (.reg 2#8)) 3 = 1#32 := by decide +kernel
theorem test_cmp_lt : tells 1#32 0xFFFFFFFF#32 (.cmp g7 2#4 3#3 1#8 (.reg 2#8)) 3 = 0#32 := by decide +kernel
theorem test_plog_table : tells 0#32 0#32 (.plog g7 0x40#8 3#3 7#3 7#3 2#3) 3 = 1#32 := by decide +kernel
/-- R158: a negative index, scaled by 4 -/
theorem test_lea : gives 0#32 0xFFFFFFFF#32 0x1000#32 (.leaExt g7 2#3 false 6#8 4#8 (.reg 2#8)) 6 = 0xFFC#32 := by decide +kernel
/-- R159: the carry into the upper half -/
theorem test_add64 : gives 0#32 0#32 0xFFFFFFFF#32 (.add64 g7 6#8 4#8 (.imm 1#16)) 7 = 1#32 := by decide +kernel
/-- R160 -/
theorem test_abs_sat : gives 0x80000000#32 0#32 0#32 (.abs g7 true 3#8 1#8) 3 = 0x7FFFFFFF#32 := by decide +kernel
theorem test_clz : gives 0x00010000#32 0#32 0#32 (.clz g7 3#8 1#8) 3 = 15#32 := by decide +kernel
theorem test_brev : gives 0x00000006#32 0#32 0#32 (.brev g7 3#8 1#8) 3 = 0x60000000#32 := by decide +kernel
/-- R164: 1 + 2^(−24) rounds to even, and is inexact -/
theorem test_fadd_ties : gives 0x3F800000#32 0x33800000#32 0#32 (.faddExt g7 0#3 3#8 1#8 (.reg 2#8)) 3 = 0x3F800000#32 := by decide +kernel
theorem test_fadd_inexact : (raises 0x3F800000#32 0x33800000#32 (.faddExt g7 0#3 3#8 1#8 (.reg 2#8))) = 0x10#5 := by decide +kernel
/-- 2 × 3 + 1 -/
theorem test_ffma : gives 0x40000000#32 0x40400000#32 0x3F800000#32 (.ffma g7 0#3 3#8 1#8 (.reg 2#8) 4#8) 3 = 0x40E00000#32 := by decide +kernel
/-- −3 of an integer -/
theorem test_i2f : gives 0xFFFFFFFD#32 0#32 0#32 (.i2f g7 0#3 3#8 1#8) 3 = 0xC0400000#32 := by decide +kernel
/-- R205, R206: the least significant byte lies lowest -/
theorem test_store_order :
    (match exec (.st false 1#8 8#8 0x10#7) (oneWith fun x => { x with regs := (x.regs.set 1 0x11223344#32).set 8 0x10000#32 }) with
      | .next t => (t.sq 1).map fun e => e.op
      | _ => []) = [.store [0x44#8, 0x33#8, 0x22#8, 0x11#8]] := by decide +kernel
/-- R217: the old value, 9, is returned, and 9 + 5 is stored -/
theorem test_atom_returns_old :
    (match exec (.atomAdd g7 false false 4#3 16#8 8#8 (.reg 2#8)) ((oneWith fun x => { x with regs := (x.regs.set 2 5#32).set 8 0x10040#32 }).modStore
        fun m => { m with mem := m.mem.putN 0x10040 (natLe 4 9) }) with
      | .next t => ((t.agent 1).settle.get (.reg 16), t.store.mem.getN 0x10040 4)
      | _ => (0#32, [])) = (9#32, [14#8, 0#8, 0#8, 0#8]) := by decide +kernel

/-! ## Witnesses: what each thread receives -/

/-- With %fctl zero no flag is enabled. -/
theorem unenabled (f : Nat → FFlags) : ∀ ag ∈ one.cur.agents, one.ticked.enabled ag (f ag) = false := by
  intro ag h
  obtain rfl := List.mem_singleton.mp h
  have : (one.ticked.frm 1).extractLsb' 8 5 = 0#5 := by decide +kernel
  simp [State.enabled, this]
/-- Integer instructions on a thread whose registers are zero. -/
theorem witness_IntegerResults : ∀ i ∈ ([.mov false 16#8 (.imm 0x7B#7), .movExt g7 16#8 (.imm 0x8123#16), .add false 16#8 8#8 (.imm 0x7B#7), .addExt g7 true 16#8 8#8 (.reg 24#8), .sub false 16#8 8#8 (.imm 0x7B#7), .subExt g7 true 16#8 8#8 (.lit 0x89ABCDEF#64), .mul false 16#8 8#8 (.imm 0x7B#7), .mulExt g7 16#8 8#8 (.imm 0x8123#16), .mulh false 16#8 8#8 (.imm 0x7B#7), .mulhExt g7 true 16#8 8#8 (.reg 24#8), .mad g7 16#8 8#8 (.imm 0x8123#16) 32#8, .min false 16#8 8#8 (.reg 24#8), .minExt g7 true 16#8 8#8 (.reg 24#8), .max false 16#8 8#8 (.reg 24#8), .maxExt g7 true 16#8 8#8 (.lit 0x89ABCDEF#64), .and false 16#8 8#8 (.reg 24#8), .andExt g7 16#8 8#8 (.imm 0x8123#16), .or false 16#8 8#8 (.reg 24#8), .orExt g7 16#8 8#8 (.reg 24#8), .xor false 16#8 8#8 (.reg 24#8), .xorExt g7 16#8 8#8 (.lit 0x89ABCDEF#64), .shl false 16#8 8#8 (.reg 24#8), .shlExt g7 16#8 8#8 (.imm 0x8123#16), .shr false 16#8 8#8 (.reg 24#8), .shrExt g7 16#8 8#8 (.reg 24#8), .sar false 16#8 8#8 (.reg 24#8), .sarExt g7 16#8 8#8 (.lit 0x89ABCDEF#64), .rot false 16#8 8#8 (.reg 24#8), .rotExt g7 16#8 8#8 (.imm 0x8123#16), .bfx false 16#8 8#8 (.reg 24#8), .bfxExt g7 true 16#8 8#8 (.reg 24#8), .bfi g7 16#8 8#8 (.imm 0x8123#16) 32#8, .sel g7 true 16#8 8#8 (.lit 0x89ABCDEF#64) 4#3, .abs g7 true 16#8 8#8, .neg g7 true 16#8 8#8, .not g7 16#8 8#8, .popc g7 16#8 8#8, .clz g7 16#8 8#8, .brev g7 16#8 8#8, .sext8 g7 16#8 8#8, .sext16 g7 16#8 8#8, .zext8 g7 16#8 8#8, .zext16 g7 16#8 8#8] : List Instr),
    (∃ lat d v, IntRow i lat d v) ∧ Together one i := by
  repeat first
    | exact List.forall_mem_nil _
    | refine List.forall_mem_cons.mpr ⟨⟨⟨_, _, _, by constructor⟩, together_of (ag := 1) (by decide +kernel)⟩, ?_⟩

/-- Comparisons. -/
theorem witness_PredicateResults : ∀ i ∈ ([.cmp g7 1#4 1#3 8#8 (.reg 24#8), .cmp64 g7 1#4 1#3 8#8 (.imm 0x8123#16), .plog g7 232#8 1#3 2#3 3#3 4#3] : List Instr),
    (∃ lat p v, PredRow i lat p v) ∧ Together one i := by
  repeat first
    | exact List.forall_mem_nil _
    | refine List.forall_mem_cons.mpr ⟨⟨⟨_, _, _, by constructor; try decide⟩, together_of (ag := 1) (by decide +kernel)⟩, ?_⟩

/-- Pairs. -/
theorem witness_PairResults : ∀ i ∈ ([.lea false 16#8 8#8 (.reg 24#8), .leaExt g7 1#3 true 16#8 8#8 (.reg 24#8), .add64 g7 16#8 8#8 (.imm 0x8123#16), .sub64 g7 16#8 8#8 (.imm 0x8123#16), .shl64 g7 16#8 8#8 (.reg 24#8), .shr64 g7 16#8 8#8 (.imm 0x8123#16)] : List Instr),
    (∃ lat d v, PairRow i lat d v) ∧ Together one i := by
  repeat first
    | exact List.forall_mem_nil _
    | refine List.forall_mem_cons.mpr ⟨⟨⟨_, _, _, by constructor⟩, together_of (ag := 1) (by decide +kernel)⟩, ?_⟩

/-- Floating point; with %fctl zero no flag is enabled. -/
theorem witness_FpResults : ∀ i ∈ ([.fadd false 16#8 8#8 (.reg 24#8), .faddExt g7 1#3 16#8 8#8 (.imm 0x8123#16), .fsub false 16#8 8#8 (.reg 24#8), .fsubExt g7 1#3 16#8 8#8 (.reg 24#8), .fmul false 16#8 8#8 (.reg 24#8), .fmulExt g7 1#3 16#8 8#8 (.lit 0x89ABCDEF#64), .ffma g7 1#3 16#8 8#8 (.reg 24#8) 32#8, .fmin false 16#8 8#8 (.imm 0x7B#7), .fminExt g7 16#8 8#8 (.lit 0x89ABCDEF#64), .fmax false 16#8 8#8 (.imm 0x7B#7), .fmaxExt g7 16#8 8#8 (.imm 0x8123#16), .fabs g7 16#8 8#8, .fneg g7 16#8 8#8, .fclass g7 16#8 8#8, .frint g7 1#3 16#8 8#8, .hadd2 g7 1#3 2#4 16#8 8#8 24#8, .hmul2 g7 1#3 2#4 16#8 8#8 24#8, .hfma2 g7 1#3 2#4 16#8 8#8 24#8 32#8, .hmin2 g7 2#4 16#8 8#8 24#8, .hmax2 g7 2#4 16#8 8#8 24#8] : List Instr),
    (∃ d v, FpRow i 4 d v ∧ ∀ ag ∈ one.cur.agents, one.ticked.enabled ag (v one.ticked ag).2 = false) ∧ Together one i := by
  repeat first
    | exact List.forall_mem_nil _
    | refine List.forall_mem_cons.mpr ⟨⟨⟨_, _, by constructor, unenabled _⟩, together_of (ag := 1) (by decide +kernel)⟩, ?_⟩

/-- Dot products and conversions. -/
theorem witness_FpResults_of_latency_5 : ∀ i ∈ ([.fdot2 g7 1#3 2#4 16#8 8#8 24#8 32#8, .i2f g7 1#3 16#8 8#8, .u2f g7 1#3 16#8 8#8, .f2i g7 true 1#3 16#8 8#8, .f2u g7 true 1#3 16#8 8#8] : List Instr),
    (∃ d v, FpRow i 5 d v ∧ ∀ ag ∈ one.cur.agents, one.ticked.enabled ag (v one.ticked ag).2 = false) ∧ Together one i := by
  repeat first
    | exact List.forall_mem_nil _
    | refine List.forall_mem_cons.mpr ⟨⟨⟨_, _, by constructor, unenabled _⟩, together_of (ag := 1) (by decide +kernel)⟩, ?_⟩

/-- The FXU. -/
theorem witness_FxuResults : ∀ i ∈ ([.frcp g7 16#8 8#8, .frsq g7 16#8 8#8, .fsqrt g7 1#3 16#8 8#8, .fexp2 g7 16#8 8#8, .flog2 g7 16#8 8#8, .fsin g7 16#8 8#8, .fcos g7 16#8 8#8] : List Instr),
    (∃ d v, FxuRow i d v ∧ ∀ ag ∈ one.cur.agents, one.ticked.enabled ag (v one.ticked ag).2 = false) ∧ Together one i := by
  repeat first
    | exact List.forall_mem_nil _
    | refine List.forall_mem_cons.mpr ⟨⟨⟨_, _, by constructor, unenabled _⟩, together_of (ag := 1) (by decide +kernel)⟩, ?_⟩

/-- Results that are several, or predicates. -/
theorem witness_FpManyResults : ∀ i ∈ ([.fcmp g7 1#4 1#3 8#8 (.lit 0x89ABCDEF#64), .fcvt g7 true false 1#2 2#3 2#4 16#8 8#8, .qnt g7 true 1#3 3#4 16#8 16#8 (.imm 0x8123#16), .dqnt g7 true 1#3 3#4 16#8 8#8 (.lit 0x89ABCDEF#64), .had g7 1#2 1#3 0#4 80#8 16#8, .cmpr g7 true 1#4 32#8 16#8 48#8] : List Instr),
    (∃ fl f, FpManyRow i fl f ∧ ∀ ag ∈ one.cur.agents, one.ticked.enabled ag (fl one.ticked ag) = false) ∧ Together one i := by
  repeat first
    | exact List.forall_mem_nil _
    | refine List.forall_mem_cons.mpr ⟨⟨⟨_, _, by constructor; try decide, unenabled _⟩, together_of (ag := 1) (by decide +kernel)⟩, ?_⟩

/-- Cross-lane operations. -/
theorem witness_CrossResults : ∀ i ∈ ([.shflIdx g7 1#3 16#8 8#8 (.lit 0x89ABCDEF#64) 4#3, .shflUp g7 1#3 16#8 8#8 (.reg 24#8) 4#3, .shflDown g7 1#3 16#8 8#8 (.imm 0x8123#16) 4#3, .shflXor g7 1#3 16#8 8#8 (.lit 0x89ABCDEF#64) 4#3, .voteAny g7 1#3 2#3, .voteAll g7 1#3 2#3, .voteBallot g7 16#8 2#3, .voteEq g7 1#3 8#8] : List Instr),
    (∃ f, CrossRow i f) ∧ Together one i := by
  repeat first
    | exact List.forall_mem_nil _
    | refine List.forall_mem_cons.mpr ⟨⟨⟨_, by constructor⟩, together_of (ag := 1) (by decide +kernel)⟩, ?_⟩

/-- Reductions over a segment. -/
theorem witness_GredResults : ∀ i ∈ ([.gredAdd g7 1#3 16#8 8#8, .gredMin g7 true 1#3 16#8 8#8, .gredMax g7 true 1#3 16#8 8#8, .gredAnd g7 1#3 16#8 8#8, .gredOr g7 1#3 16#8 8#8, .gredXor g7 1#3 16#8 8#8, .gredFadd g7 1#3 1#3 16#8 8#8, .gredFmin g7 1#3 16#8 8#8, .gredFmax g7 1#3 16#8 8#8] : List Instr),
    (∃ seg d a v, GredRow i seg d a v ∧ ∀ ag ∈ one.cur.agents, one.ticked.enabled ag (v one.ticked ((one.ticked.segOf (one.performers i) seg ag).headD ag)
      ((one.ticked.segOf (one.performers i) seg ag).map fun x => one.ticked.a32 x a)).2 = false) ∧ Together one i := by
  repeat first
    | exact List.forall_mem_nil _
    | refine List.forall_mem_cons.mpr ⟨⟨⟨_, _, _, _, by constructor, unenabled _⟩, together_of (ag := 1) (by decide +kernel)⟩, ?_⟩

/-- Plain special registers, and instructions without effect. -/
theorem witness_PlainResults : ∀ i ∈ ([.csrr false 16#8 0x036#15, .csrrExt g7 16#8 0x036#16, .csrw false 16#8 0x021#15, .csrwExt g7 8#8 0x021#16, .nop false, .pref g7 1#2 1#2 8#8 (.imm 0x8004#16)] : List Instr),
    (∃ f, PlainRow i f) ∧ Together one i := by
  repeat first
    | exact List.forall_mem_nil _
    | refine List.forall_mem_cons.mpr ⟨⟨⟨_, by constructor; try decide⟩, together_of (ag := 1) (by decide +kernel)⟩, ?_⟩

/-! ## Witnesses: the whole machine, encodings, control flow -/

set_option maxRecDepth 8000 in
/-- MemoryStaysCanonical. -/
theorem witness_MemoryStaysCanonical : MemCanonical State.reset ∧ ∃ t, step State.reset = .next t := ⟨by unfold MemCanonical; decide +kernel, _, rfl⟩
/-- The state in which what an owner fetched is performed. -/
def fetchedIn (v : State) (a : Nat) (rest : List Nat) (pc : DWord) (w : Word) (i : Instr) : State :=
  { v.noteIssue a ((decide (4 ≤ majorOf w) && decide (majorOf w ≤ 6)) || (decide (0x20 ≤ majorOf w) && decide (majorOf w ≤ 0x2F))) with
    cur := ⟨a :: rest, pc, i.ctl.1⟩ }
/-- What `Issues` asks, as a Bool. -/
def doesIssue (s : State) (o : Sys2Proof.Owner) (i : Instr) : Bool :=
  s.hasTurn o && match (s.nominate o).cur.agents with
  | [] => false
  | a :: rest => decide (∀ b ∈ a :: rest, (s.nominate o).breakpoint b = none) &&
    match State.fetch { s.nominate o with cur := ⟨a :: rest, (s.nominate o).cur.pc, 0⟩ } a (s.nominate o).cur.pc with
    | (v, .ok (w :: ws)) => decide (decodeFor (v.gwidth a) (w :: ws) = .ok i) && (fetchedIn v a rest (s.nominate o).cur.pc w i).inOrder i a
    | _ => false
theorem issues_of {s : State} {o : Sys2Proof.Owner} {i : Instr} (h : doesIssue s o i = true) : ∃ t, Issues s o i t := by
  rw [doesIssue, Bool.and_eq_true] at h
  obtain ⟨h1, h⟩ := h
  split at h
  · cases h
  · rename_i a rest ha
    rw [Bool.and_eq_true] at h
    obtain ⟨h2, h⟩ := h
    split at h
    · rename_i v w ws hf
      rw [Bool.and_eq_true] at h
      exact ⟨_, h1, _, a, rest, ⟨a, rest, v, w, ws, ha, of_decide_eq_true h2, hf, of_decide_eq_true h.1, rfl⟩, rfl, h.2, rfl⟩
    · cases h
/-- A loaded NOP, its nomination scheduled; and a loaded ACLR. -/
def loadedNop : State := State.reset.withFetchWord 32 0xD0
def loadedAclr : State := State.reset.withFetchWord 96 0x00000007FFFFFF010000031A
set_option maxRecDepth 8000 in
/-- StepRunsInstruction, a scheduled nomination. -/
theorem witness_StepRunsInstruction : loadedNop.sched = [⟨0, 0, .sliceNomination (.group 0)⟩] ∧
    ∃ t, Issues (({ loadedNop with sched := [] } : State).elapse 0 0) (.group 0) (.nop false) t :=
  ⟨by decide +kernel, issues_of (by decide +kernel)⟩
set_option maxRecDepth 8000 in
/-- StepRunsInstruction, a command of the matrix engine. -/
theorem witness_StepRunsInstruction_command : ∃ t, Issues (({ loadedAclr with sched := [] } : State).elapse 0 0) (.group 0) (.aclr g7 1#3) t :=
  issues_of (by decide +kernel)
/-- A second group beside the first, which issued last. -/
def twoGroups : State :=
  { loadedNop with lanes := { loadedNop.lanes with groups := (loadedNop.lanes.groups.map fun g => { g with lastF := 5, lastG := 5 }) ++ loadedNop.lanes.groups } }
set_option maxRecDepth 8000 in
/-- StepRunsInstruction, a nomination out of turn. -/
theorem witness_StepRunsInstruction_out_of_turn : twoGroups.sched = [⟨0, 0, .sliceNomination (.group 0)⟩] ∧
    (({ twoGroups with sched := [] } : State).elapse 0 0).hasTurn (.group 0) = false := by decide +kernel
/-- Hearth core 3 restarts, and a grant move that it serves is scheduled. -/
def restarting : State := State.reset.modHearth fun h => { h with restart := [3] }
/-- StepRunsInstruction, a scheduled event, of a core that restarts and of one that does not. -/
theorem witness_StepRunsInstruction_event : (∀ o, (Instr.grantMove 0 0 : Instr) ≠ .sliceNomination o) ∧
    (restarting.elapse 0 0).serviceWaits (.grantMove 0 0) = true ∧
    (({ loadedNop with sched := [] } : State).elapse 0 0).serviceWaits (.grantMove 0 0) = false :=
  ⟨fun _ h => (nomatch h), by decide +kernel, by decide +kernel⟩
set_option maxRecDepth 8000 in
/-- StepRunsInstruction, nothing scheduled. -/
theorem witness_StepRunsInstruction_unscheduled : (({ loadedNop with sched := [] } : State).elapse 1 1).moves % 2 = 0 ∧
    (({ loadedNop with sched := [] } : State).elapse 1 1).nextOwner = some (.group 0) ∧
    ∃ t, Issues (({ loadedNop with sched := [] } : State).elapse 1 1) (.group 0) (.nop false) t :=
  ⟨by decide +kernel, by decide +kernel, issues_of (by decide +kernel)⟩
/-- DecodeEncode. -/
theorem witness_DecodeEncode : (Instr.nop false).wf = true ∧ encode (.nop false) = some [0xD0#32] ∧ (Instr.nop false).raw ≠ none ∧
    Instr.dieLinkLoss.raw = none := by decide +kernel
/-- An entry in the decision queue of the share. -/
def queued : State := one.modShare 0 fun x => { x with dq := [5#32] }
/-- BranchForm: a form that is not there, BRA, CALL, BRQ. -/
theorem witness_BranchForm : (0x38#7 = 0x38#7 ∨ 0x38#7 = 0x3A#7 ∨ 0x38#7 = 0x3B#7) ∧ 1#2 ≠ 0#2 ∧ Together one (.bra false 5#22) ∧
    Alone one (.call false 5#22) 1 ∧ (one.ticked.agent 1).link.length < 16 ∧
    Alone queued (.brq false 5#22) 1 ∧ nextEntry queued.ticked 1 = some 5#32 ∧ 5#32 ≠ 0#32 :=
  ⟨by decide +kernel, by decide +kernel, together_of (ag := 1) (by decide +kernel), alone_of (by decide +kernel), by decide +kernel, alone_of (by decide +kernel), by decide +kernel, by decide +kernel⟩
/-- ConditionalBranch. -/
theorem witness_ConditionalBranch : 3#2 ≠ 0#2 ∧ Together one (.brc false 5#18 true 0#3) :=
  ⟨by decide +kernel, together_of (ag := 1) (by decide +kernel)⟩
/-- Select. -/
theorem witness_Select : 1#5 ≠ 0#5 ∧ Together one (.sel g7 true 16#8 8#8 (.reg 24#8) 0#3) :=
  ⟨by decide +kernel, together_of (ag := 1) (by decide +kernel)⟩

/-! ## Witnesses: frames, checks, traps -/

/-- LaneFrame, one row of each shape. -/
theorem witness_LaneFrame : ∀ x ∈ [(Instr.not g7 16#8 8#8, [Dst.reg 16]), (.cmp g7 1#4 1#3 8#8 (.reg 24#8), [.pred 1]),
    (.add64 g7 16#8 8#8 (.reg 24#8), [.reg 16, .reg 17])], LaneRow x.1 x.2 ∧ Together one x.1 := by
  simp only [List.forall_mem_cons, List.not_mem_nil, false_implies, implies_true, and_true]
  exact ⟨⟨.int _ _ _ _ (.not _ _ _), together_of (ag := 1) (by decide +kernel)⟩, ⟨.pred _ _ _ _ (.cmp _ _ _ _ _ (by decide +kernel)), together_of (ag := 1) (by decide +kernel)⟩,
    ⟨.pair _ _ _ _ (.add64 _ _ _ _), together_of (ag := 1) (by decide +kernel)⟩⟩
/-- ReadsOfLateResults. -/
theorem witness_ReadsOfLateResults : 16 < (one.agent 1).regs.length ∧ ∀ p ∈ (one.agent 1).pend, p.dst ≠ .reg 16 :=
  ⟨by decide +kernel, by decide +kernel⟩
/-- NX is enabled, the thread has a handler, and v1 holds 1.5 and v2 the smallest number. -/
def trapping : State := oneWith fun a =>
  { a with trap := { a.trap with vec := 0x20000#64 }, fp := { a.fp with frm := 0x1F00#32 }, regs := (a.regs.set 1 0x3FC00000#32).set 2 1#32 }
/-- EnabledFlags: an inexact sum. -/
theorem witness_EnabledFlags : (∃ v, FpRow (.faddExt g7 0#3 3#8 1#8 (.reg 2#8)) 4 3#8 v ∧
      RaisesOf (.faddExt g7 0#3 3#8 1#8 (.reg 2#8)) (fun s g => (v s g).2) ∧ trapping.ticked.enabled 1 (v trapping.ticked 1).2 = true) ∧
    Alone trapping (.faddExt g7 0#3 3#8 1#8 (.reg 2#8)) 1 ∧ HandlerReady (trapping.agent 1) ∧ (trapping.agent 1).pend = [] ∧
    (trapping.agent 1).fp.fpend = [] :=
  ⟨⟨_, .faddExt _ _ _ _ _, .one _ _ _ _ (.faddExt _ _ _ _ _), by decide +kernel⟩, alone_of (by decide +kernel),
    by unfold HandlerReady; decide +kernel, by decide +kernel, by decide +kernel⟩
/-- A launch without PRIV, HV and delegation. -/
def user : State := one.modLaunch 0 fun l => { l with par := { l.par with priv := false, hv := false, deleg := 0#4 } }
/-- Thread 0 waits for v8 of a floating-point instruction. -/
def owing : State := oneWith fun a => { a with outst := [⟨3, false, true, [(.reg 8, 7#32)], 0#5⟩] }
theorem single_owing : Single owing 1 := ⟨rfl, by unfold Unstepped; decide +kernel⟩
theorem single_one : Single one 1 := ⟨rfl, by unfold Unstepped; decide +kernel⟩
theorem single_user : Single user 1 := ⟨rfl, by unfold Unstepped; decide +kernel⟩
set_option maxRecDepth 8000 in
/-- ChecksAndGuards: a register beyond the budget, an instruction that needs PRIV, a false guard, a register and a %fstat that are not written yet. -/
theorem witness_ChecksAndGuards :
    (Single one 1 ∧ (Instr.sret false).raw ≠ none ∧ one.ticked.pre (.sret false) 1 = .illegal 9) ∧
    (Single user 1 ∧ user.ticked.pre (.tlbiAll g7 6#3 (.reg 8#8)) 1 = .priv) ∧
    (Single one 1 ∧ Skips one (.not ⟨false, 0#4⟩ 16#8 8#8) 1) ∧
    (Single owing 1 ∧ owing.ticked.pre (.not g7 16#8 8#8) 1 = .stall) ∧
    (CsrrOf (.csrr false 16#8 0x020#15) 16#8 0x020 ∧ owing.ticked.fpOutstanding 1 = true) ∧
    ((user.ticked.context 1 (.tlbiAll g7 6#3 (.reg 8#8))).reason = none ∧
      (Instr.tlbiAll g7 6#3 (.reg 8#8)).needsPriv (user.launch (user.launchOf 1)).par.priv (user.launch (user.launchOf 1)).par.hv
        (user.launch (user.launchOf 1)).par.deleg = true) :=
  ⟨⟨single_one, by decide +kernel, by decide +kernel⟩, ⟨single_user, by decide +kernel⟩, ⟨single_one, by unfold Skips; decide +kernel⟩,
    ⟨single_owing, by decide +kernel⟩, ⟨.base _ _ _, by decide +kernel⟩, by decide +kernel, by decide +kernel⟩
/-- SoftwareTraps. -/
theorem witness_SoftwareTraps : TrapOf (.brk false (.imm 5#7)) 0x0B (fun s g => BitVec.ofNat 32 ((s.b7 g (.imm 5#7)).toNat % 65536 + 4 * 65536)) ∧
    Alone one (.brk false (.imm 5#7)) 1 ∧ HandlerReady (one.agent 1) ∧ (one.policyOf 1).getLsbD 7 = false :=
  ⟨.brk _ _, alone_of (by decide +kernel), by unfold HandlerReady; decide +kernel, by decide +kernel⟩
/-- A thread in its handler. -/
def handling : State := oneWith fun a => { a with trap := { a.trap with h := true, rpc := 0x10040#64 } }
/-- ReturnFromTrap. -/
theorem witness_ReturnFromTrap : Alone handling (.sret false) 1 ∧ (handling.ticked.agent 1).pend = [] := ⟨alone_of (by decide +kernel), by decide +kernel⟩
/-- UnhandledTraps. -/
theorem witness_UnhandledTraps : 1 < handling.lanes.agents.length ∧ (handling.agent 1).settleable = true ∧
    (handling.agent 1).settle.trap.h = true ∧ ¬(0x0C = 0x0B ∧ (handling.policyOf 1).getLsbD 7 = true) ∧
    bits (handling.policyOf 1).toNat 0 2 = 0 ∧ (handling.modAgent 1 Agent.settle).trapWaits 1 0x0C = false := by decide +kernel
/-- The same while hearth core 4 restarts. -/
def handlingLate : State := handling.modHearth fun h => { h with restart := [4] }
/-- UnhandledTraps, a kill that waits for its record. -/
theorem witness_UnhandledTraps_that_wait : 1 < handlingLate.lanes.agents.length ∧ (handlingLate.agent 1).settleable = true ∧
    (handlingLate.agent 1).settle.trap.h = true ∧ ¬(0x0C = 0x0B ∧ (handlingLate.policyOf 1).getLsbD 7 = true) ∧
    bits (handlingLate.policyOf 1).toNat 0 2 = 0 ∧ (handlingLate.modAgent 1 Agent.settle).trapWaits 1 0x0C = true := by decide +kernel
/-- OutsideBilletLaunches. -/
theorem witness_OutsideBilletLaunches : (BilletOp (.jdec g7 16#8 8#8 (.reg 24#8)) ∧ Alone one (.jdec g7 16#8 8#8 (.reg 24#8)) 1 ∧
    (one.ticked.launchFor 1).billets = false) ∧ Alone one (.enqn g7 8#8 (.reg 24#8)) 1 ∧ (one.ticked.launchFor 1).nodes = [] :=
  ⟨⟨.jdec _ _ _ _, alone_of (by decide +kernel), by decide +kernel⟩, alone_of (by decide +kernel), by decide +kernel⟩

/-! ## Witnesses: values -/

/-- StoreFrame. -/
theorem witness_StoreFrame : Unreplicated one 0x4000 ∧ MemCanonical one ∧ one.unsettled 0 = false ∧ region 0x4000 = 0 :=
  ⟨fun r h => (by have := (by decide +kernel : one.store.replicas = []); simp [this] at h), by unfold MemCanonical; decide +kernel, by decide +kernel, by decide +kernel⟩
/-- A task that has not settled. -/
def unsettledTask : State := one.modTask 0 fun k => { k with settled := false }
/-- VersionedStores. -/
theorem witness_VersionedStores : 0 < unsettledTask.lanes.tasks.length ∧ unsettledTask.unsettled 0 = true := by decide +kernel
/-- One store in the thread's queue. -/
def pendingStore : SqEntry := ⟨1, 0, 0x4000, .store [1#8, 2#8, 3#8, 4#8], false, false⟩
/-- A younger store of the bytes beside them. -/
def besideStore : SqEntry := ⟨1, 0, 0x4003, .store [5#8], false, false⟩
/-- QueuedStoresForward, the two middle bytes, with a younger entry that ends where they end. -/
theorem witness_QueuedStoresForward : (one.setSq 1 [pendingStore, besideStore]).sq 1 = [] ++ pendingStore :: [besideStore] ∧
    pendingStore.op = .store [1#8, 2#8, 3#8, 4#8] ∧ 0 < 2 ∧ pendingStore.pa ≤ 0x4001 ∧ 0x4001 + 2 ≤ pendingStore.pa + 4 ∧
    (∀ x ∈ [besideStore], x.pa + x.size ≤ 0x4001 ∨ 0x4001 + 2 ≤ x.pa) := by decide +kernel
/-- Scales: 1 = 2^0, and the largest finite code. -/
theorem witness_Scales : 254 < 255 ∧ (2 : Rat) ^ (0 : Int) ≤ (1 : Nat) * (2 : Rat) ^ (0 : Int) ∧ (1 : Nat) * (2 : Rat) ^ (0 : Int) < (2 : Rat) ^ ((0 : Int) + 1) := by
  norm_num
/-- A context with the entries 1, 1.5, 1.75, whose limit is 2. -/
def halving : XCtx := { (default : XCtx) with meth := 1#2, depth := 3#4, tz := 0#32, hist := [0x3F800000#32, 0x3FC00000#32, 0x3FE00000#32], cnt := 3 }
/-- AitkenEstimate. -/
theorem witness_AitkenEstimate : halving.meth = 1#2 ∧ halving.entries = [] ++ [0x3F800000#32, 0x3FC00000#32, 0x3FE00000#32] ∧
    ∃ d1 d0 den q w, xKeep (xSub 0x3FE00000#32 0x3FC00000#32) = .ok d1 ∧ xKeep (xSub 0x3FC00000#32 0x3F800000#32) = .ok d0 ∧
      xDivisor 0#32 (xSub d1 d0) = .ok den ∧ xKeep (xMul d1 d1) = .ok q ∧ xKeep (xDiv q den) = .ok w ∧
      xKeep (xSub 0x3FE00000#32 w) = .ok 0x40000000#32 :=
  ⟨by decide +kernel, by decide +kernel, 0x3E800000#32, 0x3F000000#32, 0xBE800000#32, 0x3D800000#32, 0xBE800000#32, by decide +kernel, by decide +kernel, by decide +kernel, by decide +kernel, by decide +kernel, by decide +kernel⟩

/-! ## Witnesses: what a thread alone leaves -/

/-- A row's hypotheses are met, with the thread alone. -/
abbrev Met (R : Instr → Nat → State → State → Fate → Prop) (s : State) (ag : Nat) (i : Instr) : Prop :=
  (∃ t k, R i ag s.ticked t k) ∧ Alone s i ag
theorem met {R : Instr → Nat → State → State → Fate → Prop} {s : State} {ag : Nat} {i : Instr} {t : State} {k : Fate}
    (h : R i ag s.ticked t k) (ha : isAlone s i ag = true) : Met R s ag i := ⟨⟨t, k, h⟩, alone_of ha⟩
/-- The thread in its handler, with a call to return from, in mask 2, with an entry in the decision queue. -/
def busy : State :=
  ((oneWith fun a => { a with link := [0x10080#64], trap := { a.trap with h := true } }).modShare 0 fun x => { x with dq := [5#32] }).modGroup 0
    fun x => { x with masks := x.masks.set 2 (some 1#128) }
/-- Barrier 3 with one arrival to come. -/
def barred : State := one.modBar 0 3 fun _ => ⟨true, false, 2#7, 0#7, 0#36, 0#32⟩

/-- Two pages of 64 KiB at 1 GiB, the second surrendered, and an open request. -/
def paged : State :=
  let m := one.store.mem.putN 0x2008 (natLe 8 0x3001)
  let m := (m.putN 0x3000 (natLe 8 0x4001)).putN 0x4000 (natLe 8 0x5007F ++ natLe 8 0x6027F)
  (one.modStore fun x => { x with mem := m }).modBalloon 0 fun b => { b with due := some 5000 }
/-- A shape record at 0x8000: 32 words of FP32 at 0x9000, and its address in v8. -/
def shaped : State :=
  let m := (one.store.mem.putN 0x8000 (natLe 8 0x0100000000009000 ++ natLe 4 32)).putN 0x801C (natLe 4 0x3F800000)
  (oneWith fun a => { a with regs := a.regs.set 8 0x8000#32 }).modStore fun x => { x with mem := m.putN 0x8038 (natLe 1 31) }
/-- A chain in slot 0, and its handle in v8. -/
def chained : State :=
  (oneWith fun a => { a with regs := a.regs.set 8 8#32 }).modCore 0 fun c => { c with chains := c.chains.set 0 (1, some (newChain one one 1 0 4 32#8 0)) }
/-- The first page of `paged`, with a descriptor of a run of 100 microseconds for virtual device 0, which may use cluster 0, at its byte 64: v8 its address, v16 the page's. -/
def switching : State :=
  let s := paged.modAgent 1 fun a => { a with regs := (a.regs.set 8 0x40000040#32).set 16 0x40000000#32 }
  (s.modStore fun x => { x with mem := x.mem.putN 0x50044 (natLe 4 100) }).modVdev 0 fun v =>
    { v with desc := v.desc.set 16 1#8 }
/-- A weight set, and cv9 declared for n threads and bound to it. -/
def boundFor (n : Nat) : State :=
  ((oneWith fun a => { a with regs := a.regs.set 32 0x100#32 }).modShare 0 fun x => { x with sets := [⟨0, 1#4, 0#2, true, false, [], [], 0#2⟩], wloads := 1, current := some 0 }).modCv 0 9 fun _ =>
    ⟨.declared, 0, n, 0, [], none, some 0, 0, 0⟩
def bound : State := boundFor 2
def boundOne : State := boundFor 1
/-- A billet launch: slot 0 waits for two joins, slot 1 is free, one node. -/
def billeted : State := one.modLaunch 0 fun l =>
  { l with billets := true, slots := [⟨.waiting, 0#8, ⟨0#64, 0#48, 2#16⟩, 0, none⟩, ⟨.free, 0#8, ⟨0#64, 0#48, 0#16⟩, 0, none⟩],
           nodes := [⟨0x10000#64, 0x7000#64, 4, 64, 0, []⟩] }
/-- A switch that goes through, as a Bool. -/
def switches (s : State) (d a b : Reg) : Bool :=
  (s.d64 1 d).toNat % 8 == 0 &&
  match s.commit (s.taskOf 1) with
  | .done s0 => match s0.translate (s0.vdOf 1) (s0.coreOf 1) (s.d64 1 d) .store with
    | (s1, .ok _ _ _) => match s1.readRecordBy none 1 (s.a64 1 a) 64 1 0#32 with
      | (s2, .ok x) => s2.coreIn (partOf (s.vdOf 1)) (s.b32 1 (.reg b)).toNat && !s2.rejectsSwitch 1 (s.b32 1 (.reg b)).toNat x &&
          (s2.drainIssuer 1).2
      | _ => false
    | _ => false
  | _ => false
theorem ctxsw_of {s : State} {d a b : Reg} (h : switches s d a b = true) : ∃ t k, SystemRow (.ctxsw g7 false 6#3 d a (.reg b)) 1 s t k := by
  rw [switches, Bool.and_eq_true, beq_iff_eq] at h
  obtain ⟨h0, h⟩ := h
  split at h
  · rename_i s0 hc
    split at h
    · rename_i s1 pa rb h11 h1
      split at h
      · rename_i s2 x h2
        simp only [Bool.and_eq_true, Bool.not_eq_true'] at h
        obtain ⟨⟨h3, h4⟩, h5⟩ := h
        exact ⟨_, _, .ctxsw _ _ _ _ _ _ _ _ _ _ _ _ _ (.inl ⟨rfl, hc⟩) ⟨h0, pa, rb, h11, h1⟩ h2 h3 h4 (Prod.ext rfl h5)⟩
      · cases h
    · cases h
  · cases h
set_option maxRecDepth 400000 in
theorem switches_of_switching : switches switching.ticked 16#8 8#8 24#8 = true := by decide +kernel

/-! ## Checked conditions of the rows -/

/-- Parts of a translation. -/
def xok : Xlat → Bool
  | .ok _ _ _ => true
  | _ => false
def xpa : Xlat → Nat
  | .ok p _ _ => p
  | _ => 0
def xrb : Xlat → Bool
  | .ok _ r _ => r
  | _ => false
def xh11 : Xlat → Bool
  | .ok _ _ h => h
  | _ => false
/-- A pair whose second part is known. -/
theorem pair_at {α β : Type} {x : α × β} {b : β} (h : x.2 = b) : x = (x.1, b) := by rw [← h]
theorem true_at {α : Type} {x : α × Bool} (h : x.2 = true) : x = (x.1, true) := pair_at h
theorem ok_at {α : Type} {x : α × Xlat} (h : xok x.2 = true) : x = (x.1, .ok (xpa x.2) (xrb x.2) (xh11 x.2)) := by
  obtain ⟨s, y⟩ := x
  cases y <;> first | rfl | cases h
theorem opt_at {α : Type} [Inhabited α] {x : Option α} (h : x.isSome = true) : x = some (x.getD default) := by
  cases x <;> first | rfl | cases h
theorem some_at {α β : Type} [Inhabited β] {x : α × Option β} (h : x.2.isSome = true) : x = (x.1, some (x.2.getD default)) :=
  pair_at (opt_at h)
/-- What an Except holds. -/
def okay {ε α : Type} : Except ε α → Bool
  | .ok _ => true
  | .error _ => false
def okVal {ε α : Type} [Inhabited α] : Except ε α → α
  | .ok x => x
  | .error _ => default
theorem okay_at {ε α : Type} [Inhabited α] {x : Except ε α} (h : okay x = true) : x = .ok (okVal x) := by
  cases x <;> first | rfl | cases h
theorem exc_at {α ε β : Type} [Inhabited β] {x : α × Except ε β} (h : okay x.2 = true) : x = (x.1, .ok (okVal x.2)) := pair_at (okay_at h)
/-- The state a commit leaves. -/
def commitDone : Commit → Bool
  | .done _ => true
  | _ => false
def commitState : Commit → State
  | .done s => s
  | _ => State.reset
theorem commit_at {x : Commit} (h : commitDone x = true) : x = .done (commitState x) := by
  cases x <;> first | rfl | cases h
theorem committed_at {s : State} {t : Nat} (h : commitDone (s.commit t) = true) : Committed s t true (commitState (s.commit t)) :=
  .inl ⟨rfl, commit_at h⟩
theorem reaches_at {s : State} {ag : Nat} {ea : DWord} {n : Nat} {k : Access} (h1 : ea.toNat % n = 0)
    (h2 : s.lockHit (s.coreOf ag) (s.vdOf ag) ea n (k == .store) = none) (h3 : xok (s.translate (s.vdOf ag) (s.coreOf ag) ea k).2 = true) :
    Reaches s ag ea n k (s.translate (s.vdOf ag) (s.coreOf ag) ea k).1 (xpa (s.translate (s.vdOf ag) (s.coreOf ag) ea k).2)
      (xrb (s.translate (s.vdOf ag) (s.coreOf ag) ea k).2) (xh11 (s.translate (s.vdOf ag) (s.coreOf ag) ea k).2) := ⟨h1, h2, ok_at h3⟩
theorem counter_at {s : State} {ag : Nat} {va : DWord} (h1 : va.toNat % 8 = 0)
    (h2 : xok (s.translate (s.vdOf ag) (s.coreOf ag) va .store).2 = true) :
    CounterOk s ag va (s.translate (s.vdOf ag) (s.coreOf ag) va .store).1 := ⟨h1, _, _, _, ok_at h2⟩
theorem charged_at {s : State} {ag pa : Nat} {rb : Bool} (h1 : (s.agent ag).supp = none) (h2 : s.inTurn ag false = true)
    (h3 : (s.charge (s.vdOf ag) pa rb).2 = .accepted) : Charged s ag pa rb ((s.charge (s.vdOf ag) pa rb).1.leaveLine ag false) :=
  ⟨h1, h2, _, pair_at h3, rfl⟩
/-- The shortfall of a refused charge. -/
def shortOf : Charge → Nat
  | .refused m => m
  | _ => 0
theorem refused_at {x : State × Charge} (h : x.2 = .refused (shortOf x.2)) : x = (x.1, .refused (shortOf x.2)) := pair_at h
/-- Blocks of charges that are taken. -/
def takenOf : Charges → List Nat
  | .taken bs => bs
  | _ => []
theorem taken_at {x : State × Charges} (h : x.2 = .taken (takenOf x.2)) : x = (x.1, .taken (takenOf x.2)) := pair_at h
/-- What a range lock that is met gives. -/
def lockVal (x : Option (DWord × Nat × Bool)) : DWord × Nat × Bool := x.getD (0#64, 0, false)
theorem lock_at {x : Option (DWord × Nat × Bool)} (h : x.isSome = true) : x = some ((lockVal x).1, (lockVal x).2.1, (lockVal x).2.2) := by
  cases x <;> first | rfl | cases h
/-- What a decrement leaves. -/
def jdecVal (x : Except Nat (State × BitVec 16)) : State × BitVec 16 :=
  match x with
  | .ok y => y
  | .error _ => (State.reset, 0#16)
theorem jdec_at {x : Except Nat (State × BitVec 16)} (h : okay x = true) : x = .ok ((jdecVal x).1, (jdecVal x).2) := by
  cases x <;> first | rfl | cases h
/-- The leaf of a page operation, and of a walk. -/
def leafVal : Except Fate Leaf → Leaf
  | .ok l => l
  | .error _ => ⟨0, 0, 0⟩
theorem leaf_at {α : Type} {x : α × Except Fate Leaf} (h : okay x.2 = true) : x = (x.1, .ok (leafVal x.2)) := by
  obtain ⟨s, y⟩ := x
  cases y <;> first | rfl | cases h
theorem leafIs_at {x : Option Leaf} (h : x.isSome = true) : x = some (x.getD ⟨0, 0, 0⟩) := by
  cases x <;> first | rfl | cases h
theorem state_at {x : Option State} (h : x.isSome = true) : x = some (x.getD State.reset) := by
  cases x <;> first | rfl | cases h
/-- No result is outstanding. -/
theorem none_late {l : List Outst} (h : l = []) {p : Outst → Prop} : ∀ o ∈ l, p o := by rw [h]; exact fun _ h => nomatch h

/-! ## States in which a write or an access stops -/

/-- v8 of the thread in a state. -/
def withV8 (s : State) (x : Word) : State := s.modAgent 1 fun a => { a with regs := a.regs.set 8 x }
/-- No grant. -/
def poor : State := one.modStore fun m => { m with kshares := [⟨0, 0, 0, false⟩] }
def poorVersion : State := poor.modTask 0 fun k => { k with settled := false }
/-- A store of the thread has been refused before. -/
def suppressing : State := oneWith fun a => { a with supp := some default }
/-- The charge path is suspended. -/
def suspended : State := one.modBalloon 0 fun b => { b with suspended := true }
/-- A store of thread 1 of the group waits to be accepted. -/
def secondInLine : State := (one.modGroup 0 fun g => { g with line := [(false, 2, 0x10000#64)] }).modAgent 2 fun a =>
  { a with status := .parked (.store 0), pc := 0x10000#64 }
/-- The store queue is full. -/
def crowded : State := one.setSq 1 (List.replicate 32 pendingStore)
/-- A version of no lines. -/
def cramped : State := unsettledTask.modLaunch 0 fun l => { l with par := { l.par with vbudget := 0 } }
/-- v8 names an address that no table maps; a page of the host; a page that is surrendered; one that is not resident. -/
def astray : State := withV8 one 0x80000000#32
def hosted : State := withV8 (paged.modStore fun m => { m with mem := m.mem.putN 0x4000 (natLe 8 0x100000000007F) }) 0x40000000#32
def surrendered : State := withV8 paged 0x40010000#32
def elsewhere : State := withV8 (paged.modStore fun m => { m with mem := m.mem.putN 0x4000 (natLe 8 0x5017F) }) 0x40000000#32
def suppressingPaged : State := paged.modAgent 1 fun a => { a with supp := some default }
/-- A copy writes bytes that the access meets. -/
def lockAll (s : State) : State := s.modCore 0 fun c => { c with locks := c.locks.set 0 (some { (default : RLock) with lo := 0#64, hi := 0xFFFFFFFF#64, dest := true, vd := 0 }) }
def guarded : State := lockAll one
def guardedGone : State := lockAll surrendered
/-- Stack 0 is being handed over. -/
def handedOver : State := one.modOwner 0 fun o => { o with state := 1#2 }
/-- Line 0 of the scratchpad is absent. -/
def absentLine : State := one.modShare 0 fun h => { h with absent := [0] }
/-- Ranges that a die takes of the other's, and what stays. -/
def stealVal (s : State) : List Range × List Range := (stealFrom ((s.launch 0).dist.die.getD 1 [])).getD ([], [])
/-- No hand-over holds the page a walk finds. -/
theorem heldNot {s : State} {v : Nat} {va : DWord} (h : (s.walk v va).all (fun l => !s.placeHeld v va l) = true) :
    ∀ l, s.walk v va = some l → s.placeHeld v va l = false := by
  intro l e
  rw [e, Option.all_some, Bool.not_eq_true'] at h
  exact h

set_option maxRecDepth 20000 in
/-- ControlEffects, each instruction of a thread. -/
theorem witness_ControlEffects :
    Met ControlRow busy 1 (.call false 5#22) ∧
    Met ControlRow busy 1 (.ret false) ∧
    Met ControlRow busy 1 (.retExt g7) ∧
    Met ControlRow busy 1 (.jarm false 2#4) ∧
    Met ControlRow busy 1 (.jarmExt g7 2#4) ∧
    Met ControlRow busy 1 (.jwait false 2#4) ∧
    Met ControlRow busy 1 (.jwaitExt g7 2#4) ∧
    Met ControlRow busy 1 (.jdrop false 2#4) ∧
    Met ControlRow busy 1 (.jdropExt g7 2#4) ∧
    Met ControlRow busy 1 (.exit false) ∧
    Met ControlRow busy 1 (.exitExt g7) ∧
    Met ControlRow busy 1 (.yield false) ∧
    Met ControlRow busy 1 (.yieldExt g7) ∧
    Met ControlRow busy 1 (.ill 0#22 false 0#2) ∧
    Met ControlRow busy 1 (.trap false (.imm 5#7)) ∧
    Met ControlRow busy 1 (.trapExt g7 (.imm 5#16)) ∧
    Met ControlRow busy 1 (.brk false (.imm 5#7)) ∧
    Met ControlRow busy 1 (.brkExt g7 (.imm 5#16)) ∧
    Met ControlRow busy 1 (.sret false) ∧
    Met ControlRow busy 1 (.sretExt g7) ∧
    Met ControlRow busy 1 (.brq false 5#22) ∧
    Met ControlRow busy 1 (.dqpop false 16#8) ∧
    Met ControlRow busy 1 (.dqpopExt g7 16#8) :=
  ⟨met (.call _ _ _ _ (by decide +kernel)) (by decide +kernel),
    met (.ret _ _ _ 0x10080#64 [] (by decide +kernel)) (by decide +kernel),
    met (.retExt _ _ _ 0x10080#64 [] (by decide +kernel)) (by decide +kernel),
    met (.jarm _ _ _ _) (by decide +kernel),
    met (.jarmExt _ _ _ _) (by decide +kernel),
    met (.jwait _ _ _ _ (by decide +kernel) (by decide +kernel)) (by decide +kernel),
    met (.jwaitExt _ _ _ _ (by decide +kernel) (by decide +kernel)) (by decide +kernel),
    met (.jdrop _ _ _ _ (by decide +kernel)) (by decide +kernel),
    met (.jdropExt _ _ _ _ (by decide +kernel)) (by decide +kernel),
    met (.exit _ _ _ (by decide +kernel)) (by decide +kernel),
    met (.exitExt _ _ _ (by decide +kernel)) (by decide +kernel),
    met (.yield _ _ _ 0 (.base _) (by decide +kernel) (by decide +kernel)) (by decide +kernel),
    met (.yield _ _ _ 0 (.ext _) (by decide +kernel) (by decide +kernel)) (by decide +kernel),
    met (.ill _ _ _ _ _) (by decide +kernel),
    met (.trap _ _ _ _) (by decide +kernel),
    met (.trapExt _ _ _ _) (by decide +kernel),
    met (.brk _ _ _ _) (by decide +kernel),
    met (.brkExt _ _ _ _) (by decide +kernel),
    met (.sret _ _ _) (by decide +kernel),
    met (.sretExt _ _ _) (by decide +kernel),
    met (.brq _ _ _ _ 5#32 (by decide +kernel)) (by decide +kernel),
    met (.dqpop _ _ _ _ 5#32 (by decide +kernel)) (by decide +kernel),
    met (.dqpopExt _ _ _ _ 5#32 (by decide +kernel)) (by decide +kernel)⟩

set_option maxRecDepth 20000 in
/-- ControlEffects, the front end's instructions. -/
theorem witness_ControlEffects_of_front_end :
    Met ControlRow front 0 (.dqpush false (.imm 5#7)) ∧
    Met ControlRow front 0 (.dqpushExt g7 (.imm 5#16)) :=
  ⟨met (.dqpush _ _ _ _ (by decide +kernel)) (by decide +kernel),
    met (.dqpushExt _ _ _ _ (by decide +kernel)) (by decide +kernel)⟩

set_option maxRecDepth 20000 in
/-- SpecialRegisterEffects. -/
theorem witness_SpecialRegisterEffects :
    Met CsrRow one 1 (.csrr false 16#8 0x010#15) ∧
    Met CsrRow one 1 (.csrrExt g7 16#8 0x012#16) ∧
    Met CsrRow one 1 (.csrr false 16#8 0x020#15) ∧
    Met CsrRow one 1 (.csrw false 16#8 0x020#15) ∧
    Met CsrRow one 1 (.csrwExt g7 16#8 0x801#16) :=
  ⟨met (.time _ _ _ _ (.base _ _ _)) (by decide +kernel),
    met (.clock _ _ _ _ (.ext _ _ _)) (by decide +kernel),
    met (.fstat _ _ _ _ (.base _ _ _)) (by decide +kernel),
    met (.setFstat _ _ _ _ (.base _ _ _)) (by decide +kernel),
    met (.debug _ _ _ _ _ (.ext _ _ _) (by decide +kernel) (by decide +kernel)) (by decide +kernel)⟩

set_option maxRecDepth 20000 in
/-- BarrierEffects. -/
theorem witness_BarrierEffects :
    Met BarrierRow barred 1 (.barArr g7 16#8 3#4) ∧
    Met BarrierRow barred 1 (.barSync g7 16#8 3#4) ∧
    Met BarrierRow barred 1 (.barWait g7 3#4 (.imm 0#16)) ∧
    Met BarrierRow barred 1 (.barExpect g7 3#4 (.imm 8#16)) ∧
    Met BarrierRow barred 1 (.barInit g7 3#4 (.imm 104#16)) ∧
    Met BarrierRow barred 1 (.barArr g7 16#8 5#4) ∧
    Met BarrierRow barred 1 (.barInit g7 3#4 (.imm 105#16)) ∧
    Met BarrierRow barred 1 (.cvset g7 0#7 4#4 (.imm 0#16)) :=
  ⟨met (.arr (hi := (by decide +kernel)) (hb := (by decide +kernel)) (ha := (by decide +kernel)) (hd := true_at (by decide +kernel)) ..) (by decide +kernel),
    met (.sync (hi := (by decide +kernel)) (hb := (by decide +kernel)) (ha := (by decide +kernel)) (hd := true_at (by decide +kernel)) ..) (by decide +kernel),
    met (.wait (hi := (by decide +kernel)) (hb := (by decide +kernel)) ..) (by decide +kernel),
    met (.expect (hi := (by decide +kernel)) (hb := (by decide +kernel)) (hn := (by decide +kernel)) ..) (by decide +kernel),
    met (.init (h1 := (by decide +kernel)) (h2 := (by decide +kernel)) ..) (by decide +kernel),
    met (.uninit (hi := (by decide +kernel)) ..) (by decide +kernel),
    met (.badCount (h := (by decide +kernel)) ..) (by decide +kernel),
    met (.cvset (set := [1]) (h := 0) (hn := (by decide +kernel)) (hs := (by decide +kernel)) (hh := (by decide +kernel)) (hc := (by decide +kernel)) ..) (by decide +kernel)⟩

set_option maxRecDepth 20000 in
/-- MemoryEffects: page 0 of the loaded program and its scratchpad window. -/
theorem witness_MemoryEffects :
    Met MemoryRow one 1 (.ld false 16#8 8#8 0x10#7) ∧
    Met MemoryRow one 1 (.ldExt g7 true 5#3 4#3 0#2 16#8 8#8 (.imm 0x10#16)) ∧
    Met MemoryRow one 1 (.ldz g7 0#3 0#2 16#8 1#3 8#8 (.imm 0x10#16)) ∧
    Met MemoryRow one 1 (.ldc false 16#8 8#8 0x10#7) ∧
    Met MemoryRow one 1 (.ldcExt g7 0#3 0#2 16#8 8#8 (.imm 0x10#16)) ∧
    Met MemoryRow one 1 (.lds false 16#8 8#8 0x10#7) ∧
    Met MemoryRow one 1 (.ldsExt g7 6#3 16#8 8#8 (.imm 0x10#16)) ∧
    Met MemoryRow one 1 (.sts false 16#8 8#8 0x10#7) ∧
    Met MemoryRow one 1 (.stsExt g7 6#3 16#8 8#8 (.imm 0x10#16)) ∧
    Met MemoryRow one 1 (.fence g7 4#3) ∧
    Met MemoryRow one 1 (.fence g7 7#3) ∧
    Met MemoryRow one 1 (.spres g7 1#3 8#8 (.imm 0x10#16)) ∧
    Met MemoryRow one 1 (.pgreq g7 false 1#3 8#8 (.imm 0x10#16)) :=
  ⟨met (.load (hi := .ld _ _ _ _) (hr := (reaches_at (by decide +kernel) (by decide +kernel) (by decide +kernel))) (hq := some_at (by decide +kernel)) ..) (by decide +kernel),
    met (.load (hi := .ldExt _ _ _ _ _ _ _ _) (hr := (reaches_at (by decide +kernel) (by decide +kernel) (by decide +kernel))) (hq := some_at (by decide +kernel)) ..) (by decide +kernel),
    met (.ldz (hr := (reaches_at (by decide +kernel) (by decide +kernel) (by decide +kernel))) (hq := some_at (by decide +kernel)) ..) (by decide +kernel),
    met (.const (hi := .ldc _ _ _ _) (hr := (reaches_at (by decide +kernel) (by decide +kernel) (by decide +kernel))) ..) (by decide +kernel),
    met (.const (hi := .ldcExt _ _ _ _ _ _) (hr := (reaches_at (by decide +kernel) (by decide +kernel) (by decide +kernel))) ..) (by decide +kernel),
    met (.padLoad (hi := .lds _ _ _ _) (hr := ⟨(by decide +kernel), (by decide +kernel), (by decide +kernel)⟩) ..) (by decide +kernel),
    met (.padLoad (hi := .ldsExt _ _ _ _ _) (hr := ⟨(by decide +kernel), (by decide +kernel), (by decide +kernel)⟩) ..) (by decide +kernel),
    met (.padStore (hi := .sts _ _ _ _) (hr := ⟨(by decide +kernel), (by decide +kernel), (by decide +kernel)⟩) (ho := (by decide +kernel)) (hf := (by decide +kernel)) ..) (by decide +kernel),
    met (.padStore (hi := .stsExt _ _ _ _ _) (hr := ⟨(by decide +kernel), (by decide +kernel), (by decide +kernel)⟩) (ho := (by decide +kernel)) (hf := (by decide +kernel)) ..) (by decide +kernel),
    met (.fence (h0 := (by decide +kernel)) (h7 := (by decide +kernel)) (hd := true_at (by decide +kernel)) ..) (by decide +kernel),
    met (.fenceSystem (hd := true_at (by decide +kernel)) (hp := (by decide +kernel)) (hl := (by decide +kernel)) ..) (by decide +kernel),
    met (.spres (h := (by decide +kernel)) ..) (by decide +kernel),
    met (.pgreq (h := ok_at (by decide +kernel)) ..) (by decide +kernel)⟩

set_option maxRecDepth 20000 in
/-- MemoryEffects, writes: stores, each atomic and each reduction. -/
theorem witness_MemoryEffects_of_writes :
    Met MemoryRow one 1 (.st false 16#8 8#8 0x10#7) ∧
    Met MemoryRow one 1 (.stExt g7 true 5#3 6#3 0#2 16#8 8#8 (.imm 0x10#16)) ∧
    Met MemoryRow one 1 (.stExt g7 true 5#3 7#3 0#2 16#8 8#8 (.imm 0x10#16)) ∧
    Met MemoryRow one 1 (.atomAdd g7 false true 4#3 16#8 8#8 (.reg 24#8)) ∧
    Met MemoryRow one 1 (.atomMin g7 false true 4#3 16#8 8#8 (.reg 24#8)) ∧
    Met MemoryRow one 1 (.atomMax g7 false true 4#3 16#8 8#8 (.reg 24#8)) ∧
    Met MemoryRow one 1 (.atomUmin g7 false true 4#3 16#8 8#8 (.reg 24#8)) ∧
    Met MemoryRow one 1 (.atomUmax g7 false true 4#3 16#8 8#8 (.reg 24#8)) ∧
    Met MemoryRow one 1 (.atomAnd g7 false true 4#3 16#8 8#8 (.reg 24#8)) ∧
    Met MemoryRow one 1 (.atomOr g7 false true 4#3 16#8 8#8 (.reg 24#8)) ∧
    Met MemoryRow one 1 (.atomXor g7 false true 4#3 16#8 8#8 (.reg 24#8)) ∧
    Met MemoryRow one 1 (.atomExch g7 false true 4#3 16#8 8#8 (.reg 24#8)) ∧
    Met MemoryRow one 1 (.atomCas g7 false true 4#3 16#8 8#8 (.reg 24#8) 32#8) ∧
    Met MemoryRow one 1 (.atomFadd g7 false 4#3 16#8 8#8 (.reg 24#8)) ∧
    Met MemoryRow one 1 (.redAdd g7 true 4#3 8#8 (.reg 24#8)) ∧
    Met MemoryRow one 1 (.redMin g7 true 4#3 8#8 (.reg 24#8)) ∧
    Met MemoryRow one 1 (.redMax g7 true 4#3 8#8 (.reg 24#8)) ∧
    Met MemoryRow one 1 (.redUmin g7 true 4#3 8#8 (.reg 24#8)) ∧
    Met MemoryRow one 1 (.redUmax g7 true 4#3 8#8 (.reg 24#8)) ∧
    Met MemoryRow one 1 (.redAnd g7 true 4#3 8#8 (.reg 24#8)) ∧
    Met MemoryRow one 1 (.redOr g7 true 4#3 8#8 (.reg 24#8)) ∧
    Met MemoryRow one 1 (.redXor g7 true 4#3 8#8 (.reg 24#8)) ∧
    Met MemoryRow one 1 (.redFadd g7 4#3 8#8 (.reg 24#8)) :=
  ⟨met (.write (hw := ⟨_, (.store (hi := .st _ _ _ _) (hr := (reaches_at (by decide +kernel) (by decide +kernel) (by decide +kernel))) (hc := (.inr ⟨rfl, rfl⟩)) (hw := (.inl ⟨rfl, rfl⟩)) ..), fun _ => .inl (by decide +kernel), by unfold InBudget; decide +kernel⟩) (hg := (charged_at (by decide +kernel) (by decide +kernel) (by decide +kernel))) ..) (by decide +kernel),
    met (.write (hw := ⟨_, (.store (hi := .stExt _ _ _ _ _ _ _ _) (hr := (reaches_at (by decide +kernel) (by decide +kernel) (by decide +kernel))) (hc := (.inl ⟨rfl, commit_at (by decide +kernel)⟩)) (hw := (.inl ⟨rfl, rfl⟩)) ..), fun _ => .inl (by decide +kernel), by unfold InBudget; decide +kernel⟩) (hg := (charged_at (by decide +kernel) (by decide +kernel) (by decide +kernel))) ..) (by decide +kernel),
    met (.write (hw := ⟨_, (.store (hi := .stExt _ _ _ _ _ _ _ _) (hr := (reaches_at (by decide +kernel) (by decide +kernel) (by decide +kernel))) (hc := (.inl ⟨rfl, commit_at (by decide +kernel)⟩)) (hw := (.inr ⟨rfl, true_at (by decide +kernel), (by decide +kernel)⟩)) ..), fun _ => .inl (by decide +kernel), by unfold InBudget; decide +kernel⟩) (hg := (charged_at (by decide +kernel) (by decide +kernel) (by decide +kernel))) ..) (by decide +kernel),
    met (.write (hw := ⟨_, (.atom (hi := .add _ _ _ _ _ _ _) (hr := (reaches_at (by decide +kernel) (by decide +kernel) (by decide +kernel))) (hh := (by decide +kernel)) (hc := (.inr ⟨rfl, rfl⟩)) (hw := (.inl ⟨rfl, rfl⟩)) (hd := true_at (by decide +kernel)) ..), fun _ => .inl (by decide +kernel), by unfold InBudget; decide +kernel⟩) (hg := (charged_at (by decide +kernel) (by decide +kernel) (by decide +kernel))) ..) (by decide +kernel),
    met (.write (hw := ⟨_, (.atom (hi := .min _ _ _ _ _ _ _) (hr := (reaches_at (by decide +kernel) (by decide +kernel) (by decide +kernel))) (hh := (by decide +kernel)) (hc := (.inr ⟨rfl, rfl⟩)) (hw := (.inl ⟨rfl, rfl⟩)) (hd := true_at (by decide +kernel)) ..), fun _ => .inl (by decide +kernel), by unfold InBudget; decide +kernel⟩) (hg := (charged_at (by decide +kernel) (by decide +kernel) (by decide +kernel))) ..) (by decide +kernel),
    met (.write (hw := ⟨_, (.atom (hi := .max _ _ _ _ _ _ _) (hr := (reaches_at (by decide +kernel) (by decide +kernel) (by decide +kernel))) (hh := (by decide +kernel)) (hc := (.inr ⟨rfl, rfl⟩)) (hw := (.inl ⟨rfl, rfl⟩)) (hd := true_at (by decide +kernel)) ..), fun _ => .inl (by decide +kernel), by unfold InBudget; decide +kernel⟩) (hg := (charged_at (by decide +kernel) (by decide +kernel) (by decide +kernel))) ..) (by decide +kernel),
    met (.write (hw := ⟨_, (.atom (hi := .umin _ _ _ _ _ _ _) (hr := (reaches_at (by decide +kernel) (by decide +kernel) (by decide +kernel))) (hh := (by decide +kernel)) (hc := (.inr ⟨rfl, rfl⟩)) (hw := (.inl ⟨rfl, rfl⟩)) (hd := true_at (by decide +kernel)) ..), fun _ => .inl (by decide +kernel), by unfold InBudget; decide +kernel⟩) (hg := (charged_at (by decide +kernel) (by decide +kernel) (by decide +kernel))) ..) (by decide +kernel),
    met (.write (hw := ⟨_, (.atom (hi := .umax _ _ _ _ _ _ _) (hr := (reaches_at (by decide +kernel) (by decide +kernel) (by decide +kernel))) (hh := (by decide +kernel)) (hc := (.inr ⟨rfl, rfl⟩)) (hw := (.inl ⟨rfl, rfl⟩)) (hd := true_at (by decide +kernel)) ..), fun _ => .inl (by decide +kernel), by unfold InBudget; decide +kernel⟩) (hg := (charged_at (by decide +kernel) (by decide +kernel) (by decide +kernel))) ..) (by decide +kernel),
    met (.write (hw := ⟨_, (.atom (hi := .and _ _ _ _ _ _ _) (hr := (reaches_at (by decide +kernel) (by decide +kernel) (by decide +kernel))) (hh := (by decide +kernel)) (hc := (.inr ⟨rfl, rfl⟩)) (hw := (.inl ⟨rfl, rfl⟩)) (hd := true_at (by decide +kernel)) ..), fun _ => .inl (by decide +kernel), by unfold InBudget; decide +kernel⟩) (hg := (charged_at (by decide +kernel) (by decide +kernel) (by decide +kernel))) ..) (by decide +kernel),
    met (.write (hw := ⟨_, (.atom (hi := .or _ _ _ _ _ _ _) (hr := (reaches_at (by decide +kernel) (by decide +kernel) (by decide +kernel))) (hh := (by decide +kernel)) (hc := (.inr ⟨rfl, rfl⟩)) (hw := (.inl ⟨rfl, rfl⟩)) (hd := true_at (by decide +kernel)) ..), fun _ => .inl (by decide +kernel), by unfold InBudget; decide +kernel⟩) (hg := (charged_at (by decide +kernel) (by decide +kernel) (by decide +kernel))) ..) (by decide +kernel),
    met (.write (hw := ⟨_, (.atom (hi := .xor _ _ _ _ _ _ _) (hr := (reaches_at (by decide +kernel) (by decide +kernel) (by decide +kernel))) (hh := (by decide +kernel)) (hc := (.inr ⟨rfl, rfl⟩)) (hw := (.inl ⟨rfl, rfl⟩)) (hd := true_at (by decide +kernel)) ..), fun _ => .inl (by decide +kernel), by unfold InBudget; decide +kernel⟩) (hg := (charged_at (by decide +kernel) (by decide +kernel) (by decide +kernel))) ..) (by decide +kernel),
    met (.write (hw := ⟨_, (.atom (hi := .exch _ _ _ _ _ _ _) (hr := (reaches_at (by decide +kernel) (by decide +kernel) (by decide +kernel))) (hh := (by decide +kernel)) (hc := (.inr ⟨rfl, rfl⟩)) (hw := (.inl ⟨rfl, rfl⟩)) (hd := true_at (by decide +kernel)) ..), fun _ => .inl (by decide +kernel), by unfold InBudget; decide +kernel⟩) (hg := (charged_at (by decide +kernel) (by decide +kernel) (by decide +kernel))) ..) (by decide +kernel),
    met (.write (hw := ⟨_, (.atom (hi := .cas _ _ _ _ _ _ _ _) (hr := (reaches_at (by decide +kernel) (by decide +kernel) (by decide +kernel))) (hh := (by decide +kernel)) (hc := (.inr ⟨rfl, rfl⟩)) (hw := (.inl ⟨rfl, rfl⟩)) (hd := true_at (by decide +kernel)) ..), fun _ => .inl (by decide +kernel), by unfold InBudget; decide +kernel⟩) (hg := (charged_at (by decide +kernel) (by decide +kernel) (by decide +kernel))) ..) (by decide +kernel),
    met (.write (hw := ⟨_, (.atom (hi := .fadd _ _ _ _ _ _) (hr := (reaches_at (by decide +kernel) (by decide +kernel) (by decide +kernel))) (hh := (by decide +kernel)) (hc := (.inr ⟨rfl, rfl⟩)) (hw := (.inl ⟨rfl, rfl⟩)) (hd := true_at (by decide +kernel)) ..), fun _ => .inl (by decide +kernel), by unfold InBudget; decide +kernel⟩) (hg := (charged_at (by decide +kernel) (by decide +kernel) (by decide +kernel))) ..) (by decide +kernel),
    met (.write (hw := ⟨_, (.red (hi := .add _ _ _ _ _) (hr := (reaches_at (by decide +kernel) (by decide +kernel) (by decide +kernel))) (hh := (by decide +kernel)) (hc := (.inr ⟨rfl, rfl⟩)) ..), fun _ => .inl (by decide +kernel), by unfold InBudget; decide +kernel⟩) (hg := (charged_at (by decide +kernel) (by decide +kernel) (by decide +kernel))) ..) (by decide +kernel),
    met (.write (hw := ⟨_, (.red (hi := .min _ _ _ _ _) (hr := (reaches_at (by decide +kernel) (by decide +kernel) (by decide +kernel))) (hh := (by decide +kernel)) (hc := (.inr ⟨rfl, rfl⟩)) ..), fun _ => .inl (by decide +kernel), by unfold InBudget; decide +kernel⟩) (hg := (charged_at (by decide +kernel) (by decide +kernel) (by decide +kernel))) ..) (by decide +kernel),
    met (.write (hw := ⟨_, (.red (hi := .max _ _ _ _ _) (hr := (reaches_at (by decide +kernel) (by decide +kernel) (by decide +kernel))) (hh := (by decide +kernel)) (hc := (.inr ⟨rfl, rfl⟩)) ..), fun _ => .inl (by decide +kernel), by unfold InBudget; decide +kernel⟩) (hg := (charged_at (by decide +kernel) (by decide +kernel) (by decide +kernel))) ..) (by decide +kernel),
    met (.write (hw := ⟨_, (.red (hi := .umin _ _ _ _ _) (hr := (reaches_at (by decide +kernel) (by decide +kernel) (by decide +kernel))) (hh := (by decide +kernel)) (hc := (.inr ⟨rfl, rfl⟩)) ..), fun _ => .inl (by decide +kernel), by unfold InBudget; decide +kernel⟩) (hg := (charged_at (by decide +kernel) (by decide +kernel) (by decide +kernel))) ..) (by decide +kernel),
    met (.write (hw := ⟨_, (.red (hi := .umax _ _ _ _ _) (hr := (reaches_at (by decide +kernel) (by decide +kernel) (by decide +kernel))) (hh := (by decide +kernel)) (hc := (.inr ⟨rfl, rfl⟩)) ..), fun _ => .inl (by decide +kernel), by unfold InBudget; decide +kernel⟩) (hg := (charged_at (by decide +kernel) (by decide +kernel) (by decide +kernel))) ..) (by decide +kernel),
    met (.write (hw := ⟨_, (.red (hi := .and _ _ _ _ _) (hr := (reaches_at (by decide +kernel) (by decide +kernel) (by decide +kernel))) (hh := (by decide +kernel)) (hc := (.inr ⟨rfl, rfl⟩)) ..), fun _ => .inl (by decide +kernel), by unfold InBudget; decide +kernel⟩) (hg := (charged_at (by decide +kernel) (by decide +kernel) (by decide +kernel))) ..) (by decide +kernel),
    met (.write (hw := ⟨_, (.red (hi := .or _ _ _ _ _) (hr := (reaches_at (by decide +kernel) (by decide +kernel) (by decide +kernel))) (hh := (by decide +kernel)) (hc := (.inr ⟨rfl, rfl⟩)) ..), fun _ => .inl (by decide +kernel), by unfold InBudget; decide +kernel⟩) (hg := (charged_at (by decide +kernel) (by decide +kernel) (by decide +kernel))) ..) (by decide +kernel),
    met (.write (hw := ⟨_, (.red (hi := .xor _ _ _ _ _) (hr := (reaches_at (by decide +kernel) (by decide +kernel) (by decide +kernel))) (hh := (by decide +kernel)) (hc := (.inr ⟨rfl, rfl⟩)) ..), fun _ => .inl (by decide +kernel), by unfold InBudget; decide +kernel⟩) (hg := (charged_at (by decide +kernel) (by decide +kernel) (by decide +kernel))) ..) (by decide +kernel),
    met (.write (hw := ⟨_, (.red (hi := .fadd _ _ _ _) (hr := (reaches_at (by decide +kernel) (by decide +kernel) (by decide +kernel))) (hh := (by decide +kernel)) (hc := (.inr ⟨rfl, rfl⟩)) ..), fun _ => .inl (by decide +kernel), by unfold InBudget; decide +kernel⟩) (hg := (charged_at (by decide +kernel) (by decide +kernel) (by decide +kernel))) ..) (by decide +kernel)⟩

set_option maxRecDepth 400000 in
/-- MemoryEffects, writes that are refused, suppressed, held, behind another, or beyond the budget. -/
theorem witness_MemoryEffects_of_stopped_writes :
    Met MemoryRow poor 1 (.stExt g7 false 0#3 0#3 0#2 16#8 8#8 (.imm 0x10#16)) ∧
    Met MemoryRow poorVersion 1 (.stExt g7 false 0#3 0#3 0#2 16#8 8#8 (.imm 0x10#16)) ∧
    Met MemoryRow suppressing 1 (.stExt g7 false 0#3 0#3 0#2 16#8 8#8 (.imm 0x10#16)) ∧
    Met MemoryRow suspended 1 (.stExt g7 false 0#3 0#3 0#2 16#8 8#8 (.imm 0x10#16)) ∧
    Met MemoryRow secondInLine 1 (.stExt g7 false 0#3 0#3 0#2 16#8 8#8 (.imm 0x10#16)) ∧
    Met MemoryRow crowded 1 (.stExt g7 false 0#3 0#3 0#2 16#8 8#8 (.imm 0x10#16)) ∧
    Met MemoryRow cramped 1 (.stExt g7 false 0#3 0#3 0#2 16#8 8#8 (.imm 0x10#16)) :=
  ⟨met (.refused (hw := ⟨_, (.store (hi := .stExt _ _ _ _ _ _ _ _) (hr := (reaches_at (by decide +kernel) (by decide +kernel) (by decide +kernel))) (hc := (.inr ⟨rfl, rfl⟩)) (hw := (.inl ⟨rfl, rfl⟩)) ..), fun _ => .inl (by decide +kernel), by unfold InBudget; decide +kernel⟩) (hn := ⟨(by decide +kernel), (by decide +kernel)⟩) (hc := refused_at (by decide +kernel)) (hu := (by decide +kernel)) ..) (by decide +kernel),
    met (.refusedVersion (hw := ⟨_, (.store (hi := .stExt _ _ _ _ _ _ _ _) (hr := (reaches_at (by decide +kernel) (by decide +kernel) (by decide +kernel))) (hc := (.inr ⟨rfl, rfl⟩)) (hw := (.inl ⟨rfl, rfl⟩)) ..), fun _ => .inl (by decide +kernel), by unfold InBudget; decide +kernel⟩) (hn := ⟨(by decide +kernel), (by decide +kernel)⟩) (hc := refused_at (by decide +kernel)) (hu := (by decide +kernel)) ..) (by decide +kernel),
    met (.suppressed (hw := ⟨_, (.store (hi := .stExt _ _ _ _ _ _ _ _) (hr := (reaches_at (by decide +kernel) (by decide +kernel) (by decide +kernel))) (hc := (.inr ⟨rfl, rfl⟩)) (hw := (.inl ⟨rfl, rfl⟩)) ..), fun _ => .inl (by decide +kernel), by unfold InBudget; decide +kernel⟩) (hs := (by decide +kernel)) ..) (by decide +kernel),
    met (.chargeHeld (hw := ⟨_, (.store (hi := .stExt _ _ _ _ _ _ _ _) (hr := (reaches_at (by decide +kernel) (by decide +kernel) (by decide +kernel))) (hc := (.inr ⟨rfl, rfl⟩)) (hw := (.inl ⟨rfl, rfl⟩)) ..), fun _ => .inl (by decide +kernel), by unfold InBudget; decide +kernel⟩) (hn := ⟨(by decide +kernel), (by decide +kernel)⟩) (hc := pair_at (by decide +kernel)) ..) (by decide +kernel),
    met (.behind (hw := ⟨_, (.store (hi := .stExt _ _ _ _ _ _ _ _) (hr := (reaches_at (by decide +kernel) (by decide +kernel) (by decide +kernel))) (hc := (.inr ⟨rfl, rfl⟩)) (hw := (.inl ⟨rfl, rfl⟩)) ..), fun _ => .inl (by decide +kernel), by unfold InBudget; decide +kernel⟩) (hs := (by decide +kernel)) (hn := (by decide +kernel)) ..) (by decide +kernel),
    met (.queueFull (hw := (.store (hi := .stExt _ _ _ _ _ _ _ _) (hr := (reaches_at (by decide +kernel) (by decide +kernel) (by decide +kernel))) (hc := (.inr ⟨rfl, rfl⟩)) (hw := (.inl ⟨rfl, rfl⟩)) ..)) (hl := by unfold Room; decide +kernel) ..) (by decide +kernel),
    met (.writeOver (hw := (.store (hi := .stExt _ _ _ _ _ _ _ _) (hr := (reaches_at (by decide +kernel) (by decide +kernel) (by decide +kernel))) (hc := (.inr ⟨rfl, rfl⟩)) (hw := (.inl ⟨rfl, rfl⟩)) ..)) (hl := fun _ => .inl (by decide +kernel)) (ho := ⟨(by decide +kernel), (by decide +kernel)⟩) (hc := commit_at (by decide +kernel)) (hg := (charged_at (by decide +kernel) (by decide +kernel) (by decide +kernel))) ..) (by decide +kernel)⟩

set_option maxRecDepth 400000 in
/-- MemoryEffects, accesses that meet a cause: misaligned, unmapped, an atomic no host takes, a locked range, with the page gone, held by a hand-over. -/
theorem witness_MemoryEffects_of_stops :
    Met MemoryRow one 1 (.stExt g7 false 0#3 0#3 0#2 16#8 8#8 (.imm 0x11#16)) ∧
    Met MemoryRow astray 1 (.ld false 16#8 8#8 0x10#7) ∧
    Met MemoryRow hosted 1 (.atomMin g7 false true 7#3 16#8 8#8 (.reg 24#8)) ∧
    Met MemoryRow guarded 1 (.ld false 16#8 8#8 0x10#7) ∧
    Met MemoryRow guardedGone 1 (.ldz g7 0#3 0#2 16#8 1#3 8#8 (.imm 0x10#16)) ∧
    Met MemoryRow handedOver 1 (.ld false 16#8 8#8 0x10#7) ∧
    Met MemoryRow one 1 (.ldsExt g7 0#3 16#8 8#8 (.imm 0x11#16)) ∧
    Met MemoryRow one 1 (.stsExt g7 0#3 16#8 8#8 (.lit 0x40000#32)) ∧
    Met MemoryRow absentLine 1 (.lds false 16#8 8#8 0x10#7) ∧
    Met MemoryRow surrendered 1 (.ldz g7 0#3 0#2 16#8 1#3 8#8 (.imm 0x10#16)) ∧
    Met MemoryRow surrendered 1 (.pgreq g7 false 1#3 8#8 (.imm 0x10#16)) ∧
    Met MemoryRow elsewhere 1 (.pgreq g7 false 1#3 8#8 (.imm 0x10#16)) ∧
    Met MemoryRow elsewhere 1 (.pgreq g7 true 1#3 8#8 (.imm 0x10#16)) :=
  ⟨met (.stops (hi := .store _ _ _ _ _ _ (.stExt _ _ _ _ _ _ _ _)) (hs := .unaligned (by decide +kernel)) ..) (by decide +kernel),
    met (.stops (hi := .load _ _ _ _ (.ld _ _ _ _)) (hs := .untranslated _ 0x04 (by decide +kernel) (pair_at (by decide +kernel)) (by decide +kernel)) ..) (by decide +kernel),
    met (.stops (hi := .atom _ _ _ _ _ _ _ _ _ (.min _ _ _ _ _ _ _)) (hs := .hostAtomic _ _ _ _ (by decide +kernel) (ok_at (by decide +kernel)) (by decide +kernel)) ..) (by decide +kernel),
    met (.stops (hi := .load _ _ _ _ (.ld _ _ _ _)) (hs := .locked _ _ _ _ _ _ _ (by decide +kernel) (ok_at (by decide +kernel)) (by decide +kernel) (lock_at (by decide +kernel))) ..) (by decide +kernel),
    met (.stops (hi := .zero _ _ _ _ _ _ _) (hs := .lockedGone _ 0x07 _ _ _ (by decide +kernel) rfl (.inr rfl) (pair_at (by decide +kernel)) (lock_at (by decide +kernel))) ..) (by decide +kernel),
    met (.stops (hi := .load _ _ _ _ (.ld _ _ _ _)) (hs := .held _ (by decide +kernel) (pair_at (by decide +kernel))) ..) (by decide +kernel),
    met (.padUnaligned (hi := .load _ _ _ _ (.ldsExt _ _ _ _ _)) (h := (by decide +kernel)) ..) (by decide +kernel),
    met (.padOutside (hi := .store _ _ _ _ (.stsExt _ _ _ _ _)) (h := (by decide +kernel)) (ho := (by decide +kernel)) ..) (by decide +kernel),
    met (.padAbsent (hi := .load _ _ _ _ (.lds _ _ _ _)) (h := (by decide +kernel)) (ho := (by decide +kernel)) (hp := (by decide +kernel)) ..) (by decide +kernel),
    met (.ldzAbsent (hr := ⟨(by decide +kernel), (by decide +kernel), 0x07, .inr rfl, pair_at (by decide +kernel)⟩) ..) (by decide +kernel),
    met (.pgreqGone (h := pair_at (by decide +kernel)) ..) (by decide +kernel),
    met (.pgreqAsks (h := pair_at (by decide +kernel)) ..) (by decide +kernel),
    met (.pgreqBlocks (h := pair_at (by decide +kernel)) ..) (by decide +kernel)⟩

set_option maxRecDepth 20000 in
/-- KilnEffects. -/
theorem witness_KilnEffects :
    Met KilnRow one 1 (.rsvqFree g7 8#4 16#8) ∧
    Met KilnRow one 1 (.rsvqPend g7 8#4 16#8) ∧
    Met KilnRow one 1 (.rsvqNominal g7 0#4 16#8) ∧
    Met KilnRow one 1 (.rsvqSurr g7 0#4 16#8) ∧
    Met KilnRow one 1 (.balq g7 16#8) ∧
    Met KilnRow one 1 (.blksz g7 false 16#8 8#8 (.imm 0x10#16)) ∧
    Met KilnRow one 1 (.blksz g7 true 16#8 8#8 (.imm 0x10#16)) ∧
    Met KilnRow one 1 (.blkfill g7 8#8 (.imm 0x400#16) 255#8) :=
  ⟨met (.free _ _ _ _ _) (by decide +kernel),
    met (.pend _ _ _ _ _) (by decide +kernel),
    met (.nominal _ _ _ _ _) (by decide +kernel),
    met (.surr _ _ _ _ _) (by decide +kernel),
    met (.balqNone (h := (by decide +kernel)) ..) (by decide +kernel),
    met (.blksz (h := ok_at (by decide +kernel)) (hx := rfl) (hr := (by decide +kernel)) ..) (by decide +kernel),
    met (.blkszWb (h := ok_at (by decide +kernel)) (hx := rfl) (hr := (by decide +kernel)) ..) (by decide +kernel),
    met (.blkfill (hr := (reaches_at (by decide +kernel) (by decide +kernel) (by decide +kernel))) (hl := (by decide +kernel)) (hk := ⟨(by decide +kernel), _, committed_at (by decide +kernel), true_at (by decide +kernel)⟩) ..) (by decide +kernel)⟩

set_option maxRecDepth 400000 in
/-- KilnEffects, a page surrendered, a page surrendered before, a page reclaimed, a request open. -/
theorem witness_KilnEffects_on_pages :
    Met KilnRow paged 1 (.pgsurr g7 8#8 (.lit 0x40000000#32)) ∧
    Met KilnRow paged 1 (.pgsurr g7 8#8 (.lit 0x40010000#32)) ∧
    Met KilnRow paged 1 (.pgrecl g7 8#8 (.lit 0x40010000#32)) ∧
    Met KilnRow paged 1 (.balq g7 16#8) :=
  ⟨met (.pgsurr (hl := leaf_at (by decide +kernel)) (hn := (by decide +kernel)) (hk := ⟨(by decide +kernel), _, committed_at (by decide +kernel), true_at (by decide +kernel)⟩) ..) (by decide +kernel),
    met (.pgsurrDone (hl := leaf_at (by decide +kernel)) (hn := (by decide +kernel)) ..) (by decide +kernel),
    met (.pgrecl (hl := leaf_at (by decide +kernel)) (hk := ⟨(by decide +kernel), _, committed_at (by decide +kernel), true_at (by decide +kernel)⟩) (hw := leafIs_at (by decide +kernel)) (hr := state_at (by decide +kernel)) ..) (by decide +kernel),
    met (.balqOpen (t := 5000) (h := (by decide +kernel)) ..) (by decide +kernel)⟩

set_option maxRecDepth 400000 in
/-- KilnEffects: block sizes of other places, a fill that stops, one of a place that is not local, suppressed ones, and page operations refused. -/
theorem witness_KilnEffects_that_stop :
    Met KilnRow hosted 1 (.blksz g7 false 16#8 8#8 (.imm 0x10#16)) ∧
    Met KilnRow surrendered 1 (.blksz g7 false 16#8 8#8 (.imm 0x10#16)) ∧
    Met KilnRow astray 1 (.blksz g7 false 16#8 8#8 (.imm 0x10#16)) ∧
    Met KilnRow one 1 (.blkfill g7 8#8 (.imm 0x10#16) 255#8) ∧
    Met KilnRow hosted 1 (.blkfill g7 8#8 (.imm 0x400#16) 255#8) ∧
    Met KilnRow suppressing 1 (.blkfill g7 8#8 (.imm 0x400#16) 255#8) ∧
    Met KilnRow one 1 (.pgsurr g7 8#8 (.imm 0x10#16)) ∧
    Met KilnRow astray 1 (.pgrecl g7 8#8 (.imm 0#16)) ∧
    Met KilnRow suppressingPaged 1 (.pgsurr g7 8#8 (.lit 0x40000000#32)) :=
  ⟨met (.blkszRemote (h := ok_at (by decide +kernel)) (hx := rfl) (hr := (by decide +kernel)) ..) (by decide +kernel),
    met (.blkszAbsent (hk := .inr rfl) (h := pair_at (by decide +kernel)) ..) (by decide +kernel),
    met (.blkszTraps (k := 0x04) (hk := (by decide +kernel)) (h := pair_at (by decide +kernel)) ..) (by decide +kernel),
    met (.blkfillStops (hs := .unaligned (by decide +kernel)) ..) (by decide +kernel),
    met (.blkfillFar (hr := (reaches_at (by decide +kernel) (by decide +kernel) (by decide +kernel))) (hl := (by decide +kernel)) (hk := ⟨(by decide +kernel), _, committed_at (by decide +kernel), true_at (by decide +kernel)⟩) ..) (by decide +kernel),
    met (.blkfillSuppressed (hr := (reaches_at (by decide +kernel) (by decide +kernel) (by decide +kernel))) (hs := (by decide +kernel)) ..) (by decide +kernel),
    met (.pageStops (hi := .surr _ _ _) (hs := .unaligned (by decide +kernel)) ..) (by decide +kernel),
    met (.pageStops (hi := .recl _ _ _) (hs := .unmapped (by decide +kernel) (by decide +kernel) (by decide +kernel) (by decide +kernel)) ..) (by decide +kernel),
    met (.pageSuppressed (hi := .surr _ _ _) (h := leaf_at (by decide +kernel)) (hn := .inr (by decide +kernel)) (hs := (by decide +kernel)) ..) (by decide +kernel)⟩

set_option maxRecDepth 20000 in
/-- RayEffects: a box record of zeros, a triangle of zeros, a billet for bin 0. -/
theorem witness_RayEffects :
    Met RayRow one 1 (.boxt g7 16#8 8#8 24#8) ∧
    Met RayRow one 1 (.trit g7 false 16#8 8#8 24#8 4#3) ∧
    Met RayRow one 1 (.rebin g7 24#8 8#8 (.imm 4#16)) :=
  ⟨met (.boxt (h := exc_at (by decide +kernel)) ..) (by decide +kernel),
    met (.tritMiss (h := exc_at (by decide +kernel)) (hm := (by decide +kernel)) ..) (by decide +kernel),
    met (.rebin (hs := (by decide +kernel)) (h1 := rfl) (hu := (by decide +kernel)) (hd := true_at (by decide +kernel)) ..) (by decide +kernel)⟩

set_option maxRecDepth 400000 in
/-- CopyEffects: a copy of 32 words to the scratchpad, a wait that is met, a chain at offset 0, a handle that is free. -/
theorem witness_CopyEffects :
    Met CopyRow shaped 1 (.tcopy g7 0#2 0#2 4#3 16#8 8#8 24#8 32#8) ∧
    Met CopyRow shaped 1 (.ctwait g7 true 2#3 16#8 24#8 (.imm 0#16)) ∧
    Met CopyRow shaped 1 (.ctwait g7 false 4#3 16#8 24#8 (.imm 0#16)) ∧
    Met CopyRow shaped 1 (.ctwait g7 false 4#3 16#8 24#8 (.imm 1#16)) ∧
    Met CopyRow shaped 1 (.chain g7 0#1 4#3 16#8 24#8 32#8) ∧
    Met CopyRow shaped 1 (.chkill g7 24#8) :=
  ⟨met (.tcopy (h := ⟨(by decide +kernel), (by decide +kernel), ⟨_, _, _, _, true_at (by decide +kernel), committed_at (by decide +kernel), (by decide +kernel), exc_at (by decide +kernel), some_at (by decide +kernel)⟩, (by decide +kernel)⟩) (hs := ⟨(by decide +kernel), none_late (by decide +kernel), (by decide +kernel), fun _ => (by decide +kernel), (by decide +kernel), _, _, _, pair_at (by decide +kernel), fun h => absurd h (by decide +kernel), taken_at (by decide +kernel), rfl⟩) ..) (by decide +kernel),
    met (.ctwaitPad (h := ⟨(by decide +kernel), (by decide +kernel), (by decide +kernel)⟩) (hv := (by decide +kernel)) ..) (by decide +kernel),
    met (.ctwait (hr := (reaches_at (by decide +kernel) (by decide +kernel) (by decide +kernel))) (hq := some_at (by decide +kernel)) (hv := (by decide +kernel)) ..) (by decide +kernel),
    met (.ctwaitNot (hr := (reaches_at (by decide +kernel) (by decide +kernel) (by decide +kernel))) (hq := some_at (by decide +kernel)) (hv := (by decide +kernel)) ..) (by decide +kernel),
    met (.chain (k := 0) (hd := true_at (by decide +kernel)) (ha := (by decide +kernel)) (hw := (by decide +kernel)) (hc := (by decide +kernel)) (hp := pair_at (by decide +kernel)) (hm := .inl ⟨(by decide +kernel), commit_at (by decide +kernel)⟩) (hf := (by decide +kernel)) ..) (by decide +kernel),
    met (.chkillGone (uses := 0) (h := (by decide +kernel)) ..) (by decide +kernel)⟩

set_option maxRecDepth 20000 in
/-- CopyEffects, CHKILL of a running chain. -/
theorem witness_CopyEffects_of_a_chain :
    Met CopyRow chained 1 (.chkill g7 8#8) :=
  met (.chkill (h := some_at (by decide +kernel)) (hh := (by decide +kernel)) (hs := (by decide +kernel)) ..) (by decide +kernel)

set_option maxRecDepth 400000 in
/-- MatrixEffects: the queue takes each command; the first of two signers. -/
theorem witness_MatrixEffects :
    Met MatrixRow bound 1 (.wload g7 0#2 0#2 1#4 8#8 (.imm 256#16) 255#8) ∧
    Met MatrixRow bound 1 (.mma g7 0#7 false false 0#2 false 1#4 2#3 8#8 9#4) ∧
    Met MatrixRow bound 1 (.mmam g7 0#7 false false 0#2 true 1#4 2#3 8#8 9#4 (.imm 0#16)) ∧
    Met MatrixRow bound 1 (.mmam g7 0#7 false false 0#2 false 1#4 2#3 8#8 9#4 (.imm 0#16)) ∧
    Met MatrixRow bound 1 (.aclr g7 2#3) ∧
    Met MatrixRow bound 1 (.ard g7 5#3 16#8 2#3 (.reg 24#8)) ∧
    Met MatrixRow bound 1 (.awr g7 5#3 2#3 16#8 (.reg 24#8)) ∧
    Met MatrixRow bound 1 (.adrain g7 false false true 127#8 0#4 2#3 8#8 (.imm 256#16) 32#8) ∧
    Met MatrixRow bound 1 (.adrain g7 false false false 127#8 0#4 2#3 8#8 (.imm 256#16) 255#8) ∧
    Met MatrixRow bound 1 (.wrel g7) ∧
    Met MatrixRow bound 1 (.mstat g7 true 16#8) :=
  ⟨met (.wload (ho := ⟨(by decide +kernel), (by decide +kernel)⟩) (hd := true_at (by decide +kernel)) (ha := (by decide +kernel)) (hs := (by decide +kernel)) (ht := (by decide +kernel)) (hc := pair_at (by decide +kernel)) ..) (by decide +kernel),
    met (.mma (hd := true_at (by decide +kernel)) (hs := (.more _ (by decide +kernel) (opt_at (by decide +kernel)) (by decide +kernel) (by decide +kernel))) ..) (by decide +kernel),
    met (.mmamPad (hd := true_at (by decide +kernel)) (ha := (by decide +kernel)) (hw := (by decide +kernel)) (hs := (.more _ (by decide +kernel) (opt_at (by decide +kernel)) (by decide +kernel) (by decide +kernel))) ..) (by decide +kernel),
    met (.mmam (hd := true_at (by decide +kernel)) (ha := (by decide +kernel)) (hc := pair_at (by decide +kernel)) (hs := (.more _ (by decide +kernel) (opt_at (by decide +kernel)) (by decide +kernel) (by decide +kernel))) ..) (by decide +kernel),
    met (.aclr _ _ _ _ ⟨(by decide +kernel), (by decide +kernel)⟩) (by decide +kernel),
    met (.ard _ _ _ _ _ _ _ ⟨(by decide +kernel), (by decide +kernel)⟩) (by decide +kernel),
    met (.awr _ _ _ _ _ _ _ ⟨(by decide +kernel), (by decide +kernel)⟩) (by decide +kernel),
    met (.adrainPad (ho := ⟨(by decide +kernel), (by decide +kernel)⟩) (hd := true_at (by decide +kernel)) (ha := (by decide +kernel)) (ht := (by decide +kernel)) (hr := (by decide +kernel)) (hw := (by decide +kernel)) (hid := (by decide +kernel)) (hco := (by decide +kernel)) (hcl := (by decide +kernel)) ..) (by decide +kernel),
    met (.adrain (ho := ⟨(by decide +kernel), (by decide +kernel)⟩) (hd := true_at (by decide +kernel)) (ha := (by decide +kernel)) (ht := (by decide +kernel)) (hr := (by decide +kernel)) (hp := pair_at (by decide +kernel)) (hg := taken_at (by decide +kernel)) (hid := (by decide +kernel)) (hco := (by decide +kernel)) (hcl := (by decide +kernel)) ..) (by decide +kernel),
    met (.wrel _ _ _ ⟨(by decide +kernel), (by decide +kernel)⟩) (by decide +kernel),
    met (.mstat _ _ _ _ _ ⟨(by decide +kernel), (by decide +kernel)⟩) (by decide +kernel)⟩

set_option maxRecDepth 20000 in
/-- MatrixEffects, the only signer of its declaration. -/
theorem witness_MatrixEffects_last_signer :
    Met MatrixRow boundOne 1 (.mma g7 0#7 false false 0#2 false 1#4 2#3 8#8 9#4) :=
  met (.mma (hd := true_at (by decide +kernel)) (hs := .last _ (by decide +kernel) (opt_at (by decide +kernel)) (by decide +kernel) (by decide +kernel)) ..) (by decide +kernel)

set_option maxRecDepth 20000 in
/-- ExtrapolationEffects. -/
theorem witness_ExtrapolationEffects :
    Met XRow one 1 (.xcfg g7 3#4 2#2 1#3 8#8 (.imm 2#16) 32#8) ∧
    Met XRow one 1 (.xpush g7 1#3 8#8 4#3) ∧
    Met XRow one 1 (.xest g7 16#8 1#3 4#3) ∧
    Met XRow one 1 (.xclr g7 1#3) ∧
    Met XRow one 1 (.xstat g7 16#8 1#3) :=
  ⟨met (.enters _ _ _ _ _ (.xcfg _ _ _ _ _ _ _) (by decide +kernel) (by decide +kernel)) (by decide +kernel),
    met (.enters _ _ _ _ _ (.xpush _ _ _ _) (by decide +kernel) (by decide +kernel)) (by decide +kernel),
    met (.enters _ _ _ _ _ (.xest _ _ _ _) (by decide +kernel) (by decide +kernel)) (by decide +kernel),
    met (.enters _ _ _ _ _ (.xclr _ _) (by decide +kernel) (by decide +kernel)) (by decide +kernel),
    met (.enters _ _ _ _ _ (.xstat _ _ _) (by decide +kernel) (by decide +kernel)) (by decide +kernel)⟩

set_option maxRecDepth 20000 in
/-- TaskEffects: a billet launch with a waiting slot, a free slot and one node. -/
theorem witness_TaskEffects :
    Met TaskRow billeted 1 (.spawn g7 16#8 8#8 24#8 255#8 (.imm 4#16)) ∧
    Met TaskRow billeted 1 (.enqn g7 8#8 (.imm 0#16)) ∧
    Met TaskRow billeted 1 (.jdec g7 16#8 8#8 (.imm 1#16)) ∧
    Met TaskRow billeted 1 (.settle g7) ∧
    Met TaskRow billeted 1 (.taskqPrio g7 16#8 (.reg 24#8)) ∧
    Met TaskRow billeted 1 (.taskqRestart g7 16#8 (.reg 24#8)) ∧
    Met TaskRow billeted 1 (.taskqSettled g7 16#8 (.reg 24#8)) ∧
    Met TaskRow billeted 1 (.taskqVlines g7 16#8 (.reg 24#8)) ∧
    Met TaskRow billeted 1 (.taskqBqueue g7 16#8 (.reg 24#8)) ∧
    Met TaskRow billeted 1 (.taskqNqueue g7 16#8 (.reg 24#8)) ∧
    Met TaskRow billeted 1 (.taskqCursor g7 16#8 (.reg 24#8)) :=
  ⟨met (.spawn (n := 1) (hb := (by decide +kernel)) (hf := (by decide +kernel)) (hr := .inr ⟨(by decide +kernel), true_at (by decide +kernel)⟩) ..) (by decide +kernel),
    met (.enqn (x := ⟨0x10000#64, 0x7000#64, 4, 64, 0, []⟩) (j := 0) (n := 1) (hb := (by decide +kernel)) (hx := (by decide +kernel)) (hr := exc_at (by decide +kernel)) (hj := (by decide +kernel)) (hn := (by decide +kernel)) (hd := .inr ⟨(by decide +kernel), true_at (by decide +kernel)⟩) ..) (by decide +kernel),
    met (.jdec (hb := (by decide +kernel)) (hh := (by decide +kernel)) (hc := committed_at (by decide +kernel)) (hr := .inr ⟨(by decide +kernel), true_at (by decide +kernel)⟩) (hj := jdec_at (by decide +kernel)) ..) (by decide +kernel),
    met (.settle (h := (by decide +kernel)) (hc := committed_at (by decide +kernel)) ..) (by decide +kernel),
    met (.taskq _ _ _ _ _ (.prio _ _ _)) (by decide +kernel),
    met (.taskq _ _ _ _ _ (.restart _ _ _)) (by decide +kernel),
    met (.taskq _ _ _ _ _ (.settled _ _ _)) (by decide +kernel),
    met (.taskq _ _ _ _ _ (.vlines _ _ _)) (by decide +kernel),
    met (.taskq _ _ _ _ _ (.bqueue _ _ _)) (by decide +kernel),
    met (.taskq _ _ _ _ _ (.nqueue _ _ _)) (by decide +kernel),
    met (.taskq _ _ _ _ _ (.cursor _ _ _)) (by decide +kernel)⟩

set_option maxRecDepth 20000 in
/-- SystemEffects. -/
theorem witness_SystemEffects :
    Met SystemRow one 1 (.tlbiPage g7 6#3 8#8 (.imm 1#16)) ∧
    Met SystemRow one 1 (.tlbiVdev g7 6#3 (.imm 1#16)) ∧
    Met SystemRow one 1 (.tlbiVdevn g7 6#3 (.imm 15#16)) ∧
    Met SystemRow one 1 (.tlbiAll g7 6#3 (.imm 1#16)) ∧
    Met SystemRow one 1 (.cflushClean g7 6#3 8#8 (.imm 1024#16)) ∧
    Met SystemRow one 1 (.cflushInv g7 6#3 8#8 (.imm 1024#16)) ∧
    Met SystemRow one 1 (.cflushDiscard g7 6#3 8#8 (.imm 1024#16)) ∧
    Met SystemRow one 1 (.cflushClean g7 6#3 8#8 (.imm 100#16)) :=
  ⟨met (.tlbiPage (hm := (committed_at (by decide +kernel))) (ha := (by decide +kernel)) (hr := true_at (by decide +kernel)) (hd := (true_at (by decide +kernel))) ..) (by decide +kernel),
    met (.tlbiVdev (hm := (committed_at (by decide +kernel))) (hr := true_at (by decide +kernel)) (hd := (true_at (by decide +kernel))) ..) (by decide +kernel),
    met (.tlbiVdevn (hm := (committed_at (by decide +kernel))) (hn := (by decide +kernel)) (hr := true_at (by decide +kernel)) (hd := (true_at (by decide +kernel))) ..) (by decide +kernel),
    met (.tlbiAll (hm := (committed_at (by decide +kernel))) (hr := true_at (by decide +kernel)) (hd := (true_at (by decide +kernel))) ..) (by decide +kernel),
    met (.cflush (hm := (committed_at (by decide +kernel))) (h := .clean _ _ _ _) (ha := (by decide +kernel)) (hn := (by decide +kernel)) (hp := okay_at (by decide +kernel)) (hr := true_at (by decide +kernel)) ..) (by decide +kernel),
    met (.cflush (hm := (committed_at (by decide +kernel))) (h := .inv _ _ _ _) (ha := (by decide +kernel)) (hn := (by decide +kernel)) (hp := okay_at (by decide +kernel)) (hr := true_at (by decide +kernel)) ..) (by decide +kernel),
    met (.cflush (hm := (committed_at (by decide +kernel))) (h := .discard _ _ _ _) (ha := (by decide +kernel)) (hn := (by decide +kernel)) (hp := okay_at (by decide +kernel)) (hr := true_at (by decide +kernel)) ..) (by decide +kernel),
    met (.cflushBad (hm := (committed_at (by decide +kernel))) (h := .clean _ _ _ _) (ha := (by decide +kernel)) ..) (by decide +kernel)⟩

set_option maxRecDepth 400000 in
/-- SystemEffects: a hand-over, with a counter that can be written, and one of a stack there is not. -/
theorem witness_SystemEffects_on_pages :
    Met SystemRow switching 1 (.stkho g7 0#1 6#3 16#8 (.imm 3#16)) ∧
    Met SystemRow switching 1 (.stkho g7 0#1 6#3 16#8 (.imm 8#16)) :=
  ⟨met (.stkho (hm := (committed_at (by decide +kernel))) (hc := counter_at (by decide +kernel) (by decide +kernel)) (hb := (by decide +kernel)) (hl := (by decide +kernel)) (hr := true_at (by decide +kernel)) ..) (by decide +kernel),
    met (.stkhoBad (hm := (committed_at (by decide +kernel))) (hc := counter_at (by decide +kernel) (by decide +kernel)) (hb := (by decide +kernel)) ..) (by decide +kernel)⟩

set_option maxRecDepth 20000 in
/-- SystemEffects, a switch of core 0. -/
theorem witness_SystemEffects_of_switch : Met SystemRow switching 1 (.ctxsw g7 false 6#3 16#8 8#8 (.reg 24#8)) :=
  ⟨ctxsw_of switches_of_switching, alone_of (by decide +kernel)⟩

/-! ## Witnesses: events -/

/-- An event row holds of the event at a state. -/
abbrev Occurs (R : Instr → State → State → Prop) (s : State) (i : Instr) : Prop := ∃ t, R i s t
/-- `one` with virtual device 0 in a state of its tenancy. -/
def tenant (x : Tenant) : State := one.modVdev 0 fun v => { v with state := x }
/-- Thread 0 with one performed result outstanding. -/
def performed : State := oneWith fun a => { a with outst := [⟨3, true, false, [(.reg 5, 7#32)], 0#5⟩] }
/-- Thread 0 halted at 0x10000. -/
def halted : State :=
  (oneWith fun a => { a with status := .halted, halt := some ⟨0#32, 0#64, 0#32, 0x10000#64, none⟩ }).modGroup 0 fun x =>
    { x with masks := x.masks.set 0 (some 1#128) }
/-- A chain at its normal end. -/
def chainOver : Chain := { newChain one one 1 0 4 32#8 0 with ending := some 1#64 }
/-- A core with it in slot 0. -/
def ended : State :=
  chained.modCore 0 fun c => { c with chains := c.chains.set 0 (1, some chainOver) }
/-- A queue in system memory, of privilege 0, with one word of packets and none written. -/
def packets (d : QState) : State :=
  { one with queues := [{ newQueue 0 [] 0 with base := 0x40000000#64, log2 := 6, state := d }] }
theorem managing {s : State} {n q : Nat} (h : (8 ≤ n ∧ n ≤ 11) ∧ q < s.queues.length ∧ n % 2 = partOf (s.queue q).vd) : Manages s n q :=
  ⟨h.1, h.2.1, h.2.2⟩
/-- The team's only share has retired. -/
def finished (settled : Bool) : State :=
  (one.modShare 0 fun x => { x with state := .retired }).modTask 0 fun x => { x with settled := settled }

/-- ThreadEvents: a result, the choice of a fragment, the end of a thread, a held charge. -/
theorem witness_ThreadEvents :
    Occurs ThreadEvent performed (.resultWriteback 1 0) ∧
    Occurs ThreadEvent one (.sliceNomination (.group 0)) ∧
    Occurs ThreadEvent one (.threadKill 1) ∧
    Occurs ThreadEvent one (.heldChargeDecided 1) :=
  ⟨⟨_, .resultWriteback _ _ ⟨3, true, false, [(.reg 5, 7#32)], 0#5⟩ _ (by decide +kernel) (by decide +kernel)⟩, ⟨_, .nominate _ _ _ _ (pair_at rfl)⟩, ⟨_, .kill _ _ (by decide +kernel)⟩, ⟨_, .heldCharge _ _ (by decide +kernel) (by decide +kernel)⟩⟩

/-- EngineEvents: a reset of the matrix engine and its end, an extrapolation entry, a WREL, the end of a chain. -/
theorem witness_EngineEvents :
    Occurs EngineEvent one (.matrixEngineReset 0) ∧
    Occurs EngineEvent one (.matrixResetEnd 0) ∧
    Occurs EngineEvent (one.modCore 0 fun k => { k with xQ := [[(1, .clr 3#3)]] }) (.extrapolationEntry 0) ∧
    Occurs EngineEvent (one.modCore 0 fun k => { k with mxQ := [⟨0, 0, .wrel, 0⟩] }) (.tilePathEntry 0 0) ∧
    Occurs EngineEvent ended (.chainEnd (.core 0 0)) :=
  ⟨⟨_, .engineReset _ _ (by decide +kernel) (by decide +kernel)⟩, ⟨_, .engineResetEnd _ _⟩, ⟨_, .extrapolation _ _ [(1, .clr 3#3)] [] (by decide +kernel)⟩, ⟨_, .wrel _ _ _ ⟨0, 0, .wrel, 0⟩ (by decide +kernel) (by decide +kernel) rfl⟩, ⟨_, .chainEnd (x := chainOver) (v := 1#64) (h := 0) (t := 0) (hx := (by decide +kernel)) (he := rfl) (hs := by decide +kernel) (ht := by decide +kernel) (hg := by decide +kernel)
      (hh := by decide +kernel) (hw := by decide +kernel) (hp := by decide +kernel) (hb := commit_at (by decide +kernel)) ..⟩⟩

/-- TaskEvents: a team's end, a commit asked for, a watchdog's expiry, a walk and an ageing tick of the scheduler. -/
theorem witness_TaskEvents :
    Occurs TaskEvent (finished true) (.teamRetire 0) ∧
    Occurs TaskEvent (finished false) (.commitRequest 0) ∧
    Occurs TaskEvent (one.modLaunch 0 fun l => { l with started := true, idleNs := 2 ^ 60 }) (.launchWatchdogExpiry 0) ∧
    Occurs TaskEvent one (.cordScheduleWalk 0) ∧
    Occurs TaskEvent one (.cordAgeingTick 0) :=
  ⟨⟨_, .teamRetire _ _ (by decide +kernel) (by decide +kernel) (by unfold SharesRetired; decide +kernel)⟩,
    ⟨_, .commitRequest _ _ (by decide +kernel) (by decide +kernel) (by unfold SharesRetired; decide +kernel) (by decide +kernel)⟩,
    ⟨_, .watchdog (h := by decide +kernel) (he := by decide +kernel) (hw := by decide +kernel) (hv := by decide +kernel) ..⟩, ⟨_, .cordWalk _ _⟩, ⟨_, .cordAgeing _ _⟩⟩

/-- MemoryEvents: a writeback, a grant's move, the lift of a suspension, a deadline, a loan. -/
theorem witness_MemoryEvents :
    Occurs MemoryEvent one (.blockWriteback 5) ∧
    Occurs MemoryEvent one (.grantMove 0 3) ∧
    Occurs MemoryEvent one (.chargePathLift 0) ∧
    Occurs MemoryEvent (one.modBalloon 0 fun b => { b with due := some 0 }) (.balloonDeadlineExpiry 0) ∧
    Occurs MemoryEvent one (.loanAgreement 3 1 60) :=
  ⟨⟨_, .writeback _ _ (by decide +kernel) (by decide +kernel)⟩, ⟨_, .grantMove _ _ _⟩, ⟨_, .chargeLift _ _⟩, ⟨_, .balloonExpiry _ _ 0 (by decide +kernel) (by decide +kernel) (by decide +kernel)⟩,
    ⟨_, .loanAgreement (hu := by decide +kernel) (hs := by decide) (hb := by decide) (hd := by decide +kernel) (h1 := by decide) (h2 := by decide)
      (hh := by decide +kernel) (hl := by decide +kernel) (hm := rfl) (he := by decide +kernel) ..⟩⟩

/-- SliceEvents: an end that is due, the end of a spill, a change of the carve-out and its effect. -/
theorem witness_SliceEvents :
    Occurs SliceEvent (one.modSlice 0 fun x => { x with next := some (0, true, 0) }) (.sliceEnd 0) ∧
    Occurs SliceEvent one (.spillComplete 0) ∧
    Occurs SliceEvent one (.carveoutChange 0 6) ∧
    Occurs SliceEvent (one.modCore 0 fun k => { k with waysNext := some 6 }) (.carveoutChangeEffect 0) :=
  ⟨⟨_, .sliceEnd _ _ (by decide +kernel) (by decide +kernel)⟩, ⟨_, .spillComplete _ _ (by decide +kernel)⟩, ⟨_, .carveout _ _ _ (by decide +kernel)⟩,
    ⟨_, .carveoutEffect _ _ 6 (by decide +kernel) (by decide +kernel)⟩⟩

/-- QueueEvents: a message taken and one dropped, a descriptor refused, a queue reset, destroyed and gone, kindling. -/
theorem witness_QueueEvents :
    Occurs QueueEvent one (.mailboxMessage 7 11 (11#8 :: List.replicate 63 0#8)) ∧
    Occurs QueueEvent one (.mailboxMessage 7 11 (10#8 :: List.replicate 63 0#8)) ∧
    Occurs QueueEvent one (.queueCreate 0 []) ∧
    Occurs QueueEvent (packets .error) (.queueReset ⟨10, 0⟩ 0) ∧
    Occurs QueueEvent (packets .active) (.queueDestroy ⟨10, 0⟩) ∧
    Occurs QueueEvent (packets .destroying) (.queueDestroyComplete 0) ∧
    Occurs QueueEvent one (.kindling 0) :=
  ⟨⟨_, .message (ht := by decide) (hs := by decide) (hn := by decide) (hl := by decide) (hb := by decide +kernel) ..⟩, ⟨_, .dropped _ _ _ _ (by decide +kernel) (by decide +kernel)⟩,
    ⟨_, .refused _ _ _ (by decide +kernel)⟩, ⟨_, .reset _ _ _ _ (by decide +kernel) (by decide +kernel) (managing (by decide +kernel))⟩, ⟨_, .destroy _ _ _ (by decide +kernel) (managing (by decide +kernel))⟩,
    ⟨_, .destroyed _ _ (by decide +kernel) (by decide +kernel)⟩, ⟨_, .kindling _ _⟩⟩

/-- TenantEvents: a grant at its limit, each step of a pause, a resumption, a reset, a clearing and a departure. -/
theorem witness_TenantEvents :
    Occurs TenantEvent one (.vdevDescriptor 0 []) ∧
    Occurs TenantEvent (tenant .ready) (.tenantPause 0) ∧
    Occurs TenantEvent (tenant .frozen) (.tenantPause 0) ∧
    Occurs TenantEvent (tenant .paused) (.tenantResume 0) ∧
    Occurs TenantEvent (tenant .ready) (.tenantReset 0) ∧
    Occurs TenantEvent (tenant .paused) (.tenantReset 0) ∧
    Occurs TenantEvent (tenant .frozen) (.tenantReset 0) ∧
    Occurs TenantEvent (tenant .frozen) (.tenantClear 0) ∧
    Occurs TenantEvent (tenant .clearing) (.clearingDone 0) ∧
    Occurs TenantEvent (tenant .paused) (.tenantExport 0 11) ∧
    Occurs TenantEvent (tenant .frozen) (.tenantExport 0 11) ∧
    Occurs TenantEvent (tenant .paused) (.tenantUndefine 0) :=
  ⟨⟨_, .refused _ _ _ (by decide +kernel)⟩, ⟨_, .pause _ _ (by decide +kernel)⟩, ⟨_, .pauseHeld _ _ (by decide +kernel)⟩, ⟨_, .resume _ _ (by decide +kernel) (by decide +kernel)⟩,
    ⟨_, .reset _ _ (by decide +kernel)⟩, ⟨_, .resetPaused _ _ (by decide +kernel)⟩, ⟨_, .resetMerged _ _ (by decide +kernel)⟩, ⟨_, .clear _ _ (by decide +kernel) (by decide +kernel) (by decide +kernel)⟩,
    ⟨_, .clearingDone _ _ (by decide +kernel) (by decide +kernel)⟩, ⟨_, .exported _ _ _ _ _ (by decide +kernel) (by decide +kernel) (pair_at rfl) (by decide +kernel)⟩,
    ⟨_, .exportHeld _ _ _ (by decide +kernel)⟩, ⟨_, .undefine _ _ (by decide +kernel) (by decide +kernel)⟩⟩

/-- PlatformEvents: a link's states, alarms, throttling, a boot, time and telemetry. -/
theorem witness_PlatformEvents :
    Occurs PlatformEvent State.reset (.linkEnable 0) ∧
    Occurs PlatformEvent (State.reset.setLink 17 .training) (.linkTrained 17) ∧
    Occurs PlatformEvent (State.reset.setLink 17 .up) (.linkLostLock 17) ∧
    Occurs PlatformEvent (State.reset.setLink 17 .retraining) (.linkRetrained 17) ∧
    Occurs PlatformEvent State.reset (.hearthCoreTimeout 7) ∧
    Occurs PlatformEvent State.reset (.supervisionTimerExpiry true) ∧
    Occurs PlatformEvent State.reset (.supervisionTimerExpiry false) ∧
    Occurs PlatformEvent State.reset (.memoryError .hearth) ∧
    Occurs PlatformEvent State.reset (.softError 7 63) ∧
    Occurs PlatformEvent State.reset .securityAlarmL2 ∧
    Occurs PlatformEvent State.reset .securityAlarmL3 ∧
    Occurs PlatformEvent State.reset .dieLinkLoss ∧
    Occurs PlatformEvent State.reset (.thermalThrottle true) ∧
    Occurs PlatformEvent State.reset .junctionOvertemp ∧
    Occurs PlatformEvent { State.reset with now := 86400000000000 } .telemetryRecord ∧
    Occurs PlatformEvent State.reset (.telemetryRequest 0) :=
  ⟨⟨_, .enable _ _ (by decide +kernel)⟩, ⟨_, .trained _ _ (by decide +kernel) (by decide +kernel)⟩, ⟨_, .lostLock _ _ (by decide +kernel)⟩,
    ⟨_, .retrained _ _ (by decide +kernel) (by decide +kernel)⟩, ⟨_, .hearthTimeout _ _ (by decide +kernel) (by decide +kernel)⟩,
    ⟨_, .supervisionFirst _ fun _ h => by cases h⟩, ⟨_, .supervisionFailed _⟩, ⟨_, .errorHearth _⟩, ⟨_, .softError _ _ _ (by decide +kernel)⟩,
    ⟨_, .alarm2 _ fun _ h => by cases h⟩, ⟨_, .alarm3 _⟩, ⟨_, .dieLink _⟩, ⟨_, .throttleUp _⟩, ⟨_, .overtemp _ (by decide +kernel)⟩,
    ⟨_, .telemetry _ (by decide +kernel)⟩, ⟨_, .telemetryRequest _ _ _ rfl⟩⟩

/-- Cores that have been released. -/
def awake : State := one.modHearth fun h => { h with booted := true }
/-- What `Admitted` asks of a state that holds no access, as a Bool. -/
theorem admitted {s : State} {who pa n : Nat} {reads : Bool} (h : (s.reaches (s.partOfWho who) pa n &&
    !s.holdsOutside (s.partOfWho who) pa n reads && s.store.heldOps == []) = true) : Admitted s who pa n reads := by
  simp only [Bool.and_eq_true, Bool.not_eq_true', beq_iff_eq] at h
  exact ⟨h.1.1, h.1.2, fun x hx => by simp [h.2] at hx⟩
/-- What the halted thread's record says. -/
abbrev atHalt : HaltRec := ⟨0#32, 0#64, 0#32, 0x10000#64, none⟩
/-- OutsideEvents: accesses of core 31 and of the host, and the debugger at a halted thread. -/
theorem witness_OutsideEvents :
    Occurs OutsideEvent awake (.applicationCoreAccess 15 (.load 0 4)) ∧
    Occurs OutsideEvent halted (.debugAccess 1 (.readReg 254#8)) ∧
    Occurs OutsideEvent halted (.debugAccess 1 (.writeReg 8#8 7#32)) ∧
    Occurs OutsideEvent halted (.debugAccess 1 (.writePc 0x10080#64)) ∧
    Occurs OutsideEvent halted (.debugResume 1) ∧
    Occurs OutsideEvent halted (.debugStep 1) ∧
    Occurs OutsideEvent halted (.debugKill 1) ∧
    Occurs OutsideEvent halted (.debugDropMask 1 0#4) :=
  ⟨⟨_, .coreLoad _ _ _ _ ⟨(by decide +kernel), (by decide +kernel)⟩ (admitted (by decide +kernel))⟩, ⟨_, .readReg _ _ _ (by decide +kernel) (by decide +kernel)⟩, ⟨_, .writeReg _ _ _ _ (by decide +kernel) (by decide +kernel)⟩,
    ⟨_, .writePc _ _ _ atHalt (by decide +kernel) (by decide +kernel)⟩, ⟨_, .goOn _ _ atHalt (by decide +kernel) (by decide +kernel) rfl⟩, ⟨_, .stepOn _ _ atHalt (by decide +kernel) (by decide +kernel) rfl⟩,
    ⟨_, .kill _ _ (by decide +kernel) (by decide +kernel)⟩, ⟨_, .dropMask _ _ _ (by decide +kernel) (by decide +kernel) (by decide +kernel)⟩⟩

/-! ## Witnesses: events, further rows -/

/-- ThreadEvents: a store that drains, an STS that is written, a W park that ends. -/
theorem witness_ThreadEvents_of_queues :
    Occurs ThreadEvent (one.setSq 1 [pendingStore]) (.storeQueueDrain (.group 0)) ∧
    Occurs ThreadEvent (one.modCore 0 fun c => { c with fwd := c.fwd.set 0 [⟨1, 0, 0, [1#8]⟩] }) (.stsBankWrite 0 0) ∧
    Occurs ThreadEvent (oneWith fun a => { a with status := .parked (.wmark 3) }) (.parkRelease 1) :=
  ⟨⟨_, .storeQueueDrain (ag := 1) (e := pendingStore) (rest := []) (ho := by decide +kernel) (hq := by decide +kernel) (hc := by decide +kernel) ..⟩,
    ⟨_, .stsBankWrite (e := ⟨1, 0, 0, [1#8]⟩) (rest := []) (h := by decide +kernel) ..⟩,
    ⟨_, .wPointMet (enc := 3) (h := by decide +kernel) (hr := by decide +kernel) (ho := by decide +kernel) (hs := by decide +kernel) ..⟩⟩

/-- The chain of `chained` with SENDs that are not answered, or told to stop. -/
def chaining (sends : List (Nat × DWord)) (stop : Bool) : Chain := { newChain one one 1 0 4 32#8 0 with sends := sends, stop := stop }
def sending (sends : List (Nat × DWord)) (stop : Bool) : State :=
  chained.modCore 0 fun c => { c with chains := c.chains.set 0 (1, some (chaining sends stop)) }
/-- EngineEvents: a copy that starts, SENDs answered, and one that a lost link ends, a chain that stops, a tile cleared. -/
theorem witness_EngineEvents_of_chains :
    Occurs EngineEvent (one.modCore 0 fun k => { k with copyQ := [default] }) (.copyStart 0) ∧
    Occurs EngineEvent (sending [(0, 32#64)] false) (.chainSendAck (.core 0 0) true) ∧
    Occurs EngineEvent (sending [(0, 32#64), (lostPort, 64#64)] false) (.chainSendAck (.core 0 0) true) ∧
    Occurs EngineEvent (sending [(0, 32#64)] false) (.chainSendAck (.core 0 0) false) ∧
    Occurs EngineEvent (sending [] true) (.chainEntry (.core 0 0)) ∧
    Occurs EngineEvent (one.modCore 0 fun k => { k with mxQ := [⟨0, 0, .aclr 2#3, 0⟩] }) (.tilePathEntry 0 0) :=
  ⟨⟨_, .copyStart _ _ default [] (by decide +kernel) (by decide +kernel)⟩,
    ⟨_, .sendAccepted (x := chaining [(0, 32#64)] false) (p := (0, 32#64)) (rest := []) (h := by decide +kernel) (hs := rfl)
      (hl := by decide +kernel) ..⟩,
    ⟨_, .lostReached (x := chaining [(0, 32#64), (lostPort, 64#64)] false) (p := (0, 32#64)) (a := 64#64) (rest := [])
      (h := by decide +kernel) (hs := rfl) ..⟩,
    ⟨_, .sendRejected (x := chaining [(0, 32#64)] false) (p := (0, 32#64)) (rest := []) (h := by decide +kernel) (hs := rfl) ..⟩,
    ⟨_, .chainStopped (x := chaining [] true) (h := by decide +kernel) (hl := rfl) (hw := rfl) (hs := rfl) (hn := by decide +kernel)
      (hf := by decide +kernel) (hc := fun t ht => by
        have : (State.runner (sending [] true) (.core 0 0) (chaining [] true)).task = some 0 := by decide +kernel
        rw [this] at ht; cases ht; decide +kernel) ..⟩,
    ⟨_, .aclr (t := 2#3) (e := ⟨0, 0, .aclr 2#3, 0⟩) (hr := by decide +kernel) (hw := by decide +kernel) (he := by decide +kernel)
      (hc := rfl) (hf := by decide +kernel) ..⟩⟩

/-- The task in a fault. -/
def fault (c : Nat) : FaultInfo := { (default : FaultInfo) with cause := c }
def faulting (c : Nat) : State := one.modTask 0 fun k => { k with state := .faulted, fault := some (fault c) }
/-- What `Faulted` asks, as a Bool. -/
theorem faulted {s : State} {t : Nat} {f : FaultInfo} (h : ((s.task t).state == .faulted && (s.task t).fault == some f &&
    !s.faultWaits t && !((s.vdev (s.taskVd t)).state == .frozen)) = true) : Faulted s t f := by
  simp only [Bool.and_eq_true, beq_iff_eq, Bool.not_eq_true', beq_eq_false_iff_ne] at h
  exact ⟨h.1.1.1, h.1.1.2, h.1.2, h.2⟩
/-- A launch whose ranges lie on die 1 of a unified device. -/
def eastern : State :=
  ((one.modVdev 0 fun v => { v with desc := v.desc.set 16 1#8 }).modLaunch 0 fun l => { l with dist := { l.dist with chip := (65, 65), die := [[], [(1, 65)]] }, par := { l.par with teams := 65 } }).modHearth
    fun h => { h with config := { h.config with unified := true } }
/-- TaskEvents: a fault that ends a run, a capacity fault, one met by a page, and a steal between dies. -/
theorem witness_TaskEvents_of_faults :
    Occurs TaskEvent (faulting 3) (.taskFault 0) ∧
    Occurs TaskEvent (faulting 8) (.taskFault 0) ∧
    Occurs TaskEvent (faulting 6) (.taskFault 0) ∧
    Occurs TaskEvent eastern (.rangeSteal (.die 0) (.die 1) 0) :=
  ⟨⟨_, .fault (f := fault 3) (h := ⟨faulted (by decide +kernel), fun _ => ⟨fun h => absurd h (by decide), fun h => absurd h (by decide)⟩⟩) ..⟩,
    ⟨_, .capacityFault (f := fault 8) (h := faulted (by decide +kernel)) (hc := rfl)
      (hn := by decide +kernel) (ht := by decide +kernel) ..⟩,
    ⟨_, .pageFault (f := fault 6) (h := faulted (by decide +kernel)) (hc := rfl)
      (hn := by decide +kernel) (hb := by decide +kernel) (hm := state_at (by decide +kernel)) ..⟩,
    ⟨_, .dieSteal (rs := (stealVal eastern).1) (got := (stealVal eastern).2) (h := by decide +kernel) (hd := by decide +kernel) (he := by decide +kernel)
      (hn := by decide +kernel) (hu := by decide +kernel) (hk := by decide +kernel) (hr := by decide +kernel) (hb := by decide +kernel)
      (hs := by decide +kernel) ..⟩⟩

/-- The page of `elsewhere` is asked for on die 0. -/
def asking : State := elsewhere.modStore fun m => { m with requests := [(0, 0x4000, 0)] }
/-- Stack 3 is on loan to partition 1. -/
def lent : State := one.modStore fun m => { m with loans := [⟨3, 1, 60, [0, 1], true, [], none⟩] }
def lentDue : State := one.modStore fun m => { m with loans := [⟨3, 1, 60, [0, 1], true, [1], some 0⟩] }
set_option maxRecDepth 20000 in
/-- MemoryEvents: a request served, one refused, one that nobody made, and the ends of a loan. -/
theorem witness_MemoryEvents_of_requests :
    Occurs MemoryEvent asking (.makeResident 0 0x40000000#64 0 true) ∧
    Occurs MemoryEvent (asking.modStore fun m => { m with mem := m.mem.putN 0x4000 (natLe 8 0x800000000005017F), kshares := [⟨0, 0, 1000, false⟩] }) (.makeResident 0 0x40000000#64 0 true) ∧
    Occurs MemoryEvent one (.makeResident 0 0x40000000#64 0 true) ∧
    Occurs MemoryEvent lent (.loanEnd 3 false) ∧
    Occurs MemoryEvent lent (.loanEnd 3 true) ∧
    Occurs MemoryEvent lentDue (.loanDeadlineExpiry 3) :=
  ⟨⟨_, .makeResident (h := by decide +kernel) (hh := heldNot (by decide +kernel)) (hp := state_at (by decide +kernel)) ..⟩,
    ⟨_, .pageRefused (h := by decide +kernel) (hh := heldNot (by decide +kernel)) (hp := by decide +kernel) ..⟩,
    ⟨_, .notRequested (h := by decide +kernel) ..⟩,
    ⟨_, .loanEnd (l := ⟨3, 1, 60, [0, 1], true, [], none⟩) (h := by decide +kernel) ..⟩,
    ⟨_, .loanDemand (l := ⟨3, 1, 60, [0, 1], true, [], none⟩) (h := by decide +kernel) ..⟩,
    ⟨_, .loanExpiry (l := ⟨3, 1, 60, [0, 1], true, [1], some 0⟩) (d := 0) (h := by decide +kernel) (hd := rfl) (hn := by decide +kernel) ..⟩⟩

/-- Every mailbox is full. -/
def fullBoxes : State := one.modHearth fun h => { h with boxes := List.replicate 8 (List.replicate 32 default) }
/-- QueueEvents: a full mailbox, senders that may not manage a queue, a doorbell. -/
theorem witness_QueueEvents_of_senders :
    Occurs QueueEvent fullBoxes (.mailboxMessage 7 11 (11#8 :: List.replicate 63 0#8)) ∧
    Occurs QueueEvent (packets .error) (.queueReset ⟨9, 0⟩ 0) ∧
    Occurs QueueEvent (packets .active) (.queueDestroy ⟨7, 0⟩) ∧
    Occurs QueueEvent (packets .active) (.doorbellWrite 0 5#64) :=
  ⟨⟨_, .full (ht := by decide) (hs := by decide) (hn := by decide) (hl := by decide) (hb := by decide +kernel) ..⟩,
    ⟨_, .resetDenied _ _ _ _ fun h => absurd h.owns (by decide +kernel)⟩,
    ⟨_, .destroyDenied _ _ _ fun h => absurd h.sender.1 (by decide +kernel)⟩,
    ⟨_, .doorbell _ _ _ (by decide +kernel) (by decide +kernel) (by decide +kernel)⟩⟩

/-- TenantEvents: a pause that was held while the device was cleared. -/
theorem witness_TenantEvents_of_held_pause : Occurs TenantEvent ((tenant .clearing).modVdev 0 fun v => { v with heldMsg := [1, 13] }) (.clearingDone 0) :=
  ⟨_, .pausedAfterClearing _ _ (by decide +kernel) (by decide +kernel) (by decide +kernel)⟩

/-- Identity keys are there. -/
def keyed : State := State.reset.modHearth fun h => { h with keys := true }
/-- A posted write on link 17. -/
def postedOne : State := State.reset.modStore fun m => { m with posted := [{ (default : Posted) with link := some 17 }] }
/-- PlatformEvents: a second expiry, a restart of core 1, an error of one partition, an acknowledgement, a boot and one that fails, recovery. -/
theorem witness_PlatformEvents_of_core_0 :
    Occurs PlatformEvent (State.reset.modHearth fun h => { h with lastExpiry := some 0 }) (.supervisionTimerExpiry true) ∧
    Occurs PlatformEvent State.reset (.hearthCoreTimeout 1) ∧
    Occurs PlatformEvent State.reset (.memoryError (.sharedReserveBacked [0, 15])) ∧
    Occurs PlatformEvent State.reset (.memoryError (.sharedReserveBacked [0, 16])) ∧
    Occurs PlatformEvent postedOne (.postedWriteAck 0) ∧
    Occurs PlatformEvent keyed (.packageResetBoot ⟨true, true⟩) ∧
    Occurs PlatformEvent State.reset (.packageResetBoot ⟨false, true⟩) ∧
    Occurs PlatformEvent (State.reset.modHearth fun h => { h with recovery := true }) (.recovery ⟨7, false, true⟩) :=
  ⟨⟨_, .supervisionAgain _ 0 (by decide +kernel) (by decide +kernel)⟩, ⟨_, .core1Idle _ (by decide +kernel)⟩,
    ⟨_, .errorPartition 0 _ _ (by decide +kernel) (by decide +kernel) (by decide +kernel) (by decide +kernel)⟩,
    ⟨_, .errorBoth _ _ 0 16 (by decide +kernel) (by decide +kernel) (by decide +kernel) (by decide +kernel) (by decide +kernel)⟩,
    ⟨_, .ack _ _ { (default : Posted) with link := some 17 } (by decide +kernel) rfl rfl⟩,
    ⟨_, .boot _ _ ⟨by decide +kernel, by decide +kernel, by decide +kernel⟩ ⟨by decide +kernel, by decide +kernel⟩⟩,
    ⟨_, .bootFails _ _ ⟨by decide +kernel, by decide +kernel, by decide +kernel⟩⟩,
    ⟨_, .recoveryBad _ _ (by decide +kernel) (.inl rfl) (by decide +kernel)⟩⟩

/-- A free core of partition 0, at bytes of its own. -/
theorem free15 : HartFree awake 15 := ⟨by decide +kernel, by decide +kernel⟩
/-- Core 15 runs the hypervisor of partition 0. -/
def hyper : State := awake.modHearth fun h => { h with harts := h.harts.set 15 { hartReset with mode := .hypervisor } }
theorem hyper15 : HartFree hyper 15 := ⟨by decide +kernel, by decide +kernel⟩
theorem hyper15h : Hypervises hyper 15 := ⟨by decide +kernel, by decide +kernel⟩
/-- A host in endpoint mode with a window of 4 KiB at 0. -/
def windowed : State := awake.modHearth fun h => { h with bar2 := some (0, 4096) }
/-- OutsideEvents: atomics of a core, LR and SC, an interrupt claimed, what the host may reach, its window, and registers of a halted thread. -/
theorem witness_OutsideEvents_of_cores :
    Occurs OutsideEvent awake (.applicationCoreAccess 15 (.store 0 [1#8])) ∧
    Occurs OutsideEvent awake (.applicationCoreAccess 15 (.fetchAdd 8 8 1#64)) ∧
    Occurs OutsideEvent awake (.applicationCoreAccess 15 (.swap 8 4 1#64)) ∧
    Occurs OutsideEvent awake (.applicationCoreAccess 15 (.cas 8 8 0#64 1#64)) ∧
    Occurs OutsideEvent awake (.applicationCoreAccess 15 (.amo 8 4 5 1#64)) ∧
    Occurs OutsideEvent awake (.applicationCoreAccess 15 (.lr 8 8)) ∧
    Occurs OutsideEvent awake (.applicationCoreAccess 15 (.sc 8 8 1#64)) ∧
    Occurs OutsideEvent awake (.applicationCoreAccess 15 (.claim 1)) ∧
    Occurs OutsideEvent hyper (.applicationCoreAccess 15 (.exportQueue 0 true)) ∧
    Occurs OutsideEvent hyper (.applicationCoreAccess 15 (.setWindow 0 4096)) ∧
    Occurs OutsideEvent windowed (.pcieHostAccess ⟨0, .store 4092 [1#8, 2#8, 3#8, 4#8]⟩) ∧
    Occurs OutsideEvent windowed (.pcieHostAccess ⟨0, .store 4096 [1#8]⟩) ∧
    Occurs OutsideEvent halted (.debugAccess 1 (.readReg 255#8)) ∧
    Occurs OutsideEvent halted (.debugAccess 1 (.readPred 7#3)) ∧
    Occurs OutsideEvent halted (.debugAccess 1 (.writePred 6#3 true)) ∧
    Occurs OutsideEvent halted (.debugAccess 1 .readHalt) ∧
    Occurs OutsideEvent one (.debugAccess 1 .readHalt) :=
  ⟨⟨_, .core _ _ _ _ free15 (admitted (by decide +kernel))⟩,
    ⟨_, .coreAdd _ _ _ _ _ free15 ⟨.inr rfl, rfl⟩ (admitted (by decide +kernel))⟩,
    ⟨_, .coreSwap _ _ _ _ _ free15 ⟨.inl rfl, rfl⟩ (admitted (by decide +kernel))⟩,
    ⟨_, .coreCas _ _ _ _ _ _ free15 ⟨.inr rfl, rfl⟩ (admitted (by decide +kernel))⟩,
    ⟨_, .coreAmo _ _ _ _ _ _ free15 ⟨.inl rfl, rfl⟩ (admitted (by decide +kernel)) (by decide +kernel)⟩,
    ⟨_, .coreLr _ _ _ _ free15 ⟨.inr rfl, rfl⟩ (admitted (by decide +kernel))⟩,
    ⟨_, .coreScFails _ _ _ _ _ free15 ⟨.inr rfl, rfl⟩ (admitted (by decide +kernel)) (.inl (by decide +kernel))⟩,
    ⟨_, .claim _ _ _ free15⟩, ⟨_, .exportQueue _ _ _ hyper15 hyper15h⟩, ⟨_, .setWindow _ _ _ _ hyper15 hyper15h⟩,
    ⟨_, .pcie _ _ _ 0 4096 ⟨by decide +kernel, by decide +kernel, by decide, by decide⟩ (admitted (by decide +kernel))⟩,
    ⟨_, .pcieOutside _ _ _ (by decide +kernel) fun b n h => by
      have : windowed.hearth.bar2 = some (0, 4096) := by decide +kernel
      rw [this] at h; cases h; exact .inr (by decide)⟩,
    ⟨_, .readZero _ _ (by decide +kernel)⟩, ⟨_, .readPred _ _ _ (by decide +kernel)⟩, ⟨_, .writePred _ _ _ _ (by decide +kernel) (by decide +kernel)⟩,
    ⟨_, .readHalt _ _ atHalt (by decide +kernel) (by decide +kernel)⟩, ⟨_, .running _ _ _ (by decide +kernel)⟩⟩

/-! ## Witnesses: boundaries of time and number, held accesses and devices -/

/-- Link 17 in training since reset, after a number of nanoseconds. -/
def trainingFor (n : Nat) : State := { State.reset.setLink 17 .training with now := n }
/-- PlatformEvents: training that ends in its last nanosecond, and one that has lasted a second. -/
theorem witness_PlatformEvents_at_training_limit :
    Occurs PlatformEvent (trainingFor 999999999) (.linkTrained 17) ∧ Occurs PlatformEvent (trainingFor 1000000000) (.linkTrainingTimeout 17) :=
  ⟨⟨_, .trained _ _ (by decide +kernel) (by decide +kernel)⟩, ⟨_, .trainingTimeout _ _ (by decide +kernel) (by decide +kernel)⟩⟩
/-- The task in its n-th page fault in a row. -/
def faultingAfter (n : Nat) : State :=
  (faulting 6).modTask 0 fun k => { k with restarts := { k.restarts with same := n, cause := 6, addr := 0#64 } }
/-- TaskEvents: a fifteenth restart for one cause and address, and a fault that ends the run after the sixteenth. -/
theorem witness_TaskEvents_at_restart_limit :
    Occurs TaskEvent (faultingAfter 15) (.taskFault 0) ∧ Occurs TaskEvent (faultingAfter 16) (.taskFault 0) :=
  ⟨⟨_, .pageFault (f := fault 6) (h := faulted (by decide +kernel)) (hc := rfl) (hn := by decide +kernel) (hb := by decide +kernel)
      (hm := state_at (by decide +kernel)) ..⟩,
    ⟨_, .fault (f := fault 6) (h := ⟨faulted (by decide +kernel), fun h => absurd h (by decide +kernel)⟩) ..⟩⟩

/-- An access that a hand-over holds stands before those of its agent. -/
def behind (who : Nat) (op : HostOp) : State := windowed.modStore fun m => { m with heldOps := [(who, op)] }
/-- A drive in namespace 0. -/
def driven : State := awake.modHearth fun h => { h with config := { h.config with pcieRoot := true, nvme := [[0]] } }
/-- A frame has arrived on port 0. -/
def received : State := awake.modPort 0 fun p => { p with rx := [(0, 5, [1#8, 2#8])] }
theorem port15 {s : State} (h : (s.partOfWho 15 == s.partOfWho 96) = true) : OwnsPort s 15 0 := ⟨by decide, by simpa using h⟩
theorem noneHeld {s : State} {who : Nat} (h : s.store.heldOps = []) : NothingHeld s who := fun x hx => by simp [h] at hx
set_option maxRecDepth 20000 in
/-- OutsideEvents: a fence and what waits behind it, instructions of a core, frames, a namespace, a root port, posted order of the host, a drive. -/
theorem witness_OutsideEvents_of_devices :
    Occurs OutsideEvent awake (.applicationCoreAccess 15 .fence) ∧
    Occurs OutsideEvent (behind 15 (.store 0 [1#8])) (.applicationCoreAccess 15 .fence) ∧
    Occurs OutsideEvent (behind 15 .fence) (.applicationCoreAccess 15 (.store 64 [1#8])) ∧
    Occurs OutsideEvent awake (.applicationCoreAccess 15 (.retire hartReset)) ∧
    Occurs OutsideEvent awake (.applicationCoreAccess 15 (.netSetup 0 true false 16)) ∧
    Occurs OutsideEvent awake (.applicationCoreAccess 15 (.netSend 0 0 0 64 none)) ∧
    Occurs OutsideEvent received (.applicationCoreAccess 15 (.netReceive 0 0 0 2)) ∧
    Occurs OutsideEvent driven (.applicationCoreAccess 15 (.blkWrite 9 0 512)) ∧
    Occurs OutsideEvent driven (.applicationCoreAccess 15 (.ecamWrite 3 16 [1#8])) ∧
    Occurs OutsideEvent driven (.pcieHostAccess ⟨3, .store 0 [1#8]⟩) ∧
    Occurs OutsideEvent (behind 32 (.store 0 [1#8])) (.pcieHostAccess ⟨0, .store 64 [1#8]⟩) ∧
    Occurs OutsideEvent awake (.inboundFabricWrite (32 + 1) (.frame [1#8])) :=
  ⟨⟨_, .fence _ _ free15 (by decide +kernel)⟩,
    ⟨_, .fenceWaits (x := .store 0 [1#8]) (hr := ⟨by decide +kernel, by decide⟩) (hx := by decide +kernel) ..⟩,
    ⟨_, .behindFence (hr := ⟨by decide +kernel, by decide⟩) (ha := by decide +kernel) (hx := by decide +kernel) ..⟩,
    ⟨_, .retire _ _ _ free15⟩,
    ⟨_, .netSetup (hr := free15) (hp := port15 (by decide +kernel)) (hm := noneHeld (by decide +kernel)) (h1 := by decide) (h2 := by decide) ..⟩,
    ⟨_, .netSend (hr := free15) (hp := port15 (by decide +kernel)) (ha := admitted (by decide +kernel)) (hn := by decide +kernel)
      (hl := by decide) (hc := by decide +kernel) ..⟩,
    ⟨_, .netReceive (time := 5) (bs := [1#8, 2#8]) (rest := []) (hr := ⟨by decide +kernel, by decide⟩) (hp := port15 (by decide +kernel)) (ha := admitted (by decide +kernel))
      (hx := by decide +kernel) (hl := by decide) ..⟩,
    ⟨_, .blkWrite (hr := ⟨by decide +kernel, by decide⟩) (ha := admitted (by decide +kernel)) (hd := by decide +kernel) ..⟩,
    ⟨_, .ecamWrite (hr := ⟨by decide +kernel, by decide⟩) (hm := noneHeld (by decide +kernel)) (hc := by decide +kernel) (hp := by decide +kernel)
      (h4 := by decide) ..⟩,
    ⟨_, .drive (he := by decide +kernel) (hp := by decide) (ha := admitted (by decide +kernel)) ..⟩,
    ⟨_, .pcieBehind (b := 0) (n := 4096) (x := .store 0 [1#8]) (hw := ⟨by decide +kernel, by decide +kernel, by decide, by decide⟩)
      (ha := by decide +kernel) (hx := by decide +kernel) ..⟩,
    ⟨_, .frameArrives 1 _ _ (by decide) (by decide)⟩⟩

end Sys2Proof.Tests
end

section
/-! SUPPORT. The decoder on the majors that have only the form with L = 0b00 (R49, R50). -/

namespace Sys2Proof

/-! ## The fields of word 0 (R44, R49) -/

/-- A one-bit field stands just above the fields behind it. -/
theorem getLsbD_append_ofBool_append {m n : Nat} (x : BitVec m) (b : Bool) (y : BitVec n) :
    (x ++ BitVec.ofBool b ++ y).getLsbD n = b := by
  rw [BitVec.getLsbD_append, if_neg (Nat.lt_irrefl n), Nat.sub_self, BitVec.getLsbD_append, if_pos Nat.one_pos]
  exact BitVec.getLsbD_ofBool b 0

section
variable (top : BitVec 22) (op : BitVec 7) (w : Bool) (l : BitVec 2) (ws : List Word)

theorem rawOfWords_l : (rawOfWords ((top ++ op ++ BitVec.ofBool w ++ l) :: ws)).l = l :=
  BitVec.extractLsb'_append_eq_right
theorem rawOfWords_w : (rawOfWords ((top ++ op ++ BitVec.ofBool w ++ l) :: ws)).w = w :=
  getLsbD_append_ofBool_append (top ++ op) w l
theorem rawOfWords_op : (rawOfWords ((top ++ op ++ BitVec.ofBool w ++ l) :: ws)).op = op := by
  show (top ++ op ++ BitVec.ofBool w ++ l).extractLsb' 3 7 = op
  rw [BitVec.extractLsb'_append_eq_of_le (by decide), BitVec.extractLsb'_append_eq_of_le (by decide)]
  exact BitVec.extractLsb'_append_eq_right
theorem rawOfWords_top : (rawOfWords ((top ++ op ++ BitVec.ofBool w ++ l) :: ws)).top = top := by
  show (top ++ op ++ BitVec.ofBool w ++ l).extractLsb' 10 22 = top
  rw [BitVec.extractLsb'_append_eq_of_le (by decide), BitVec.extractLsb'_append_eq_of_le (by decide)]
  exact BitVec.extractLsb'_append_eq_left

end

/-! ## Rows without an extended form -/

theorem Raw.baseOnly_of_base {r : Raw} (h : r.l = 0#2) (x : Except Nat Instr) : r.baseOnly x = x := by
  simp [Raw.baseOnly, h]
theorem Raw.baseOnly_error {r : Raw} (h : r.l ≠ 0#2) (x : Except Nat Instr) : ∃ e, r.baseOnly x = .error e := by
  have hl : (r.l == 0#2) = false := beq_eq_false_iff_ne.2 h
  cases hm : r.l.getLsbD 1 && r.minor != 0#6
  · exact ⟨4, by simp only [Raw.baseOnly, hl, hm, cond_false]⟩
  · exact ⟨3, by simp only [Raw.baseOnly, hl, hm, cond_false, cond_true]⟩

/-- A major with one row, read by `dec`, that has no form but the one with L = 0b00. -/
def BaseOnlyMajor (op : BitVec 7) (dec : Raw → Except Nat Instr) : Prop :=
  ∀ r : Raw, r.op = op → decodeRaw r = r.baseOnly (dec r)

theorem baseOnlyMajor_bra : BaseOnlyMajor 0x38#7 decBra := fun r h => by simp [decodeRaw, h]
theorem baseOnlyMajor_brc : BaseOnlyMajor 0x39#7 decBrc := fun r h => by simp [decodeRaw, h]
theorem baseOnlyMajor_brq : BaseOnlyMajor 0x3A#7 decBrq := fun r h => by simp [decodeRaw, h]
theorem baseOnlyMajor_call : BaseOnlyMajor 0x3B#7 decCall := fun r h => by simp [decodeRaw, h]

/-- With L = 0b00 the words are read by the major's one row. -/
theorem BaseOnlyMajor.decodeWords_base {op : BitVec 7} {dec : Raw → Except Nat Instr} (hd : BaseOnlyMajor op dec)
    (top : BitVec 22) (w : Bool) (ws : List Word) :
    decodeWords ((top ++ op ++ BitVec.ofBool w ++ 0#2) :: ws) = dec (rawOfWords ((top ++ op ++ BitVec.ofBool w ++ 0#2) :: ws)) := by
  rw [decodeWords, hd _ (rawOfWords_op ..), Raw.baseOnly_of_base (rawOfWords_l ..)]
/-- With any other L the words are no instruction. -/
theorem BaseOnlyMajor.decodeWords_error {op : BitVec 7} {dec : Raw → Except Nat Instr} (hd : BaseOnlyMajor op dec)
    {l : BitVec 2} (hl : l ≠ 0#2) (top : BitVec 22) (w : Bool) (ws : List Word) :
    ∃ e, decodeWords ((top ++ op ++ BitVec.ofBool w ++ l) :: ws) = .error e := by
  rw [decodeWords, hd _ (rawOfWords_op ..)]
  exact Raw.baseOnly_error (by rwa [rawOfWords_l]) _

section
variable (w : Bool) (ws : List Word)

theorem decodeWords_bra (off : BitVec 22) : decodeWords ((off ++ 0x38#7 ++ BitVec.ofBool w ++ 0#2) :: ws) = .ok (.bra w off) := by
  rw [baseOnlyMajor_bra.decodeWords_base, decBra, rawOfWords_w, rawOfWords_top]
theorem decodeWords_brq (off : BitVec 22) : decodeWords ((off ++ 0x3A#7 ++ BitVec.ofBool w ++ 0#2) :: ws) = .ok (.brq w off) := by
  rw [baseOnlyMajor_brq.decodeWords_base, decBrq, rawOfWords_w, rawOfWords_top]
theorem decodeWords_call (off : BitVec 22) : decodeWords ((off ++ 0x3B#7 ++ BitVec.ofBool w ++ 0#2) :: ws) = .ok (.call w off) := by
  rw [baseOnlyMajor_call.decodeWords_base, decCall, rawOfWords_w, rawOfWords_top]
/-- OFFSET, N and P of a conditional branch (R50). -/
theorem decodeWords_brc (off : BitVec 18) (n : Bool) (p : BitVec 3) :
    decodeWords ((off ++ BitVec.ofBool n ++ p ++ 0x39#7 ++ BitVec.ofBool w ++ 0#2) :: ws) = .ok (.brc w off n p) := by
  have hoff : (off ++ BitVec.ofBool n ++ p).extractLsb' 4 18 = off := by
    rw [BitVec.extractLsb'_append_eq_of_le (by decide)]
    exact BitVec.extractLsb'_append_eq_left
  have hn : (off ++ BitVec.ofBool n ++ p).getLsbD 3 = n := getLsbD_append_ofBool_append off n p
  have hp : (off ++ BitVec.ofBool n ++ p).extractLsb' 0 3 = p := BitVec.extractLsb'_append_eq_right
  rw [baseOnlyMajor_brc.decodeWords_base, decBrc, rawOfWords_w, rawOfWords_top, hoff, hn, hp]

end

end Sys2Proof
end

section
/-! SUPPORT. Branches: the addresses threads go on at, and the issue of an instruction that moves nothing but the pc. -/

namespace Sys2Proof.Machine
open Sys2Proof.Claims

/-- The model's displacement is 4 × the signed word offset (R49, R50). -/
theorem words4_eq_jumpBy {n : Nat} (off : BitVec n) : words4 off = jumpBy off := by
  rw [words4, jumpBy, BitVec.shiftLeft_eq_mul_twoPow, BitVec.signExtend, BitVec.mul_comm, BitVec.ofInt_mul]
  rfl

/-! ## What leaves a thread's pc -/

theorem orFlags_pc (a : Agent) (f : BitVec 5) : (a.orFlags f).pc = a.pc := by
  simp only [Agent.orFlags]; cases (f == 0#5) <;> rfl
@[simp] theorem tick_pc (a : Agent) : a.tick.pc = a.pc := by
  have h : ∀ (l : List (Nat × BitVec 5)) (a : Agent), (l.foldl (fun b p => b.orFlags p.2) a).pc = a.pc := by
    intro l
    induction l with
    | nil => intro a; rfl
    | cons p l ih => intro a; rw [List.foldl_cons, ih, orFlags_pc]
  exact h _ a
theorem unparkIf_pc (w : Wait) (a : Agent) : (unparkIf w a).pc = a.pc := by
  simp only [unparkIf]; cases (a.status == .parked w) <;> rfl
theorem modAgent_pcOf (s : State) (ag : Nat) {f : Agent → Agent} (hf : ∀ a, (f a).pc = a.pc) (n : Nat) :
    (s.modAgent ag f).pcOf n = s.pcOf n := by
  rw [State.pcOf, State.modAgent_agent]; split
  · exact hf _
  · rfl
theorem each_pcOf {f : Nat → Agent → Agent} (hf : ∀ a x, (f a x).pc = x.pc) (n : Nat) (l : List Nat) :
    ∀ s : State, (s.each f l).pcOf n = s.pcOf n := by
  induction l with
  | nil => intro s; rfl
  | cons a l ih => intro s; rw [State.each, ih, modAgent_pcOf _ _ (hf a)]
@[simp] theorem ticked_pcOf (s : State) (n : Nat) : s.ticked.pcOf n = s.pcOf n := by
  rw [ticked_eq]; exact each_pcOf (fun _ => tick_pc) n _ s
theorem dqFree_pcOf (s : State) (h n : Nat) : (s.dqFree h).pcOf n = s.pcOf n := by
  simp only [State.dqFree, Bool.cond_decide]; split
  · exact modAgent_pcOf _ _ (unparkIf_pc _) n
  · rfl
theorem popped_pcOf (s : State) (ag n : Nat) : (popped s ag).pcOf n = s.pcOf n := by
  rw [popped, dqFree_pcOf, modAgent_pcOf]; exact fun _ => rfl
theorem pcOf_local {s t : State} {a : Nat} (h : t.agent a = s.agent a) : t.pcOf a = s.pcOf a := congrArg Agent.pc h

/-! ## The decision queue -/

theorem pop_of_nextEntry {s : State} {ag : Nat} {x : Word} (h : nextEntry s ag = some x) : s.pop ag = some (popped s ag, x) := by
  have h' : (s.share (s.shareOf ag)).dq[(s.agent ag).dqRead - (s.share (s.shareOf ag)).dqFreed]? = some x := h
  simp only [State.pop, h', Option.map_some, popped]

/-! ## Issue of an instruction that only says where its threads go on -/

/-- What `issue_each` says of a body whose effect on each thread is its own and which names where the thread goes on. -/
theorem issue_goes {s : State} {i : Instr} {g : Nat → State → State × Fate} (k : Nat → Fate) (dest : Nat → DWord)
    (ht : Together s i) (hg : ∀ a t, Beside s.ticked t → t.agent a = s.ticked.agent a → g a t = (t, k a))
    (hk : ∀ a, Goes (k a) ((s.agent a).nextPc i) (dest a)) :
    EachGoes s i (fun _ a => a) dest (s.issue i (perThread g)) := by
  have hb : perThread g (s.performers i) s.ticked =
      (s.ticked.each (fun _ a => a) (s.performers i), (s.performers i).map fun a => (a, k a)) :=
    perThread_each _ k _ (performers_nodup ht) (fun a _ t hb h => by rw [hg a t hb h, modAgent_id]) _ (.refl _) fun _ _ => rfl
  rw [issue_each _ k dest ht (fun _ => Keeps.id) hb hk]
  refine ⟨each_onlyAgents _ _ _, fun ag h => ?_⟩
  rw [each_agent_in _ _ s ht.1 h (ht.2 ag h).1.1]
  constructor
  · intro (e : s.ticked.pre i ag = .go)
    simp [State.goes, e]
  · intro (e : s.ticked.pre i ag = .skip)
    simp [State.goes, e]

/-! ## The instructions -/

theorem exec_bra_goes {s : State} {w : Bool} {off : BitVec 22} (ht : Together s (.bra w off)) :
    ∃ t, exec (.bra w off) s = .next t ∧
      EachGoes s (.bra w off) (fun _ a => a) (fun ag => (s.agent ag).pc + jumpBy off) t := by
  refine ⟨_, rfl, issue_goes (fun ag => .jump (s.pcOf ag + jumpBy off)) _ ht (fun a t _ h => ?_) fun _ => .inr rfl⟩
  rw [pcOf_local h, ticked_pcOf, words4_eq_jumpBy]
theorem exec_brc_goes {s : State} {w : Bool} {off : BitVec 18} {n : Bool} {p : BitVec 3} (ht : Together s (.brc w off n p)) :
    ∃ t, exec (.brc w off n p) s = .next t ∧ EachGoes s (.brc w off n p) (fun _ a => a)
      (fun ag => if (s.ticked.pred ag 1 p ^^ n) = true then (s.agent ag).pc + jumpBy off else (s.agent ag).nextPc (.brc w off n p)) t := by
  refine ⟨_, rfl, issue_goes (fun ag => bif s.ticked.pred ag 1 p ^^ n then .jump (s.pcOf ag + jumpBy off) else .next) _ ht
    (fun a t hb h => ?_) fun a => ?_⟩
  · rw [pred_local hb h, pcOf_local h, ticked_pcOf, words4_eq_jumpBy]
  · cases s.ticked.pred a 1 p ^^ n
    · exact .inl ⟨rfl, rfl⟩
    · exact .inr rfl
theorem exec_call_alone {s : State} {w : Bool} {off : BitVec 22} {ag : Nat} (h : Alone s (.call w off) ag)
    (hl : (s.ticked.agent ag).link.length < 16) :
    exec (.call w off) s = .next (Ends s (.call w off) ag
      (s.ticked.modAgent ag fun a => { a with link := (a.pc + 4#64) :: a.link }) (.jump ((s.ticked.agent ag).pc + jumpBy off))) := by
  refine congrArg Host.Outcome.next (perThread_alone h ?_)
  rw [State.call1, if_neg (Nat.not_le.2 hl), State.pcOf, words4_eq_jumpBy]
theorem exec_brq_alone {s : State} {w : Bool} {off : BitVec 22} {ag : Nat} {x : Word} (h : Alone s (.brq w off) ag)
    (he : nextEntry s.ticked ag = some x) (hx : x ≠ 0#32) :
    exec (.brq w off) s = .next (Ends s (.brq w off) ag (popped s.ticked ag) (.jump ((s.ticked.agent ag).pc + jumpBy off))) := by
  refine congrArg Host.Outcome.next (perThread_alone h ?_)
  simp only [pop_of_nextEntry he, beq_eq_false_iff_ne.2 hx, cond_false, popped_pcOf, words4_eq_jumpBy]
  rfl

/-! ## The obligations -/

/-- Settles O8: the fields and the refusals of the three majors, then one lemma for each instruction. -/
theorem branchForm : Obligations.BranchForm := by
  refine ⟨fun off w => ⟨decodeWords_bra w [] off, decodeWords_call w [] off, decodeWords_brq w [] off⟩, ?_,
    fun _ _ _ => exec_bra_goes, fun _ _ _ _ => exec_call_alone, fun _ _ _ _ _ => exec_brq_alone⟩
  rintro op l x w ws (rfl | rfl | rfl) hl
  · exact baseOnlyMajor_bra.decodeWords_error hl x w ws
  · exact baseOnlyMajor_brq.decodeWords_error hl x w ws
  · exact baseOnlyMajor_call.decodeWords_error hl x w ws

/-- Settles O9: the fields and the refusals of major 0x39, and where each thread of the fragment goes on. -/
theorem conditionalBranch : Obligations.ConditionalBranch :=
  ⟨fun off n w p => decodeWords_brc w [] off n p, fun _ x w ws hl => baseOnlyMajor_brc.decodeWords_error hl x w ws,
    fun _ _ _ _ _ => exec_brc_goes⟩

end Sys2Proof.Machine
end

section
/-! SUPPORT. E8 scales (R80): the value of a code and the code of a value, with the model's floor(log2 |v|) placed in its binade. -/

namespace Sys2Proof.Machine

/-! ## The value of a code -/

theorem elemValue_scale {e : Nat} (he : e < 255) : elemValue 9 e = .fin false 1 ((e : Int) - 127) := by
  have hmod : e % 256 = e := Nat.mod_eq_of_lt (by omega)
  rw [elemValue, hmod, beq_eq_false_iff_ne.2 he.ne, cond_false]
theorem elemValue_nanScale : elemValue 9 255 = .nan false := rfl

/-! ## The binary logarithm of an exact value -/

/-- A magnitude that reaches a power of two is not zero. -/
theorem magnitude_ne_zero {m : Nat} {e k : Int} (hlo : (2 : Rat) ^ k ≤ m * (2 : Rat) ^ e) : m ≠ 0 := by
  rintro rfl
  rw [Nat.cast_zero, zero_mul] at hlo
  exact (zpow_pos two_pos k).not_ge hlo
/-- Both bounds of the binade move by the factor 2^e, where the logarithm of the integer m is Mathlib's. -/
theorem flog2_eq_of_binade {m : Nat} {e k : Int} (hlo : (2 : Rat) ^ k ≤ m * (2 : Rat) ^ e)
    (hhi : m * (2 : Rat) ^ e < (2 : Rat) ^ (k + 1)) : flog2 m e = k := by
  have hm : (0 : Rat) < m := Nat.cast_pos.2 (Nat.pos_of_ne_zero (magnitude_ne_zero hlo))
  have hpow : (0 : Rat) < (2 : Rat) ^ e := zpow_pos two_pos e
  have hge : k - e ≤ Int.log 2 (m : Rat) := by
    refine (Int.zpow_le_iff_le_log Nat.one_lt_two hm).1 ?_
    rwa [Nat.cast_ofNat, zpow_sub₀ two_ne_zero, div_le_iff₀ hpow]
  have hlt : Int.log 2 (m : Rat) < k + 1 - e := by
    refine (Int.lt_zpow_iff_log_lt Nat.one_lt_two hm).1 ?_
    rwa [Nat.cast_ofNat, zpow_sub₀ two_ne_zero, lt_div_iff₀ hpow]
  rw [Int.log_natCast] at hge hlt
  rw [flog2, Nat.log2_eq_log_two]
  omega

/-! ## The code of a value -/

theorem toE8_zero (n : Bool) (e : Int) : toE8 (.fin n 0 e) = 0 := by rw [toE8, if_pos rfl]
theorem toE8_nonzero (n : Bool) {m : Nat} (hm : m ≠ 0) (e : Int) :
    (toE8 (.fin n m e) : Int) = max 0 (min 0xFE (flog2 m e + 127)) := by
  rw [toE8, if_neg hm]
  omega

/-! ## The obligation -/

/-- Settles O44: the values of the codes, then the codes of a NaN, an infinity, a zero and a value in the binade of 2^k. -/
theorem scales : Obligations.Scales := by
  refine ⟨fun _ => elemValue_scale, elemValue_nanScale, fun _ => rfl, fun _ => rfl, toE8_zero, ?_⟩
  intro n m e k hlo hhi
  rw [toE8_nonzero n (magnitude_ne_zero hlo), flog2_eq_of_binade hlo hhi]

end Sys2Proof.Machine
end

section
/-! SUPPORT. The decoder on the three words of an extended form without a literal (R51). -/

namespace Sys2Proof

/-- With L = 0b10 the two words behind word 0 hold fields, and there is no literal. -/
theorem rawOfWords_extended (top : BitVec 22) (op : BitVec 7) (w : Bool) (w1 w2 : Word) :
    rawOfWords [top ++ op ++ BitVec.ofBool w ++ 2#2, w1, w2] = ⟨2#2, w, op, top, w1, w2, 0#64⟩ := by
  have hl := rawOfWords_l top op w 2#2 [w1, w2]
  have hw := rawOfWords_w top op w 2#2 [w1, w2]
  have hop := rawOfWords_op top op w 2#2 [w1, w2]
  have htop := rawOfWords_top top op w 2#2 [w1, w2]
  simp only [rawOfWords, List.getD_cons_zero] at hl hw hop htop
  simp only [rawOfWords, List.getD_cons_zero, hl, hw, hop, htop]
  rfl

/-- An extended form without a literal: MOD and MINOR in word 0, C, B, A and D in word 1, IMM16, F2, F1, F0 and G in word 2 (R51). -/
def Raw.extended (w : Bool) (op : BitVec 7) (mod : BitVec 16) (minor : BitVec 6) (c b a d : Reg) (imm : BitVec 16)
    (f2 f1 f0 g : BitVec 4) : Raw :=
  ⟨2#2, w, op, mod ++ minor, c ++ b ++ a ++ d, imm ++ f2 ++ f1 ++ f0 ++ g, 0#64⟩

namespace Raw

section
variable (w : Bool) (op : BitVec 7) (mod : BitVec 16) (minor : BitVec 6) (c b a d : Reg) (imm : BitVec 16) (f2 f1 f0 g : BitVec 4)

@[simp] theorem extended_l : (extended w op mod minor c b a d imm f2 f1 f0 g).l = 2#2 := rfl
@[simp] theorem extended_op : (extended w op mod minor c b a d imm f2 f1 f0 g).op = op := rfl
@[simp] theorem extended_mod : (extended w op mod minor c b a d imm f2 f1 f0 g).mod = mod :=
  BitVec.extractLsb'_append_eq_left
@[simp] theorem extended_minor : (extended w op mod minor c b a d imm f2 f1 f0 g).minor = minor :=
  BitVec.extractLsb'_append_eq_right
@[simp] theorem extended_rd : (extended w op mod minor c b a d imm f2 f1 f0 g).rd = d :=
  BitVec.extractLsb'_append_eq_right
@[simp] theorem extended_ra : (extended w op mod minor c b a d imm f2 f1 f0 g).ra = a := by
  show (c ++ b ++ a ++ d).extractLsb' 8 8 = a
  rw [BitVec.extractLsb'_append_eq_of_le (by decide)]
  exact BitVec.extractLsb'_append_eq_right
@[simp] theorem extended_xb : (extended w op mod minor c b a d imm f2 f1 f0 g).xb = b := by
  show (c ++ b ++ a ++ d).extractLsb' 16 8 = b
  rw [BitVec.extractLsb'_append_eq_of_le (by decide), BitVec.extractLsb'_append_eq_of_le (by decide)]
  exact BitVec.extractLsb'_append_eq_right
@[simp] theorem extended_xc : (extended w op mod minor c b a d imm f2 f1 f0 g).xc = c := by
  show (c ++ b ++ a ++ d).extractLsb' 24 8 = c
  rw [BitVec.extractLsb'_append_eq_of_le (by decide), BitVec.extractLsb'_append_eq_of_le (by decide)]
  exact BitVec.extractLsb'_append_eq_left
@[simp] theorem extended_ctl : (extended w op mod minor c b a d imm f2 f1 f0 g).ctl = ⟨w, g⟩ :=
  congrArg (Ctl.mk w) BitVec.extractLsb'_append_eq_right
@[simp] theorem extended_xf0 : (extended w op mod minor c b a d imm f2 f1 f0 g).xf0 = f0 := by
  show (imm ++ f2 ++ f1 ++ f0 ++ g).extractLsb' 4 4 = f0
  rw [BitVec.extractLsb'_append_eq_of_le (by decide)]
  exact BitVec.extractLsb'_append_eq_right
@[simp] theorem extended_xf1 : (extended w op mod minor c b a d imm f2 f1 f0 g).xf1 = f1 := by
  show (imm ++ f2 ++ f1 ++ f0 ++ g).extractLsb' 8 4 = f1
  rw [BitVec.extractLsb'_append_eq_of_le (by decide), BitVec.extractLsb'_append_eq_of_le (by decide)]
  exact BitVec.extractLsb'_append_eq_right
@[simp] theorem extended_xf2 : (extended w op mod minor c b a d imm f2 f1 f0 g).xf2 = f2 := by
  show (imm ++ f2 ++ f1 ++ f0 ++ g).extractLsb' 12 4 = f2
  rw [BitVec.extractLsb'_append_eq_of_le (by decide), BitVec.extractLsb'_append_eq_of_le (by decide),
    BitVec.extractLsb'_append_eq_of_le (by decide)]
  exact BitVec.extractLsb'_append_eq_right
@[simp] theorem extended_ximm : (extended w op mod minor c b a d imm f2 f1 f0 g).ximm = imm := by
  show (imm ++ f2 ++ f1 ++ f0 ++ g).extractLsb' 16 16 = imm
  rw [BitVec.extractLsb'_append_eq_of_le (by decide), BitVec.extractLsb'_append_eq_of_le (by decide),
    BitVec.extractLsb'_append_eq_of_le (by decide)]
  exact BitVec.extractLsb'_append_eq_left
/-- MOD[31] is IB: operand b is IMM16 or the register in field B (R52). -/
@[simp] theorem extended_srcB : (extended w op mod minor c b a d imm f2 f1 f0 g).srcB =
    bif mod.getLsbD 15 then .imm imm else .reg b := by
  simp [srcB, ib]

/-! ## What an extended form without a literal never fails -/

@[simp] theorem extended_l4Ib : (extended w op mod minor c b a d imm f2 f1 f0 g).l4Ib = false := rfl
@[simp] theorem extended_k6Imm : (extended w op mod minor c b a d imm f2 f1 f0 g).k6Imm = false := rfl
@[simp] theorem extended_k6Hi : (extended w op mod minor c b a d imm f2 f1 f0 g).k6Hi = false := by
  simp [k6Hi]

end
end Raw

/-! ## SEL (R155) -/

/-- Major 0x12 with MINOR = 0 is SEL, which has only extended forms. -/
theorem decodeRaw_extended_sel (w : Bool) (mod : BitVec 16) (c b a d : Reg) (imm : BitVec 16) (f2 f1 f0 g : BitVec 4) :
    decodeRaw (Raw.extended w 0x12#7 mod 0#6 c b a d imm f2 f1 f0 g) = decSel (Raw.extended w 0x12#7 mod 0#6 c b a d imm f2 f1 f0 g) := by
  simp [decodeRaw, Raw.extOnly, Raw.single]

/-- C is below 8 where C[7:3] is zero. -/
theorem append_lt_eight (x : BitVec 5) (p : BitVec 3) : x ++ p < 8#8 ↔ x = 0#5 := by
  rw [BitVec.lt_def, BitVec.toNat_append, ← Nat.shiftLeft_add_eq_or_of_lt p.isLt, Nat.shiftLeft_eq, ← BitVec.toNat_inj,
    BitVec.toNat_ofNat, BitVec.toNat_ofNat]
  omega

/-- SEL's MOD: IB at its bit 15, N at its bit 0 (R155). -/
def selMod (ib n : Bool) : BitVec 16 := BitVec.ofBool ib ++ 0#14 ++ BitVec.ofBool n

theorem selMod_ib (ib n : Bool) : (selMod ib n)[15] = ib := by revert ib n; decide
theorem selMod_n (ib n : Bool) : (selMod ib n)[0] = n := by revert ib n; decide
theorem selMod_mask (ib n : Bool) : selMod ib n &&& ~~~0x8001#16 = 0#16 := by revert ib n; decide

/-- SEL's fields: IB says what b is, and C[7:3] not zero is the one check that can fail. -/
theorem decSel_extended (ib n w : Bool) (x : BitVec 5) (p : BitVec 3) (b a d : Reg) (k : BitVec 16) (g : BitVec 4) :
    decSel (Raw.extended w 0x12#7 (selMod ib n) 0#6 (x ++ p) b a d k 0#4 0#4 0#4 g) =
      if x = 0#5 then .ok (.sel ⟨w, g⟩ n d a (bif ib then .imm k else .reg b) p) else .error 8 := by
  have hp : (x ++ p).extractLsb' 0 3 = p := BitVec.extractLsb'_append_eq_right
  have hmod : (Raw.extended w 0x12#7 (selMod ib n) 0#6 (x ++ p) b a d k 0#4 0#4 0#4 g).m5 0x8001#16 = false := by
    rw [Raw.m5, Raw.extended_mod, selMod_mask]; rfl
  simp [decSel, firstBad, hmod, hp, append_lt_eight, selMod_ib, selMod_n]

/-- IMM16 before F2, F1 and F0 that are zero. -/
theorem append_zero_fields (k : BitVec 16) : k ++ 0#4 ++ 0#4 ++ 0#4 = k ++ 0#12 := by
  refine BitVec.eq_of_toNat_eq ?_
  simp only [BitVec.toNat_append, BitVec.toNat_ofNat, Nat.zero_mod, Nat.or_zero, ← Nat.shiftLeft_add]

/-- The words of SEL: MOD[31] is IB, MOD[16] is N, C[2:0] the predicate (R155). -/
theorem decodeWords_sel (ib n w : Bool) (x : BitVec 5) (p : BitVec 3) (b a d : Reg) (k : BitVec 16) (g : BitVec 4) :
    decodeWords [selMod ib n ++ 0#6 ++ 0x12#7 ++ BitVec.ofBool w ++ 2#2, x ++ p ++ b ++ a ++ d, k ++ 0#12 ++ g] =
      if x = 0#5 then .ok (.sel ⟨w, g⟩ n d a (bif ib then .imm k else .reg b) p) else .error 8 := by
  rw [decodeWords, rawOfWords_extended, ← append_zero_fields, ← decSel_extended]
  exact decodeRaw_extended_sel ..

end Sys2Proof
end

section
/-! SUPPORT. SEL (R155): its words and what each thread of a fragment receives. -/

namespace Sys2Proof.Machine
open Sys2Proof.Claims

theorem decodeWords_sel_reg (n w : Bool) (x : BitVec 5) (p : BitVec 3) (b a d : Reg) (g : BitVec 4) :
    decodeWords [0#15 ++ BitVec.ofBool n ++ 0#6 ++ 0x12#7 ++ BitVec.ofBool w ++ 2#2, x ++ p ++ b ++ a ++ d, 0#28 ++ g] =
      if x = 0#5 then .ok (.sel ⟨w, g⟩ n d a (.reg b) p) else .error 8 :=
  decodeWords_sel false n w x p b a d 0#16 g
theorem decodeWords_sel_imm (n w : Bool) (x : BitVec 5) (p : BitVec 3) (b a d : Reg) (k : BitVec 16) (g : BitVec 4) :
    decodeWords [1#1 ++ 0#14 ++ BitVec.ofBool n ++ 0#6 ++ 0x12#7 ++ BitVec.ofBool w ++ 2#2, x ++ p ++ b ++ a ++ d, k ++ 0#12 ++ g] =
      if x = 0#5 then .ok (.sel ⟨w, g⟩ n d a (.imm k) p) else .error 8 :=
  decodeWords_sel true n w x p b a d k g

/-- What d receives: a where pS XOR N is 1, else b (R155). -/
def selValue (n : Bool) (a : Reg) (b : Src) (p : BitVec 3) (s : State) (ag : Nat) : Word :=
  if (s.pred ag 3 p ^^ n) = true then s.a32 ag a else s.b32 ag b

theorem own_selValue (s : State) (n : Bool) (a : Reg) (b : Src) (p : BitVec 3) : Own s (selValue n a b p) := fun ag t hb h => by
  simp only [selValue, pred_local hb h, a32_local hb h, b32_local hb h]

theorem exec_sel_becomes {s : State} {c : Ctl} {n : Bool} {d a : Reg} {b : Src} {p : BitVec 3} (ht : Together s (.sel c n d a b p)) :
    ∃ t, exec (.sel c n d a b p) s = .next t ∧
      EachBecomes s (.sel c n d a b p) (fun ag x => x.put 2 (dstReg d) (selValue n a b p s.ticked ag)) t :=
  reg1_becomes ht rfl (fun _ _ => Bool.cond_eq_ite ..) (own_selValue s.ticked n a b p)

/-- Settles O19: the fields of the two forms of operand b and the check of C, then the result of each thread. -/
theorem select : Obligations.Select := by
  refine ⟨fun n w d a b p g => ?_, fun n w d a b x p g k => ⟨?_, fun hx => ?_⟩, fun _ _ _ _ _ _ _ => exec_sel_becomes⟩
  · rw [decodeWords_sel_reg, if_pos rfl]
  · rw [decodeWords_sel_imm, if_pos rfl]
  · rw [decodeWords_sel_reg, if_neg hx]

end Sys2Proof.Machine
end

section
/-! SUPPORT. Aitken's estimate (R318): the three entries it reads, and its value where no step stops. -/

namespace Sys2Proof.Machine

/-- Counted back from the end, as R318 counts, the newest entries do not depend on the older ones. -/
theorem getD_append_newest (old new : List Word) (i : Nat) (hi : i ≤ new.length) (w : Word) :
    (old ++ new).getD ((old ++ new).length - i) w = new.getD (new.length - i) w := by
  rw [List.length_append, Nat.add_sub_assoc hi, List.getD_append_right _ _ _ _ (Nat.le_add_right ..), Nat.add_sub_cancel_left]

/-- Method 1 is Aitken on x(m−3), x(m−2) and x(m−1): neither DEPTH nor an older entry stands on the right (R318). -/
theorem run_aitken {x : XCtx} {a b c : Word} {old : List Word} (hmeth : x.meth = 1#2) (hentries : x.entries = old ++ [a, b, c]) :
    x.run = aitken x.tz a b c := by
  have ha := getD_append_newest old [a, b, c] 3 (by simp) 0#32
  have hb := getD_append_newest old [a, b, c] 2 (by simp) 0#32
  have hc := getD_append_newest old [a, b, c] 1 (by simp) 0#32
  simp only [XCtx.run, hmeth, hentries, ha, hb, hc]
  rfl

/-- The steps of Aitken in R318's order, each of them kept (R317). -/
theorem aitken_ok {tz a b c d1 d0 den q w est : Word} (hd1 : xKeep (xSub c b) = .ok d1) (hd0 : xKeep (xSub b a) = .ok d0)
    (hden : xDivisor tz (xSub d1 d0) = .ok den) (hq : xKeep (xMul d1 d1) = .ok q) (hw : xKeep (xDiv q den) = .ok w)
    (hest : xKeep (xSub c w) = .ok est) : aitken tz a b c = .ok est := by
  simp only [aitken, hd1, hd0, hden, hq, hw, hest, Except.bind]

/-- Settles O45: the newest three entries go to Aitken, none of whose steps stops. -/
theorem aitkenEstimate : Obligations.AitkenEstimate := by
  intro x a b c d1 d0 den q w est old hmeth hentries hd1 hd0 hden hq hw hest
  exact (run_aitken hmeth hentries).trans (aitken_ok hd1 hd0 hden hq hw hest)

end Sys2Proof.Machine
end

section
/-! SUPPORT. Integer, predicate and pair instructions (R152 to R160): each row is one fixed-latency write, of the value that the spec's table gives. -/

namespace Sys2Proof.Machine
open Sys2Proof.Claims

/-! ## The values of the shapes -/

theorem reg1_congr {s : State} {i : Instr} {lat : Nat} {d : Reg} {v w : State → Nat → Word} (h : ∀ t g, v t g = w t g) :
    s.reg1 i lat d v = s.reg1 i lat d w := by rw [funext₂ h]
theorem reg2_congr {s : State} {i : Instr} {lat : Nat} {d : Reg} {v w : State → Nat → DWord} (h : ∀ t g, v t g = w t g) :
    s.reg2 i lat d v = s.reg2 i lat d w := by rw [funext₂ h]
theorem pred1_congr {s : State} {i : Instr} {lat : Nat} {p : BitVec 3} {v w : State → Nat → Bool} (h : ∀ t g, v t g = w t g) :
    s.pred1 i lat p v = s.pred1 i lat p w := by rw [funext₂ h]

/-! ## The rows -/

/-- Each integer row is one register write of the value that the table gives (R152 to R155, R160). -/
theorem exec_intRow {i : Instr} {lat : Nat} {d : Reg} {v : State → Nat → Word} (h : IntRow i lat d v) (s : State) :
    exec i s = s.reg1 i lat d v := by
  cases h with
  | mov => exact rfl
  | movExt => exact rfl
  | add => exact reg1_congr fun _ _ => add_val ..
  | addExt => exact reg1_congr fun _ _ => add_val ..
  | sub => exact reg1_congr fun _ _ => sub_val ..
  | subExt => exact reg1_congr fun _ _ => sub_val ..
  | mul => exact reg1_congr fun _ _ => mul_val ..
  | mulExt => exact reg1_congr fun _ _ => mul_val ..
  | mulh => exact reg1_congr fun _ _ => mulh_val ..
  | mulhExt => exact reg1_congr fun _ _ => mulh_val ..
  | mad => exact reg1_congr fun _ _ => mad_val ..
  | min => exact reg1_congr fun _ _ => min_val ..
  | minExt => exact reg1_congr fun _ _ => min_val ..
  | max => exact reg1_congr fun _ _ => max_val ..
  | maxExt => exact reg1_congr fun _ _ => max_val ..
  | and => exact rfl
  | andExt => exact rfl
  | or => exact rfl
  | orExt => exact rfl
  | xor => exact rfl
  | xorExt => exact rfl
  | shl => exact reg1_congr fun _ _ => shl_val ..
  | shlExt => exact reg1_congr fun _ _ => shl_val ..
  | shr => exact reg1_congr fun _ _ => shr_val ..
  | shrExt => exact reg1_congr fun _ _ => shr_val ..
  | sar => exact reg1_congr fun _ _ => sar_val ..
  | sarExt => exact reg1_congr fun _ _ => sar_val ..
  | rot => exact rfl
  | rotExt => exact rfl
  | bfx => exact reg1_congr fun _ _ => bfx_val ..
  | bfxExt => exact reg1_congr fun _ _ => bfx_val ..
  | bfi => exact reg1_congr fun _ _ => bfi_val ..
  | sel => exact reg1_congr fun _ _ => Bool.cond_eq_ite ..
  | abs => exact reg1_congr fun _ _ => abs_val ..
  | neg => exact reg1_congr fun _ _ => neg_val ..
  | not => exact reg1_congr fun _ _ => not_val ..
  | popc => exact reg1_congr fun _ _ => popc_val ..
  | clz => exact reg1_congr fun _ _ => clz_val ..
  | brev => exact reg1_congr fun _ _ => brev_val ..
  | sext8 => exact reg1_congr fun _ _ => sext_val 8 _
  | sext16 => exact reg1_congr fun _ _ => sext_val 16 _
  | zext8 => exact reg1_congr fun _ _ => zext_val 8 _
  | zext16 => exact reg1_congr fun _ _ => zext_val 16 _

/-- Each predicate row is one predicate write of the value that the table gives (R156, R157, R159). -/
theorem exec_predRow {i : Instr} {lat : Nat} {p : BitVec 3} {v : State → Nat → Bool} (h : PredRow i lat p v) (s : State) :
    exec i s = s.pred1 i lat p v := by
  cases h with
  | cmp _ _ _ _ _ hcc => exact pred1_congr fun _ _ => cmp_val hcc ..
  | cmp64 _ _ _ _ _ hcc => exact pred1_congr fun _ _ => cmp_val hcc ..
  | plog => exact pred1_congr fun _ _ => plog_val ..

/-- Each pair row is one pair write of the value that the table gives (R158, R159). -/
theorem exec_pairRow {i : Instr} {lat : Nat} {d : Reg} {v : State → Nat → DWord} (h : PairRow i lat d v) (s : State) :
    exec i s = s.reg2 i lat d v := by
  cases h with
  | lea => exact reg2_congr fun t g => (lea_val ..).trans (by simp [valOf])
  | leaExt => exact reg2_congr fun _ _ => lea_val ..
  | add64 => exact reg2_congr fun _ _ => add64_val ..
  | sub64 => exact reg2_congr fun _ _ => sub64_val ..
  | shl64 => exact reg2_congr fun _ _ => shl64_val ..
  | shr64 => exact reg2_congr fun _ _ => shr64_val ..

/-! ## The operands are the thread's own -/

theorem own_intRow {i : Instr} {lat : Nat} {d : Reg} {v : State → Nat → Word} (h : IntRow i lat d v) (s : State) : Own s v := by
  intro ag t hb ha
  cases h <;> simp only [a32_local hb ha, b7_local hb ha, b32_local hb ha, c32_local hb ha, pred_local hb ha]
theorem own_predRow {i : Instr} {lat : Nat} {p : BitVec 3} {v : State → Nat → Bool} (h : PredRow i lat p v) (s : State) : Own s v := by
  intro ag t hb ha
  cases h <;> simp only [a32_local hb ha, b32_local hb ha, a64_local hb ha, b64_local hb ha, pred_local hb ha]
theorem own_pairRow {i : Instr} {lat : Nat} {d : Reg} {v : State → Nat → DWord} (h : PairRow i lat d v) (s : State) : Own s v := by
  intro ag t hb ha
  cases h <;> simp only [b7_local hb ha, b32_local hb ha, a64_local hb ha, b64_local hb ha]

/-! ## The obligations -/

/-- Settles O10: one register write of the row's value, from the thread's own operands. -/
theorem integerResults : Obligations.IntegerResults := fun s _ _ _ _ h ht =>
  reg1_becomes ht (exec_intRow h s) (fun _ _ => rfl) (own_intRow h _)
/-- Settles O11: one predicate write of the row's value, from the thread's own operands. -/
theorem predicateResults : Obligations.PredicateResults := fun s _ _ _ _ h ht =>
  pred1_becomes ht (exec_predRow h s) (fun _ _ => rfl) (own_predRow h _)
/-- Settles O12: one pair write of the row's value, from the thread's own operands. -/
theorem pairResults : Obligations.PairResults := fun s _ _ _ _ h ht =>
  reg2_becomes ht (exec_pairRow h s) (fun _ _ => rfl) (own_pairRow h _)

end Sys2Proof.Machine
end

section
/-! SUPPORT. What an instruction of the integer, predicate and pair families leaves alone (R152 to R160): each part of its issue spares everything but the registers it writes. -/

namespace Sys2Proof.Machine
open Sys2Proof.Claims

/-- A thread keeps what `Untouched` names, and gains no flag below its latency where it had none: the relation composes. -/
structure Spares (ds : List Dst) (a b : Agent) : Prop extends Untouched a b ds where
  noFlags : a.fp.fpend = [] → b.fp.fpend = []

variable {ds : List Dst} {a b c : Agent}

theorem Spares.trans (h : Spares ds a b) (k : Spares ds b c) : Spares ds a c where
  regs x hx h7 h20 := (k.regs x hx h7 h20).trans (h.regs x hx h7 h20)
  flags he := (k.flags (h.noFlags he)).trans (h.flags he)
  captures := ⟨k.captures.1.trans h.captures.1, k.captures.2.trans h.captures.2⟩
  trap := k.trap.trans h.trap
  link := k.link.trans h.link
  home := k.home.trans h.home
  queue := k.queue.trans h.queue
  stores := k.stores.trans h.stores
  arrivals := k.arrivals.trans h.arrivals
  contexts := k.contexts.trans h.contexts
  noFlags he := k.noFlags (h.noFlags he)

theorem Spares.refl (ds : List Dst) (a : Agent) : Spares ds a a where
  regs _ _ _ _ := rfl
  flags _ := rfl
  captures := ⟨rfl, rfl⟩
  trap := rfl
  link := rfl
  home := rfl
  queue := rfl
  stores := rfl
  arrivals := rfl
  contexts := rfl
  noFlags := id

/-! ## The parts of an issue -/

/-- Every register but %fstat is read from the files, %frm, %rngseed and the trap registers. -/
theorem get_congr (hr : b.regs = a.regs) (hp : b.preds = a.preds) (hf : b.fp.frm = a.fp.frm) (hs : b.fp.rngseed = a.fp.rngseed)
    (ht : b.trap = a.trap) {x : Dst} (hx : x ≠ .csr 0x20) : b.get x = a.get x := by
  cases x with
  | reg n => simp only [Agent.get, hr]
  | pred n => simp only [Agent.get, hp]
  | csr n =>
    simp only [Agent.get]
    split <;> first | rfl | simp_all

/-- A thread differs only in what its own issue moves: its place, its counts, its results and flags below their latency. -/
def IssueOnly (a b : Agent) : Prop :=
  b = { a with pc := b.pc, status := b.status, issued := b.issued, pend := b.pend, outst := b.outst, skipBp := b.skipBp,
               stepOnce := b.stepOnce, wHold := b.wHold, fp := { a.fp with fstat := b.fp.fstat, fpend := b.fp.fpend } }

theorem IssueOnly.spares (h : IssueOnly a b) (hf : a.fp.fpend = [] → b.fp.fstat = a.fp.fstat ∧ b.fp.fpend = []) : Spares ds a b where
  regs x _ _ hx := get_congr (by rw [h]) (by rw [h]) (by rw [h]) (by rw [h]) (by rw [h]) hx
  flags he := (hf he).1
  captures := ⟨by rw [h], by rw [h]⟩
  trap := by rw [h]
  link := by rw [h]
  home := by rw [h]
  queue := by rw [h]
  stores := by rw [h]
  arrivals := by rw [h]
  contexts := by rw [h]
  noFlags he := (hf he).2

/-- Flags enter %fstat, and what reads of it below a latency may see. -/
theorem orFlags_only (a : Agent) (f : BitVec 5) : ∃ s p, a.orFlags f = { a with fp := { a.fp with fstat := s }, pend := p } := by
  cases h : f == 0#5
  · exact ⟨_, _, by rw [Agent.orFlags, h]; rfl⟩
  · exact ⟨a.fp.fstat, a.pend, by rw [Agent.orFlags, h]; rfl⟩
theorem foldl_orFlags_only (l : List (Nat × BitVec 5)) : ∀ a : Agent, ∃ s p,
    l.foldl (fun b p => b.orFlags p.2) a = { a with fp := { a.fp with fstat := s }, pend := p } := by
  induction l with
  | nil => exact fun a => ⟨a.fp.fstat, a.pend, rfl⟩
  | cons x l ih =>
    intro a
    obtain ⟨s, p, h⟩ := orFlags_only a x.2
    obtain ⟨s', p', h'⟩ := ih (a.orFlags x.2)
    exact ⟨s', p', by rw [List.foldl_cons, h', h]⟩

/-- The distances of a thread advance (R57, R163). -/
theorem tick_spares (ds : List Dst) (a : Agent) : Spares ds a a.tick := by
  obtain ⟨f, p, h⟩ := foldl_orFlags_only (a.fp.fpend.filter fun p => decide (p.1 ≤ a.issued + 1)) a
  have hflags : a.fp.fpend = [] → f = a.fp.fstat := fun he => by
    rw [he] at h
    exact congrArg (fun b : Agent => b.fp.fstat) h.symm
  simp only [Agent.tick, h]
  exact IssueOnly.spares rfl fun he => ⟨hflags he, by rw [he]; rfl⟩

/-- A register keeps its value where another is written; p7 apart, which stays 1. -/
theorem get_set_reg {n : Nat} {x : Dst} (w : Word) (hx : x ≠ .reg n) : (a.set (.reg n) w).get x = a.get x := by
  cases x with
  | reg m =>
    have hn : n ≠ m := fun e => hx (e ▸ rfl)
    simp [Agent.set, Agent.get, List.getElem?_set_ne hn]
  | pred m => rfl
  | csr m => rfl
theorem get_set_pred {n : Nat} {x : Dst} (w : Word) (hx : x ≠ .pred n) (h7 : x ≠ .pred 7) : (a.set (.pred n) w).get x = a.get x := by
  cases x with
  | reg m => rfl
  | csr m => rfl
  | pred m =>
    have hn : m ≠ n := fun e => hx (e ▸ rfl)
    have hm : m ≠ 7 := fun e => h7 (e ▸ rfl)
    have hmask : (1#8 <<< n).getLsbD m = false := by
      have : ¬ (m - n = 0 ∧ n ≤ m) := by omega
      rw [BitVec.getLsbD_shiftLeft, BitVec.getLsbD_one]
      simp
      omega
    have htop : (0x80#8).getLsbD m = false := by
      by_cases h : m < 8
      · have : m = 0 ∨ m = 1 ∨ m = 2 ∨ m = 3 ∨ m = 4 ∨ m = 5 ∨ m = 6 := by omega
        rcases this with rfl | rfl | rfl | rfl | rfl | rfl | rfl <;> rfl
      · exact BitVec.getLsbD_of_ge _ _ (by omega)
    have hkeep : (a.set (.pred n) w).preds.getLsbD m = a.preds.getLsbD m := by
      cases h : w == 0#32
      · simp only [Agent.set, h, cond_false, BitVec.getLsbD_or, hmask, htop, Bool.or_false]
      · by_cases h8 : m < 8
        · simp only [Agent.set, h, cond_true, BitVec.getLsbD_or, BitVec.getLsbD_and, BitVec.getLsbD_not, hmask, htop, h8, decide_true,
            Bool.not_false, Bool.and_self, Bool.and_true, Bool.or_false]
        · rw [BitVec.getLsbD_of_ge _ _ (by omega), BitVec.getLsbD_of_ge _ _ (by omega)]
    simp only [Agent.get, hkeep]

/-- A lane register that a write may name. -/
def LaneDst : Dst → Prop
  | .reg _ => True
  | .pred _ => True
  | .csr _ => False

/-- A write of the files of a thread, which names its destination. -/
theorem write_spares {d : Dst} (hd : LaneDst d) (hmem : d ∈ ds) (lat : Nat) (w : Word) (a : Agent) : Spares ds a (a.write lat d w) := by
  have hget : ∀ x, x ∉ ds → x ≠ .pred 7 → (a.set d w).get x = a.get x := fun x hx h7 => by
    have hne : x ≠ d := fun e => hx (e ▸ hmem)
    cases d with
    | csr n => exact hd.elim
    | reg n => exact get_set_reg w hne
    | pred n => exact get_set_pred w hne h7
  have hpend : Spares ds a (a.set d w) := by
    cases d with
    | csr n => exact hd.elim
    | reg n => exact { Spares.refl ds a with regs := fun x hx h7 _ => hget x hx h7 }
    | pred n => exact { Spares.refl ds a with regs := fun x hx h7 _ => hget x hx h7 }
  exact hpend.trans (IssueOnly.spares rfl fun he => ⟨rfl, he⟩)
theorem put_spares {d : Option Dst} (hd : ∀ x ∈ d, LaneDst x) (hmem : ∀ x ∈ d, x ∈ ds) (lat : Nat) (w : Word) (a : Agent) :
    Spares ds a (a.put lat d w) := by
  cases d with
  | none => exact .refl ds a
  | some d => exact write_spares (hd d rfl) (hmem d rfl) lat w a

/-- With no result outstanding, only the flags below their latency are written. -/
theorem settle_spares (h : a.outst = []) : Spares ds a a.settle := by
  have e : a.settle = { a with outst := [], pend := [], fp := { a.fp with
      fstat := a.fp.fpend.foldl (fun f p => f ||| p.2) a.fp.fstat, fpend := [] } } := by
    simp only [Agent.settle, h, List.filter_nil, List.foldl_nil]
  rw [e]
  exact IssueOnly.spares rfl fun he => by simp [he]
/-- The end of an instruction moves the pc, and may meet a W point (R60). -/
theorem after_spares (ds : List Dst) (a : Agent) (i : Instr) (free ag : Nat) (o : Agent) (pc : DWord) :
    Spares ds a (a.after i free ag o pc) := by
  refine (IssueOnly.spares (b := a.atPc pc) rfl fun he => ⟨rfl, he⟩).trans ?_
  simp only [Agent.after, Agent.wPoint]
  split
  · split
    · next he => exact settle_spares (List.isEmpty_iff.1 he)
    · exact IssueOnly.spares rfl fun he => ⟨rfl, he⟩
  · exact .refl ds _

/-! ## The obligation -/

/-- The destinations of a lane instruction are registers and predicates of the thread. -/
theorem laneDst_dstReg (r : Reg) : ∀ x ∈ dstReg r, LaneDst x := by
  intro x hx
  cases h : r == 255#8 <;> simp [dstReg, h] at hx
  exact hx ▸ trivial
theorem laneDst_dstPred (p : BitVec 3) : ∀ x ∈ dstPred p, LaneDst x := by
  intro x hx
  cases h : p == 7#3 <;> simp [dstPred, h] at hx
  exact hx ▸ trivial

/-- Threads that end as a sparing effect says are untouched, and nothing else of the machine changes. -/
theorem frame_of_becomes {s t : State} {i : Instr} {f : Nat → Agent → Agent} {ds : List Dst} (ht : Together s i)
    (hb : EachBecomes s i f t) (hf : ∀ ag a, Spares ds a (f ag a)) :
    t = withThreads s t ∧ (∀ a, t.store.mem.get a = s.store.mem.get a) ∧
      (∀ ag ∈ s.cur.agents, Untouched (s.agent ag) (t.agent ag) ds) ∧ ∀ ag, ag ∉ s.cur.agents → t.agent ag = s.agent ag := by
  obtain ⟨⟨hthreads, -, hout⟩, hin⟩ := hb
  refine ⟨hthreads, fun a => by rw [hthreads], fun ag hag => ?_, hout⟩
  obtain ⟨hgo, hskip⟩ := hin ag hag
  rcases (ht.2 ag hag).2 with h | h
  · rw [hgo h]
    exact (((tick_spares ds _).trans (hf ag _)).trans (after_spares ..)).toUntouched
  · rw [hskip h]
    exact ((tick_spares ds _).trans (after_spares ..)).toUntouched

/-- Settles O20: the rows of the three families write only the registers named, and the rest of the issue spares all of them. -/
theorem laneFrame : Obligations.LaneFrame := by
  intro s i ds h ht
  cases h with
  | int lat d v h =>
    obtain ⟨t, hx, hb⟩ := integerResults s i lat d v h ht
    exact ⟨t, hx, frame_of_becomes ht hb fun ag a => put_spares (laneDst_dstReg d) (by simp) ..⟩
  | pred lat p v h =>
    obtain ⟨t, hx, hb⟩ := predicateResults s i lat p v h ht
    exact ⟨t, hx, frame_of_becomes ht hb fun ag a => put_spares (laneDst_dstPred p) (by simp) ..⟩
  | pair lat d v h =>
    obtain ⟨t, hx, hb⟩ := pairResults s i lat d v h ht
    exact ⟨t, hx, frame_of_becomes ht hb fun ag a => (write_spares (d := .reg d.toNat) trivial (by simp) ..).trans
      (write_spares (d := .reg (d.toNat + 1)) trivial (by simp) ..)⟩

end Sys2Proof.Machine
end

section
/-! SUPPORT. Floating point (R163 to R178): each row is its flags, which trap where one is enabled (R85), and otherwise an effect on the thread alone. -/

namespace Sys2Proof.Machine
open Sys2Proof.Claims

/-! ## An instruction guarded by its flags -/

/-- An instruction whose flags trap where one is enabled, and which otherwise changes each thread alone (R85). -/
def fpEffect (i : Instr) (fl : State → Nat → FFlags) (f : State → Nat → Agent → Agent) (s : State) : Result :=
  .next (s.issue i (perThread fun ag t => t.fpGuard ag (fl t ag) fun t => t.modAgent ag (f t ag)))

theorem fpEffect_of_body {s : State} {i : Instr} {body : Nat → State → State × Fate} {fl : State → Nat → FFlags}
    {f : State → Nat → Agent → Agent} (hx : exec i s = .next (s.issue i (perThread body)))
    (hb : ∀ ag t, body ag t = t.fpGuard ag (fl t ag) fun t => t.modAgent ag (f t ag)) : exec i s = fpEffect i fl f s := by
  rw [hx, funext₂ hb]; rfl

/-- Where no flag raised is enabled, the effect is all that a guarded instruction leaves. -/
theorem fpEffect_becomes {s : State} {i : Instr} {fl : State → Nat → FFlags} {f : State → Nat → Agent → Agent} (ht : Together s i)
    (hx : exec i s = fpEffect i fl f s) (hfl : Own s.ticked fl) (hf : Own s.ticked f) (hk : ∀ ag, Keeps (f s.ticked ag))
    (he : ∀ ag ∈ s.cur.agents, s.ticked.enabled ag (fl s.ticked ag) = false) :
    ∃ t, exec i s = .next t ∧ EachBecomes s i (f s.ticked) t := by
  refine guarded_becomes (body := fun t ag => t.fpGuard ag (fl t ag) fun t => t.modAgent ag (f t ag)) ht fl _ hk hx he
    fun a t hb h hn => ?_
  rw [State.fpGuard, hfl a t hb h, hn, if_neg Bool.false_ne_true, hf a t hb h]

/-- No flag at all traps nothing. -/
@[simp] theorem enabled_zero (s : State) (ag : Nat) : s.enabled ag 0#5 = false := by simp [State.enabled]
/-- What a guarded instruction performs is performed in the state that its flags were tested in. -/
theorem fpGuard_congr {t : State} {ag : Nat} {fl : FFlags} {k k' : State → State} (h : k t = k' t) : t.fpGuard ag fl k = t.fpGuard ag fl k' := by
  rw [State.fpGuard, State.fpGuard, h]
theorem fpGuard_zero (s : State) (ag : Nat) (k : State → State) : s.fpGuard ag 0#5 k = (k s, .next) := by
  rw [State.fpGuard, enabled_zero, if_neg Bool.false_ne_true]

/-! ## Rows of one result -/

/-- What a row of a fixed latency leaves: its value, and its flags once its distance is reached (R163). -/
def fpWrite (lat : Nat) (d : Reg) (v : State → Nat → Word × FFlags) (s : State) (ag : Nat) (a : Agent) : Agent :=
  (a.put lat (dstReg d) (v s ag).1).flagLater lat (v s ag).2
/-- What a row of the FXU leaves: the value and the flags are owed together (R59). -/
def fxuOwe (d : Reg) (v : State → Nat → Word × FFlags) (s : State) (ag : Nat) (a : Agent) : Agent :=
  a.owe true true [toReg d (v s ag).1] (v s ag).2

theorem fpOp_eq (s : State) (i : Instr) (lat : Nat) (d : Reg) (v : State → Nat → Word × FFlags) :
    s.fpOp i lat d v = fpEffect i (fun s g => (v s g).2) (fpWrite lat d v) s := by
  simp only [State.fpOp, fpEffect, State.fpReg, State.wrReg, wr_put_later]; rfl
theorem fxuOp_eq (s : State) (i : Instr) (d : Reg) (v : State → Nat → Word × FFlags) :
    s.fxuOp i d v = fpEffect i (fun s g => (v s g).2) (fxuOwe d v) s := by
  simp only [State.fxuOp, fpEffect, out_owe]; rfl
theorem fpOp_congr {s : State} {i : Instr} {lat : Nat} {d : Reg} {v w : State → Nat → Word × FFlags} (h : ∀ t g, v t g = w t g) :
    s.fpOp i lat d v = s.fpOp i lat d w := by rw [funext₂ h]

theorem exec_fpRow {i : Instr} {lat : Nat} {d : Reg} {v : State → Nat → Word × FFlags} (h : FpRow i lat d v) (s : State) :
    exec i s = fpEffect i (fun s g => (v s g).2) (fpWrite lat d v) s := by
  rw [← fpOp_eq]
  cases h with
  | fabs => exact fpOp_congr fun _ _ => congrArg (·, 0#5) (abs_bits _)
  | fneg => exact fpOp_congr fun _ _ => congrArg (·, 0#5) (neg_bits _)
  | _ => rfl
theorem exec_fxuRow {i : Instr} {d : Reg} {v : State → Nat → Word × FFlags} (h : FxuRow i d v) (s : State) :
    exec i s = fpEffect i (fun s g => (v s g).2) (fxuOwe d v) s := by
  rw [← fxuOp_eq]
  cases h <;> rfl

theorem own_fpRow {i : Instr} {lat : Nat} {d : Reg} {v : State → Nat → Word × FFlags} (h : FpRow i lat d v) (s : State) : Own s v := by
  intro ag t hb ha
  cases h <;> simp only [a32_local hb ha, b7_local hb ha, b32_local hb ha, c32_local hb ha, mode_local hb ha]
theorem own_fxuRow {i : Instr} {d : Reg} {v : State → Nat → Word × FFlags} (h : FxuRow i d v) (s : State) : Own s v := by
  intro ag t hb ha
  cases h <;> simp only [a32_local hb ha, mode_local hb ha]
/-- What depends on the thread's own values alone is its own. -/
theorem Own.map {α β : Type} {s : State} {v : State → Nat → α} (h : Own s v) (g : α → β) : Own s fun t a => g (v t a) :=
  fun a t hb ha => congrArg g (h a t hb ha)
theorem own_fpWrite {s : State} {v : State → Nat → Word × FFlags} (h : Own s v) (lat : Nat) (d : Reg) : Own s (fpWrite lat d v) :=
  h.map fun (r : Word × FFlags) (a : Agent) => (a.put lat (dstReg d) r.1).flagLater lat r.2
theorem own_fxuOwe {s : State} {v : State → Nat → Word × FFlags} (h : Own s v) (d : Reg) : Own s (fxuOwe d v) :=
  h.map fun (r : Word × FFlags) (a : Agent) => a.owe true true [toReg d r.1] r.2

theorem fpWrite_keeps (lat : Nat) (d : Reg) (v : State → Nat → Word × FFlags) (s : State) (ag : Nat) : Keeps (fpWrite lat d v s ag) :=
  (put_keeps lat (dstReg d) (v s ag).1).comp (flagLater_keeps lat (v s ag).2)
theorem fxuOwe_keeps (d : Reg) (v : State → Nat → Word × FFlags) (s : State) (ag : Nat) : Keeps (fxuOwe d v s ag) :=
  owe_keeps true true [toReg d (v s ag).1] (v s ag).2

/-- Settles O13: one register write and the flags of its row, guarded by them. -/
theorem fpResults : Obligations.FpResults := fun s _ lat d v h ht he =>
  fpEffect_becomes (f := fpWrite lat d v) ht (exec_fpRow h s) ((own_fpRow h _).map (·.2)) (own_fpWrite (own_fpRow h _) lat d)
    (fpWrite_keeps lat d _ _) he
/-- Settles O14: one owed result with the flags of its row, guarded by them. -/
theorem fxuResults : Obligations.FxuResults := fun s _ d v h ht he =>
  fpEffect_becomes (f := fxuOwe d v) ht (exec_fxuRow h s) ((own_fxuRow h _).map (·.2)) (own_fxuOwe (own_fxuRow h _) d) (fxuOwe_keeps d _ _) he

/-! ## Rows of several results, and of the stochastic state -/

theorem wrRange_putRange (ag lat : Nat) (ws : List Word) : ∀ (s : State) (r : Nat),
    s.wrRange ag lat r ws = s.modAgent ag fun a => a.putRange lat r ws := by
  induction ws with
  | nil => exact fun s _ => (modAgent_id s ag).symm
  | cons w ws ih => exact fun s r => by rw [State.wrRange, wr_put, ih, modAgent_modAgent]; rfl
/-- A write of %rngseed that only RS makes (R89). -/
theorem setSeed_if (s : State) (ag : Nat) (m : RMode) (z : Word) :
    (bif m == .rs then s.setSeed ag z else s) = s.modAgent ag fun a => if m = .rs then a.put 0 (some (.csr 0x22)) z else a := by
  by_cases h : m = .rs
  · simp only [h, beq_self_eq_true, cond_true, if_true]
    exact wr_put ..
  · simp only [h, beq_eq_false_iff_ne.2 h, cond_false, if_false]
    exact (modAgent_id s ag).symm
/-- The writes of a register and of its flags after a step of the stochastic state. -/
theorem seedWrite (s : State) (ag : Nat) (m : RMode) (z : Word) (d : Reg) (x : Word) (f : FFlags) :
    ((bif m == .rs then s.setSeed ag z else s).wrReg ag 5 d x).flagAt ag 5 f = s.modAgent ag fun a =>
      ((if m = .rs then a.put 0 (some (.csr 0x22)) z else a).put 5 (dstReg d) x).flagLater 5 f := by
  rw [setSeed_if, State.wrReg, wr_put_later, modAgent_modAgent]; rfl

theorem fcvt1_eq (t : State) (ag : Nat) (sat : Bool) (k : Nat) (rm : BitVec 3) (c : Nat) (d a : Reg) :
    t.fcvt1 ag sat false k rm c d a =
      let r := vNarrow c (widthOf c) k (t.mode ag rm) sat (t.seed ag) (t.d32 ag d) (t.a32 ag a)
      t.fpGuard ag r.1.2 fun s => ((bif s.mode ag rm == .rs then s.setSeed ag r.2 else s).wrReg ag 5 d r.1.1).flagAt ag 5 r.1.2 := by
  simp only [State.fcvt1, Bool.false_eq_true, if_false]
theorem qnt1_eq {c : Nat} (hc : c ≠ 9) (t : State) (ag : Nat) (sat : Bool) (rm : BitVec 3) (d a : Reg) (b : Src) :
    t.qnt1 ag sat rm c d a b =
      let r := vQnt c (t.mode ag rm) sat ((t.b32 ag b).toNat % 256)
        ((List.range (32 / widthOf c)).map fun k => t.regN ag (10 + k) (a.toNat + k)) (t.seed ag)
      t.fpGuard ag r.2.1 fun s => ((bif t.mode ag rm == .rs then s.setSeed ag r.2.2 else s).wrReg ag 5 d (BitVec.ofNat 32 r.1)).flagAt ag 5 r.2.1 := by
  simp only [State.qnt1, hc, if_false]

theorem exec_fpManyRow {i : Instr} {fl : State → Nat → FFlags} {f : State → Nat → Agent → Agent} (h : FpManyRow i fl f) (s : State) :
    exec i s = fpEffect i fl f s := by
  cases h with
  | fcmp =>
    refine fpEffect_of_body rfl fun ag t => fpGuard_congr ?_
    rw [State.wrPred, wr_put_later, Bool.cond_eq_ite]
  | widen =>
    refine fpEffect_of_body rfl fun ag t => ?_
    rw [State.fcvt1, if_pos rfl]
    refine fpGuard_congr ?_
    rw [State.wrReg, wr_put_later]
  | narrow =>
    refine fpEffect_of_body rfl fun ag t => ?_
    rw [fcvt1_eq]
    exact fpGuard_congr (seedWrite ..)
  | qnt _ _ _ _ _ _ _ hfmt =>
    refine fpEffect_of_body rfl fun ag t => ?_
    rw [qnt1_eq hfmt]
    exact fpGuard_congr (seedWrite ..)
  | qntScale =>
    refine fpEffect_of_body rfl fun ag t => ?_
    rw [fpGuard_zero]
    simp only [State.qnt1, State.wrReg, wr_put]
    rfl
  | dqnt =>
    refine fpEffect_of_body rfl fun ag t => ?_
    rw [State.dqnt1, State.fpRange]
    refine fpGuard_congr ?_
    rw [wrRange_putRange, flagAt_later, modAgent_modAgent]
    rfl
  | had =>
    refine fpEffect_of_body rfl fun ag t => fpGuard_congr ?_
    rw [wrRange_putRange, flagAt_later, modAgent_modAgent]
    rfl
  | cmpr =>
    refine fpEffect_of_body rfl fun ag t => ?_
    simp only [fpGuard_zero, State.wrReg, wrRange_putRange, wr_put, modAgent_modAgent]
    rfl

theorem qntWords_local {s t : State} {g : Nat} (hb : Beside s t) (h : t.agent g = s.agent g) (a : Reg) (fmt : BitVec 4) :
    qntWords t g a fmt = qntWords s g a fmt := by simp only [qntWords, regN_local hb h]
theorem own_fpManyRow {i : Instr} {fl : State → Nat → FFlags} {f : State → Nat → Agent → Agent} (h : FpManyRow i fl f) (s : State) :
    Own s fl ∧ Own s f := by
  constructor <;> intro ag t hb ha <;>
    cases h <;> simp only [a32_local hb ha, b32_local hb ha, d32_local hb ha, mode_local hb ha, seed_local hb ha,
      qntWords_local hb ha, regs_local hb ha]
theorem Keeps.ite {f g : Agent → Agent} {p : Prop} [Decidable p] (hf : Keeps f) (hg : Keeps g) : Keeps fun a => if p then f a else g a := by
  split <;> assumption
theorem fpManyRow_keeps {i : Instr} {fl : State → Nat → FFlags} {f : State → Nat → Agent → Agent} (h : FpManyRow i fl f) (s : State) (ag : Nat) :
    Keeps (f s ag) := by
  cases h with
  | fcmp => exact (put_keeps ..).comp (flagLater_keeps ..)
  | widen => exact (put_keeps ..).comp (flagLater_keeps ..)
  | narrow => exact ((Keeps.ite (put_keeps ..) .id).comp (put_keeps ..)).comp (flagLater_keeps ..)
  | qnt => exact ((Keeps.ite (put_keeps ..) .id).comp (put_keeps ..)).comp (flagLater_keeps ..)
  | qntScale => exact put_keeps ..
  | dqnt => exact (putRange_keeps ..).comp (flagLater_keeps ..)
  | had => exact (putRange_keeps ..).comp (flagLater_keeps ..)
  | cmpr => exact (putRange_keeps ..).comp (put_keeps ..)

/-- Settles O15: the effect of each row, guarded by its flags. -/
theorem fpManyResults : Obligations.FpManyResults := fun s _ _ _ h ht he =>
  fpEffect_becomes ht (exec_fpManyRow h s) (own_fpManyRow h _).1 (own_fpManyRow h _).2 (fpManyRow_keeps h _) he

end Sys2Proof.Machine
end

section
/-! SUPPORT. Cross-lane operations (R191 to R195): operands of the whole participating set are read before any destination is written. -/

namespace Sys2Proof.Machine
open Sys2Proof.Claims

/-! ## SHFL and VOTE (R193, R194) -/

/-- A cross-lane instruction without flags changes each participating thread in its own way, from the set and the operands of the issue. -/
def crossEffect (i : Instr) (f : State → List Nat → Nat → Agent → Agent) (s : State) : Result :=
  .next (s.issue i fun ags s0 => plain (fun ag t => t.modAgent ag (f s0 ags ag)) ags s0)

theorem wr_foldl_putRange {α : Type} (ag lat : Nat) (w : α → Word) (l : List α) : ∀ (s : State) (r : Nat) (n : α → Nat),
    l.map n = List.range' r l.length → l.foldl (fun s k => s.wr ag lat (some (.reg (n k))) (w k)) s = s.modAgent ag fun a => a.putRange lat r (l.map w) := by
  induction l with
  | nil => exact fun s _ _ _ => (modAgent_id s ag).symm
  | cons x l ih =>
    intro s r n hn
    rw [List.map_cons, List.length_cons, List.range'_succ, List.cons.injEq] at hn
    rw [List.foldl_cons, ih _ (r + 1) n hn.2, wr_put, modAgent_modAgent, hn.1]
    rfl

theorem exec_crossRow {i : Instr} {f : State → List Nat → Nat → Agent → Agent} (h : CrossRow i f) (s : State) :
    exec i s = crossEffect i f s := by
  have hshfl : ∀ mode seg d a b pc, shflBody mode seg d a b pc =
      fun ags s0 => plain (fun ag t => t.modAgent ag (shflEffect mode seg d a b pc s0 ags ag)) ags s0 := by
    intro mode seg d a b pc
    funext ags s0
    simp only [shflBody]
    congr 1
    funext ag t
    exact out_owe ..
  have hvote : ∀ pd p, voteBody pd p = fun ags s0 => plain (fun ag t => t.modAgent ag fun a =>
      a.put 2 (dstPred pd) (if p ags s0 = true then 1#32 else 0#32)) ags s0 := by
    intro pd p
    funext ags s0
    simp only [voteBody, State.wrPred, wr_put, Bool.cond_eq_ite]
  cases h with
  | shflIdx _ seg d a b pc => exact congrArg (fun body => Host.Outcome.next (s.issue _ body)) (hshfl 0 seg d a b pc)
  | shflUp _ seg d a b pc => exact congrArg (fun body => Host.Outcome.next (s.issue _ body)) (hshfl 1 seg d a b pc)
  | shflDown _ seg d a b pc => exact congrArg (fun body => Host.Outcome.next (s.issue _ body)) (hshfl 2 seg d a b pc)
  | shflXor _ seg d a b pc => exact congrArg (fun body => Host.Outcome.next (s.issue _ body)) (hshfl 3 seg d a b pc)
  | voteAny _ pd => exact congrArg (fun body => Host.Outcome.next (s.issue _ body)) (hvote pd _)
  | voteAll _ pd => exact congrArg (fun body => Host.Outcome.next (s.issue _ body)) (hvote pd _)
  | voteEq _ pd => exact congrArg (fun body => Host.Outcome.next (s.issue _ body)) (hvote pd _)
  | voteBallot _ d pa =>
    refine congrArg (fun body => Host.Outcome.next (s.issue _ body)) (funext₂ fun ags s0 => ?_)
    congr 1
    funext ag t
    exact wr_foldl_putRange _ _ _ _ t d.toNat _ (by simp [List.range_eq_range', List.map_add_range'])

theorem crossRow_keeps {i : Instr} {f : State → List Nat → Nat → Agent → Agent} (h : CrossRow i f) (s : State) (ags : List Nat) (ag : Nat) :
    Keeps (f s ags ag) := by
  cases h with
  | shflIdx => exact owe_keeps ..
  | shflUp => exact owe_keeps ..
  | shflDown => exact owe_keeps ..
  | shflXor => exact owe_keeps ..
  | voteAny => exact put_keeps ..
  | voteAll => exact put_keeps ..
  | voteEq => exact put_keeps ..
  | voteBallot => exact putRange_keeps ..

/-- Settles O16: each participating thread ends as its row says of the set, whose operands are read first. -/
theorem crossResults : Obligations.CrossResults := fun s _ f h ht =>
  cross_becomes ht (f s.ticked (s.performers _)) (crossRow_keeps h _ _) (exec_crossRow h s)
    (plain_each _ (performers_nodup ht) fun _ _ _ _ _ => rfl)

/-! ## GRED (R195) -/

/-- The value and the flags that a thread's segment gives it, from the participating set (R192, R195). -/
def gredOf (seg : BitVec 3) (a : Reg) (v : State → Nat → List Word → Word × FFlags) (s : State) (ags : List Nat) (ag : Nat) : Word × FFlags :=
  v s ((s.segOf ags seg ag).headD ag) ((s.segOf ags seg ag).map fun x => s.a32 x a)

theorem exec_gredRow {i : Instr} {seg : BitVec 3} {d a : Reg} {v : State → Nat → List Word → Word × FFlags} (h : GredRow i seg d a v)
    (s : State) : exec i s = .next (s.issue i (gredBody seg d a v)) := by
  cases h <;> rfl

/-- Each thread of a GRED is guarded by the flags of its own segment (R85, R195). -/
theorem gredBody_eq (seg : BitVec 3) (d a : Reg) (v : State → Nat → List Word → Word × FFlags) (ags : List Nat) (s0 : State) :
    gredBody seg d a v ags s0 = perThread (fun ag t => t.fpGuard ag (gredOf seg a v s0 ags ag).2 fun t =>
      t.modAgent ag fun x => x.owe true false [toReg d (gredOf seg a v s0 ags ag).1] (gredOf seg a v s0 ags ag).2) ags s0 := by
  simp only [gredBody, out_owe]; rfl

/-- Settles O17: the value of its segment is owed to each thread whose flags are not enabled. -/
theorem gredResults : Obligations.GredResults := by
  intro s i seg d a v h ht he
  refine cross_becomes ht _ (fun _ => owe_keeps ..) (exec_gredRow h s) ?_
  rw [gredBody_eq]
  refine perThread_each _ (fun _ => .next) _ (performers_nodup ht) (fun ag hag t hb ha => ?_) _ (.refl _) fun _ _ => rfl
  have hn : t.enabled ag (gredOf seg a v s.ticked (s.performers i) ag).2 = false := by
    rw [enabled_local hb ha]; exact he ag (List.mem_filter.1 hag).1
  rw [State.fpGuard, hn, if_neg Bool.false_ne_true]
  rfl

end Sys2Proof.Machine
end

section
/-! SUPPORT. Results below their latency (R57): what a read sees of a register with one producer in flight. -/

namespace Sys2Proof.Machine
open Sys2Proof.Claims

/-- Of a register's results below their latency, all have one old value and one distance. -/
def OneProducer (d : Dst) (old : Word) (due : Nat) (l : List Pend) : Prop := ∀ p ∈ l, p.dst = d → p.old = old ∧ p.due = due

/-- A read sees the new value or the old one. -/
theorem seeThrough_new_or_old {issued due : Nat} {new : Nat → Bool} {d : Dst} {old : Word} (l : List Pend) :
    ∀ (k : Nat) (v : Word), OneProducer d old due l → seeThrough issued new d k v l = v ∨ seeThrough issued new d k v l = old := by
  induction l with
  | nil => exact fun _ _ _ => .inl rfl
  | cons p l ih =>
    intro k v h
    have hl : OneProducer d old due l := fun q hq => h q (List.mem_cons_of_mem _ hq)
    rw [seeThrough]
    cases hd : p.dst == d
    · exact ih k v hl
    · cases decide (p.due ≤ issued)
      · cases new k
        · have hold := (h p List.mem_cons_self (beq_iff_eq.1 hd)).1
          simp only [cond_true, cond_false, hold]
          exact .inr ((ih (k + 1) old hl).elim id id)
        · exact .inl rfl
      · exact .inl rfl
/-- A read at the distance sees the new value. -/
theorem seeThrough_due {issued due : Nat} {new : Nat → Bool} {d : Dst} {old : Word} (hdue : due ≤ issued) (l : List Pend) :
    ∀ (k : Nat) (v : Word), OneProducer d old due l → seeThrough issued new d k v l = v := by
  induction l with
  | nil => exact fun _ _ _ => rfl
  | cons p l ih =>
    intro k v h
    rw [seeThrough]
    cases hd : p.dst == d
    · exact ih k v fun q hq => h q (List.mem_cons_of_mem _ hq)
    · have := (h p List.mem_cons_self (beq_iff_eq.1 hd)).2
      rw [decide_eq_true (this ▸ hdue)]
      rfl

/-! ## Later issues -/

theorem livePend_subset (n : Nat) (l : List Pend) : livePend n l ⊆ l := by
  induction l with
  | nil => exact List.Subset.refl _
  | cons p l ih =>
    intro q hq
    rw [livePend] at hq
    cases h : decide (n < p.due) <;> rw [h] at hq
    · exact List.mem_cons_of_mem _ (ih (List.mem_filter.1 hq).1)
    · rcases List.mem_cons.1 hq with rfl | hq
      · exact List.mem_cons_self
      · exact List.mem_cons_of_mem _ (ih hq)
theorem orFlags_oneProducer {d : Dst} (hd : d ≠ .csr 0x20) {old : Word} {due : Nat} {a : Agent} (f : BitVec 5)
    (h : OneProducer d old due a.pend) : OneProducer d old due (a.orFlags f).pend := by
  rw [Agent.orFlags]
  cases f == 0#5
  · intro p hp hpd
    obtain ⟨q, hq, rfl⟩ := List.mem_map.1 hp
    cases hc : q.dst == .csr 0x20 <;> rw [hc] at hpd
    · exact h q hq hpd
    · exact absurd ((beq_iff_eq.1 hc).symm.trans hpd) hd.symm
  · exact h
theorem foldl_orFlags_oneProducer {d : Dst} (hd : d ≠ .csr 0x20) {old : Word} {due : Nat} (l : List (Nat × BitVec 5)) :
    ∀ a : Agent, OneProducer d old due a.pend → OneProducer d old due (l.foldl (fun b p => b.orFlags p.2) a).pend := by
  induction l with
  | nil => exact fun _ h => h
  | cons x l ih => exact fun a h => ih _ (orFlags_oneProducer hd x.2 h)
theorem tick_oneProducer {d : Dst} (hd : d ≠ .csr 0x20) {old : Word} {due : Nat} {a : Agent} (h : OneProducer d old due a.pend) :
    OneProducer d old due a.tick.pend := fun p hp =>
  foldl_orFlags_oneProducer hd _ a h p (livePend_subset _ _ hp)

@[simp] theorem tick_issued (a : Agent) : a.tick.issued = a.issued + 1 := rfl
theorem tick_get_reg (a : Agent) (r : Nat) : a.tick.get (.reg r) = a.get (.reg r) :=
  (tick_spares [] a).regs (.reg r) List.not_mem_nil Dst.noConfusion Dst.noConfusion

theorem laterBy_oneProducer {d : Dst} (hd : d ≠ .csr 0x20) {old : Word} {due : Nat} (n : Nat) :
    ∀ a : Agent, OneProducer d old due a.pend → OneProducer d old due (laterBy n a).pend := by
  induction n with
  | zero => exact fun _ h => h
  | succ n ih => exact fun a h => ih _ (tick_oneProducer hd h)
theorem laterBy_issued (n : Nat) : ∀ a : Agent, (laterBy n a).issued = a.issued + n := by
  induction n with
  | zero => exact fun _ => rfl
  | succ n ih => exact fun a => by rw [laterBy, ih, tick_issued, Nat.add_assoc, Nat.add_comm 1]
theorem laterBy_get_reg (n r : Nat) : ∀ a : Agent, (laterBy n a).get (.reg r) = a.get (.reg r) := by
  induction n with
  | zero => exact fun _ => rfl
  | succ n ih => exact fun a => (ih _).trans (tick_get_reg a r)

/-! ## The obligation -/

/-- A register holds what was written to it. -/
theorem get_set_reg_self {a : Agent} {r : Nat} (hr : r < a.regs.length) (x : Word) : (a.set (.reg r) x).get (.reg r) = x := by
  simp [Agent.set, Agent.get, hr]

/-- Settles O22: the write is the register's one producer, however many instructions issue after it. -/
theorem readsOfLateResults : Obligations.ReadsOfLateResults := by
  intro a free ag pos lat n r x hr hnone
  have hone : OneProducer (.reg r) (a.get (.reg r)) (a.issued + lat) (laterBy n (a.put lat (some (.reg r)) x)).pend := by
    refine laterBy_oneProducer Dst.noConfusion n _ fun p hp hpd => ?_
    rcases List.mem_cons.1 hp with rfl | hp
    · exact ⟨rfl, rfl⟩
    · exact absurd hpd (hnone p hp)
  have hissued : (laterBy n (a.put lat (some (.reg r)) x)).issued = a.issued + n := laterBy_issued n _
  have hget : (laterBy n (a.put lat (some (.reg r)) x)).get (.reg r) = x := (laterBy_get_reg n r _).trans (get_set_reg_self hr x)
  rw [Agent.see, hget, hissued]
  exact ⟨fun hlat => seeThrough_due (Nat.add_le_add_left hlat _) _ 0 x hone, seeThrough_new_or_old _ 0 x hone⟩

/-! ## Constants -/

/-- Settles O21: a constant has no destination, and its reads look at no register. -/
theorem constantRegisters : Obligations.ConstantRegisters := fun _ _ _ _ _ _ => ⟨rfl, rfl, rfl, rfl⟩

end Sys2Proof.Machine
end

section
/-! SUPPORT. CSRR and CSRW of plain registers, NOP, PREF and FENCE at thread scope (R162, R208, R215, R220): effects that are a thread's own. -/

namespace Sys2Proof.Machine
open Sys2Proof.Claims

/-- Two states that differ in threads only, with the threads of the second written out. -/
theorem Beside.eq {s t : State} (h : Beside s t) : ∃ as, t = { s with lanes := { s.lanes with agents := as } } := ⟨_, h⟩

/-! ## CSRR reads its thread and what stands above it -/

theorem taskOf_local {s t : State} {a : Nat} (hb : Beside s t) (h : t.agent a = s.agent a) : t.taskOf a = s.taskOf a := by
  obtain ⟨as, rfl⟩ := hb.eq
  simp only [State.taskOf, State.shareOf, h]; rfl
theorem csrFixed_local {s t : State} {a : Nat} (hb : Beside s t) (h : t.agent a = s.agent a) (n : Nat) : t.csrFixed a n = s.csrFixed a n := by
  obtain ⟨as, rfl⟩ := hb.eq
  simp only [State.csrFixed, State.tid, State.coreOf, State.kernelOf, State.launchOf, State.teamOf, State.taskOf, State.shareOf, h]
  rfl
theorem counter64_local {s t : State} {a : Nat} (hb : Beside s t) (h : t.agent a = s.agent a) (c : Bool) : t.counter64 a c = s.counter64 a c := by
  obtain ⟨as, rfl⟩ := hb.eq
  simp only [State.counter64, State.coreOf, State.vdOf, State.taskOf, State.shareOf, h]
  rfl
theorem debugSeen_local {s t : State} {a : Nat} (hb : Beside s t) (h : t.agent a = s.agent a) (pos n issued : Nat) :
    t.debugSeen a pos n issued = s.debugSeen a pos n issued := by
  simp only [State.debugSeen, taskOf_local hb h, h]
  obtain ⟨as, rfl⟩ := hb.eq
  rfl

/-- A CSRR that captures nothing: its value, with no change of the machine (R64, R65). -/
def State.csrValue (s : State) (ag n : Nat) : Word :=
  if n = 0x011 then half ((s.agent ag).fp.time.getD (s.counter64 ag false)) true
  else if n = 0x013 then half ((s.agent ag).fp.clock.getD (s.counter64 ag true)) true
  else if csrOwn n = true then s.rd ag 1 (.csr n)
  else if 0x801 ≤ n ∧ n ≤ 0x809 then s.debugSeen ag 1 n (s.agent ag).issued
  else s.csrFixed ag n
theorem csrRead_plain (s : State) (ag : Nat) {n : Nat} (h10 : n ≠ 0x010) (h12 : n ≠ 0x012) : s.csrRead ag n = (s, s.csrValue ag n) := by
  unfold State.csrRead State.csrValue
  split
  · exact absurd rfl h10
  · rfl
  · exact absurd rfl h12
  · rfl
  · next h11 _ h13 =>
    rw [if_neg h11, if_neg h13]
    split
    · rfl
    · split <;> rfl
theorem csrValue_local {s t : State} {a : Nat} (hb : Beside s t) (h : t.agent a = s.agent a) (n : Nat) : t.csrValue a n = s.csrValue a n := by
  simp only [State.csrValue, h, counter64_local hb h, rd_local hb h, debugSeen_local hb h, csrFixed_local hb h]

/-! ## The rows -/

theorem csrRead1_plain (s : State) (ag : Nat) {n : Nat} (d : Reg) (hn : n ≠ 0x010 ∧ n ≠ 0x012 ∧ n ≠ 0x020) :
    s.csrRead1 ag n d = (s.modAgent ag fun a => a.put 1 (dstReg d) (s.csrRead ag n).2, .next) := by
  obtain ⟨h10, h12, h20⟩ := hn
  simp only [State.csrRead1, h20, if_false, csrRead_plain s ag h10 h12, State.wrReg, wr_put]
theorem csrWrite1_plain (s : State) (ag : Nat) {n : Nat} (x : Word) (hn : n ≠ 0x020 ∧ n < 0x800) :
    s.csrWrite1 ag n x = s.modAgent ag fun a => a.put 2 (some (.csr n)) x := by
  rw [State.csrWrite1, if_neg hn.1, if_neg (by omega), wr_put]

theorem csrr_becomes {s : State} {i : Instr} {n : Nat} {d : Reg} (ht : Together s i)
    (hx : exec i s = .next (s.issue i (perThread fun ag t => t.csrRead1 ag n d))) (hn : n ≠ 0x010 ∧ n ≠ 0x012 ∧ n ≠ 0x020) :
    ∃ t, exec i s = .next t ∧ EachBecomes s i (fun ag a => a.put 1 (dstReg d) (s.ticked.csrRead ag n).2) t := by
  refine ⟨_, hx, issue_becomes _ ht (fun _ => put_keeps ..) fun l hl _ => ?_⟩
  refine perThread_each _ (fun _ => .next) l hl (fun ag _ t hb h => ?_) _ (.refl _) fun _ _ => rfl
  rw [csrRead1_plain t ag d hn, csrRead_plain _ _ hn.1 hn.2.1, csrRead_plain _ _ hn.1 hn.2.1]
  dsimp only
  rw [csrValue_local hb h]
theorem csrw_becomes {s : State} {i : Instr} {n : Nat} {a : Reg} (ht : Together s i)
    (hx : exec i s = .next (s.issue i (plain fun ag t => t.csrWrite1 ag n (t.a32 ag a)))) (hn : n ≠ 0x020 ∧ n < 0x800) :
    ∃ t, exec i s = .next t ∧ EachBecomes s i (fun ag x => x.put 2 (some (.csr n)) (s.ticked.a32 ag a)) t := by
  refine ⟨_, hx, issue_becomes _ ht (fun _ => put_keeps ..) fun l hl _ => plain_each _ hl fun ag _ t hb h => ?_⟩
  rw [csrWrite1_plain t ag _ hn, a32_local hb h]
/-- An instruction without effect. -/
theorem idle_becomes {s : State} {i : Instr} (ht : Together s i) (hx : exec i s = .next (s.issue i (plain fun _ t => t))) :
    ∃ t, exec i s = .next t ∧ EachBecomes s i (fun _ a => a) t :=
  ⟨_, hx, issue_becomes _ ht (fun _ => .id) fun _ hl _ => plain_each _ hl fun ag _ t _ _ => (modAgent_id t ag).symm⟩

/-- Settles O18: a read without a capture, a write of the thread's own register, or no effect. -/
theorem plainResults : Obligations.PlainResults := by
  intro s i f h ht
  cases h with
  | csrr _ _ _ hn => exact csrr_becomes ht rfl hn
  | csrrExt _ _ _ hn => exact csrr_becomes ht rfl hn
  | csrw _ _ _ hn => exact csrw_becomes ht rfl hn
  | csrwExt _ _ _ hn => exact csrw_becomes ht rfl hn
  | nop => exact idle_becomes ht rfl
  | pref => exact idle_becomes ht rfl
  | fence => exact idle_becomes ht rfl

end Sys2Proof.Machine
end

section
/-! SUPPORT. A thread that traps alone in its fragment: it enters its handler (R233), or its trap is unhandled (R235), or the instruction is returned from (R234). -/

namespace Sys2Proof.Machine
open Sys2Proof.Claims

/-! ## An instruction performed alone -/

section
variable {s t : State} {i : Instr} {ag : Nat} {k : Fate}

theorem exec_alone_perThread {g : Nat → State → State × Fate} (ha : Alone s i ag) (hx : exec i s = .next (s.issue i (perThread g)))
    (hg : g ag s.ticked = (t, k)) : exec i s = .next (Ends s i ag t k) := by rw [hx, perThread_alone ha hg]
theorem exec_alone_plain {g : Nat → State → State} (ha : Alone s i ag) (hx : exec i s = .next (s.issue i (plain g)))
    (hg : g ag s.ticked = t) : exec i s = .next (Ends s i ag t .next) := by rw [hx, plain_alone ha hg]
theorem exec_alone_elected {g : Nat → State → State × Fate} (ha : Alone s i ag) (hx : exec i s = .next (s.issue i (elected g)))
    (hg : g ag s.ticked = (t, k)) : exec i s = .next (Ends s i ag t k) := by rw [hx, elected_alone ha hg]

theorem ticked_alone (hc : s.cur.agents = [ag]) : s.ticked = s.modAgent ag Agent.tick := by simp only [State.ticked, hc]; rfl
theorem ticked_agent_alone (hc : s.cur.agents = [ag]) (hl : ag < s.lanes.agents.length) : s.ticked.agent ag = (s.agent ag).tick := by
  rw [ticked_alone hc, State.modAgent_agent_self _ _ _ hl]

end

/-! ## Entering the handler (R233) -/

/-- A thread that goes to a handler and nothing that holds the trap. -/
structure ToHandler (s : State) (ag cause : Nat) : Prop where
  exists_ : ag < s.lanes.agents.length
  ready : (s.agent ag).status = .ready
  handler : HandlerReady (s.agent ag)
  undebugged : s.debugged ag cause = false

theorem settle_of_none {a : Agent} (h : a.outst = []) : a.settle = { a with outst := [], pend := [], fp := { a.fp with
    fstat := a.fp.fpend.foldl (fun f p => f ||| p.2) a.fp.fstat, fpend := [] } } := by
  simp only [Agent.settle, h, List.filter_nil, List.foldl_nil]

theorem modAgent_launchOf (s : State) (ag : Nat) (f : Agent → Agent) (hf : ∀ a, (f a).home = a.home) :
    (s.modAgent ag f).launchOf ag = s.launchOf ag := by
  have hhome : ((s.modAgent ag f).agent ag).home = (s.agent ag).home := by
    rw [State.modAgent_agent]; split <;> simp [hf]
  simp only [State.launchOf, State.taskOf, State.shareOf, hhome, State.modAgent_share, State.modAgent_task]
theorem modAgent_policyOf (s : State) (ag : Nat) (f : Agent → Agent) (hf : ∀ a, (f a).home = a.home) :
    (s.modAgent ag f).policyOf ag = s.policyOf ag := by
  simp only [State.policyOf, modAgent_launchOf s ag f hf, State.modAgent_launch]
theorem modAgent_debugged (s : State) (ag cause : Nat) (f : Agent → Agent) (hf : ∀ a, (f a).home = a.home) :
    (s.modAgent ag f).debugged ag cause = s.debugged ag cause := by
  simp only [State.debugged, modAgent_policyOf s ag f hf]

/-- TakeTrap enters the handler of a thread that has one (R233). -/
theorem takeTrap_enters {s : State} {ag cause : Nat} (h : ToHandler s ag cause) (hw : (s.agent ag).wHold = false) (pc addr : DWord) (info : Word) :
    s.takeTrap ag cause pc addr info = s.modAgent ag fun _ => inHandler (s.agent ag).settle cause pc addr info := by
  obtain ⟨hout, hh, hv⟩ := h.handler
  have hset := settle_of_none hout
  have hag : (s.modAgent ag Agent.settle).agent ag = (s.agent ag).settle := State.modAgent_agent_self _ _ _ h.exists_
  have hvec : ((s.agent ag).trap.vec == 0#64) = false := beq_eq_false_iff_ne.2 hv
  have hdbg := (modAgent_debugged s ag cause _ settle_home).trans h.undebugged
  have hwait : (s.modAgent ag Agent.settle).trapWaits ag cause = false := by
    simp only [State.trapWaits, hag, hdbg]
    rw [hset]
    simp only [hh, hvec, Bool.or_self, Bool.false_and]
  simp only [State.takeTrap, State.takeTrapWith, hwait, hdbg, cond_false, hag]
  rw [hset]
  simp only [hh, hvec, Bool.or_self, cond_false]
  rw [modAgent_modAgent, modAgent_eq_const]
  congr 1
  funext _
  simp only [Function.comp, hset, inHandler, hw, List.isEmpty_nil, Bool.not_true]

/-- An instruction that traps alone, by a cause that no version keeps as a task fault (R236). -/
theorem ends_trap {s t : State} {i : Instr} {ag cause : Nat} {addr : DWord} {info : Word} (hl : t.live ag = true)
    (hs : (s.agent ag).stepOnce = false) (hc : memoryClass cause = false) :
    Ends s i ag t (.trap cause addr info) = t.takeTrap ag cause (s.agent ag).pc addr info := by
  have hstep : ∀ u : State, u.stepEnd ag (s.agent ag) = u := fun u => by simp only [State.stepEnd, hs, Bool.false_and, cond_false]
  simp only [Ends, State.settleFate, State.trapFate, hl, Bool.not_true, Bool.false_eq_true, if_false, State.raise, hc, Bool.false_and,
    cond_false, hstep]
theorem ends_trap_enters {s t : State} {i : Instr} {ag cause : Nat} {addr : DWord} {info : Word} (hs : (s.agent ag).stepOnce = false)
    (hc : memoryClass cause = false) (ht : ToHandler t ag cause) (hw : (t.agent ag).wHold = false) :
    Ends s i ag t (.trap cause addr info) = t.modAgent ag fun _ => inHandler (t.agent ag).settle cause (s.agent ag).pc addr info := by
  rw [ends_trap (live_of ht.exists_ ht.ready) hs hc, takeTrap_enters ht hw]

/-! ## A thread at its issue -/

section
variable {s : State} {i : Instr} {ag : Nat}

theorem tick_outst (a : Agent) : a.tick.outst = a.outst := by
  obtain ⟨f, p, h⟩ := foldl_orFlags_only (a.fp.fpend.filter fun p => decide (p.1 ≤ a.issued + 1)) a
  simp only [Agent.tick, h]
theorem tick_files (a : Agent) : a.tick.regs = a.regs ∧ a.tick.preds = a.preds ∧ a.tick.fp.rngseed = a.fp.rngseed ∧ a.tick.pc = a.pc := by
  obtain ⟨f, p, h⟩ := foldl_orFlags_only (a.fp.fpend.filter fun p => decide (p.1 ≤ a.issued + 1)) a
  simp only [Agent.tick, h, and_self]
theorem tick_trap (a : Agent) : a.tick.trap = a.trap := (tick_spares [] a).trap
theorem tick_home (a : Agent) : a.tick.home = a.home := (tick_spares [] a).home
theorem tick_wHold (a : Agent) : a.tick.wHold = false := rfl
theorem tick_handlerReady {a : Agent} (h : HandlerReady a) : HandlerReady a.tick := by
  rw [HandlerReady, tick_outst, tick_trap]; exact h

/-- A thread that issues alone goes to its handler from any effect that leaves it ready for one. -/
theorem toHandler_ticked {cause : Nat} (hc : s.cur.agents = [ag]) (hu : Unstepped s ag) (hh : HandlerReady (s.agent ag))
    (hd : s.debugged ag cause = false) : ToHandler s.ticked ag cause := by
  obtain ⟨hl, hr, -, -⟩ := hu
  have hag := ticked_agent_alone hc hl
  refine ⟨?_, ?_, ?_, ?_⟩
  · rw [ticked_alone hc]; simpa using hl
  · rw [hag, tick_keeps.status]; exact hr
  · rw [hag]; exact tick_handlerReady hh
  · rw [ticked_alone hc, modAgent_debugged _ _ _ _ tick_home]; exact hd

end

/-! ## TRAP and BRK (R188) -/

/-- %tinfo of a software trap: the low 16 bits of the operand, and the instruction's length above them. -/
theorem trapInfo_eq (b : Word) (len : Nat) : trapInfo b len = BitVec.ofNat 32 (b.toNat % 65536 + len * 65536) := by
  have hlow : b &&& 0xFFFF#32 = BitVec.ofNat 32 (b.toNat % 65536) := by
    apply BitVec.eq_of_toNat_eq
    have : b.toNat &&& 65535 = b.toNat % 2 ^ 16 := Nat.and_two_pow_sub_one_eq_mod b.toNat 16
    simp only [BitVec.toNat_and, BitVec.toNat_ofNat, Nat.reducePow, Nat.reduceMod, this]
    omega
  have hor : len * 65536 ||| b.toNat % 65536 = len * 65536 + b.toNat % 65536 := by
    have := Nat.shiftLeft_add_eq_or_of_lt (i := 16) (b := b.toNat % 65536) (Nat.mod_lt _ (by norm_num)) len
    rw [Nat.shiftLeft_eq] at this
    exact this.symm
  rw [trapInfo, hlow, BitVec.or_comm, ← BitVec.ofNat_or, hor, Nat.add_comm]

theorem exec_trapOf {s : State} {i : Instr} {cause : Nat} {info : State → Nat → Word} (h : TrapOf i cause info) :
    exec i s = .next (s.issue i (perThread fun ag t => (t, .trap cause 0#64 (info t ag)))) := by
  have hinfo : ∀ b len, BitVec.ofNat 32 (BitVec.toNat b % 65536 + len * 65536) = trapInfo b len := fun b len => (trapInfo_eq b len).symm
  cases h <;> simp only [hinfo] <;> rfl

theorem settle_files {a : Agent} (h : a.outst = []) : a.settle.regs = a.regs ∧ a.settle.preds = a.preds ∧
    a.settle.fp.rngseed = a.fp.rngseed ∧ a.settle.trap = a.trap := by
  rw [settle_of_none h]; exact ⟨rfl, rfl, rfl, rfl⟩

/-- Settles O25: the one thread of the fragment takes the trap, and has a handler. -/
theorem softwareTraps : Obligations.SoftwareTraps := by
  intro s i ag cause info h ha hh hdbg
  obtain ⟨hc, hu, -⟩ := id ha
  have hcause : memoryClass cause = false := by cases h <;> rfl
  have hd : s.debugged ag cause = false := by
    rw [State.debugged]
    by_cases he : cause = 0x0B
    · rw [hdbg he, Bool.and_false]
    · rw [beq_eq_false_iff_ne.2 he, Bool.false_and]
  have hto := toHandler_ticked hc hu hh hd
  have hag := ticked_agent_alone hc hu.1
  have hx := exec_alone_perThread ha (exec_trapOf (s := s) h) rfl
  rw [ends_trap_enters hu.2.2.1 hcause hto (by rw [hag]; rfl), hag, ticked_alone hc, modAgent_modAgent] at hx
  refine ⟨_, hx, rfl, ?_⟩
  rw [State.modAgent_agent_self _ _ _ hu.1]
  obtain ⟨hr, hp, -, -⟩ := settle_files ((tick_outst _).trans hh.1)
  obtain ⟨hr', hp', -, -⟩ := tick_files (s.agent ag)
  exact ⟨by rw [← ticked_alone hc]; rfl, hr.trans hr', hp.trans hp'⟩

/-! ## Enabled floating-point flags (R85, R89) -/

theorem orFlags_files (a : Agent) (f : BitVec 5) : (a.orFlags f).regs = a.regs ∧ (a.orFlags f).preds = a.preds ∧
    (a.orFlags f).fp.rngseed = a.fp.rngseed ∧ (a.orFlags f).trap = a.trap ∧ (a.orFlags f).outst = a.outst ∧ (a.orFlags f).status = a.status ∧
    (a.orFlags f).wHold = a.wHold ∧ (a.orFlags f).home = a.home ∧ (a.orFlags f).fp.fpend = a.fp.fpend := by
  obtain ⟨x, p, h⟩ := orFlags_only a f
  simp only [h, and_self]
theorem orFlags_fstat (a : Agent) (f : BitVec 5) : (a.orFlags f).fp.fstat = a.fp.fstat ||| f := by
  by_cases h : f = 0#5
  · subst h; simp [Agent.orFlags]
  · rw [Agent.orFlags, beq_eq_false_iff_ne.2 h]; rfl

/-- An instruction that a thread performs alone and whose flags trap, performs nothing else (R85). -/
theorem fpEffect_traps {s : State} {i : Instr} {ag : Nat} {fl : State → Nat → FFlags} {f : State → Nat → Agent → Agent} (ha : Alone s i ag)
    (hx : exec i s = fpEffect i fl f s) (he : s.ticked.enabled ag (fl s.ticked ag) = true) :
    exec i s = .next (Ends s i ag (s.ticked.modAgent ag fun a => a.orFlags (fl s.ticked ag)) (.trap 0x0D 0#64 ((fl s.ticked ag).setWidth 32))) :=
  exec_alone_perThread ha hx (by rw [State.fpGuard, if_pos he])

/-- The segment of a thread alone is the thread (R192). -/
theorem segOf_alone (s : State) (seg : BitVec 3) (ag : Nat) : s.segOf [ag] seg ag = [ag] := by simp [State.segOf]

theorem raisesOf_traps {s : State} {i : Instr} {ag : Nat} {fl : State → Nat → FFlags} (h : RaisesOf i fl) (ha : Alone s i ag)
    (he : s.ticked.enabled ag (fl s.ticked ag) = true) :
    exec i s = .next (Ends s i ag (s.ticked.modAgent ag fun a => a.orFlags (fl s.ticked ag)) (.trap 0x0D 0#64 ((fl s.ticked ag).setWidth 32))) := by
  cases h with
  | one _ _ _ h => exact (fpEffect_traps ha (exec_fpRow h s) he :)
  | fxu _ _ h => exact (fpEffect_traps ha (exec_fxuRow h s) he :)
  | many _ _ h => exact (fpEffect_traps ha (exec_fpManyRow h s) he :)
  | gred seg d a v h =>
    rw [exec_gredRow h s, issue_alone ha]
    simp only [gredBody_eq, perThread, gredOf, segOf_alone, List.headD_cons, List.map_cons, List.map_nil, State.fpGuard, if_pos he,
      List.lookup_cons, beq_self_eq_true, Option.getD_some]

/-- Settles O23: the flags are set before anything is written, and the thread enters its handler as it was. -/
theorem enabledFlags : Obligations.EnabledFlags := by
  intro s i ag fl h ha he
  have hx := raisesOf_traps h ha he
  refine ⟨hx, fun hh hpend hfpend => ?_⟩
  obtain ⟨hc, hu, -⟩ := ha
  obtain ⟨hl, -, hstep, -⟩ := id hu
  have hto := toHandler_ticked (cause := 0x0D) hc hu hh rfl
  have hag := ticked_agent_alone hc hl
  generalize hf : fl s.ticked ag = f at hx
  obtain ⟨hregs, hpreds, hseed, htrap, hout, hstat, hw, hhome, hfp⟩ := orFlags_files (s.agent ag).tick f
  have hag' : (s.ticked.modAgent ag fun a => a.orFlags f).agent ag = (s.agent ag).tick.orFlags f := by
    rw [State.modAgent_agent_self _ _ _ hto.exists_, hag]
  have hto' : ToHandler (s.ticked.modAgent ag fun a => a.orFlags f) ag 0x0D := by
    refine ⟨by simpa using hto.exists_, ?_, ?_, ?_⟩
    · rw [hag', hstat, ← hag]; exact hto.ready
    · rw [HandlerReady, hag', hout, htrap, ← hag]; exact hto.handler
    · rfl
  rw [ends_trap_enters hstep rfl hto' (by rw [hag', hw]; rfl), hag', modAgent_modAgent, ticked_alone hc, modAgent_modAgent] at hx
  refine ⟨_, hx, rfl, ?_⟩
  rw [State.modAgent_agent_self _ _ _ hl]
  have hnone : ((s.agent ag).tick.orFlags f).outst = [] := hout.trans ((tick_outst _).trans hh.1)
  obtain ⟨hregs', hpreds', hseed', htrap'⟩ := settle_files hnone
  obtain ⟨hregs'', hpreds'', hseed'', -⟩ := tick_files (s.agent ag)
  have htick := tick_spares [] (s.agent ag)
  refine ⟨hregs'.trans (hregs.trans hregs''), hpreds'.trans (hpreds.trans hpreds''), hseed'.trans (hseed.trans hseed''), ?_, ?_, rfl, rfl, rfl⟩
  · show ((s.agent ag).tick.orFlags f).settle.fp.fstat = _
    rw [settle_of_none hnone]
    simp only [hfp, htick.noFlags hfpend, List.foldl_nil, orFlags_fstat, htick.flags hfpend]
  · exact congrArg TrapRegs.vec (htrap'.trans (htrap.trans htick.trap))

/-! ## SRET (R234) -/

/-- A thread that performs an instruction alone and jumps, without a W point. -/
theorem ends_jump {s t : State} {i : Instr} {ag : Nat} {pc : DWord} (hl : ag < t.lanes.agents.length) (hr : (t.agent ag).status = .ready)
    (hsupp : (t.agent ag).supp = (s.agent ag).supp) (hstep : (s.agent ag).stepOnce = false) :
    Ends s i ag t (.jump pc) = t.modAgent ag fun a => a.after i t.free ag (s.agent ag) pc := by
  have htrap : ∀ u : State, u.trapFate ag (s.agent ag) (.jump pc) = u := fun u => by simp only [State.trapFate]; split <;> rfl
  rw [Ends, settle_jump pc hl hr hsupp hstep, htrap]

/-- Both halves of %trpc, read with nothing in flight, are %trpc. -/
theorem resumeAt_of_noPend {s : State} {ag : Nat} (h : (s.agent ag).pend = []) : resumeAt s ag = (s.agent ag).trap.rpc := by
  simp only [resumeAt, State.rd, h, seeThrough, Agent.get, half, cond_true, cond_false]
  exact BitVec.extractLsb'_append_extractLsb'_eq_extractLsb' (h := rfl) |>.trans (by simp)

/-- Settles O26: the thread's own %trpc and H change, and the pc. -/
theorem returnFromTrap : Obligations.ReturnFromTrap := by
  intro s ag ha hpend
  obtain ⟨hc, hu, -⟩ := id ha
  obtain ⟨hl, hr, hstep, -⟩ := hu
  have hag := ticked_agent_alone hc hl
  have hlt : ag < s.ticked.lanes.agents.length := by rw [ticked_alone hc]; simpa using hl
  have htick := tick_spares [] (s.agent ag)
  have hrpc : resumeAt s.ticked ag = (s.agent ag).trap.rpc := by rw [resumeAt_of_noPend hpend, hag, tick_trap]
  have hx : exec (.sret false) s = .next (Ends s (.sret false) ag (s.ticked.modAgent ag fun a => a.sret (s.agent ag).trap.rpc)
      (.jump (s.agent ag).trap.rpc)) := by
    rw [← hrpc]; exact exec_alone_perThread ha rfl rfl
  have hag' : (s.ticked.modAgent ag fun a => a.sret (s.agent ag).trap.rpc).agent ag = (s.agent ag).tick.sret (s.agent ag).trap.rpc := by
    rw [State.modAgent_agent_self _ _ _ hlt, hag]
  rw [ends_jump (by simpa using hlt) (by rw [hag']; exact (tick_keeps.status _).trans hr) (by rw [hag']; exact tick_keeps.supp _) hstep,
    modAgent_modAgent, ticked_alone hc, modAgent_modAgent] at hx
  refine ⟨_, hx, rfl, ?_⟩
  rw [State.modAgent_agent_self _ _ _ hl]
  obtain ⟨hregs, hpreds, -, -⟩ := tick_files (s.agent ag)
  refine ⟨rfl, ?_, hregs, hpreds, htick.link⟩
  show { (s.agent ag).tick.trap with h := false } = _
  rw [tick_trap]

end Sys2Proof.Machine
end

section
/-! SUPPORT. Every instruction is issued by the fragment, and what stops a thread before its instruction leaves the machine alone (R56, R59, R70 to R72, R163, R242). -/

namespace Sys2Proof.Machine
open Sys2Proof.Claims

/-! ## The bodies of instructions -/

/-- No entry is noted of an ADRAIN that no thread issues. -/
theorem noteDrain_nil (f : Nat → State → State × Fate) (s : State) : noteDrain (mxElected f) [] s = (s, []) := by
  simp [noteDrain, mxElected, elected]

/-- An instruction, not an event, is issued: its body does nothing where no thread performs it. -/
theorem exec_issues {i : Instr} (h : i.raw ≠ none) (s : State) :
    ∃ body, exec i s = .next (s.issue i body) ∧ ∀ t, body [] t = (t, []) := by
  cases i with
  | resultWriteback | storeQueueDrain | stsBankWrite | parkRelease | sliceNomination | threadKill | shareRetire | sharePlacement | copyStart |
    copyComplete | chainEntry | chainSendAck | chainRecvwaitMet | chainEnd | weightLatch | matrixOperation | tilePathEntry | adrainComplete |
    matrixEngineReset | matrixResetEnd | blockWriteback | heldChargeDecided | grantMove | balloonRequestOpen | balloonDeadlineExpiry |
    capacityWaitRestart | taskFault | taskRestart | versionCommit | commitRequest | commitTokenGrant | teamRetire | launchWatchdogExpiry |
    dieDistributorRequest | clusterRangeHandout | teamPlacement | rangeSteal | gangFormerPop | binTimeout | cordScheduleWalk | cordAgeingTick | sliceEnd
    | contextSwap | handlerBudgetExpiry | spillComplete | budgetRefill | runEnd | ctxswRunEnd | carveoutChange | carveoutChangeEffect | pageWalk |
    makeResident | replicaCreate | replicaCollapse | stackHandover | loanAgreement | loanEnd | loanDeadlineExpiry | mailboxMessage | queueCreate |
    queueReset | queueDestroy | queueDestroyComplete | doorbellWrite | writeIndexNotice | packetNop | packetLaunch | launchBilletStep | launchDispatch |
    packetCord | packetWait | waitConditionMet | packetWrite | packetSignal | packetWrsigWrite | packetWrsigSignal | packetChainrun | packetRanges |
    kindling | packetCompletion | vdevDescriptor | grantMessage | tenantPause | tenantResume | tenantReset | tenantClear | clearingDone | tenantExport |
    tenantImport | tenantUndefine | checkpoint | debugAccess | debugResume | debugStep | debugKill | debugDropMask | hearthCoreTimeout |
    supervisionTimerExpiry | memoryError | softError | dieLinkLoss | linkEnable | linkTrained | linkTrainingTimeout | linkLostLock | linkRetrained |
    linkRecoveryExpiry | securityAlarmL2 | securityAlarmL3 | thermalThrottle | junctionOvertemp | packageResetBoot | recovery | configRecordUpdate |
    identityRequest | telemetryRecord | telemetryRequest | applicationCoreAccess | pcieHostAccess | inboundFabricWrite | postedWriteAck |
    extrapolationEntry | chargePathLift | ptpCorrection | enrollment => exact absurd rfl h
  | adrain => exact ⟨_, rfl, fun t => noteDrain_nil _ t⟩
  | _ => exact ⟨_, rfl, fun _ => rfl⟩

/-- A thread that does not perform its instruction leaves the machine as it was, but for its own fate. -/
theorem issue_unperformed {s : State} {i : Instr} {ag : Nat} {body : List Nat → State → State × List (Nat × Fate)} {p : Pre}
    (hs : Single s ag) (hbody : ∀ t, body [] t = (t, [])) (hp : s.ticked.pre i ag = p) (hgo : p ≠ .go) (hdef : p ≠ .deferred) :
    s.issue i body = Ends s i ag s.ticked (p.fate (bif issuesAsOne i && p == .stall then some .stall else none)
      (bif issuesAsOne i && p == .stall then .stall else .next)) := by
  obtain ⟨hc, -, -, -, hst⟩ := hs
  have ht : s.ticked = s.modAgents Agent.tick [ag] := by simp only [State.ticked, hc]
  rw [ht] at hp hst
  have hgo' : (p == Pre.go) = false := beq_eq_false_iff_ne.2 hgo
  have hdef' : (p == Pre.deferred) = false := beq_eq_false_iff_ne.2 hdef
  have hheld : commandHold i [] = none := rfl
  simp only [State.issue, hc, List.map_cons, List.map_nil, hp, hst, List.filterMap_cons, List.filterMap_nil, hgo', Bool.false_and, cond_false,
    hbody, hheld, List.any_cons, List.any_nil, Bool.or_false, List.foldl_cons, List.foldl_nil, hdef', List.lookup_nil, Option.getD_none, Ends, ht]

/-! ## The checks -/

theorem csr_of_needsPriv {i : Instr} {priv hv : Bool} {deleg : BitVec 4} (h : i.needsPriv priv hv deleg = true) : i.csr = none := by
  unfold Instr.csr
  split
  · exact absurd h Bool.false_ne_true
  · exact absurd h Bool.false_ne_true
  · exact absurd h Bool.false_ne_true
  · exact absurd h Bool.false_ne_true
  · rfl
/-- An instruction without the privilege it needs takes cause 0x02 where no lower reason stops it (R242). -/
theorem context_priv {s : State} {i : Instr} {ag : Nat} (hr : (s.context ag i).reason = none)
    (hp : i.needsPriv (s.launch (s.launchOf ag)).par.priv (s.launch (s.launchOf ag)).par.hv (s.launch (s.launchOf ag)).par.deleg = true) :
    (s.context ag i).priv = true := by
  have hcsr := csr_of_needsPriv hp
  unfold State.context at hr ⊢
  dsimp only at hr ⊢
  split at hr
  · cases hr
  · next h7 =>
    rw [if_neg h7]
    split at hr
    · cases hr
    · next h8 =>
      rw [if_neg h8]
      split at hr
      · cases hr
      · next h9 =>
        rw [if_neg h9, hcsr]
        exact hp
theorem pre_priv {s : State} {i : Instr} {ag : Nat} (hr : (s.context ag i).reason = none) (hp : (s.context ag i).priv = true) :
    s.pre i ag = .priv := by simp only [State.pre, hr, hp, if_true]
/-- A CSRR of %fstat is not performed while a result of the floating-point majors is outstanding (R163). -/
theorem pre_readsFstat {s : State} {i : Instr} {ag : Nat} (hi : i.readsFstat = true) (ho : s.fpOutstanding ag = true) : s.pre i ag ≠ .go := by
  simp only [State.pre, hi, ho, Bool.and_self, if_true]
  split
  · exact Pre.noConfusion
  · repeat' split
    all_goals exact Pre.noConfusion
theorem readsFstat_of_csrrOf {i : Instr} {d : Reg} (h : CsrrOf i d 0x020) : i.readsFstat = true := by
  generalize hn : (0x020 : Nat) = n at h
  cases h <;> simp [Instr.readsFstat, Instr.csr, ← hn]

theorem ticked_launchOf {s : State} {ag : Nat} (hc : s.cur.agents = [ag]) : s.ticked.launchOf ag = s.launchOf ag := by
  rw [ticked_alone hc, modAgent_launchOf s ag _ tick_home]
theorem ticked_launch {s : State} {ag : Nat} (hc : s.cur.agents = [ag]) (l : Nat) : s.ticked.launch l = s.launch l := by
  rw [ticked_alone hc, State.modAgent_launch]

/-- Settles O24: decode, guard and scoreboard stop a thread before its body, and nothing performs it. -/
theorem checksAndGuards : Obligations.ChecksAndGuards := by
  intro s i ag hraw hs
  obtain ⟨body, hx, hbody⟩ := exec_issues hraw s
  refine ⟨fun r hp => ?_, fun hp => ?_, fun hp => ?_, fun hp => ?_, fun d hd ho => ?_, fun hr hp => ?_⟩
  · rw [hx, issue_unperformed hs hbody hp Pre.noConfusion Pre.noConfusion]; rfl
  · rw [hx, issue_unperformed hs hbody hp Pre.noConfusion Pre.noConfusion]; rfl
  · rw [hx, issue_unperformed hs hbody hp Pre.noConfusion Pre.noConfusion, show (Pre.skip == Pre.stall) = false from rfl, Bool.and_false]
    rfl
  · rw [hx, issue_unperformed hs hbody hp Pre.noConfusion Pre.noConfusion]; rfl
  · exact pre_readsFstat (readsFstat_of_csrrOf hd) ho
  · rw [← ticked_launch hs.1, ← ticked_launchOf hs.1] at hp
    exact pre_priv hr (context_priv hr hp)

end Sys2Proof.Machine
end

section
/-! SUPPORT. What reset leaves, the words that the spec writes out, and the values of the integer atomics (R7, R48, R217, R218, R428). -/

namespace Sys2Proof.Machine
open Sys2Proof.Claims

/-! ## Reset (R7, R428, R431) -/

/-- Settles O1: the eight stacks and the eighteen links are read off the reset state one by one. -/
theorem resetState : Obligations.ResetState := by
  refine ⟨?_, rfl, rfl, rfl, rfl, ?_⟩
  · decide
  · decide

/-- Settles O2: nothing is listed at reset. -/
theorem resetMemory : Obligations.ResetMemory := rfl

/-! ## Words that the spec writes out -/

/-- Settles O7: each word, decoded by evaluation. -/
theorem decodesWords : Obligations.DecodeWords := by
  refine ⟨?_, ?_, ?_, ?_, ?_, ?_, ?_, ?_, ?_⟩ <;> rfl

/-! ## Values of the integer atomics (R217, R218) -/

/-- The integer value of a word, as its number is read at its width. -/
theorem sext_toNat {w : Nat} (hw : 0 < w) (x : BitVec w) : sext x.toNat w = x.toInt := by
  have hx := x.isLt
  have hsplit : 2 ^ w = 2 * 2 ^ (w - 1) := by rw [← Nat.pow_succ']; congr 1; omega
  have hdiv := Nat.div_add_mod x.toNat (2 ^ (w - 1))
  have hmod := Nat.mod_lt x.toNat (Nat.two_pow_pos (w - 1))
  have hq : x.toNat / 2 ^ (w - 1) < 2 := Nat.div_lt_of_lt_mul (by omega)
  rw [BitVec.toInt_eq_toNat_cond, sext, Nat.shiftRight_eq_div_pow, Nat.mod_eq_of_lt hq, Nat.mod_eq_of_lt hx]
  generalize x.toNat / 2 ^ (w - 1) = q at hdiv hq
  have htop : (q == 1) = decide (¬2 * x.toNat < 2 ^ w) := by
    rw [Bool.eq_iff_iff, beq_iff_eq, decide_eq_true_iff]
    constructor
    · intro h; rw [h] at hdiv; omega
    · intro h
      have : q ≠ 0 := fun h0 => by rw [h0] at hdiv; omega
      omega
  rw [htop]
  by_cases h : 2 * x.toNat < 2 ^ w <;> simp [h]

/-- The values of the integer operations, on any number of bytes. -/
theorem amoNew_values {n : Nat} (hn : 0 < n) (a b c : BitVec (8 * n)) :
    amoNew 0 n a.toNat b.toNat c.toNat = (a + b).toNat ∧
    amoNew 1 n a.toNat b.toNat c.toNat = (if a.toInt ≤ b.toInt then a else b).toNat ∧
    amoNew 2 n a.toNat b.toNat c.toNat = (if a.toInt ≤ b.toInt then b else a).toNat ∧
    amoNew 3 n a.toNat b.toNat c.toNat = (if a ≤ b then a else b).toNat ∧
    amoNew 4 n a.toNat b.toNat c.toNat = (if a ≤ b then b else a).toNat ∧
    amoNew 5 n a.toNat b.toNat c.toNat = (a &&& b).toNat ∧ amoNew 6 n a.toNat b.toNat c.toNat = (a ||| b).toNat ∧
    amoNew 7 n a.toNat b.toNat c.toNat = (a ^^^ b).toNat ∧ amoNew 8 n a.toNat b.toNat c.toNat = b.toNat ∧
    amoNew 9 n a.toNat b.toNat c.toNat = (if a = b then c else a).toNat := by
  have hsext : ∀ x : BitVec (8 * n), sext x.toNat (8 * n) = x.toInt := sext_toNat (by omega)
  refine ⟨(BitVec.toNat_add a b).symm, ?_, ?_, ?_, ?_, (BitVec.toNat_and ..).symm, (BitVec.toNat_or ..).symm, (BitVec.toNat_xor ..).symm, rfl, ?_⟩
  · by_cases h : a.toInt ≤ b.toInt <;> simp only [amoNew, hsext, h, decide_true, decide_false, cond_true, cond_false, if_true, if_false]
  · by_cases h : a.toInt ≤ b.toInt <;> simp only [amoNew, hsext, h, decide_true, decide_false, cond_true, cond_false, if_true, if_false]
  · simp only [amoNew, BitVec.le_def]; split <;> omega
  · simp only [amoNew, BitVec.le_def]; split <;> omega
  · by_cases h : a = b
    · simp [amoNew, h]
    · simp only [amoNew, beq_eq_false_iff_ne.2 fun e => h (BitVec.toNat_inj.1 e), cond_false, h, if_false]

/-- Settles O43: the general values on 4 and on 8 bytes. -/
theorem atomicValues : Obligations.AtomicValues :=
  ⟨amoNew_values (n := 4) (by norm_num), amoNew_values (n := 8) (by norm_num)⟩

end Sys2Proof.Machine
end

section
/-! SUPPORT. What an instruction that a thread performs alone leaves: control flow, rejoin masks, exit, yield, traps and the decision queue (R142, R143, R182 to R190, R234). -/

namespace Sys2Proof.Machine
open Sys2Proof.Claims

/-! ## The effect of an instruction on one thread -/

/-- Performed by one thread in `s`, an instruction leaves `t`, and the thread goes on as `k` says. -/
def Leaves (i : Instr) (ag : Nat) (s t : State) (k : Fate) : Prop :=
  ∃ body : List Nat → State → State × List (Nat × Fate), (∀ u, exec i u = .next (u.issue i body)) ∧
    (body [ag] s).1 = t ∧ ((body [ag] s).2.lookup ag).getD .next = k

section
variable {i : Instr} {ag : Nat} {s t : State} {k : Fate}

/-- A thread alone in its fragment performs the instruction on the state in which it issues. -/
theorem Leaves.alone (h : Leaves i ag s.ticked t k) (ha : Alone s i ag) : exec i s = .next (Ends s i ag t k) := by
  obtain ⟨body, hx, ht, hk⟩ := h
  rw [hx, issue_alone ha, ht, hk]
theorem leaves_each {g : Nat → State → State × Fate} (hx : ∀ u, exec i u = .next (u.issue i (perThread g))) (hg : g ag s = (t, k)) :
    Leaves i ag s t k := ⟨_, hx, by simp [perThread, hg], by simp [perThread, hg]⟩
theorem leaves_plain {g : Nat → State → State} (hx : ∀ u, exec i u = .next (u.issue i (plain g))) (hg : g ag s = t) :
    Leaves i ag s t .next := leaves_each hx (by rw [hg])
theorem leaves_elected {g : Nat → State → State × Fate} (hx : ∀ u, exec i u = .next (u.issue i (elected g))) (hg : g ag s = (t, k)) :
    Leaves i ag s t k := ⟨_, hx, by simp [elected, hg], by simp [elected, hg]⟩

end

/-! ## Each operation, case by case -/

section
variable {s : State} {ag len m : Nat} {d : Reg} {x : Word}

theorem call1_full (target : DWord) (h : 16 ≤ (s.agent ag).link.length) : s.call1 ag target = (s, .trap 0x0C 0#64 0x80040001#32) := by
  rw [State.call1, if_pos h]; rfl
theorem ret1_of_link {r : DWord} {rest : List DWord} (h : (s.agent ag).link = r :: rest) :
    s.ret1 ag len = (s.modAgent ag fun a => { a with link := rest }, .jump r) := by
  simp only [State.ret1, h]
theorem ret1_of_empty (h : (s.agent ag).link = []) : s.ret1 ag len = (s, .trap 0x0C 0#64 (linkInfo len 2)) := by
  simp only [State.ret1, h]
theorem jwait1_outside (h : s.inMask ag m = false) : s.jwait1 ag m len = (s, .next) := by
  simp only [State.jwait1, h, Bool.not_false, if_true]
theorem jwait1_arrives (h : s.inMask ag m = true) (hr : (s.agent ag).settleable = true) : s.jwait1 ag m len =
    ((s.modAgent ag fun a => { a.settle with status := .parked (.mask m), pc := a.pc + BitVec.ofNat 64 len }).maskTest (s.groupOf ag) m, .own) := by
  simp only [State.jwait1, h, hr, Bool.not_true, Bool.false_eq_true, if_false]
  rw [modAgent_groupOf]
  exact fun _ => settle_home _
theorem jdrop1_member (h : s.inMask ag m = true) : s.jdrop1 ag m = s.maskDrop (s.groupOf ag) m (s.agent ag).home.idx := by
  rw [State.jdrop1, h, cond_true]
theorem jdrop1_outside (h : s.inMask ag m = false) : s.jdrop1 ag m = s := by rw [State.jdrop1, h, cond_false]
theorem onceSettled_of_settleable (h : (s.agent ag).settleable = true) (k : State → State × Fate) :
    s.onceSettled ag k = k (s.modAgent ag Agent.settle) := by rw [State.onceSettled, if_pos h]
theorem exit1_settled (h : (s.agent ag).settleable = true) : s.exit1 ag = ((s.modAgent ag Agent.settle).endAgent ag, .own) := by
  rw [State.exit1, onceSettled_of_settleable h]

theorem yield1_lane {g : Nat} (h : (s.agent ag).settleable = true) (hg : (settledAt s ag).home.group = some g) : s.yield1 ag =
    ((s.modAgent ag Agent.settle).modGroup g fun x => { x with lastF := s.moves + 1, lastG := s.moves + 1 }, .next) := by
  rw [settledAt] at hg
  rw [State.yield1, onceSettled_of_settleable h]
  simp only [hg, State.modAgent_moves]
theorem yield1_frontEnd (h : (s.agent ag).settleable = true) (hg : (settledAt s ag).home.group = none) (he : (settledAt s ag).sliceEnd = false) :
    s.yield1 ag = ((s.modAgent ag Agent.settle).modShare (settledAt s ag).home.share fun x => { x with feLast := s.moves + 1 }, .next) := by
  rw [settledAt] at hg he ⊢
  rw [State.yield1, onceSettled_of_settleable h]
  simp only [hg, he, Bool.false_eq_true, if_false, State.modAgent_moves]
theorem yield1_sliceEnd (h : (s.agent ag).settleable = true) (hg : (settledAt s ag).home.group = none) (he : (settledAt s ag).sliceEnd = true) :
    s.yield1 ag = ((s.modAgent ag Agent.settle).modAgent ag fun a => { a with sliceEnd := false }, .past .switch) := by
  rw [settledAt] at hg he
  rw [State.yield1, onceSettled_of_settleable h]
  simp only [hg, he, if_true]
theorem yieldOf_leaves {i : Instr} {t : State} {k : Fate} (hi : YieldOf i) (h : s.yield1 ag = (t, k)) : Leaves i ag s t k := by
  cases hi with
  | base w => exact leaves_each (fun _ => rfl) h
  | ext c => exact leaves_each (fun _ => rfl) h

theorem pop_of_noEntry (h : nextEntry s ag = none) : s.pop ag = none := by
  have h' : (s.share (s.shareOf ag)).dq[(s.agent ag).dqRead - (s.share (s.shareOf ag)).dqFreed]? = none := h
  simp only [State.pop, h', Option.map_none]
theorem pop1_of_entry (h : nextEntry s ag = some x) : s.pop1 ag d = ((popped s ag).out ag true false [toReg d x] 0#5, .next) := by
  simp only [State.pop1, pop_of_nextEntry h]
theorem pop1_of_noEntry (h : nextEntry s ag = none) : s.pop1 ag d = (s, .wait .queue) := by
  simp only [State.pop1, pop_of_noEntry h]
theorem push1_room (h : (s.share (s.shareOf ag)).dq.length < 64) : s.push1 ag x = (pushed s (s.shareOf ag) x, .next) := by
  rw [State.push1, if_neg (Nat.not_le.2 h)]; rfl
theorem push1_full (h : 64 ≤ (s.share (s.shareOf ag)).dq.length) : s.push1 ag x = (s, .wait .queue) := by
  rw [State.push1, if_pos h]

end

/-! ## The rows -/

/-- Each row of control flow is what its instruction does. -/
theorem controlRow_leaves {i : Instr} {ag : Nat} {s t : State} {k : Fate} (h : ControlRow i ag s t k) : Leaves i ag s t k := by
  cases h with
  | call w off _ _ h => exact leaves_each (fun _ => rfl) (by rw [State.call1, if_neg (Nat.not_le.2 h), State.pcOf, words4_eq_jumpBy])
  | callFull w off _ _ h => exact leaves_each (fun _ => rfl) (call1_full _ h)
  | ret w _ _ r rest h => exact leaves_each (fun _ => rfl) (ret1_of_link h)
  | retEmpty w _ _ h => exact leaves_each (fun _ => rfl) (ret1_of_empty h)
  | retExt c _ _ r rest h => exact leaves_each (fun _ => rfl) (ret1_of_link h)
  | retExtEmpty c _ _ h => exact leaves_each (fun _ => rfl) (ret1_of_empty h)
  | jarm w m _ _ => exact leaves_plain (fun _ => rfl) rfl
  | jarmExt c m _ _ => exact leaves_plain (fun _ => rfl) rfl
  | jwaitOut w m _ _ h => exact leaves_each (fun _ => rfl) (jwait1_outside h)
  | jwaitExtOut c m _ _ h => exact leaves_each (fun _ => rfl) (jwait1_outside h)
  | jwait w m _ _ h hr => exact leaves_each (fun _ => rfl) (jwait1_arrives h hr)
  | jwaitExt c m _ _ h hr => exact leaves_each (fun _ => rfl) (jwait1_arrives h hr)
  | jdrop w m _ _ h => exact leaves_plain (fun _ => rfl) (jdrop1_member h)
  | jdropExt c m _ _ h => exact leaves_plain (fun _ => rfl) (jdrop1_member h)
  | jdropOut w m _ _ h => exact leaves_plain (fun _ => rfl) (jdrop1_outside h)
  | jdropExtOut c m _ _ h => exact leaves_plain (fun _ => rfl) (jdrop1_outside h)
  | exit w _ _ h => exact leaves_each (fun _ => rfl) (exit1_settled h)
  | exitExt c _ _ h => exact leaves_each (fun _ => rfl) (exit1_settled h)
  | yield _ _ _ g hi h hg => exact yieldOf_leaves hi (yield1_lane h hg)
  | yieldFe _ _ _ hi h hg he => exact yieldOf_leaves hi (yield1_frontEnd h hg he)
  | yieldSlice _ _ _ hi h hg he => exact yieldOf_leaves hi (yield1_sliceEnd h hg he)
  | ill x w l _ _ => exact leaves_each (fun _ => rfl) rfl
  | trap w b _ _ => exact leaves_each (fun _ => rfl) (by rw [trapInfo_eq])
  | trapExt c b _ _ => exact leaves_each (fun _ => rfl) (by rw [trapInfo_eq])
  | brk w b _ _ => exact leaves_each (fun _ => rfl) (by rw [trapInfo_eq])
  | brkExt c b _ _ => exact leaves_each (fun _ => rfl) (by rw [trapInfo_eq])
  | sret w _ _ => exact leaves_each (fun _ => rfl) rfl
  | sretExt c _ _ => exact leaves_each (fun _ => rfl) rfl
  | brq w off _ _ x h =>
    refine leaves_each (fun _ => rfl) ?_
    have hpc : ((popped s ag).agent ag).pc = (s.agent ag).pc := popped_pcOf s ag ag
    by_cases hx : x = 0#32
    · simp only [pop_of_nextEntry h, hx, beq_self_eq_true, cond_true, if_true]
    · simp only [pop_of_nextEntry h, beq_eq_false_iff_ne.2 hx, hx, cond_false, if_false, State.pcOf, hpc, words4_eq_jumpBy]
  | brqEmpty w off _ _ h => exact leaves_each (fun _ => rfl) (by simp only [pop_of_noEntry h])
  | dqpop w d _ _ x h => exact leaves_each (fun _ => rfl) (pop1_of_entry h)
  | dqpopExt c d _ _ x h => exact leaves_each (fun _ => rfl) (pop1_of_entry h)
  | dqpush w b _ _ h => exact leaves_each (fun _ => rfl) (push1_room h)
  | dqpushExt c b _ _ h => exact leaves_each (fun _ => rfl) (push1_room h)
  | dqpopEmpty w d _ _ h => exact leaves_each (fun _ => rfl) (pop1_of_noEntry h)
  | dqpopExtEmpty c d _ _ h => exact leaves_each (fun _ => rfl) (pop1_of_noEntry h)
  | dqpushExtFull c b _ _ h => exact leaves_each (fun _ => rfl) (push1_full h)
  | dqpushFull w b _ _ h => exact leaves_each (fun _ => rfl) (push1_full h)

/-- Settles O28: each row is what its instruction does, and the thread performs it alone. -/
theorem controlEffects : Obligations.ControlEffects := fun _ _ _ _ _ h ha => (controlRow_leaves h).alone ha

end Sys2Proof.Machine
end

section
/-! SUPPORT. Captures, %fstat, the debug registers, barriers and convergence declarations of one thread (R65, R145, R162, R163, R222 to R226, R243). -/

namespace Sys2Proof.Machine
open Sys2Proof.Claims

section
variable {i : Instr} {ag : Nat} {s t : State} {k : Fate} {d a : Reg} {n : Nat}

/-! ## Special registers -/

theorem csrrOf_leaves (h : CsrrOf i d n) (hg : s.csrRead1 ag n d = (t, k)) : Leaves i ag s t k := by
  cases h with
  | base w d num => exact leaves_each (fun _ => rfl) hg
  | ext c d num => exact leaves_each (fun _ => rfl) hg
theorem csrwOf_leaves (h : CsrwOf i a n) (hg : s.csrWrite1 ag n (s.a32 ag a) = t) : Leaves i ag s t .next := by
  cases h with
  | base w a num => exact leaves_plain (fun _ => rfl) hg
  | ext c a num => exact leaves_plain (fun _ => rfl) hg
theorem csrWrite1_debug (x : Word) (h1 : 0x801 ≤ n) : s.csrWrite1 ag n x = s.debugWrite ag n x := by
  rw [State.csrWrite1, if_neg (by omega), if_pos (by omega)]

theorem csrRow_leaves (h : CsrRow i ag s t k) : Leaves i ag s t k := by
  cases h with
  | time d _ _ h => exact csrrOf_leaves h rfl
  | clock d _ _ h => exact csrrOf_leaves h rfl
  | fstat d _ _ h => exact csrrOf_leaves h rfl
  | setFstat a _ _ h => exact csrwOf_leaves h rfl
  | debug a n _ _ h h1 h2 => exact csrwOf_leaves h (csrWrite1_debug _ h1)

/-- Settles O29: each row is what its instruction does, and the thread performs it alone. -/
theorem specialRegisterEffects : Obligations.SpecialRegisterEffects := fun _ _ _ _ _ h ha => (csrRow_leaves h).alone ha

/-! ## Barriers -/

theorem onBar_open {b : Nat} {f : State → Nat → Barrier → State × Fate} (hi : (s.bar (s.taskOf ag) b).initd = true)
    (hb : (s.bar (s.taskOf ag) b).broken = false) : s.onBar ag b f = f s (s.taskOf ag) (s.bar (s.taskOf ag) b) := by
  simp only [State.onBar, hi, hb, Bool.not_true, Bool.false_eq_true, if_false]
theorem arrive_drained {b : Nat} {f : State → Word → State × Fate} {s1 : State} (hi : (s.bar (s.taskOf ag) b).initd = true)
    (hb : (s.bar (s.taskOf ag) b).broken = false) (ha : (s.agent ag).hasArrived b (s.bar (s.taskOf ag) b).ph = false)
    (hd : s.drainIssuer ag = (s1, true)) : s.arrive ag b f = f (s1.barArrive (s.taskOf ag) b ag) (s.bar (s.taskOf ag) b).ph := by
  simp only [State.arrive, onBar_open hi hb, ha, hd, Bool.false_eq_true, if_false]

end

/-! ## Convergence declarations -/

section
variable {s : State} {ag c n h : Nat} {t0 : Word} {set : List Nat}

/-- The threads of a declaration, where the task has every one of them. -/
theorem cvThreads_eq (hn : set.length = n) (hs : ∀ k, k < n → s.agentOfTid (s.taskOf ag) (t0.toNat + k) = some (set.getD k 0)) :
    ((List.range n).map fun k => s.agentOfTid (s.taskOf ag) (t0.toNat + k)) = set.map some := by
  subst hn
  refine List.ext_getElem (by simp) fun k hk _ => ?_
  have hk' : k < set.length := by simpa using hk
  simp only [List.getElem_map, List.getElem_range, hs k hk', List.getD_eq_getElem?_getD, List.getElem?_eq_getElem hk', Option.getD_some]

/-- A declaration of live threads of one share, over a set that nothing is signed for (R145). -/
theorem cvset1_declares (hn : set.length = n) (h0 : n ≠ 0)
    (hs : ∀ k, k < n → s.agentOfTid (s.taskOf ag) (t0.toNat + k) = some (set.getD k 0))
    (hh : ∀ a ∈ set, s.shareOf a = h ∧ s.live a = true)
    (hc : (s.cv (s.taskOf ag) c).state ≠ .issuing ∧ ((s.cv (s.taskOf ag) c).state = .declared → (s.cv (s.taskOf ag) c).sigs = [])) :
    s.cvset1 ag c n t0 = (s.modCv (s.taskOf ag) c fun _ =>
      ⟨.declared, t0.toNat, n, h, [], none, s.currentSet h, (s.core (s.share h).core).clock, 0⟩, .next) := by
  obtain ⟨hissuing, hsigs⟩ := hc
  have hfree : ¬((s.cv (s.taskOf ag) c).state = .issuing ∨ ((s.cv (s.taskOf ag) c).state = .declared ∧ (s.cv (s.taskOf ag) c).sigs ≠ [])) :=
    fun h => h.elim hissuing fun h => h.2 (hsigs h.1)
  obtain ⟨a, rest, rfl⟩ : ∃ a rest, set = a :: rest := by
    cases set with
    | nil => exact absurd hn.symm h0
    | cons a rest => exact ⟨a, rest, rfl⟩
  have hhead : s.shareOf a = h := (hh a (List.mem_cons_self ..)).1
  have hall : ¬(((a :: rest).map some).any Option.isNone = true ∨ ((a :: rest).map some).any (fun x => (x.map s.shareOf) != some h) = true) := by
    rw [List.any_map, List.any_map, List.any_eq_true, List.any_eq_true]
    rintro (⟨x, hx, hp⟩ | ⟨x, hx, hp⟩)
    · simp at hp
    · simp [(hh x hx).1] at hp
  have hlive : ¬((a :: rest).map some).any (fun x => !(x.map s.live).getD false) = true := by
    rw [List.any_map, List.any_eq_true]
    rintro ⟨x, hx, hp⟩
    simp [(hh x hx).2] at hp
  simp only [State.cvset1, cvThreads_eq hn hs, List.map_cons, List.headD_cons, hhead]
  rw [List.map_cons] at hall hlive
  rw [if_neg hfree, if_neg hall, if_neg hlive]

end

/-- Each row of barriers is what its instruction does. -/
theorem barrierRow_leaves {i : Instr} {ag : Nat} {s t : State} {k : Fate} (h : BarrierRow i ag s t k) : Leaves i ag s t k := by
  cases h with
  | arr c d b _ _ s1 hi hb ha hd => exact leaves_each (fun _ => rfl) (arrive_drained hi hb ha hd)
  | sync c d b _ _ s1 hi hb ha hd => exact leaves_each (fun _ => rfl) (arrive_drained hi hb ha hd)
  | wait c b x _ _ hi hb => exact leaves_each (fun _ => rfl) (onBar_open hi hb)
  | expect c b x _ _ hi hb hn =>
    exact leaves_each (fun _ => rfl) (by simp only [State.barExpect1, onBar_open hi hb]; rw [if_pos hn])
  | init c b x _ _ h1 h2 =>
    have hcount : ¬(s.b32 ag x = 0#32 ∨ 104#32 < s.b32 ag x) := by
      rintro (h | h)
      · simp [h] at h1
      · exact absurd (BitVec.lt_def.1 h) (Nat.not_lt.2 h2)
    exact leaves_each (fun _ => rfl) (by rw [State.barInit1, if_neg hcount]; rfl)
  | uninit c d b _ _ hi =>
    exact leaves_each (fun _ => rfl) (by simp only [State.barArr1, State.arrive, State.onBar, hi, Bool.not_false, if_true]; rfl)
  | badCount c b x _ _ h =>
    have hcount : s.b32 ag x = 0#32 ∨ 104#32 < s.b32 ag x :=
      h.imp (fun h => BitVec.eq_of_toNat_eq h) fun h => BitVec.lt_def.2 h
    exact leaves_each (fun _ => rfl) (by rw [State.barInit1, if_pos hcount]; rfl)
  | cvset c n cv b _ _ set h hn hs hh hc => exact leaves_each (fun _ => rfl) (cvset1_declares hn (Nat.succ_ne_zero _) hs hh hc)

/-- Settles O30: each row is what its instruction does, and the thread performs it alone. -/
theorem barrierEffects : Obligations.BarrierEffects := fun _ _ _ _ _ h ha => (barrierRow_leaves h).alone ha

end Sys2Proof.Machine
end

section
/-! SUPPORT. Task-engine and system instructions of one thread (R252 to R256, R387 to R393). -/

namespace Sys2Proof.Machine
open Sys2Proof.Claims

section
variable {s s1 s2 : State} {ag t : Nat}

/-! ## What comes before an entry -/

/-- An instruction that commits goes on from the committed state. -/
theorem committing_of {need : Bool} (hc : Committed s t need s1) (k : State → State × Fate) : s.committing t need k = k s1 := by
  obtain ⟨rfl, h⟩ | ⟨rfl, rfl⟩ := hc
  · simp only [State.committing, if_true, h]
  · simp only [State.committing, Bool.false_eq_true, if_false]
/-- An entry follows the issuer's own writes. -/
theorem releaseOwn_of (hr : Released s ag s1) (k : State → State × Fate) : s.releaseOwn ag k = k s1 := by
  obtain ⟨h, rfl⟩ | ⟨h, hd⟩ := hr
  · rw [State.releaseOwn, if_pos h]
  · simp only [State.releaseOwn, h, hd, Bool.false_eq_true, if_false]
theorem sysStep_of (hr : SysReady s ag s1) (k : State → State × Fate) : s.sysStep ag k = k s1 := by
  rw [SysReady] at hr
  simp only [State.sysStep, hr]
theorem sysFirst_of (hm : SysFirst s ag s1) (k : State → State × Fate) : s.sysFirst ag k = k s1 := committing_of hm k
theorem sysCounter_of {va : DWord} (hc : CounterOk s ag va s1) : s.sysCounter ag va = (s1, none) := by
  obtain ⟨ha, pa, rb, h11, ht⟩ := hc
  simp only [State.sysCounter, ha, ne_eq, not_true_eq_false, if_false, ht]

/-! ## The task engine -/

/-- Every TASKQ gives its value. -/
theorem taskqOf_leaves {i : Instr} {d : Reg} {f : State → Nat → Nat} (h : TaskqOf i d f) :
    Leaves i ag s (s.out ag true false [toReg d (BitVec.ofNat 32 (f s ag))] 0#5) .next := by
  cases h with
  | prio c _ b => exact leaves_each (fun _ => rfl) rfl
  | restart c _ b => exact leaves_each (fun _ => rfl) rfl
  | settled c _ b =>
    refine leaves_each (fun _ => rfl) ?_
    simp only [State.outNat, State.unsettled]
    cases (s.task (s.taskOf ag)).settled <;> simp
  | vlines c _ b => exact leaves_each (fun _ => rfl) rfl
  | bqueue c _ b => exact leaves_each (fun _ => rfl) rfl
  | nqueue c _ b => exact leaves_each (fun _ => rfl) rfl
  | cursor c _ b => exact leaves_each (fun _ => rfl) rfl

theorem spawn1_outside {d : Reg} {frame off : DWord} {join : Word} {prio : Option Nat} (hb : (s.launchFor ag).billets = false) :
    s.spawn1 ag d frame join prio off = (s, .trap 0x05 0#64 19#32) := by
  simp only [State.spawn1, hb, Bool.not_false, if_true]; rfl
theorem enqn1_outside {ea : DWord} {b : Word} (hb : (s.launchFor ag).billets = false ∨ (s.launchFor ag).nodes = []) :
    s.enqn1 ag ea b = (s, .trap 0x05 0#64 19#32) := by
  have h : (!(s.launchFor ag).billets || (s.launchFor ag).nodes.isEmpty) = true := by
    obtain h | h := hb <;> simp [h]
  simp only [State.enqn1, h, if_true]; rfl
theorem jdec1_outside {d : Reg} {handle : Word} {n : BitVec 16} (hb : (s.launchFor ag).billets = false) :
    s.jdec1 ag d handle n = (s, .trap 0x05 0#64 19#32) := by
  simp only [State.jdec1, hb, Bool.not_false, if_true]; rfl

theorem spawn1_enters {d : Reg} {frame off : DWord} {join : Word} {prio : Option Nat} {n : Nat} (hb : (s.launchFor ag).billets = true)
    (hf : (s.launchFor ag).freeSlot = some n) (hr : Released s ag s1) : s.spawn1 ag d frame join prio off =
      ((s1.putBillet ag n ⟨(s1.agent ag).pc + 4#64 * off, frame.setWidth 48, join.setWidth 16⟩ (prio.getD (s1.task (s1.taskOf ag)).prio) none).out ag
        true false [toReg d ((s1.launchFor ag).handle n)] 0#5, .next) := by
  simp only [State.spawn1, hb, Bool.not_true, Bool.false_eq_true, if_false, hf, releaseOwn_of hr]
theorem jdec1_held {handle : Word} {n : BitVec 16} (hb : (s.launchFor ag).billets = true) (hu : s.unsettled (s.taskOf ag) = true) :
    s.jdec1 ag 255#8 handle n = (s.modTask (s.taskOf ag) fun k => { k with ver := { k.ver with held := k.ver.held ++
      [.jdec handle n (s.agent ag).pc (s.tidWord ag)] } }, .next) := by
  simp only [State.jdec1, hb, hu, Bool.not_true, Bool.false_eq_true, if_false, and_self, if_true]

/-- Each row of the task engine is what its instruction does. -/
theorem taskRow_leaves {i : Instr} {t : State} {k : Fate} (h : TaskRow i ag s t k) : Leaves i ag s t k := by
  cases h with
  | spawn c d a b x off _ _ n s1 hb hf hr =>
    refine leaves_each (fun _ => rfl) ((spawn1_enters hb hf hr).trans ?_)
    by_cases hx : x = 255#8
    · simp only [hx, beq_self_eq_true, cond_true, Option.getD_none, if_true]
    · simp only [beq_eq_false_iff_ne.2 hx, hx, cond_false, Option.getD_some, if_false]
  | spawnFull c d a b x off _ _ hb hf =>
    exact leaves_each (fun _ => rfl) (by simp only [State.spawn1, hb, Bool.not_true, Bool.false_eq_true, if_false, hf])
  | spawnNone c d a b x off _ _ hb => exact leaves_each (fun _ => rfl) (spawn1_outside hb)
  | enqn c a b _ _ x s1 bs j n s2 hb hx hr hj hn hd =>
    have hnodes : (!(s.launchFor ag).billets || (s.launchFor ag).nodes.isEmpty) = false := by
      cases hl : (s.launchFor ag).nodes with
      | nil => simp [hl] at hx
      | cons y ys => simp [hb]
    refine leaves_each (fun _ => rfl) ?_
    simp only [State.enqn1, hnodes, Bool.false_eq_true, if_false, hx, hr, hj, hn, releaseOwn_of hd]
  | jdec c d a b _ _ s1 s2 s3 j hb hh hc hr hj =>
    refine leaves_each (fun _ => rfl) ?_
    simp only [State.jdec1, hb, hh, Bool.not_true, Bool.false_eq_true, if_false, committing_of hc, releaseOwn_of hr, hj]
  | jdecHeld c a b _ _ hb hu => exact leaves_each (fun _ => rfl) (jdec1_held hb hu)
  | settle c _ _ s1 h hc =>
    exact leaves_each (fun _ => rfl) (by rw [State.settle1, onceSettled_of_settleable h, committing_of hc])
  | taskq _ d f _ _ h => exact taskqOf_leaves h

end

/-- Settles O37: each row is what its instruction does, and the thread performs it alone. -/
theorem taskEffects : Obligations.TaskEffects := fun _ _ _ _ _ h ha => (taskRow_leaves h).alone ha

/-- Settles O39: the three instructions look for their launch's billets first, ENQN for its nodes too. -/
theorem outsideBilletLaunches : Obligations.OutsideBilletLaunches := by
  refine ⟨fun s i ag h ha hb => Leaves.alone ?_ ha, fun s c a b ag ha hn => Leaves.alone ?_ ha⟩
  · cases h with
    | spawn c d a b x off => exact leaves_each (fun _ => rfl) (spawn1_outside hb)
    | enqn c a b => exact leaves_each (fun _ => rfl) (enqn1_outside (.inl hb))
    | jdec c d a b => exact leaves_each (fun _ => rfl) (jdec1_outside hb)
  · exact leaves_each (fun _ => rfl) (enqn1_outside (.inr hn))

/-! ## System instructions -/

section
variable {s s0 s1 s2 t : State} {ag scope : Nat}

/-- A TLBI drops its entries once the issuer's accesses are ordered before it. -/
theorem tlbiDrop_forgets {p : TlbEntry → Bool} (hr : SysReady s ag s2) (hd : Forgets s2 (s.coreOf ag) scope p t) :
    s.tlbiDrop ag scope p = (t, .next) := by
  rw [Forgets] at hd
  simp only [State.tlbiDrop, sysStep_of hr, hd]
theorem tlbi1_forgets {p : TlbEntry → Bool} (hm : SysFirst s ag s0) (hr : SysReady s0 ag s2) (hd : Forgets s2 (s0.coreOf ag) scope p t) :
    s.tlbi1 ag scope p = (t, .next) := by
  rw [State.tlbi1, sysFirst_of hm, tlbiDrop_forgets hr hd]
theorem flushOf_leaves {i : Instr} {op : Nat} {a : State → Nat → DWord} {n : State → Nat → Nat} {k : Fate} (h : FlushOf i op scope a n)
    (hg : ∀ b : Word, b.toNat = n s ag → s.cflush1 ag op scope (a s ag) b = (t, k)) : Leaves i ag s t k := by
  cases h with
  | clean c sc a b => exact leaves_each (fun _ => rfl) (hg _ rfl)
  | inv c sc a b => exact leaves_each (fun _ => rfl) (hg _ rfl)
  | discard c sc a b => exact leaves_each (fun _ => rfl) (hg _ rfl)
/-- The model's step of a CFLUSH on one block is the one that the row names. -/
theorem flushBlock_eq (op pa n : Nat) (s : State) (no : Nat) : flushBlock op scope pa n s no =
    (bif op == 2 then s.discardLines scope pa n no
      else bif scope == 6 then (bif (s.block no).dirty.any fun (l, _) => meets pa n (l * 128) 128 then s.writeback no else s) else s) := by
  unfold flushBlock
  by_cases hop : op = 2
  · simp [hop]
  · by_cases hsc : scope = 6
    · simp only [hop, hsc, beq_eq_false_iff_ne.2 hop, beq_self_eq_true, cond_true, cond_false, if_false, true_and]
      cases (s.block no).dirty.any fun (l, _) => meets pa n (l * 128) 128 <;> rfl
    · simp only [hop, hsc, beq_eq_false_iff_ne.2 hop, beq_eq_false_iff_ne.2 hsc, cond_false, if_false, false_and]

/-- Each row of the system instructions is what its instruction does. -/
theorem systemRow_leaves {i : Instr} {k : Fate} (h : SystemRow i ag s t k) : Leaves i ag s t k := by
  cases h with
  | stkho c die sc a b _ _ s0 s1 s2 hm hc hb hl hr =>
    refine leaves_each (fun _ => rfl) ?_
    simp only [State.stkho1, sysFirst_of hm, sysCounter_of hc, Nat.not_lt.2 (Nat.le_of_lt_succ hb), hl, Bool.false_eq_true, if_false, firstFate,
      sysStep_of hr]
  | stkhoBad c die sc a b _ _ s0 s1 hm hc hb =>
    refine leaves_each (fun _ => rfl) ?_
    simp only [State.stkho1, sysFirst_of hm, sysCounter_of hc, Nat.lt_of_succ_le hb, if_true, firstFate]
    rfl
  | tlbiPage c sc a b _ _ s0 s2 t hm ha hr hd =>
    refine leaves_each (fun _ => rfl) ?_
    simp only [State.tlbiPage1, sysFirst_of hm, ha, ne_eq, not_true_eq_false, if_false, tlbiDrop_forgets hr hd]
  | tlbiVdev c sc b _ _ s0 s2 t hm hr hd => exact leaves_each (fun _ => rfl) (tlbi1_forgets hm hr hd)
  | tlbiVdevn c sc b _ _ s0 s2 t hm hn hr hd =>
    exact leaves_each (fun _ => rfl) (tlbi1_forgets hm hr (by simpa only [hn, decide_true, Bool.true_and] using hd))
  | tlbiAll c sc b _ _ s0 s2 t hm hr hd => exact leaves_each (fun _ => rfl) (tlbi1_forgets hm hr hd)
  | cflush _ op sc a n _ _ s0 ps s2 hm h ha hn hp hr =>
    refine flushOf_leaves h fun b hb => ?_
    simp only [State.cflush1, sysFirst_of hm, hb, ha, hn, ne_eq, not_true_eq_false, or_self, if_false, hp, sysStep_of hr]
    simp only [flushRanges, ← flushBlock_eq]
  | cflushBad _ op sc a n _ _ s0 hm h ha =>
    refine flushOf_leaves h fun b hb => ?_
    simp only [State.cflush1, sysFirst_of hm, hb]
    rw [if_pos ha]
  | ctxsw c force sc d a b _ _ s0 s1 s2 desc s3 hm hc hr hi hn ho =>
    refine leaves_each (fun _ => rfl) ?_
    simp only [State.ctxsw1, sysFirst_of hm, sysCounter_of hc, hr, hi, hn, earlierFate, firstFate, Bool.not_true, Bool.false_eq_true, if_false,
      sysStep_of ho]
  | ctxswOutside c force sc d a b _ _ s0 s1 s2 desc hm hc hr hi =>
    refine leaves_each (fun _ => rfl) ?_
    simp only [State.ctxsw1, sysFirst_of hm, sysCounter_of hc, hr, hi, earlierFate, firstFate, Bool.not_false, if_true]
    rfl

end

/-- Settles O38: each row is what its instruction does, and the thread performs it alone. -/
theorem systemEffects : Obligations.SystemEffects := fun _ _ _ _ _ h ha => (systemRow_leaves h).alone ha

end Sys2Proof.Machine
end

section
/-! SUPPORT. Loads, stores, atomics, reductions and fences of one thread, and what stops them (R98 to R106, R205 to R221, R239, R379). -/

namespace Sys2Proof.Machine
open Sys2Proof.Claims

/-! ## The checks of an access -/

section
variable {s s1 t : State} {ag n : Nat} {ea : DWord} {k : Access} {zero : Bool} {host : Option (Bool × Nat)} {info : Word}

theorem access_reaches {pa : Nat} {rb h11 : Bool} (hr : Reaches s ag ea n k s1 pa rb h11) (hh : hostRefuses pa host = false) :
    s.access ag ea n n ⟨k, info, zero, some (k == .store), host⟩ = (s1, .ok pa rb h11) := by
  obtain ⟨ha, hl, ht⟩ := hr
  simp only [State.access, ha, ne_eq, not_true_eq_false, if_false, hl, ht, hh, Bool.false_eq_true]
theorem access_misses (hr : Misses s ag ea n s1) :
    s.access ag ea n n ⟨.load, info, true, some false, none⟩ = (s1, .absent) := by
  obtain ⟨ha, hl, c, hc, ht⟩ := hr
  simp only [State.access, ha, ne_eq, not_true_eq_false, if_false, hl, ht, true_and]
  rw [if_pos hc]
/-- What stops an access is what its checks answer. -/
theorem access_stops {f : Fate} (hs : Stops s ag ea n k zero host info t f) :
    s.access ag ea n n ⟨k, info, zero, some (k == .store), host⟩ = (t, .fate f) := by
  have hlock : ∀ (e : Nat) (d : Bool), lockInfo e d = BitVec.ofNat 32 (e + if d = true then 256 else 0) := fun e d => by cases d <;> rfl
  cases hs with
  | unaligned h => rw [State.access, if_pos h]
  | untranslated _ c h ht hz =>
    have hgone : ¬(zero = true ∧ (c = 0x06 ∨ c = 0x07)) := fun ⟨h0, hc⟩ => hc.elim (hz h0).1 (hz h0).2
    simp only [State.access, h, ne_eq, not_true_eq_false, if_false, ht]
    rw [if_neg hgone]
  | hostAtomic _ pa rb h11 h ht hh => simp only [State.access, h, ne_eq, not_true_eq_false, if_false, ht, hh, if_true]
  | locked _ pa rb h11 x e d h ht hh hl =>
    simp only [State.access, h, ne_eq, not_true_eq_false, if_false, ht, hh, hl, Bool.false_eq_true, hlock]
  | lockedGone _ c x e d h hz hc ht hl =>
    simp only [State.access, h, ne_eq, not_true_eq_false, if_false, ht, hl, hlock]
    rw [if_pos ⟨hz, hc⟩]
  | held _ h ht => simp only [State.access, h, ne_eq, not_true_eq_false, if_false, ht]

/-- %tinfo of an access, as the checks write it. -/
theorem accInfo_eq (n : Nat) (k : Access) : accInfo n (k == .store) false = accessInfo n k := by cases k <;> rfl

end

/-! ## Each form of an instruction -/

section
variable {i : Instr} {s t : State} {ag : Nat} {k : Fate} {ea : State → Nat → DWord} {off : State → Nat → Word} {c : BitVec 3} {d a : Reg}

theorem loadOf_leaves (hi : LoadOf i ea c d) (hg : s.loadGlobal ag (ea s ag) c d = (t, k)) : Leaves i ag s t k := by
  cases hi with
  | ld w _ a disp => exact leaves_each (fun _ => rfl) hg
  | ldExt c ord _ scope hint _ a disp => exact leaves_each (fun _ => rfl) hg
theorem constOf_leaves (hi : ConstOf i ea c d) (hg : s.loadConst ag (ea s ag) c d = (t, k)) : Leaves i ag s t k := by
  cases hi with
  | ldc w _ a disp => exact leaves_each (fun _ => rfl) hg
  | ldcExt c _ hint _ a disp => exact leaves_each (fun _ => rfl) hg
theorem storeOf_leaves {rel : Bool} {sc : Nat} (hi : StoreOf i ea c d rel sc)
    (hg : s.storeGlobal ag (ea s ag) (s.storeBytes ag c d) rel sc = (t, k)) : Leaves i ag s t k := by
  cases hi with
  | st w _ a disp => exact leaves_each (fun _ => rfl) hg
  | stExt c ord _ scope hint _ a disp => exact leaves_each (fun _ => rfl) hg
theorem padLoadOf_leaves (hi : PadLoadOf i off c d) (hg : s.loadPad ag (off s ag) c d = (t, k)) : Leaves i ag s t k := by
  cases hi with
  | lds w _ a disp => exact leaves_each (fun _ => rfl) hg
  | ldsExt c _ _ a disp => exact leaves_each (fun _ => rfl) hg
theorem padStoreOf_leaves (hi : PadStoreOf i off c d) (hg : s.storePad ag (off s ag) (s.storeBytes ag c d) = (t, k)) : Leaves i ag s t k := by
  cases hi with
  | sts w _ a disp => exact leaves_each (fun _ => rfl) hg
  | stsExt c _ _ a disp => exact leaves_each (fun _ => rfl) hg
theorem atomOf_leaves {op sc : Nat} {ord w : Bool} {b e : State → Nat → DWord} (hi : AtomOf i op ord w sc d a b e)
    (hg : s.atom ag op ord w sc d a (b s ag) (e s ag) = (t, k)) : Leaves i ag s t k := by
  cases hi with
  | add => exact leaves_each (fun _ => rfl) hg
  | min => exact leaves_each (fun _ => rfl) hg
  | max => exact leaves_each (fun _ => rfl) hg
  | umin => exact leaves_each (fun _ => rfl) hg
  | umax => exact leaves_each (fun _ => rfl) hg
  | and => exact leaves_each (fun _ => rfl) hg
  | or => exact leaves_each (fun _ => rfl) hg
  | xor => exact leaves_each (fun _ => rfl) hg
  | exch => exact leaves_each (fun _ => rfl) hg
  | cas => exact leaves_each (fun _ => rfl) hg
  | fadd => exact leaves_each (fun _ => rfl) hg
theorem redOf_leaves {op sc : Nat} {w : Bool} {b : State → Nat → DWord} (hi : RedOf i op w sc a b)
    (hg : s.red ag op w sc a (b s ag) = (t, k)) : Leaves i ag s t k := by
  cases hi with
  | add => exact leaves_each (fun _ => rfl) hg
  | min => exact leaves_each (fun _ => rfl) hg
  | max => exact leaves_each (fun _ => rfl) hg
  | umin => exact leaves_each (fun _ => rfl) hg
  | umax => exact leaves_each (fun _ => rfl) hg
  | and => exact leaves_each (fun _ => rfl) hg
  | or => exact leaves_each (fun _ => rfl) hg
  | xor => exact leaves_each (fun _ => rfl) hg
  | fadd => exact leaves_each (fun _ => rfl) hg

end

/-! ## Writes: from their checks to their charge -/

/-- How a write goes on that has passed its checks: one with room in its queue and in its version is charged, and then performed (R98, R239, R332, R379). -/
def State.finishWrite (s : State) (ag : Nat) (ea : DWord) (pa : Nat) (rb : Bool) (n : Nat) (queues : Bool) (fin : State → State) : State × Fate :=
  if queues = true ∧ 32 ≤ (s.sq ag).length ∧ (s.agent ag).supp = none then s.lineUp ag false 0
  else s.withinBudget ag (s.taskOf ag) pa n ea fun s => s.charging ag ea pa rb fun s => (fin s, .next)

section
variable {i : Instr} {s s1 s2 t : State} {ag pa n : Nat} {k : Fate} {ea : DWord} {rb q : Bool} {fin : State → State}

theorem releasing_of {system : Bool} (hw : Releases s ag system s1) (f : State → State × Fate) : s.releasing ag system f = f s1 := by
  obtain ⟨rfl, rfl⟩ | ⟨rfl, hd, hp⟩ := hw
  · simp only [State.releasing, Bool.not_false, if_true]
  · simp only [State.releasing, Bool.not_true, Bool.false_eq_true, if_false, hd, hp]
theorem orderedBy_eq (s : State) (ag : Nat) (ord : Bool) : (bif ord then s.flushOwn ag else s) = orderedBy s ag ord := by cases ord <;> rfl
theorem amoBytes_eq (w : Bool) : (bif w then 8 else 4) = amoBytes w := by cases w <;> rfl
theorem enqueue_eq (h11 : Bool) (op : SqOp) : s.enqueue ag ea pa rb h11 n op =
    s.finishWrite ag ea pa rb n true fun x => queuedAt x ag (s.taskOf ag) pa h11 op := by
  simp only [State.enqueue, State.finishWrite, true_and]; rfl
theorem amoHost_eq (atom : Bool) (sc op : Nat) : (bif sc == 7 then some (atom, op) else none) = if sc = 7 then some (atom, op) else none := by
  rw [Bool.cond_eq_ite]; simp only [beq_iff_eq]

/-- A store, atomic or reduction that passes its checks is one more write to be charged. -/
theorem writes_leaves (hw : Writes i ag s s1 q ea pa n rb fin) (hg : s1.finishWrite ag ea pa rb n q fin = (t, k)) : Leaves i ag s t k := by
  cases hw with
  | store ea c d rel sc _ _ s0 _ _ h11 s1 s2 hi hr hc hrel =>
    refine storeOf_leaves hi (Eq.trans ?_ hg)
    have ha : s.access ag (ea s ag) (s.storeBytes ag c d).length (s.storeBytes ag c d).length
        ⟨.store, accInfo (s.storeBytes ag c d).length true false, false, some true, none⟩ = (s0, .ok pa rb h11) := access_reaches hr rfl
    simp only [State.storeGlobal, ha, wide, committing_of hc, releasing_of hrel, orderedBy_eq, enqueue_eq]
  | atom op ord w sc d a b c _ _ s0 _ _ h11 s1 s2 s3 hi hr hh hc hrel hd =>
    refine atomOf_leaves hi (Eq.trans ?_ hg)
    have ha : s.access ag (s.a64 ag a) (amoBytes w) (amoBytes w)
        ⟨.store, accInfo (amoBytes w) true false, false, some true, if sc = 7 then some (true, op) else none⟩ = (s0, .ok pa rb h11) :=
      access_reaches hr hh
    simp only [State.atom, amoBytes_eq, amoHost_eq, ha, amoCommits, wide, committing_of hc, releasing_of hrel, hd, orderedBy_eq,
      State.finishWrite, Bool.false_eq_true, false_and, if_false]
    cases w <;> rfl
  | red op w sc a b _ _ s0 _ _ h11 s1 hi hr hh hc =>
    refine redOf_leaves hi (Eq.trans ?_ hg)
    have ha : s.access ag (s.a64 ag a) (amoBytes w) (amoBytes w)
        ⟨.store, accInfo (amoBytes w) true false, false, some true, if sc = 7 then some (false, op) else none⟩ = (s0, .ok pa rb h11) :=
      access_reaches hr hh
    have hc' : Committed s0 (s0.taskOf ag) (amoCommits false sc) s1 := by simpa [amoCommits] using hc
    simp only [State.red, amoBytes_eq, amoHost_eq, ha, committing_of hc', enqueue_eq]

/-! ### The charge -/

theorem finishWrite_room (hl : Room s ag q) : s.finishWrite ag ea pa rb n q fin =
    s.withinBudget ag (s.taskOf ag) pa n ea fun s => s.charging ag ea pa rb fun s => (fin s, .next) := by
  have hroom : ¬(q = true ∧ 32 ≤ (s.sq ag).length ∧ (s.agent ag).supp = none) := fun ⟨hq, hlen, hs⟩ =>
    (hl hq).elim (fun h => absurd hlen (Nat.not_le.2 h)) fun h => h hs
  rw [State.finishWrite, if_neg hroom]
theorem finishWrite_full (hl : ¬Room s ag true) : s.finishWrite ag ea pa rb n true fin = s.lineUp ag false 0 := by
  rw [Room] at hl
  push Not at hl
  rw [State.finishWrite, if_pos hl]
theorem withinBudget_fits {t : Nat} (hb : InBudget s t pa n) (f : State → State × Fate) : s.withinBudget ag t pa n ea f = f s := by
  have hfit : ¬(s.unsettled t = true ∧ (s.launch (s.task t).launch).par.vbudget * 8192 < s.versionLines t pa n) := fun ⟨hu, hlt⟩ =>
    absurd (hb hu) (Nat.not_le.2 hlt)
  rw [State.withinBudget, if_neg hfit]
/-- A write whose lines fit is charged at once. -/
theorem finishWrite_atCharge (hl : Room s ag q) (hb : InBudget s (s.taskOf ag) pa n) :
    s.finishWrite ag ea pa rb n q fin = s.charging ag ea pa rb fun s => (fin s, .next) := by
  rw [finishWrite_room hl, withinBudget_fits hb]
theorem charging_charged (hg : Charged s ag pa rb s2) (f : State → State × Fate) : s.charging ag ea pa rb f = f s2 := by
  obtain ⟨hs, hn, s0, hc, rfl⟩ := hg
  simp only [State.charging, hs, Option.isSome_none, Bool.false_eq_true, if_false, hn, Bool.not_true, hc]
theorem charging_suppressed (hs : (s.agent ag).supp ≠ none) (f : State → State × Fate) : s.charging ag ea pa rb f = (s.suppress ag ea 0, .next) := by
  rw [State.charging, if_pos (Option.isSome_iff_ne_none.2 hs)]
theorem charging_behind (hs : (s.agent ag).supp = none) (hn : s.inTurn ag false = false) (f : State → State × Fate) :
    s.charging ag ea pa rb f = s.lineUp ag false 3 := by
  simp only [State.charging, hs, Option.isSome_none, Bool.false_eq_true, if_false, hn, Bool.not_false, if_true]
theorem charging_held (hn : Foremost s ag) (hc : s.charge (s.vdOf ag) pa rb = (s2, .held)) (f : State → State × Fate) :
    s.charging ag ea pa rb f = s2.lineUp ag false 2 := by
  obtain ⟨hs, hn⟩ := hn
  simp only [State.charging, hs, Option.isSome_none, Bool.false_eq_true, if_false, hn, Bool.not_true, hc]
theorem charging_refused {short : Nat} (hn : Foremost s ag) (hc : s.charge (s.vdOf ag) pa rb = (s2, .refused short)) (f : State → State × Fate) :
    s.charging ag ea pa rb f = if (s2.leaveLine ag false).unsettled (s.taskOf ag) = true then (s2.leaveLine ag false, .capacity ea short)
      else ((s2.leaveLine ag false).suppress ag ea short, .next) := by
  obtain ⟨hs, hn⟩ := hn
  simp only [State.charging, hs, Option.isSome_none, Bool.false_eq_true, if_false, hn, Bool.not_true, hc]
theorem lineUp_fst (s : State) (ag : Nat) (pad : Bool) (k : Nat) : s.lineUp ag pad k = ((s.lineUp ag pad k).1, .wait (.store k)) := by
  simp only [State.lineUp]; split <;> rfl
theorem withinBudget_commits {t : Nat} (ho : OverBudget s t pa n) (hc : s.commit t = .done s2) (f : State → State × Fate) :
    s.withinBudget ag t pa n ea f = f (forcedBy s2 ag ea) := by
  rw [OverBudget] at ho
  simp only [State.withinBudget, ho, and_self, if_true, hc, forcedBy, Bool.cond_eq_ite]
theorem withinBudget_conflicts {t : Nat} (ho : OverBudget s t pa n) (hc : s.commit t = .failed s2) (f : State → State × Fate) :
    s.withinBudget ag t pa n ea f = (s2, .own) := by
  rw [OverBudget] at ho
  simp only [State.withinBudget, ho, and_self, if_true, hc]

end

/-! ## The scratchpad, fences and pages -/

section
variable {s s1 : State} {ag n : Nat} {off : Word} {c : BitVec 3} {d : Reg} {bs : List Byte} {st : Bool}

theorem padInfo_eq : accInfo n st true = padInfo n st := by cases st <;> rfl
theorem padCheck_ok (hr : PadOk s ag off n) : s.padCheck ag off n st = none := by
  obtain ⟨ha, hin, hp⟩ := hr
  simp only [State.padCheck, ha, ne_eq, not_true_eq_false, if_false, Nat.not_lt.2 hin, List.elem_eq_mem, hp, decide_false, Bool.false_eq_true]
theorem padCheck_unaligned (h : off.toNat % n ≠ 0) : s.padCheck ag off n st = some (.trap 0x03 (off.setWidth 64) (padInfo n st)) := by
  simp only [State.padCheck]
  rw [if_pos h, padInfo_eq]
theorem padCheck_outside (h : off.toNat % n = 0) (ho : (s.share (s.shareOf ag)).size < off.toNat + n) :
    s.padCheck ag off n st = some (.trap 0x05 (off.setWidth 64) (padInfo n st)) := by
  simp only [State.padCheck, h, ne_eq, not_true_eq_false, if_false]
  rw [if_pos ho, padInfo_eq]
theorem padCheck_absent (h : off.toNat % n = 0) (ho : off.toNat + n ≤ (s.share (s.shareOf ag)).size)
    (hp : off.toNat / 128 ∈ (s.share (s.shareOf ag)).absent) : s.padCheck ag off n st = some (.wait (.presence (off.toNat / 128))) := by
  simp only [State.padCheck, h, ne_eq, not_true_eq_false, if_false, Nat.not_lt.2 ho, List.elem_eq_mem, hp, decide_true, if_true]
theorem loadPad_stops {f : Fate} (h : s.padCheck ag off (widthBytes c) false = some f) : s.loadPad ag off c d = (s, f) := by
  simp only [State.loadPad, h]
theorem storePad_stops {f : Fate} (h : s.padCheck ag off bs.length true = some f) : s.storePad ag off bs = (s, f) := by
  simp only [State.storePad, h]
/-- What stops a scratchpad access stops its instruction. -/
theorem padOf_leaves {i : Instr} {ea : State → Nat → Word} {n : State → Nat → Nat} {f : Fate} (hi : PadOf i ea n st)
    (h : s.padCheck ag (ea s ag) (n s ag) st = some f) : Leaves i ag s s f := by
  cases hi with
  | load c d hi => exact padLoadOf_leaves hi (loadPad_stops h)
  | store c d hi => exact padStoreOf_leaves hi (storePad_stops h)

theorem fenceAt_narrow {scope : Nat} (h0 : scope ≠ 0) (h7 : scope ≠ 7) (hd : s.drainIssuer ag = (s1, true)) :
    s.fenceAt ag scope = (s1, .next) := by
  simp only [State.fenceAt, h0, h7, hd, ne_eq, not_false_eq_true, if_false, if_true]
theorem fenceAt_told (hd : s.drainIssuer ag = (s1, true)) (hp : s1.posting ag = false) (hl : s1.lostLinks ag = []) :
    s.fenceAt ag 7 = (s1.tellLost ag, .next) := by
  simp only [State.fenceAt, OfNat.ofNat_ne_zero, if_false, hd, ne_eq, not_true_eq_false, hp, Bool.false_eq_true, hl]
theorem fenceAt_lost {l : Nat} {ls : List Nat} (hd : s.drainIssuer ag = (s1, true)) (hp : s1.posting ag = false) (hl : s1.lostLinks ag = l :: ls) :
    s.fenceAt ag 7 = if ((s1.tellLost ag).policyOf ag).getLsbD 5 = true then (s1.tellLost ag, .trap 0x11 0#64 (lostInfo (l :: ls)))
      else ((s1.tellLost ag).modAgent ag fun a => { a with trap := { a.trap with info := lostInfo (l :: ls) } }, .next) := by
  simp only [State.fenceAt, OfNat.ofNat_ne_zero, if_false, hd, ne_eq, not_true_eq_false, hp, Bool.false_eq_true, hl]

end

/-- What stops a global access stops its instruction. -/
theorem accessOf_leaves {i : Instr} {s t : State} {ag : Nat} {ea : State → Nat → DWord} {n : State → Nat → Nat} {k : Access} {z : Bool}
    {host : Option (Bool × Nat)} {f : Fate} (hi : AccessOf i ea n k z host)
    (hs : Stops s ag (ea s ag) (n s ag) k z host (accessInfo (n s ag) k) t f) : Leaves i ag s t f := by
  have ha := access_stops hs
  rw [← accInfo_eq] at ha
  have hload : (Access.load == .store) = false := rfl
  have hstore : (Access.store == .store) = true := rfl
  cases hi with
  | load _ _ c d hi => exact loadOf_leaves hi (by simp only [State.loadGlobal]; rw [hload] at ha; rw [ha])
  | zero c wd hint d pc a disp =>
    exact leaves_each (fun _ => rfl) (by
      simp only [State.loadZero, State.ea]; rw [hload] at ha; rw [ha])
  | const _ _ c d hi => exact constOf_leaves hi (by simp only [State.loadConst]; rw [hload] at ha; rw [ha])
  | store _ _ c d rel sc hi =>
    exact storeOf_leaves hi (by simp only [State.storeGlobal]; rw [hstore] at ha; rw [ha])
  | atom _ op ord w sc d a b c hi =>
    exact atomOf_leaves hi (by
      simp only [State.atom, amoBytes_eq, amoHost_eq]; rw [hstore] at ha; rw [ha])
  | red _ op w sc a b hi =>
    exact redOf_leaves hi (by
      simp only [State.red, amoBytes_eq, amoHost_eq]; rw [hstore] at ha; rw [ha])

/-! ## The rows -/

section
variable {i : Instr} {s s1 t : State} {ag pa n : Nat} {k : Fate} {ea : DWord} {rb : Bool} {fin : State → State}

/-- A write whose queue has room and whose lines fit leaves what its charge leaves. -/
theorem atCharge_leaves (hw : AtCharge i ag s s1 ea pa n rb fin)
    (hg : (s1.charging ag ea pa rb fun s => (fin s, .next)) = (t, k)) : Leaves i ag s t k := by
  obtain ⟨q, hw, hl, hb⟩ := hw
  exact writes_leaves hw ((finishWrite_atCharge hl hb).trans hg)

/-- Each row of the memory instructions is what its instruction does. -/
theorem memoryRow_leaves (h : MemoryRow i ag s t k) : Leaves i ag s t k := by
  cases h with
  | load _ ea c d _ _ s1 pa rb h11 s2 bs hi hr hq =>
    have ha : s.access ag (ea s ag) (widthBytes c) (widthBytes c) ⟨.load, accInfo (widthBytes c) false false, false, some false, none⟩ =
        (s1, .ok pa rb h11) := access_reaches hr rfl
    exact loadOf_leaves hi (by simp only [State.loadGlobal, ha, hq])
  | ldz c wd hint d pc a disp _ _ s1 pa rb h11 s2 bs hr hq =>
    have ha : s.access ag (s.a64 ag a + Disp64 disp) (widthBytes wd) (widthBytes wd)
        ⟨.load, accInfo (widthBytes wd) false false, true, some false, none⟩ = (s1, .ok pa rb h11) := access_reaches hr rfl
    exact leaves_each (fun _ => rfl) (by simp only [State.loadZero, State.ea, ha, hq])
  | ldzAbsent c wd hint d pc a disp _ _ s1 hr =>
    exact leaves_each (fun _ => rfl) (by simp only [State.loadZero, State.ea, access_misses hr])
  | const _ ea c d _ _ s1 pa rb h11 hi hr =>
    have ha : s.access ag (ea s ag) (widthBytes c) (widthBytes c) ⟨.load, accInfo (widthBytes c) false false, false, some false, none⟩ =
        (s1, .ok pa rb h11) := access_reaches hr rfl
    exact constOf_leaves hi (by simp only [State.loadConst, ha])
  | write _ _ _ s1 ea pa n rb fin s2 hw hg => exact atCharge_leaves hw (charging_charged hg _)
  | writeOver _ _ _ s1 q ea pa n rb fin s2 s3 hw hl ho hc hg =>
    exact writes_leaves hw ((finishWrite_room hl).trans ((withinBudget_commits ho hc _).trans (charging_charged hg _)))
  | writeConflicts _ _ _ s1 q ea pa n rb fin s2 hw hl ho hc =>
    exact writes_leaves hw ((finishWrite_room hl).trans (withinBudget_conflicts ho hc _))
  | refused _ _ _ s1 ea pa n rb fin s2 m hw hn hc hu =>
    exact atCharge_leaves hw ((charging_refused hn hc _).trans (by rw [hu, if_neg Bool.false_ne_true]))
  | refusedVersion _ _ _ s1 ea pa n rb fin s2 m hw hn hc hu =>
    exact atCharge_leaves hw ((charging_refused hn hc _).trans (by rw [if_pos hu]))
  | suppressed _ _ _ s1 ea pa n rb fin hw hs => exact atCharge_leaves hw (charging_suppressed hs _)
  | chargeHeld _ _ _ s1 ea pa n rb fin s2 hw hn hc => exact atCharge_leaves hw ((charging_held hn hc _).trans (lineUp_fst ..))
  | behind _ _ _ s1 ea pa n rb fin hw hs hn => exact atCharge_leaves hw ((charging_behind hs hn _).trans (lineUp_fst ..))
  | queueFull _ _ _ s1 ea pa n rb fin hw hl => exact writes_leaves hw ((finishWrite_full hl).trans (lineUp_fst ..))
  | padLoad _ ea c d _ _ hi hr => exact padLoadOf_leaves hi (by simp only [State.loadPad, padCheck_ok hr])
  | padStore _ ea c d _ _ hi hr ho hf =>
    exact padStoreOf_leaves hi (by
      simp only [State.storePad, padCheck_ok hr, ho, Bool.not_true, Bool.false_eq_true, if_false, Nat.not_le.2 hf])
  | fence c sc _ _ s1 h0 h7 hd => exact leaves_each (fun _ => rfl) (fenceAt_narrow h0 h7 hd)
  | fenceSystem c _ _ s1 hd hp hl => exact leaves_each (fun _ => rfl) (fenceAt_told hd hp hl)
  | fenceLost c _ _ s1 l ls hd hp hl ht => exact leaves_each (fun _ => rfl) ((fenceAt_lost hd hp hl).trans (by rw [ht, if_neg Bool.false_ne_true]))
  | fenceTraps c _ _ s1 l ls hd hp hl ht => exact leaves_each (fun _ => rfl) ((fenceAt_lost hd hp hl).trans (by rw [if_pos ht]))
  | spres c pd a disp _ _ h =>
    exact leaves_each (fun _ => rfl) (by simp only [State.spres1, State.eaPad, Nat.not_le.2 h, if_false])
  | pgreq c blk pd a disp _ _ s1 pa rb h11 h => exact leaves_each (fun _ => rfl) (by simp only [State.pgreq1, State.ea, h])
  | pgreqGone c blk pd a disp _ _ s1 h => exact leaves_each (fun _ => rfl) (by simp only [State.pgreq1, State.ea, h, if_true])
  | pgreqAsks c pd a disp _ _ s1 h =>
    exact leaves_each (fun _ => rfl) (by
      simp only [State.pgreq1, State.ea, h, Nat.reduceEqDiff, if_false, if_true, Bool.false_eq_true])
  | pgreqBlocks c pd a disp _ _ s1 h =>
    exact leaves_each (fun _ => rfl) (by simp only [State.pgreq1, State.ea, h, Nat.reduceEqDiff, if_false, if_true])
  | stops _ ea n k z host _ _ t f hi hs => exact accessOf_leaves hi hs
  | padUnaligned _ ea n st _ _ hi h => exact padOf_leaves hi (padCheck_unaligned h)
  | padOutside _ ea n st _ _ hi h ho => exact padOf_leaves hi (padCheck_outside h ho)
  | padAbsent _ ea n st _ _ hi h ho hp => exact padOf_leaves hi (padCheck_absent h ho hp)

end

/-- Settles O31: each row is what its instruction does, and the thread performs it alone. -/
theorem memoryEffects : Obligations.MemoryEffects := fun _ _ _ _ _ h ha => (memoryRow_leaves h).alone ha

end Sys2Proof.Machine
end

section
/-! SUPPORT. Kiln and ray instructions of one thread (R196 to R204, R341 to R348). -/

namespace Sys2Proof.Machine
open Sys2Proof.Claims

section
variable {s s1 s2 t : State} {ag : Nat} {k : Fate} {ea : DWord}

/-! ## The kiln -/

theorem balqValue_open {v due : Nat} (h : (s.vdev v).balloon.due = some due) :
    s.balqValue v = (s.vdev v).balloon.q % 2 ^ 32 + (due - s.now) / 1000 * 2 ^ 32 := by simp only [State.balqValue, h]
theorem balqValue_none {v : Nat} (h : (s.vdev v).balloon.due = none) : s.balqValue v = 0xFFFFFFFF * 2 ^ 32 := by simp only [State.balqValue, h]
theorem wholeK_eq (f : State → Nat → Nat) (stk : BitVec 4) : s.wholeK ag stk f = if stk = 0#4 then f s (s.vdOf ag) else 0 := by
  simp only [State.wholeK, Bool.cond_eq_ite, beq_iff_eq]

/-- A block or page operation that nothing holds is performed after the issuer's own stores. -/
theorem kilnStep_ready (hk : KilnReady s ag s2) (f : State → State × Fate) : s.kilnStep ag ea f = f s2 := by
  obtain ⟨hs, s1, hc, hd⟩ := hk
  simp only [State.kilnStep, hs, Option.isSome_none, Bool.false_eq_true, if_false, committing_of hc, hd]
theorem kilnStep_suppressed (hs : (s.agent ag).supp ≠ none) (f : State → State × Fate) : s.kilnStep ag ea f = (s.suppress ag ea 0, .next) := by
  rw [State.kilnStep, if_pos (Option.isSome_iff_ne_none.2 hs)]
theorem blkfill_access {pa : Nat} {rb h11 : Bool} (hr : Reaches s ag ea 1024 .store s1 pa rb h11) :
    s.access ag ea 1024 1024 ⟨.store, kilnInfo true 0, false, some true, none⟩ = (s1, .ok pa rb h11) := access_reaches hr rfl
theorem pattern_eq (s : State) (ag : Nat) (c : Reg) : (bif c == 255#8 then 0#64 else s.c64 ag c) = fillPattern s ag c := by
  simp only [fillPattern, Bool.cond_eq_ite, beq_iff_eq]
/-- A page operation that is refused before its page is touched. -/
theorem pageLeaf_refused {recl : Bool} {c r : Nat} (h : PageRefused s ag ea recl c r) :
    s.pageLeaf ag ea recl = (s, .error (.trap c ea (BitVec.ofNat 32 (r + 256)))) := by
  cases h with
  | unaligned h => simp only [State.pageLeaf, h, ne_eq, not_false_eq_true, if_true]; rfl
  | outside h hc => simp only [State.pageLeaf, h, hc, ne_eq, not_true_eq_false, if_false, Bool.not_false, if_true]; rfl
  | unmapped h hc hw hl =>
    simp only [State.pageLeaf, h, hc, hw, hl, ne_eq, not_true_eq_false, if_false, Bool.not_true, Bool.false_eq_true]; rfl
  | forbidden l h hc hw hl hp =>
    simp only [State.pageLeaf, h, hc, hw, hl, hp, ne_eq, not_true_eq_false, if_false, Bool.not_true, Bool.not_false, Bool.false_eq_true, if_true]
    rfl
  | large l h hc hw hl hp hn =>
    simp only [State.pageLeaf, h, hc, hw, hl, hp, hn, ne_eq, not_true_eq_false, not_false_eq_true, if_false, Bool.not_true, Bool.false_eq_true,
      if_true]
    rfl
  | reserved l h hc hw hl hp hn hb hr =>
    simp only [State.pageLeaf, h, hc, hw, hl, hp, hn, hb, hr, ne_eq, not_true_eq_false, if_false, Bool.not_true, Bool.not_false, Bool.false_eq_true,
      Bool.and_self, if_true]
    rfl
  | remote l h hc hw hl hp hn hb hr =>
    have hrb : (l.rb && !recl) = false := by
      cases hrb : l.rb with
      | false => rfl
      | true => rw [hb hrb]; rfl
    simp only [State.pageLeaf, h, hc, hw, hl, hp, hn, hrb, hr, ne_eq, not_true_eq_false, not_false_eq_true, if_false, Bool.not_true,
      Bool.false_eq_true, if_true]
    rfl
theorem pageOf_leaves {i : Instr} {ea : State → Nat → DWord} {recl : Bool} (hi : PageOf i ea recl)
    (hg : (if recl = true then s.pgrecl1 ag (ea s ag) else s.pgsurr1 ag (ea s ag)) = (t, k)) : Leaves i ag s t k := by
  cases hi with
  | surr c a disp => rw [if_neg Bool.false_ne_true] at hg; exact leaves_each (fun _ => rfl) hg
  | recl c a disp => rw [if_pos rfl] at hg; exact leaves_each (fun _ => rfl) hg
/-- What stops a page operation stops its instruction. -/
theorem pageOf_stops {i : Instr} {ea : State → Nat → DWord} {recl : Bool} (hi : PageOf i ea recl)
    (h : s.pageLeaf ag (ea s ag) recl = (t, .error k)) : Leaves i ag s t k := by
  refine pageOf_leaves hi ?_
  cases recl with
  | false => simp only [Bool.false_eq_true, if_false, State.pgsurr1, h]
  | true => simp only [if_true, State.pgrecl1, h]

/-- Each row of the kiln is what its instruction does. -/
theorem kilnRow_leaves {i : Instr} (h : KilnRow i ag s t k) : Leaves i ag s t k := by
  cases h with
  | free c stk d => exact leaves_each (fun _ => rfl) rfl
  | pend c stk d => exact leaves_each (fun _ => rfl) rfl
  | nominal c stk d => exact leaves_each (fun _ => rfl) (by rw [wholeK_eq])
  | surr c stk d => exact leaves_each (fun _ => rfl) (by rw [wholeK_eq])
  | balqOpen c d _ _ due h => exact leaves_each (fun _ => rfl) (by rw [balqValue_open h])
  | balqNone c d _ _ h => exact leaves_each (fun _ => rfl) (by rw [balqValue_none h])
  | blksz c d a disp _ _ s1 x pa rb h11 h hx hr =>
    exact leaves_each (fun _ => rfl) (by
      simp only [State.blksz1, State.ea, h, hx, hr, ne_eq, not_true_eq_false, if_false, Bool.false_eq_true, Bool.cond_eq_ite, blockOf])
  | blkszWb c d a disp _ _ s1 x pa rb h11 h hx hr =>
    exact leaves_each (fun _ => rfl) (by
      simp only [State.blksz1, State.ea, h, hx, hr, ne_eq, not_true_eq_false, if_false, if_true, Bool.cond_eq_ite, blockOf])
  | blkszRemote c wb d a disp _ _ s1 x pa rb h11 h hx hr =>
    exact leaves_each (fun _ => rfl) (by
      simp only [State.blksz1, State.ea, h, hx, hr, ne_eq, not_false_eq_true, if_true, Bool.cond_eq_ite])
  | blkszAbsent c wb d a disp _ _ s1 x hk h =>
    exact leaves_each (fun _ => rfl) (by
      simp only [State.blksz1, State.ea, h, hk, if_true, Bool.cond_eq_ite, beq_iff_eq])
  | blkszTraps c wb d a disp _ _ s1 x hk h =>
    exact leaves_each (fun _ => rfl) (by
      simp only [State.blksz1, State.ea, h, hk.1, hk.2, or_self, if_false]; rfl)
  | blkfillStops c a disp x _ _ t f hs =>
    have ha : s.access ag (s.a64 ag a + Disp64 disp) 1024 1024 ⟨.store, kilnInfo true 0, false, some true, none⟩ = (t, .fate k) := access_stops hs
    exact leaves_each (fun _ => rfl) (by simp only [State.blkfill1, State.ea, ha])
  | blkfillFar c a disp x _ _ s1 pa rb h11 s2 hr hl hk =>
    exact leaves_each (fun _ => rfl) (by
      simp only [State.blkfill1, State.ea, blkfill_access hr, kilnStep_ready hk, beq_eq_false_iff_ne.2 hl, cond_false, pattern_eq])
  | blkfillSuppressed c a disp x _ _ s1 pa rb h11 hr hs =>
    exact leaves_each (fun _ => rfl) (by simp only [State.blkfill1, State.ea, blkfill_access hr, kilnStep_suppressed hs])
  | pageStops _ ea recl _ _ c r hi hs => exact pageOf_stops hi (pageLeaf_refused hs)
  | pageLocked _ ea recl _ _ t f hi h => exact pageOf_stops hi h
  | pageSuppressed _ ea recl _ _ s1 l hi h hn hs =>
    refine pageOf_leaves hi ?_
    cases recl with
    | false =>
      have hres : ¬l.res = 2 := hn.resolve_left Bool.false_ne_true
      simp only [Bool.false_eq_true, if_false, State.pgsurr1, h, hres, kilnStep_suppressed hs]
    | true => simp only [if_true, State.pgrecl1, h, kilnStep_suppressed hs]
  | blkfill c a disp x _ _ s1 pa rb h11 s2 hr hl hk =>
    exact leaves_each (fun _ => rfl) (by
      simp only [State.blkfill1, State.ea, blkfill_access hr, kilnStep_ready hk, hl, beq_self_eq_true, cond_true, pattern_eq])
  | pgsurr c a disp _ _ s1 l s2 hl hn hk =>
    exact leaves_each (fun _ => rfl) (by simp only [State.pgsurr1, State.ea, hl, hn, if_false, kilnStep_ready hk])
  | pgsurrDone c a disp _ _ s1 l hl hn => exact leaves_each (fun _ => rfl) (by simp only [State.pgsurr1, State.ea, hl, hn, if_true])
  | pgrecl c a disp _ _ s1 l0 s2 l s3 hl hk hw hr =>
    exact leaves_each (fun _ => rfl) (by simp only [State.pgrecl1, State.ea, hl, kilnStep_ready hk, hw, hr])

/-! ## Rays -/

/-- Each row of the ray instructions is what its instruction does. -/
theorem rayRow_leaves {i : Instr} (h : RayRow i ag s t k) : Leaves i ag s t k := by
  have hbin : ∀ x : Word, (x.extractLsb' 0 6).toNat = x.toNat % 64 := fun x => by simp
  cases h with
  | boxt c d a b _ _ s1 bs h => exact leaves_each (fun _ => rfl) (by simp only [State.boxt1, h, inRow])
  | tritMiss c clip d a b pc _ _ s1 bs h hm => exact leaves_each (fun _ => rfl) (by simp only [State.trit1, h, hm])
  | tritHit c clip d a b pc _ _ s1 bs hit h hm =>
    exact leaves_each (fun _ => rfl) (by simp only [State.trit1, h, hm, hitRow, Bool.cond_eq_ite])
  | rebin c b a off _ _ s1 s2 hs h1 hu hd =>
    subst h1
    exact leaves_each (fun _ => rfl) (by
      rw [State.rebin1, onceSettled_of_settleable hs]
      simp only [hu, hd, Bool.false_eq_true, if_false, hbin, rebinBillet, State.pcOf])
  | rebinHeld c b a off _ _ s1 hs h1 hu =>
    subst h1
    exact leaves_each (fun _ => rfl) (by
      rw [State.rebin1, onceSettled_of_settleable hs]
      simp only [hu, if_true, hbin, rebinBillet, State.pcOf])

end

/-- Settles O32: each row is what its instruction does, and the thread performs it alone. -/
theorem kilnEffects : Obligations.KilnEffects := fun _ _ _ _ _ h ha => (kilnRow_leaves h).alone ha

/-- Settles O33: each row is what its instruction does, and the thread performs it alone. -/
theorem rayEffects : Obligations.RayEffects := fun _ _ _ _ _ h ha => (rayRow_leaves h).alone ha

end Sys2Proof.Machine
end

section
/-! SUPPORT. Copies, chains and counters of one thread at issue (R260 to R277). -/

namespace Sys2Proof.Machine
open Sys2Proof.Claims

section
variable {s s1 s2 t : State} {ag : Nat} {k : Fate}

/-! ## Copies -/

theorem copyAtSystem_eq (cmode scope : Nat) : (cmode == 0 && scope == 7) = decide (cmode = 0 ∧ scope = 7) := by
  rw [Bool.eq_iff_iff]; simp only [Bool.and_eq_true, beq_iff_eq, decide_eq_true_eq]
theorem touches_eq (dir : Nat) (d b : Reg) (x : Shape) : x.touches dir (copyCoord s ag b x) (copyTile s ag dir d) = copyData s ag dir d b x := by
  simp only [Shape.touches, copyData, copyElems, Bool.cond_eq_ite, beq_iff_eq]
/-- No coordinate register of a copy waits for its result. -/
theorem coordsReady {b : Reg} {n : Nat} (h : ∀ o ∈ (s.agent ag).outst, ∀ w ∈ o.writes, ∀ k, k < n → w.1 ≠ .reg (b.toNat + k)) :
    ((s.agent ag).outst.any fun o => o.writes.any fun w => (List.range n).any fun k => w.1 == .reg (b.toNat + k)) = false := by
  simp only [List.any_eq_false, List.any_eq_true, not_exists, not_and]
  intro o ho w hw k hk heq
  exact h o ho w hw k (List.mem_range.1 hk) (beq_iff_eq.1 heq)
/-- A copy of a settled task within global memory has a tile apart from its tensor. -/
theorem noClash {dir : Nat} {u meet : Bool} (h : dir = 2 → u = false → meet = false) : (dir == 2 && !u && meet) = false := by
  by_cases hd : dir = 2
  · cases u with
    | false => rw [h hd rfl, Bool.and_false]
    | true => rw [Bool.not_true, Bool.and_false, Bool.false_and]
  · rw [beq_eq_false_iff_ne.2 hd, Bool.false_and, Bool.false_and]

/-- A copy that passes the checks of R264 enters its core's queue. -/
theorem tcopySteps_enters {dir cmode scope : Nat} {d b c : Reg} {r : ShapeRec} (h : CopyEnters s ag dir cmode scope d b c r t) :
    s.tcopySteps ag dir cmode scope d b c r = (t, .next) := by
  obtain ⟨hreg, hready, halign, hin, hctr, s5, s6, bs, hpages, hclash, hcharge, rfl⟩ := h
  have hpad : ¬(dir ≠ 2 ∧ (s.share (s.shareOf ag)).size < (copyTile s ag dir d).toNat + (Shape.parse r).tileBytes) :=
    fun ⟨hd, hlt⟩ => absurd (hin hd) (Nat.not_le.2 hlt)
  have htile : (bif dir == 2 then s.d64 ag d else (s.d32 ag d).setWidth 64) = copyTile s ag dir d := by
    simp only [copyTile, Bool.cond_eq_ite, beq_iff_eq]
  simp only [State.tcopySteps, Nat.not_lt.2 hreg, coordsReady hready, htile, halign, hpad, hctr, ne_eq, not_true_eq_false, if_false,
    Bool.false_eq_true]
  rw [show ((List.range (Shape.parse r).dims).map fun k => (s.regN ag (10 + k) (b.toNat + k)).toInt) = copyCoord s ag b (Shape.parse r) from rfl,
    touches_eq, hpages]
  dsimp only
  rw [show ((Shape.parse r).elems (copyCoord s ag b (Shape.parse r))).filterMap id = copyElems s ag b (Shape.parse r) from rfl,
    show ((copyTile s ag dir d, copyTile s ag dir d + BitVec.ofNat 64 ((Shape.parse r).tileBytes - 1)) : DWord × DWord) =
      copyOut s ag dir d (Shape.parse r) from rfl]
  cases htens : intervalOf (eltBytes (Shape.parse r).fmt) (copyElems s ag b (Shape.parse r)) with
  | none => simp only [Bool.false_eq_true, if_false, State.charged, hcharge, copyAtSystem_eq]
  | some x =>
    simp only [noClash fun hd hu => hclash hd hu x htens, Bool.false_eq_true, if_false, State.charged, hcharge, copyAtSystem_eq]

section
variable {dir cmode scope : Nat} {d a b c : Reg}

theorem tcopy1_full (h : 16 ≤ (s.core (s.coreOf ag)).copyQ.length) : s.tcopy1 ag dir cmode scope d a b c = (s, .wait (.engine 0)) := by
  rw [State.tcopy1, if_pos (.inl h)]
/-- A copy whose record is read goes on as the record's first reason says. -/
theorem tcopy1_reads {s3 s4 : State} {ps : List (Nat × Nat × Bool × Bool)} {r : ShapeRec} (hr : (s.core (s.coreOf ag)).copyQ.length < 16)
    (hl : (if dir = 2 then 2 else 1) ≤ ((s.core (s.coreOf ag)).locks.filter Option.isNone).length)
    (h1 : s.drainGroup ag = (s1, true)) (h2 : Committed s1 (s1.taskOf ag) (cmode == 0 && decide (4 ≤ scope)) s2)
    (ha : (s2.a64 ag a).toNat % 64 = 0) (h3 : s2.accessParts ag ⟨.load, 0#32, false, none, none⟩ (s2.a64 ag a) [(s2.a64 ag a, 64)] = (s3, .ok ps))
    (h4 : s3.readParts ag ps = (s4, some r)) : s.tcopy1 ag dir cmode scope d a b c =
      (shapeReason r dir).elim (s4.tcopySteps ag dir cmode scope d b c r) fun n => (s4, reason5 n) := by
  have hroom : ¬(16 ≤ (s.core (s.coreOf ag)).copyQ.length ∨
      ((s.core (s.coreOf ag)).locks.filter Option.isNone).length < (if dir = 2 then 2 else 1)) :=
    fun h => h.elim (fun h => absurd hr (Nat.not_lt.2 h)) fun h => absurd hl (Nat.not_le.2 h)
  simp only [State.tcopy1, hroom, if_false, h1, wide, committing_of h2, ha, ne_eq, not_true_eq_false, h3, h4]
  cases shapeReason r dir <;> rfl

end

/-! ## Counters -/

theorem ctwait1_pad {d a : Reg} {b : DWord} (h : PadOk s ag (s.a32 ag a) 8) (hv : b ≤ BitVec.ofNat 64 (leNat (s.padRead ag (s.a32 ag a).toNat 8))) :
    s.ctwait1 ag true d a b = (s.out ag true false (toPair d (BitVec.ofNat 64 (leNat (s.padRead ag (s.a32 ag a).toNat 8)))) 0#5, .next) := by
  simp only [State.ctwait1, if_true, padCheck_ok h, hv]
theorem ctwait1_reads {d a : Reg} {b : DWord} {pa : Nat} {rb h11 : Bool} {bs : List Byte} (hr : Reaches s ag (s.a64 ag a) 8 .load s1 pa rb h11)
    (hq : s1.readQueued ag pa 8 = (s2, some bs)) : s.ctwait1 ag false d a b =
      if b ≤ BitVec.ofNat 64 (leNat bs) then (s2.out ag true false (toPair d (BitVec.ofNat 64 (leNat bs))) 0#5, .next) else (s2, .wait .counter) := by
  have ha : s.access ag (s.a64 ag a) 8 8 ⟨.load, accInfo 8 false false, false, some false, none⟩ = (s1, .ok pa rb h11) := access_reaches hr rfl
  simp only [State.ctwait1, Bool.false_eq_true, if_false, ha, hq]

/-! ## Chains -/

theorem chkill1_stops {handle : Word} {uses : Nat} {x : Chain} (h : (s.core (s.coreOf ag)).chains.getD (handle.toNat % 8) (0, none) = (uses, some x))
    (hh : chainHandle (handle.toNat % 8) uses = handle) (hs : x.share = some (s.shareOf ag)) :
    s.chkill1 ag handle = s.setChain (.core (s.coreOf ag) (handle.toNat % 8)) (some { x with stop := true }) := by
  simp only [State.chkill1, h, hh, hs, beq_self_eq_true, Bool.and_self, cond_true]
theorem chkill1_gone {handle : Word} {uses : Nat} (h : (s.core (s.coreOf ag)).chains.getD (handle.toNat % 8) (0, none) = (uses, none)) :
    s.chkill1 ag handle = s := by
  simp only [State.chkill1, h]

/-- Each row of copies and chains is what its instruction does. -/
theorem copyRow_leaves {i : Instr} (h : CopyRow i ag s t k) : Leaves i ag s t k := by
  cases h with
  | tcopy c dir cmode scope d a b x _ _ r s4 t h hs =>
    obtain ⟨hr, hl, ⟨s1, s2, s3, ps, h1, h2, ha, h3, h4⟩, hv⟩ := h
    exact leaves_elected (fun _ => rfl) ((tcopy1_reads hr hl h1 h2 ha h3 h4).trans (by rw [hv]; exact tcopySteps_enters hs))
  | tcopyFull c dir cmode scope d a b x _ _ h => exact leaves_elected (fun _ => rfl) (tcopy1_full h)
  | tcopyReason c dir cmode scope d a b x _ _ s1 s2 s3 s4 ps r n hr hl h1 h2 ha h3 h4 hn =>
    exact leaves_elected (fun _ => rfl) ((tcopy1_reads hr hl h1 h2 ha h3 h4).trans (by rw [hn]; rfl))
  | ctwaitPad c scope d a b _ _ h hv => exact leaves_each (fun _ => rfl) (ctwait1_pad h hv)
  | ctwait c scope d a b _ _ s1 pa rb h11 s2 bs hr hq hv => exact leaves_each (fun _ => rfl) ((ctwait1_reads hr hq).trans (if_pos hv))
  | ctwaitNot c scope d a b _ _ s1 pa rb h11 s2 bs hr hq hv =>
    exact leaves_each (fun _ => rfl) ((ctwait1_reads hr hq).trans (if_neg (BitVec.not_le.2 hv)))
  | chain c cmode scope d a x _ _ s1 s2 s3 slot hd ha hw hc hp hm hf =>
    refine leaves_elected (fun _ => rfl) ?_
    simp only [State.chain1, hd, ha, Nat.not_lt.2 hw, hc, hp, wide, committing_of hm, hf, ne_eq, not_true_eq_false, if_false, copyAtSystem_eq]
    rfl
  | chkill c a _ _ uses x h hh hs => exact leaves_plain (fun _ => rfl) (chkill1_stops h hh hs)
  | chkillGone c a _ _ uses h => exact leaves_plain (fun _ => rfl) (chkill1_gone h)

end

/-- Settles O34: each row is what its instruction does, and the thread performs it alone. -/
theorem copyEffects : Obligations.CopyEffects := fun _ _ _ _ _ h ha => (copyRow_leaves h).alone ha

end Sys2Proof.Machine
end

section
/-! SUPPORT. Matrix and extrapolation instructions of one thread at issue (R145, R282 to R305, R312 to R323). -/

namespace Sys2Proof.Machine
open Sys2Proof.Claims

section
variable {i : Instr} {s s1 t : State} {ag : Nat} {k : Fate}

/-! ## Entering the queue -/

theorem mxRoom_of_open (ho : MxOpen s ag) : s.mxRoom (s.coreOf ag) = true := by
  obtain ⟨hq, hr⟩ := ho
  simp only [State.mxRoom, hq, hr, decide_true, Bool.not_false, Bool.and_self]
theorem mxRoom_full (h : 32 ≤ (s.core (s.coreOf ag)).mxQ.length) : s.mxRoom (s.coreOf ag) = false := by
  rw [State.mxRoom, decide_eq_false (Nat.not_lt.2 h), Bool.false_and]
/-- A command that the elected thread enters, where the queue takes one. -/
theorem leaves_mxElected {g : Nat → State → State × Fate} (hx : ∀ u, exec i u = .next (u.issue i (mxElected g))) (ho : MxOpen s ag)
    (hg : g ag s = (t, k)) : Leaves i ag s t k := leaves_elected hx (by rw [if_pos (mxRoom_of_open ho), hg])
/-- A command entered for all participants, where the queue takes one. -/
theorem leaves_mxJoint {f : List Nat → State → State} (hx : ∀ u, exec i u = .next (u.issue i (mxJoint f))) (ho : MxOpen s ag)
    (hf : f [ag] s = t) : Leaves i ag s t .next := by
  have hroom := mxRoom_of_open ho
  exact ⟨_, hx, by simp only [mxJoint, hroom, if_true, hf], by simp [mxJoint, hroom]⟩
theorem mxPut_mxNo {core h : Nat} {c : MxCmd} (hcl : core < s.lanes.cores.length) : ((s.mxPut core h c).core core).mxNo = (s.core core).mxNo + 1 := by
  rw [State.mxPut, State.modCore_core_self _ _ _ hcl]

/-! ## Weights -/

theorem scalePair_eq (s : State) (ag : Nat) (c : Reg) : (bif c == 255#8 then none else some (s.c64 ag c)) = scalePair s ag c := by
  simp only [scalePair, Bool.cond_eq_ite, beq_iff_eq]
theorem wload1_enters {s2 : State} {sparse hadn : BitVec 2} {fmt : BitVec 4} {a x : Reg} {b : Src} (hd : s.drainGroup ag = (s1, true))
    (ha : (s1.a64 ag a).toNat % 128 = 0) (hs : ((scalePair s1 ag x).getD 0#64).toNat % 64 = 0)
    (ht : (s1.b32 ag b).toNat % 16 = 0 ∧ colBytes fmt.toNat sparse.toNat ≤ (s1.b32 ag b).toNat ∧ (s1.b32 ag b).toNat < 2 ^ 24)
    (hc : s1.checkRanges ag (weightRanges (s1.a64 ag a) (s1.b32 ag b).toNat (colBytes fmt.toNat sparse.toNat)
      (kcOf fmt.toNat sparse.toNat) (scalePair s1 ag x)) = (s2, none)) : s.wload1 ag sparse hadn fmt a b x =
    (s2.enterWload ag sparse hadn fmt (s1.a64 ag a) (s1.b32 ag b).toNat (scalePair s1 ag x), .next) := by
  obtain ⟨h16, hlo, hhi⟩ := ht
  have hw : s1.checkRanges ag (wloadTouches (s1.a64 ag a) (s1.b32 ag b).toNat (scalePair s1 ag x) (colBytes fmt.toNat sparse.toNat)
      (kcOf fmt.toNat sparse.toNat)) = (s2, none) := by
    rw [← hc]; unfold wloadTouches weightRanges; cases scalePair s1 ag x <;> rfl
  simp only [State.wload1, hd, scalePair_eq, hs, ha, h16, Nat.not_lt.2 hlo, Nat.not_le.2 hhi, ne_eq, not_true_eq_false, false_and, or_self, if_false, hw]

/-! ## Signatures -/

/-- A signature is what the row says. -/
theorem sign_of {c : Nat} {p : SigSpec} {src : RowSrc} (hs : Signs s ag c p src t k) : s.sign ag c p src = (t, k) := by
  cases hs with
  | refused r h => simp only [State.sign, h]; rfl
  | stale h hb => rw [boundSet] at hb; simp only [State.sign, h, hb]; rfl
  | mismatch w h hb hm => rw [boundSet] at hb; simp only [State.sign, h, hb, hm, Bool.not_false, if_true]; rfl
  | more w h hb hm hl =>
    rw [boundSet] at hb
    simp only [State.sign, h, hb, hm, Bool.not_true, Bool.false_eq_true, if_false, List.length_append, List.length_singleton,
      beq_eq_false_iff_ne.2 hl, cond_false, signed1]
  | last w h hb hm hl =>
    rw [boundSet] at hb
    simp only [State.sign, h, hb, hm, Bool.not_true, Bool.false_eq_true, if_false, List.length_append, List.length_singleton,
      beq_iff_eq.2 hl, if_true, signed1, Bool.cond_eq_ite, beq_iff_eq]
    exact congrArg _ (ite_congr rfl (fun _ => rfl) fun _ => rfl)

/-! ## Drains -/

theorem rowSpan_eq (s : State) (ag : Nat) (c : Reg) : drainSpan (bif c == 255#8 then none else some (s.c32 ag c)) = rowSpan s ag c := by
  have hrow : ∀ x : Word, (x.extractLsb' 0 7).toNat = x.toNat % 128 := fun x => by simp
  have hcount : ∀ x : Word, (x.extractLsb' 8 8).toNat = x.toNat / 256 % 256 := fun x => by simp [Nat.shiftRight_eq_div_pow]
  by_cases hc : c = 255#8
  · simp only [rowSpan, hc, beq_self_eq_true, cond_true, if_true, drainSpan]
  · simp only [rowSpan, hc, beq_eq_false_iff_ne.2 hc, cond_false, if_false, drainSpan, hrow, hcount]
/-- Marking bytes of the window absent moves no share to another core. -/
theorem padAbsent_coreOf (s : State) (h off n a : Nat) : (s.padAbsent h off n).coreOf a = s.coreOf a := by
  simp only [State.coreOf, State.padAbsent, State.shareOf, State.modShare_agent]
  rw [State.modShare_share]; split <;> rfl
theorem padAbsents_frame (h a : Nat) (off : Nat → Nat) (n : Nat) (l : List Nat) (s : State) :
    (l.foldl (fun s r => s.padAbsent h (off r) n) s).coreOf a = s.coreOf a ∧
    (l.foldl (fun s r => s.padAbsent h (off r) n) s).lanes.cores = s.lanes.cores := by
  induction l generalizing s with
  | nil => exact ⟨rfl, rfl⟩
  | cons r rest ih =>
    obtain ⟨hco, hcores⟩ := ih (s.padAbsent h (off r) n)
    exact ⟨hco.trans (padAbsent_coreOf s h (off r) n a), hcores.trans rfl⟩

section
variable {sat clr : Bool} {scale : BitVec 8} {fmt : BitVec 4} {tile : BitVec 3} {a x : Reg} {b : Src}

theorem adrain1_pad (hd : s.drainGroup ag = (s1, true)) (ha : ((s1.a32 ag a).setWidth 64).toNat % 16 = 0)
    (ht : (s1.b32 ag b).toNat % 16 = 0 ∧ 64 * eltBytes fmt.toNat ≤ (s1.b32 ag b).toNat ∧ (s1.b32 ag b).toNat < 2 ^ 24)
    (hr : (rowSpan s1 ag x).1 + (rowSpan s1 ag x).2 ≤ 128)
    (hw : ((s1.a32 ag a).setWidth 64).toNat + ((rowSpan s1 ag x).2 - 1) * (s1.b32 ag b).toNat + 64 * eltBytes fmt.toNat ≤
      (s1.share (s1.shareOf ag)).size) : s.adrain1 ag sat clr true scale fmt tile a b x =
      (((List.range (rowSpan s1 ag x).2).foldl (fun s r => s.padAbsent (s1.shareOf ag)
          (((s1.a32 ag a).setWidth 64).toNat + r * (s1.b32 ag b).toNat) (64 * eltBytes fmt.toNat)) s1).mxPut (s1.coreOf ag) (s1.shareOf ag)
          (drainCmd s1 ag sat clr true scale fmt tile ((s1.a32 ag a).setWidth 64) (s1.b32 ag b).toNat x []), .next) := by
  obtain ⟨h16, hlo, hhi⟩ := ht
  simp only [State.adrain1, hd, cond_true, rowSpan_eq, ha, h16, Nat.not_lt.2 hlo, Nat.not_le.2 hhi, Nat.not_lt.2 hr, Nat.not_lt.2 hw, ne_eq,
    not_true_eq_false, or_self, if_false, if_true, drainCmd, (padAbsents_frame _ _ _ _ _ s1).1]
theorem adrain1_global {s2 s3 : State} {bs : List Nat} (hd : s.drainGroup ag = (s1, true)) (ha : (s1.a64 ag a).toNat % 16 = 0)
    (ht : (s1.b32 ag b).toNat % 16 = 0 ∧ 64 * eltBytes fmt.toNat ≤ (s1.b32 ag b).toNat ∧ (s1.b32 ag b).toNat < 2 ^ 24)
    (hr : (rowSpan s1 ag x).1 + (rowSpan s1 ag x).2 ≤ 128)
    (hp : s1.checkRanges ag (drainRanges (s1.a64 ag a) (s1.b32 ag b).toNat (rowSpan s1 ag x).2 (64 * eltBytes fmt.toNat)) = (s2, none))
    (hg : s2.chargeBlocks (s2.vdOf ag) (s2.coreOf ag) (blocksOf (drainRanges (s1.a64 ag a) (s1.b32 ag b).toNat (rowSpan s1 ag x).2
      (64 * eltBytes fmt.toNat))) = (s3, .taken bs)) : s.adrain1 ag sat clr false scale fmt tile a b x =
      (s3.mxPut (s3.coreOf ag) (s1.shareOf ag)
        (drainCmd s1 ag sat clr false scale fmt tile (s1.a64 ag a) (s1.b32 ag b).toNat x bs), .next) := by
  obtain ⟨h16, hlo, hhi⟩ := ht
  rw [drainRanges] at hp hg
  simp only [State.adrain1, hd, cond_false, rowSpan_eq, ha, h16, Nat.not_lt.2 hlo, Nat.not_le.2 hhi, Nat.not_lt.2 hr, ne_eq,
    not_true_eq_false, or_self, if_false, Bool.false_eq_true, drainTouches, hp, State.charged, hg, drainCmd]
/-- A thread that enters an ADRAIN remembers its entry. -/
theorem adrain_leaves {c : Ctl} {sp : Bool} {u : State} (ho : MxOpen s ag) (hg : s.adrain1 ag sat clr sp scale fmt tile a b x = (u, .next))
    (hno : (u.core (s.coreOf ag)).mxNo = (s.core (s.coreOf ag)).mxNo + 1) :
    Leaves (.adrain c sat clr sp scale fmt tile a b x) ag s (remembers u ag (s.core (s.coreOf ag)).mxNo) .next := by
  have hne : ((u.core (s.coreOf ag)).mxNo == (s.core (s.coreOf ag)).mxNo) = false := beq_eq_false_iff_ne.2 (by omega)
  have hbody : mxElected (fun ag s => s.adrain1 ag sat clr sp scale fmt tile a b x) [ag] s = (u, [(ag, .next)]) := by
    simp only [mxElected, elected, mxRoom_of_open ho, if_true, hg, List.map_nil]
  refine ⟨_, fun _ => rfl, ?_, ?_⟩
  · simp only [noteDrain, hbody, List.headD_cons, hne, cond_false, remembers]
  · simp [noteDrain, hbody]

end

/-! ## The rows -/

/-- Each row of the matrix instructions is what its instruction does. -/
theorem matrixRow_leaves (h : MatrixRow i ag s t k) : Leaves i ag s t k := by
  cases h with
  | wload c sparse hadn fmt a b x _ _ s1 s2 ho hd ha hs ht hc => exact leaves_mxElected (fun _ => rfl) ho (wload1_enters hd ha hs ht hc)
  | mma c row0 z as ksz kh fmt tile a cv _ _ s1 t1 k hd hs =>
    exact leaves_each (fun _ => rfl) (by simp only [State.mma1, hd, sign_of hs])
  | mmamPad c row0 z as ksz fmt tile a cv disp _ _ s1 t1 k hd ha hw hs =>
    exact leaves_each (fun _ => rfl) (by
      simp only [State.mmam1, hd, if_true, ha, ne_eq, not_true_eq_false, if_false, Nat.not_lt.2 hw, sign_of hs])
  | mmam c row0 z as ksz fmt tile a cv disp _ _ s1 s2 t1 k hd ha hc hs =>
    exact leaves_each (fun _ => rfl) (by
      simp only [State.mmam1, hd, Bool.false_eq_true, ha, ne_eq, not_true_eq_false, if_false, hc, sign_of hs])
  | aclr c tile _ _ ho => exact leaves_mxElected (fun _ => rfl) ho rfl
  | ard c chunk d tile b _ _ ho => exact leaves_mxJoint (fun _ => rfl) ho rfl
  | awr c chunk tile a b _ _ ho => exact leaves_mxJoint (fun _ => rfl) ho rfl
  | adrainPad c sat clr scale fmt tile a b x _ _ s1 ho hd ha ht hr hw hid hco hcl =>
    refine adrain_leaves ho (adrain1_pad hd ha ht hr hw) ?_
    obtain ⟨-, hcores⟩ := padAbsents_frame (s1.shareOf ag) ag (fun r => ((s1.a32 ag a).setWidth 64).toNat + r * (s1.b32 ag b).toNat)
      (64 * eltBytes fmt.toNat) (List.range (rowSpan s1 ag x).2) s1
    rw [hco] at hid ⊢
    rw [mxPut_mxNo (by rw [hcores]; exact hcl), State.core, hcores, ← hid, State.core]
  | adrain c sat clr scale fmt tile a b x _ _ s1 s2 s3 bs ho hd ha ht hr hp hg hid hco hcl =>
    refine adrain_leaves ho (adrain1_global hd ha ht hr hp hg) ?_
    rw [hco] at hid ⊢
    rw [mxPut_mxNo hcl, hid]
  | wrel c _ _ ho => exact leaves_mxElected (fun _ => rfl) ho rfl
  | mstat c keep d _ _ ho => exact leaves_mxJoint (fun _ => rfl) ho rfl
  | full c tile _ _ h => exact leaves_elected (fun _ => rfl) (by rw [mxRoom_full h, if_neg Bool.false_ne_true])

/-! ## Extrapolation -/

section
variable {cmd : Nat → State → XCmd} {out : Nat → State → State}

/-- A thread alone is one issue pass (R126). -/
theorem xPass_alone (hi : (s.agent ag).home.idx < 128) : s.xPass cmd out [ag] = s.xEntry cmd out [ag] := by
  have hp : (s.agent ag).home.idx / 32 < 4 := by omega
  have hnone : ∀ u : State, u.xEntry cmd out [] = (u, []) := fun _ => rfl
  simp only [State.xPass, State.passes, List.range_succ, List.range_zero, List.nil_append, List.cons_append, List.map_cons, List.map_nil,
    List.filter_cons, List.filter_nil]
  generalize (s.agent ag).home.idx / 32 = p at hp
  interval_cases p <;> simp [State.xEntries, hnone]
theorem xEntry_enters (hq : (s.core (s.coreOf ag)).xQ.length < 16) : s.xEntry cmd out [ag] =
    ((out ag s).modCore (s.coreOf ag) fun k => { k with xQ := k.xQ ++ [[(ag, cmd ag s)]] }, [(ag, .next)]) := by
  simp only [State.xEntry, Nat.not_le.2 hq, if_false, List.map_cons, List.map_nil, List.foldl_cons, List.foldl_nil]
theorem xEntry_full (hq : 16 ≤ (s.core (s.coreOf ag)).xQ.length) : s.xEntry cmd out [ag] = (s, [(ag, .wait (.engine 3))]) := by
  simp only [State.xEntry, hq, if_true, List.map_cons, List.map_nil]
/-- An extrapolation instruction leaves what its pass leaves. -/
theorem leaves_xPass (hx : ∀ u, exec i u = .next (u.issue i fun ags v => v.xPass cmd out ags)) (hi : (s.agent ag).home.idx < 128)
    (hg : s.xEntry cmd out [ag] = (t, [(ag, k)])) : Leaves i ag s t k := by
  refine ⟨_, hx, ?_, ?_⟩
  · show (s.xPass cmd out [ag]).1 = t
    rw [xPass_alone hi, hg]
  · show ((s.xPass cmd out [ag]).2.lookup ag).getD .next = k
    rw [xPass_alone hi, hg]; simp
theorem xOf_leaves {c : State → Nat → XCmd} {rs : List (Option Dst × Word)} (h : XOf i c rs) (hi : (s.agent ag).home.idx < 128)
    (hg : s.xEntry (fun g s => c s g) (fun g s => awaits s g rs) [ag] = (t, [(ag, k)])) : Leaves i ag s t k := by
  cases h with
  | xcfg c depth meth x a b e => exact leaves_xPass (fun _ => rfl) hi hg
  | xpush c x a pc => exact leaves_xPass (fun _ => rfl) hi hg
  | xest c d x pc => exact leaves_xPass (fun _ => rfl) hi hg
  | xclr c x => exact leaves_xPass (fun _ => rfl) hi hg
  | xstat c d x => exact leaves_xPass (fun _ => rfl) hi hg

/-- Each row of the extrapolation instructions is what its instruction does. -/
theorem xRow_leaves (h : XRow i ag s t k) : Leaves i ag s t k := by
  cases h with
  | enters cmd rs _ _ h hi hq => exact xOf_leaves h hi (xEntry_enters hq)
  | full cmd rs _ _ h hi hq => exact xOf_leaves h hi (xEntry_full hq)

end
end

/-- Settles O35: each row is what its instruction does, and the thread performs it alone. -/
theorem matrixEffects : Obligations.MatrixEffects := fun _ _ _ _ _ h ha => (matrixRow_leaves h).alone ha

/-- Settles O36: each row is what its instruction does, and the thread performs it alone. -/
theorem extrapolationEffects : Obligations.ExtrapolationEffects := fun _ _ _ _ _ h ha => (xRow_leaves h).alone ha

end Sys2Proof.Machine
end

section
/-! SUPPORT. What a store leaves: in committed memory, in its task's version, and in its queue (R98, R99, R108, R118, R365). -/

namespace Sys2Proof.Machine
open Sys2Proof.Claims

/-! ## A settled task writes committed memory (R98, R365) -/

theorem foldl_eq_self {α β : Type} {f : α → β → α} {a : α} (l : List β) (h : ∀ x ∈ l, f a x = a) : l.foldl f a = a := by
  induction l with
  | nil => rfl
  | cons x l ih => rw [List.foldl_cons, h x (List.mem_cons_self ..), ih fun y hy => h y (List.mem_cons_of_mem _ hy)]
/-- A page without replicas has none to collapse. -/
theorem collapseHome_unreplicated {s : State} {pa : Nat} (h : Unreplicated s pa) : s.collapseHome pa = s := by
  rw [State.collapseHome]
  refine foldl_eq_self _ fun r hr => ?_
  dsimp only
  split
  · next l hl =>
    have hkeep : (l.res == 3 && region l.base == 0 && l.maps pa) = false := by
      by_cases hres : l.res = 3
      · by_cases hreg : region l.base = 0
        · rw [h r hr l hl hres hreg, Bool.and_false]
        · rw [beq_eq_false_iff_ne.2 hreg, Bool.and_false, Bool.false_and]
      · rw [beq_eq_false_iff_ne.2 hres, Bool.false_and, Bool.false_and]
    rw [hkeep, cond_false]
  · rfl

/-- A store of a settled task to local memory writes its bytes over what the collapse leaves. -/
theorem writeHome_settled_mem {s : State} {t ag pa : Nat} {h11 : Bool} {bs : List Byte} (hs : s.unsettled t = false) (hr : region pa = 0) :
    (s.writeHome t ag pa h11 bs).store.mem = (s.collapseHome pa).store.mem.putN pa bs := by
  have hw : s.writeAs t ag pa bs = (s.collapseHome pa).putBytes pa bs := by
    rw [State.writeAs, hs, cond_false, State.writeCommitted, hr, beq_self_eq_true, cond_true]
  have hout : (region pa != 0) = false := by rw [hr]; rfl
  simp only [State.writeHome, hw, hs, hout, Bool.or_false, cond_false]
  cases h11 with
  | false => simp only [Bool.not_false, cond_true, putBytes_mem]
  | true => simp only [Bool.not_true, cond_false, settleHome_mem, putBytes_mem]

/-- Settles O40: nothing collapses where no replica is, and else the bytes are put over what the collapse leaves. -/
theorem storeFrame : Obligations.StoreFrame := by
  refine ⟨fun s pa h => collapseHome_unreplicated h, fun s t ag pa h11 bs hm hs hr a => ?_⟩
  have hwf : (s.collapseHome pa).store.mem.wf = true := collapseHome_wf s pa hm
  rw [writeHome_settled_mem hs hr]
  split
  · next h =>
    obtain ⟨k, rfl⟩ := Nat.exists_eq_add_of_le h.1
    rw [Mem.get_putN_in bs hwf (by omega), Nat.add_sub_cancel_left]
  · next h => exact Mem.get_putN_of_out bs hwf (by omega)

/-! ## An unsettled task writes its version (R118) -/

theorem overlayGet_overlayPut (m : List Host.Cell) (a c : Nat) (b : Byte) :
    overlayGet (overlayPut m a b) c = if c = a then some b else overlayGet m c := by
  induction m with
  | nil =>
    by_cases h : c = a
    · subst h; simp [overlayPut, overlayGet]
    · simp [overlayPut, overlayGet, h, Ne.symm h]
  | cons x rest ih =>
    obtain ⟨k, v⟩ := x
    by_cases h1 : k = a
    · subst h1
      by_cases hc : c = k
      · subst hc; simp [overlayPut, overlayGet]
      · simp [overlayPut, overlayGet, hc, Ne.symm hc]
    · by_cases h2 : a < k
      · by_cases hc : c = a
        · subst hc; simp [overlayPut, overlayGet, h1, h2]
        · by_cases hlt : c < a
          · have hk : ¬k = c := by omega
            have hck : c < k := by omega
            simp [overlayPut, overlayGet, h1, h2, hc, Ne.symm hc, hlt, hk, hck]
          · simp [overlayPut, overlayGet, h1, h2, hc, Ne.symm hc, hlt]
      · by_cases hc : c = a
        · subst hc; simp [overlayPut, overlayGet, h1, h2, ih]
        · simp only [overlayPut, h1, h2, if_false, overlayGet, ih, hc]
/-- Bytes put in a version before an address leave that address alone. -/
theorem overlayGet_overlayPutN_below (bs : List Byte) : ∀ (m : List Host.Cell) {a c : Nat}, c < a → overlayGet (overlayPutN m a bs) c = overlayGet m c := by
  induction bs with
  | nil => intros; rfl
  | cons b bs ih =>
    intro m a c h
    rw [overlayPutN, ih _ (by omega), overlayGet_overlayPut, if_neg (by omega)]
/-- A version holds the bytes put in it. -/
theorem overlayGet_overlayPutN (bs : List Byte) : ∀ (m : List Host.Cell) (a k : Nat) (h : k < bs.length),
    overlayGet (overlayPutN m a bs) (a + k) = some bs[k] := by
  induction bs with
  | nil => intro m a k h; simp at h
  | cons b bs ih =>
    intro m a k h
    cases k with
    | zero => rw [Nat.add_zero, overlayPutN, overlayGet_overlayPutN_below _ _ (by omega), overlayGet_overlayPut, if_pos rfl, List.getElem_cons_zero]
    | succ k =>
      rw [overlayPutN, ← Nat.add_assoc, Nat.add_right_comm, ih _ (a + 1) k (by simpa using h), List.getElem_cons_succ]

theorem getN_length (m : Mem) : ∀ (n a : Nat), (m.getN a n).length = n := by
  intro n
  induction n with
  | zero => intro a; rfl
  | succ n ih => intro a; rw [Mem.getN, List.length_cons, ih]
theorem readCommitted_length (s : State) (pa n : Nat) : (s.readCommitted pa n).length = n := by
  rw [State.readCommitted]
  cases region pa == 0 with
  | true => rw [cond_true, getN_length]
  | false => rw [cond_false, List.length_map, List.length_range]

/-- A store of an unsettled task changes its version, and reads of the version find the bytes. -/
theorem writeHome_unsettled {s : State} {t ag pa : Nat} {h11 : Bool} {bs : List Byte} (hu : s.unsettled t = true) :
    ∃ f : Task → Task, s.writeHome t ag pa h11 bs = s.modTask t f ∧
      ∀ k, (f k).settled = k.settled ∧ (f k).ver.bytes = overlayPutN k.ver.bytes pa bs := by
  simp only [State.writeHome, State.writeAs, hu, cond_true]
  cases !h11 || region pa != 0 with
  | true => exact ⟨_, rfl, fun _ => ⟨rfl, rfl⟩⟩
  | false =>
    refine ⟨fun k => { k with ver := { k.ver with
        bytes := overlayPutN k.ver.bytes pa bs, wsig := bif s.isolated t then addLines k.ver.wsig pa bs.length else k.ver.wsig,
        h11 := blocksIn pa bs.length ++ k.ver.h11 } }, ?_, fun k => ⟨rfl, rfl⟩⟩
    simp only [cond_false, State.modTask, List.modify_modify_eq]; rfl

/-- Settles O41: the version alone changes, and a read looks there first. -/
theorem versionedStores : Obligations.VersionedStores := by
  intro s t ag pa h11 bs ht hu
  obtain ⟨f, hw, hf⟩ := writeHome_unsettled (s := s) (ag := ag) (pa := pa) (h11 := h11) (bs := bs) hu
  refine ⟨by rw [hw]; rfl, by rw [hw]; rfl, ?_⟩
  have htask : (s.modTask t f).task t = f (s.task t) := State.modTask_task_self _ _ _ ht
  have hu' : (s.modTask t f).unsettled t = true := by rw [State.unsettled, htask, (hf _).1]; exact hu
  rw [hw, State.readAs, hu', cond_true, htask, (hf _).2]
  refine List.ext_getElem (by simp [readCommitted_length]) fun k hk hk' => ?_
  simp only [List.getElem_map, List.getElem_zip, List.getElem_range, overlayGet_overlayPutN bs _ pa k hk', Option.getD_some]

/-! ## A load reads its queue (R99) -/

theorem meets_false_iff (a n b m : Nat) : meets a n b m = false ↔ b + m ≤ a ∨ a + n ≤ b := by
  simp only [meets, Bool.and_eq_false_iff, decide_eq_false_iff_not, not_lt]
/-- The youngest entry that meets a load's bytes is the last one that does. -/
theorem youngest_last {pa n : Nat} {q rest : List SqEntry} {e : SqEntry} (he : meets pa n e.pa e.size = true)
    (hrest : ∀ x ∈ rest, meets pa n x.pa x.size = false) : youngest pa n (q ++ e :: rest) = some q.length := by
  have hnone : (rest.zipIdx (q.length + 1)).filter (fun x => meets pa n x.1.pa x.1.size) = [] := by
    rw [List.filter_eq_nil_iff]
    intro x hx
    rw [hrest x.1 (List.fst_mem_of_mem_zipIdx hx)]
    exact Bool.false_ne_true
  have hsplit : (q ++ e :: rest).zipIdx = q.zipIdx ++ (e, q.length) :: rest.zipIdx (q.length + 1) := by
    rw [List.zipIdx_append, List.zipIdx_cons, Nat.zero_add]
  rw [youngest, hsplit, List.filter_append, List.filter_cons_of_pos (by exact he)]
  rw [show (rest.zipIdx (q.length + 1)).filter (fun (x : SqEntry × Nat) => match x with | (e, _) => meets pa n e.pa e.size) = [] from hnone,
    List.foldl_append, List.foldl_cons, List.foldl_nil]

/-- Settles O42: the youngest entry that meets the load is the store, and it covers the load. -/
theorem queuedStoresForward : Obligations.QueuedStoresForward := by
  intro s ag pa n q rest e bs hq hop hn hlo hhi hrest
  have hsize : e.size = bs.length := by rw [SqEntry.size, hop]
  have he : meets pa n e.pa e.size = true := by
    rw [hsize, meets, Bool.and_eq_true, decide_eq_true_eq, decide_eq_true_eq]; omega
  have hy : youngest pa n (s.sq ag) = some q.length := by
    rw [hq]; exact youngest_last he fun x hx => (meets_false_iff ..).2 (hrest x hx)
  have hget : (s.sq ag).getD q.length default = e := by
    rw [hq, List.getD_eq_getElem?_getD, List.getElem?_append_right (Nat.le_refl _), Nat.sub_self]; rfl
  simp only [State.readQueued, hy, hget, hop, hlo, hhi, and_self, if_true]

end Sys2Proof.Machine
end

section
/-! SUPPORT. Every meaning gives a next state, and a step runs what it fetches (R13, R134, R138, R140, R409). -/

namespace Sys2Proof.Machine
open Sys2Proof.Claims

/-- Whatever an application core asks for has a next state. -/
theorem execApplicationCoreAccess_next (hart : Nat) (op : HostOp) (s : State) : ∃ t, execApplicationCoreAccess hart op s = .next t := by
  unfold execApplicationCoreAccess
  dsimp only
  cases !s.hearth.booted || decide (32 ≤ hart) with
  | true => exact ⟨_, rfl⟩
  | false => rw [cond_false]; split <;> exact ⟨_, rfl⟩

/-- Settles O4: each other meaning is a next state by its definition. -/
theorem nothingStops : Obligations.NothingStops := by
  intro i s
  cases i with
  | applicationCoreAccess hart op => exact execApplicationCoreAccess_next hart op s
  | _ => exact ⟨_, rfl⟩

/-! ## What a step runs -/

section
variable {s t : State} {o : Sys2Proof.Owner} {i : Instr}

theorem takeBreakpoints_none (l : List Nat) (h : ∀ a ∈ l, s.breakpoint a = none) : s.takeBreakpoints l = s := by
  induction l with
  | nil => rfl
  | cons a l ih =>
    simp only [State.takeBreakpoints, h a (List.mem_cons_self ..)]
    exact ih fun b hb => h b (List.mem_cons_of_mem _ hb)
/-- The nominated fragment's instruction is fetched. -/
theorem fetchCur_fetched (h : Fetched s o i t) : (s.nominate o).fetchCur = (t, some i) := by
  obtain ⟨a, rest, v, w, ws, hags, hbp, hf, hdec, rfl⟩ := h
  have hfilter : (a :: rest).filter (fun b => ((s.nominate o).breakpoint b).isNone) = a :: rest :=
    List.filter_eq_self.2 fun b hb => by rw [hbp b hb]; rfl
  simp only [State.fetchCur, hags, hfilter, takeBreakpoints_none _ hbp, State.fetchInstr, hf, hdec, List.getD_cons_zero]
/-- An owner whose turn it is runs what it fetches. -/
theorem issueFrom_issues (h : Issues s o i t) : s.issueFrom o = .run i t := by
  obtain ⟨hturn, u, a, rest, hf, hags, horder, rfl⟩ := h
  simp only [State.issueFrom, hturn, Bool.not_true, cond_false, fetchCur_fetched hf, State.runInOrder, hags, horder, cond_true]
theorem issueFrom_notTurn (h : s.hasTurn o = false) : s.issueFrom o = .done s (.next s) := by
  rw [State.issueFrom, h, Bool.not_false, cond_true]
theorem scheduled_event {ev : Instr} (h : ∀ o, ev ≠ .sliceNomination o) :
    s.scheduled ev = bif s.serviceWaits ev then .done s (.next { s with sched := s.sched ++ [⟨1, 1, ev⟩] }) else .run ev s := by
  unfold State.scheduled
  split
  · next o => exact absurd rfl (h o)
  · rfl
theorem nextMove_scheduled {dt dclk : Nat} {ev : Instr} {rest : List Sched} (h : s.sched = ⟨dt, dclk, ev⟩ :: rest) :
    s.nextMove = (({ s with sched := rest } : State).elapse dt dclk).scheduled ev := by
  simp only [State.nextMove, h]
theorem nextMove_unscheduled (h : s.sched = []) : s.nextMove = (s.elapse 1 1).unscheduled := by
  simp only [State.nextMove, h]

end

/-- Settles O5: the next move is a run of what is fetched or scheduled, or a move that is done. -/
theorem stepRunsInstruction : Obligations.StepRunsInstruction := by
  refine ⟨fun s dt dclk o rest i t hs hi => ?_, fun s dt dclk o rest hs ht => ?_, fun s dt dclk ev rest hs hev hw => ?_,
    fun s dt dclk ev rest hs hev hw => ?_, fun s o i t hs hm ho hi => ?_⟩
  · simp only [step, nextMove_scheduled hs, State.scheduled, issueFrom_issues hi]
  · simp only [step, nextMove_scheduled hs, State.scheduled, issueFrom_notTurn ht]
  · simp only [step, nextMove_scheduled hs, scheduled_event hev, hw, cond_true]
  · simp only [step, nextMove_scheduled hs, scheduled_event hev, hw, cond_false]
  · have hodd : ((s.elapse 1 1).moves % 2 == 1) = false := by rw [hm]; rfl
    simp only [step, nextMove_unscheduled hs, State.unscheduled, hodd, cond_false, ho, issueFrom_issues hi]

end Sys2Proof.Machine
end

section
/-! SUPPORT. The events of threads, store queues and shares (R59, R98, R101, R132, R134, R135, R143, R148, R149). -/

namespace Sys2Proof.Machine
open Sys2Proof.Claims

section
variable {s : State}

/-- The oldest entry of a queue drains. -/
theorem drainFirst_one {ag : Nat} {e : SqEntry} {rest : List SqEntry} (hq : s.sq ag = e :: rest)
    (hc : region e.pa = 0 → s.handing (stackOf e.pa) = false) : (s.drainFirst ag 1).1 = (s.setSq ag rest).perform e := by
  have hdrains : s.canDrain e = true := by
    by_cases hr : region e.pa = 0
    · simp [State.canDrain, hc hr]
    · simp [State.canDrain, hr]
  simp [State.drainFirst, hq, hdrains]
/-- A park that ends by retrying, for the threads held together with the agent. -/
theorem execParkRelease_retries {ag : Nat} {w : Wait} (h : (s.agent ag).status = .parked w) (hr : s.running ag = true)
    (hc : s.released ag w = true) (hw : ∀ enc, w ≠ .wmark enc) (hd : ∀ d y, w ≠ .record d y) :
    execParkRelease ag s = .next (s.modAgents (fun a => { a with status := .ready }) (s.parkedWith ag w)) := by
  cases w with
  | wmark enc => exact absurd rfl (hw enc)
  | record d y => exact absurd rfl (hd d y)
  | _ => simp only [execParkRelease, h, hr, hc, Bool.and_self, cond_true]
theorem execParkRelease_wmark {ag : Nat} {enc : Bool} (h : (s.agent ag).status = .parked (.wmark enc)) (hr : s.running ag = true)
    (ho : (s.agent ag).outst = []) (hs : ((s.modAgent ag fun a => { a.settle with status := .ready }).agent ag).supp = none) :
    execParkRelease ag s = .next (s.modAgent ag fun a => { a.settle with status := .ready }) := by
  simp only [execParkRelease, h, hr, State.released, ho, List.isEmpty_nil, Bool.and_self, cond_true, hs, Option.isSome_none,
    Bool.and_false, cond_false]
theorem execParkRelease_record {ag : Nat} {d : Bool} {y : TrapArgs} (h : (s.agent ag).status = .parked (.record d y))
    (hr : s.running ag = true) (hc : s.released ag (.record d y) = true) : execParkRelease ag s = .next (s.takeHeld ag d y) := by
  simp only [execParkRelease, h, hr, hc, Bool.and_self, cond_true]
theorem execShareRetire_retires {h : Nat} (hk : (s.task (s.share h).task).state ≠ .killed) (hc : s.canRetire h = true) :
    execShareRetire h s = .next
      (((withoutForwards s (s.share h).core h).modShare h fun x => { x with state := .retired }).dueWalk (s.taskVd (s.share h).task)) := by
  simp only [execShareRetire, beq_eq_false_iff_ne.2 hk, Bool.false_and, cond_false, hc, cond_true, withoutForwards]
theorem execSharePlacement_places {h : Nat} {t : State} (hd : PlaceDue s h) (hp : s.place h (s.share h).core = some t) :
    execSharePlacement h (s.share h).core s = .next t := by
  simp only [execSharePlacement, hd.waiting, hd.live, hd.region, hd.first, hp, beq_self_eq_true, Bool.not_false, Bool.and_self,
    cond_true, Option.getD_some]
theorem execSharePlacement_resumes {h c : Nat} {t : State} (hs : (s.share h).state = .saved) (hc : s.inCord h = false)
    (hr : s.reservedFor (s.taskVd (s.share h).task) (clusterOf c) = false) (ht : s.resumeShare h c = some t) :
    execSharePlacement h c s = .next t := by
  simp only [execSharePlacement, hs, hr, cond_false, State.switchIn, hc, ht, Option.getD_some]

end

/-- Settles O46: a due event takes the branch of its row. -/
theorem threadEvents : Obligations.ThreadEvents := by
  intro i s t h
  cases h with
  | resultWriteback ag k o _ h hd =>
    show execResultWriteback ag k s = _
    simp only [execResultWriteback, h, hd, cond_true]
  | storeQueueDrain o _ ag e rest ho hq hc =>
    show execStoreQueueDrain o s = _
    simp only [execStoreQueueDrain, State.ownerAgent, ho, drainFirst_one hq hc]
  | stsBankWrite c p _ e rest h =>
    show execStsBankWrite c p s = _
    simp only [execStsBankWrite, h]
  | parkRelease ag _ w h hr hc hw hd => exact execParkRelease_retries h hr hc hw hd
  | wPointMet ag _ enc h hr ho hs => exact execParkRelease_wmark h hr ho hs
  | nominate o _ f pc h =>
    show Host.Outcome.next (s.nominate o) = _
    simp only [State.nominate, h]
  | takeHeld ag _ d y h hr hc => exact execParkRelease_record h hr hc
  | kill ag _ h =>
    show execThreadKill ag s = _
    simp only [execThreadKill, h, cond_true, State.killAgent]
  | shareRetire h _ hk hc => exact execShareRetire_retires hk hc
  | placed h _ _ hd hp => exact execSharePlacement_places hd hp
  | switchedIn h c _ _ hs hc hr ht => exact execSharePlacement_resumes hs hc hr ht
  | heldCharge ag _ h ht =>
    show execHeldChargeDecided ag s = _
    simp only [execHeldChargeDecided, h, ht, cond_false, cond_true]

end Sys2Proof.Machine
end

section
/-! SUPPORT. The events of the engines: copies, chains, matrix and extrapolation queues (R265 to R276, R286 to R305, R313). -/

namespace Sys2Proof.Machine
open Sys2Proof.Claims

section
variable {s s0 s1 s2 : State}

/-! ## Copies (R267, R271) -/

section
variable {c k n : Nat} {x : Copy}

/-- A copy goes on to move or to report once its write budget is met. -/
theorem finishCopy_moves (h : CopyDue s c k x (copyTouches x) s0) (hd : x.moved = none)
    (hm : s0.moveCopy (s.share x.share).task c x = (s1, n)) : s.finishCopy c k = some (s1.reportCopy c k x n) := by
  obtain ⟨hat, hgoes, hfree, hcharged, hbudget⟩ := h
  simp only [copyTouches] at hfree hcharged hbudget
  simp only [State.finishCopy, hat, Option.bind_some, hd, Option.isNone_none, cond_true, hgoes, hfree, hcharged, Bool.or_self,
    cond_false, hbudget, hm]
theorem finishCopy_moved (h : CopyDue s c k x (counterTouch x.cmode x.counter) s0) (hd : x.moved = some n) :
    s.finishCopy c k = some (s0.reportCopy c k x n) := by
  obtain ⟨hat, hgoes, hfree, hcharged, hbudget⟩ := h
  simp only [State.finishCopy, hat, Option.bind_some, hd, Option.isNone_some, cond_false, List.nil_append, hgoes, hfree, hcharged,
    Bool.or_self, hbudget]
theorem reportCopy_reports (h : s.copyPosts c x = false) :
    s.reportCopy c k x n = copyGone (s.report (s.share x.share).task c x n) c k x := by
  simp only [State.reportCopy, h, cond_false, copyGone]

end

/-! ## Chains (R273 to R277) -/

section
variable {u : ChainRef} {x y : Chain} {e : Entry} {t : Nat}

/-- A chain whose task lets it go on performs the entry it has read. -/
theorem chainNext_goes (h : AtEntry s u x s1 e) (hc : ChainGoes s s1 (s.runner u x) e)
    (hd : s1.chainDo (s.runner u x) x e = .go s2 y) : s.chainNext u = s2.setChain u (some y) := by
  obtain ⟨hat, hlive, hwhole, hgoing, hawake, hreads⟩ := h
  obtain ⟨hgoes, hsettled⟩ := hc
  cases hr : (s.runner u x).task with
  | none => simp [State.chainNext, hat, hr, hlive, hawake, hwhole, hgoing, hreads, hd]
  | some t => simp [State.chainNext, hat, hr, hlive, hawake, hwhole, hgoing, hreads, hd, hgoes t hr, hsettled t hr]
theorem chainNext_stops {r : CStop} (h : AtEntry s u x s1 e) (hc : ChainGoes s s1 (s.runner u x) e)
    (hd : s1.chainDo (s.runner u x) x e = .stop s2 r) :
    s.chainNext u = bif x.sends.isEmpty then s2.chainStop u (s.runner u x) x r else s2 := by
  obtain ⟨hat, hlive, hwhole, hgoing, hawake, hreads⟩ := h
  obtain ⟨hgoes, hsettled⟩ := hc
  cases hr : (s.runner u x).task with
  | none => simp [State.chainNext, hat, hr, hlive, hawake, hwhole, hgoing, hreads, hd]
  | some t => simp [State.chainNext, hat, hr, hlive, hawake, hwhole, hgoing, hreads, hd, hgoes t hr, hsettled t hr]
/-- An entry that commits: the version of its task first. -/
theorem chainNext_commits {s3 : State} (h : AtEntry s u x s1 e) (hc : ChainCommits s s1 (s.runner u x) e t)
    (hm : s1.commit t = .done s2) (hd : s2.chainDo (s.runner u x) x e = .go s3 y) : s.chainNext u = s3.setChain u (some y) := by
  obtain ⟨hat, hlive, hwhole, hgoing, hawake, hreads⟩ := h
  obtain ⟨htask, hgoes, hunsettled⟩ := hc
  simp only [State.chainNext, hat, htask, hlive, hgoes, hawake, hwhole, hgoing, hreads, hunsettled, hm, hd, Option.isSome_none,
    Bool.or_self, if_true, if_false, reduceCtorEq]
theorem chainNext_commitFails (h : AtEntry s u x s1 e) (hc : ChainCommits s s1 (s.runner u x) e t)
    (hm : s1.commit t = .failed s2) : s.chainNext u = s2 := by
  obtain ⟨hat, hlive, hwhole, hgoing, hawake, hreads⟩ := h
  obtain ⟨htask, hgoes, hunsettled⟩ := hc
  simp only [State.chainNext, hat, htask, hlive, hgoes, hawake, hwhole, hgoing, hreads, hunsettled, hm, Option.isSome_none,
    Bool.or_self, if_true, if_false, reduceCtorEq]
/-- A chain that was told to stop ends with its value where no SEND of it is left. -/
theorem chainNext_stopped (h : s.chainAt u = some x) (hl : x.ending = none) (hw : x.failing = none) (hs : x.stop = true)
    (hn : s.sendsLeft x = []) (hf : s.frozenFor (s.runner u x).vd = false)
    (hc : ∀ t, (s.runner u x).task = some t → s.stopped t = false) :
    s.chainNext u = s.setChain u (some { x with sends := [], ending := some 0x4000000000000001#64 }) := by
  cases hr : (s.runner u x).task with
  | none => simp [State.chainNext, h, hr, hl, hf, hw, hs, hn, State.lostTest]
  | some t => simp [State.chainNext, h, hr, hl, hf, hw, hs, hn, State.lostTest, hc t hr]
theorem lostTest_of_head (hl : ∀ q ∈ x.sends.head?, q.1 ≠ lostPort) : s.lostTest u x = s := by
  cases hs : x.sends with
  | nil => simp only [State.lostTest, hs]
  | cons q rest =>
    have hq : q.1 ≠ lostPort := hl q (by rw [hs]; rfl)
    simp only [State.lostTest, hs, beq_eq_false_iff_ne.2 hq, cond_false]
theorem chainAck_accepted {p : Nat × DWord} {rest : List (Nat × DWord)} (h : s.chainAt u = some x) (hs : x.sends = p :: rest) :
    s.chainAck u true = (s.setChain u (some { x with sends := rest })).lostTest u { x with sends := rest } := by
  simp only [State.chainAck, h, hs, if_true]
theorem chainAck_rejected {p : Nat × DWord} {rest : List (Nat × DWord)} (h : s.chainAt u = some x) (hs : x.sends = p :: rest) :
    s.chainAck u false = s.chainFault u (s.runner u x) { x with pos := p.2 } 0x05 0#64 0 := by
  simp only [State.chainAck, h, hs, if_false, reduceCtorEq]
/-- The counter a RECVWAIT waits for has its value. -/
theorem chainRecv_met {p : Nat ⊕ List Part} {v : DWord} (h : AtEntry s u x s1 e) (hn : x.sends = []) (ht : e.type = 4) (ho : e.ok = true)
    (hc : s1.chainCounter (s.runner u x) false .load e.x = (s2, .ok (p, v))) (hv : e.y ≤ v) :
    s.chainRecv u = s2.setChain u (some { x with pos := x.pos + 32#64, since := s2.moves }) := by
  obtain ⟨hat, hlive, hwhole, hgoing, hawake, hreads⟩ := h
  simp [State.chainRecv, hat, hlive, hwhole, hgoing, hawake, hreads, hn, ht, ho, hc, hv]
/-- A chain of a core that ends adds its end value to its counter. -/
theorem chainEndCore_ends {c k h : Nat} {v : DWord} (hx : s.chainAt (.core c k) = some x) (he : x.ending = some v) (hs : x.share = some h)
    (ht : (s.share h).task = t) (hg : s.stopped t = false) (hh : s.engHeld t c (pagesOf (counterTouch x.cmode x.counter)) = false)
    (hw : s.engShort t c (counterTouch x.cmode x.counter) = false)
    (hp : (x.sys && (s.postingOf (chainMaker (.core c k)) || s.postedBy (partOf (s.taskVd t)) x.since)) = false)
    (hb : s.engBudget t x.ag (s.engLines t c (counterTouch x.cmode x.counter)) x.counter = .done s1) :
    s.chainEndCore (.core c k) =
      (bif x.cmode == 0 then s1.engAdd t (chainMaker (.core c k)) c x.counter v
        else s1.padAdd h x.counter.toNat v : State).setChain (.core c k) none := by
  subst ht
  simp only [State.chainEndCore, hx, he, State.runner, hs, hg, hh, hw, hp, Bool.or_self, cond_false, hb]

end

/-! ## The matrix engine (R286 to R305) -/

section
variable {c k : Nat} {e : MxEntry}

theorem operate_operates {cv : Nat} {p : SigSpec} {rows : List (Nat × Nat × RowSrc)} {set : Nat} {w : WSet} {rs : List (Nat × Row)}
    (hr : MatrixGoes s c e.share)
    (hk : (s.core c).mxQ.findIdx? (fun e => e.cmd.isOp) = some k) (he : (s.core c).mxQ.getD k default = e)
    (hc : e.cmd = .op cv p rows set) (hw : (s.share e.share).sets.find? (fun w => w.id == set) = some w)
    (hl : w.latched = true) (hf : tileFree (s.core c).mxQ k e = true)
    (hm : ((rows.any fun r => r.2.2.inMemory) && (aheadOf (s.core c).mxQ k e.share).any fun x => x.cmd.isAdrain) = false)
    (hs : s.readRows e.share (s.share e.share).task c p rows = some (s1, rs)) :
    s.operate c = some ((s1.setTile e.share p.tile (fun _ => (performRows p w rs ((s1.share e.share).tiles.getD p.tile.toNat [])).1)
          (performRows p w rs ((s1.share e.share).tiles.getD p.tile.toNat [])).2).mxDone c e.id e.share) := by
  obtain ⟨hup, htiles⟩ := hr
  simp only [State.operate, hup, hk, he, hc, hw, hl, hf, htiles, hm, hs, Bool.not_true, Bool.or_self, if_false, reduceCtorEq,
    Option.map_some]
theorem mxStartReset_resets (h : (s.core c).mxReset = false) (hh : ∀ x ∈ s.residents c, s.resetHeld x = false) :
    s.mxStartReset c = ((s.residents c).foldl State.resetShare s).modCore c fun k =>
      { k with mxReset := true, mxQ := k.mxQ.filter fun e => !(e.cmd.isOp || e.cmd.isWload) } := by
  have hany : (s.residents c).any s.resetHeld = false := List.any_eq_false.2 fun x hx => Bool.eq_false_iff.1 (hh x hx)
  simp only [State.mxStartReset, h, hany, Bool.or_self, if_false, reduceCtorEq]

end
end

/-- Settles O47: a due event takes the branch of its row. -/
theorem engineEvents : Obligations.EngineEvents := by
  intro i s t h
  cases h with
  | copyStart c _ x rest h hn =>
    show execCopyStart c s = _
    simp only [execCopyStart, State.startCopy, h, decide_eq_true hn, cond_true, Option.getD_some]
  | copyComplete c k _ x s0 s1 n h hd hm hp =>
    show execCopyComplete c k s = _
    rw [execCopyComplete, finishCopy_moves h hd hm, Option.getD_some, reportCopy_reports hp]
  | copyPosted c k _ x s0 n h hd hp =>
    show execCopyComplete c k s = _
    rw [execCopyComplete, finishCopy_moved h hd, Option.getD_some, reportCopy_reports hp]
  | copyPosts c k _ x s0 s1 n h hd hm hp =>
    show execCopyComplete c k s = _
    rw [execCopyComplete, finishCopy_moves h hd hm, Option.getD_some, State.reportCopy, hp, cond_true]
  | chainEntry u _ x s1 e s2 y h hc hd => exact congrArg Host.Outcome.next (chainNext_goes h hc hd)
  | chainWaits u _ x s1 e _ h hc hd =>
    exact congrArg Host.Outcome.next ((chainNext_stops h hc hd).trans (by cases x.sends.isEmpty <;> rfl))
  | chainCommit u _ x s1 e t s2 s3 y h hc hm hd => exact congrArg Host.Outcome.next (chainNext_commits h hc hm hd)
  | chainCommitFails u _ x s1 e t _ h hc hm => exact congrArg Host.Outcome.next (chainNext_commitFails h hc hm)
  | chainFault u _ x s1 e s2 c a n h hc hn hd =>
    exact congrArg Host.Outcome.next ((chainNext_stops h hc hd).trans (by rw [hn]; rfl))
  | chainStopped u _ x h hl hw hs hn hf hc => exact congrArg Host.Outcome.next (chainNext_stopped h hl hw hs hn hf hc)
  | sendAccepted u _ x p rest h hs hl =>
    exact congrArg Host.Outcome.next ((chainAck_accepted h hs).trans (lostTest_of_head hl))
  | lostReached u _ x p a rest h hs =>
    refine congrArg Host.Outcome.next ((chainAck_accepted h hs).trans ?_)
    simp only [State.lostTest, beq_self_eq_true, cond_true]
  | sendRejected u _ x p rest h hs => exact congrArg Host.Outcome.next (chainAck_rejected h hs)
  | recvwaitMet u _ x s1 e s2 p v h hn ht ho hc hv => exact congrArg Host.Outcome.next (chainRecv_met h hn ht ho hc hv)
  | chainEnd c k _ x v h t s1 hx he hs ht hg hh hw hp hb =>
    exact congrArg Host.Outcome.next (chainEndCore_ends hx he hs ht hg hh hw hp hb)
  | chainrunEnd d k _ x v hx he =>
    show execChainEnd (.hearth d k) s = _
    simp only [execChainEnd, hx, he]
  | weightLatch h _ _ hr hl =>
    show execWeightLatch h s = _
    simp only [execWeightLatch, hr, cond_false, hl, Option.getD_some]
  | matrixOperation c _ k e cv p rows set w s1 rs hr hk he hc hw hl hf hm hs =>
    show execMatrixOperation c s = _
    rw [execMatrixOperation, operate_operates hr hk he hc hw hl hf hm hs, Option.getD_some]
  | aclr c k _ e t hr hw he hc hf =>
    show execTilePathEntry c k s = _
    simp only [execTilePathEntry, State.tilePath, hr, he, hc, hf, hw, Bool.not_false, Bool.and_self, cond_true, if_false, reduceCtorEq,
      Option.getD_some]
  | awr c k _ e t chunk rows hr hw he hc hf =>
    show execTilePathEntry c k s = _
    simp only [execTilePathEntry, State.tilePath, hr, he, hc, hf, hw, Bool.not_false, Bool.and_self, cond_true, if_false, reduceCtorEq,
      Option.getD_some]
  | wrel c k _ e hr he hc =>
    show execTilePathEntry c k s = _
    simp only [execTilePathEntry, State.tilePath, hr, he, hc, if_false, reduceCtorEq, Option.getD_some]
  | ard c k _ e t chunk ts hr hw he hc hf =>
    show execTilePathEntry c k s = _
    simp only [execTilePathEntry, State.tilePath, hr, he, hc, hf, hw, Bool.not_false, Bool.and_self, cond_true, if_false, reduceCtorEq,
      Option.getD_some]
  | mstat c k _ e ts hr he hc hf =>
    show execTilePathEntry c k s = _
    simp only [execTilePathEntry, State.tilePath, hr, he, hc, hf, List.isEmpty_nil, cond_true, if_false, reduceCtorEq, Option.getD_some]
  | mstatClears c k _ e ts hr he hc hf =>
    show execTilePathEntry c k s = _
    simp only [execTilePathEntry, State.tilePath, hr, he, hc, hf, List.isEmpty_nil, cond_true, cond_false, if_false, reduceCtorEq,
      Option.getD_some]
  | adrain c k _ _ h =>
    show execAdrainComplete c k s = _
    simp only [execAdrainComplete, h, Option.getD_some]
  | engineReset c _ h hh => exact congrArg Host.Outcome.next (mxStartReset_resets h hh)
  | engineResetEnd c _ => rfl
  | extrapolation c _ e rest h =>
    show execExtrapolationEntry c s = _
    simp only [execExtrapolationEntry, State.xFront, h]

end Sys2Proof.Machine
end

section
/-! SUPPORT. The events of tasks and launches (R119, R203, R237, R337, R374 to R382, R385, R395). -/

namespace Sys2Proof.Machine
open Sys2Proof.Claims

section
variable {s s1 : State} {t : Nat} {f : FaultInfo}

/-! ## Faults (R237, R411) -/

/-- Restarts in a row, as the model counts them. -/
theorem faultRow_eq : (bif (s.task t).restarts.cause == f.cause && (s.task t).restarts.addr == f.addr then (s.task t).restarts.same else 0) =
    faultRow s t f := by
  by_cases hc : (s.task t).restarts.cause = f.cause <;> by_cases ha : (s.task t).restarts.addr = f.addr <;>
    simp [faultRow, Bool.cond_eq_ite, hc, ha]
/-- A fault of a virtual device that is not frozen is handled as soon as hearth core 4 can. -/
theorem faultReaches_awake (hv : (s.vdev (s.taskVd t)).state ≠ .frozen) :
    s.faultReaches t = bif s.faultWaits t then s else s.taskFault t := by
  unfold State.faultReaches
  split
  · next h _ => exact absurd h hv
  · next h _ => exact absurd h hv
  · rfl
/-- What handling a fault decides: whether the task restarts for it. -/
def restartsFor (s : State) (t : Nat) (f : FaultInfo) : Bool :=
  decide (faultRow s t f < 16) && ((f.cause == 8 && !capacityTraps s t) || (bif f.cause == 6 then s.bringFault t f else none).isSome)
theorem taskFault_eq (hs : (s.task t).state = .faulted) (hf : (s.task t).fault = some f) :
    s.taskFault t =
      bif restartsFor s t f then
        bif f.cause == 8 then
          (faultMet (bif f.cause == 6 then ((faultRecorded s t f 0x500).bringFault t f).getD (faultRecorded s t f 0x500)
            else faultRecorded s t f 0x500) t f (faultRow s t f)).modTask t fun x => { x with state := .capWait }
        else (faultMet (bif f.cause == 6 then ((faultRecorded s t f 0x500).bringFault t f).getD (faultRecorded s t f 0x500)
            else faultRecorded s t f 0x500) t f (faultRow s t f)).toRestart t
      else ((faultRecorded s t f 0x100).modTask t fun x => { x with state := .restarting }).freeToken t := by
  have hdecides : (decide (faultRow s t f < 16) && ((f.cause == 8 && !(s.launch (s.task t).launch).par.policy.getLsbD 4) ||
      (bif f.cause == 6 then s.bringFault t f else none).isSome)) = restartsFor s t f := rfl
  simp only [State.taskFault, hs, hf, faultRow_eq, hdecides]
  cases restartsFor s t f with
  | true => simp only [cond_true, Nat.reduceAdd, faultRecorded, faultMet]
  | false => simp only [cond_false, Nat.add_zero, faultRecorded]
theorem restartsFor_final (h : FaultFinal s t f) : restartsFor s t f = false := by
  obtain ⟨_, hfinal⟩ := h
  by_cases hrow : faultRow s t f < 16
  · obtain ⟨hpage, hcapacity⟩ := hfinal hrow
    by_cases h6 : f.cause = 6
    · simp [restartsFor, h6, hpage h6]
    · by_cases h8 : f.cause = 8
      · simp [restartsFor, h8, hcapacity h8]
      · simp [restartsFor, Bool.cond_eq_ite, h6, h8]
  · simp [restartsFor, hrow]
theorem faultReaches_handled (h : Faulted s t f) : s.faultReaches t = s.taskFault t := by
  rw [faultReaches_awake h.awake, h.heard, cond_false]

/-! ## Restarts and commits (R119, R237, R337, R380 to R382) -/

/-- The shares of a task have retired, as the model tests it. -/
theorem sharesRetired_test (h : SharesRetired s t) :
    ((s.task t).shares.all fun h => (s.share h).state == .retired) = true ∧ (s.task t).shares.isEmpty = false := by
  obtain ⟨hne, hall⟩ := h
  exact ⟨List.all_eq_true.2 fun x hx => beq_iff_eq.2 (hall x hx), List.isEmpty_eq_false_iff.2 hne⟩
theorem execTaskRestart_restarts {cores : List Nat} (hr : (s.task t).state = .restarting) (hn : (s.task t).fault = none)
    (hc : coresFit cores (s.task t).shares.length = true)
    (hg : s.cordAgrees t (clusterOf (cores.headD 0)) = true) (ho : s.reservedFor (s.taskVd t) (clusterOf (cores.headD 0)) = false)
    (hp : s.outranked (s.taskVd t) (clusterOf (cores.headD 0)) (s.task t).prio (s.launch (s.task t).launch).order = false)
    (h : s.restart t cores = some s1) : execTaskRestart t cores s = .next (s1.grantToken t) := by
  simp only [execTaskRestart, hg, ho, hp, Bool.not_true, Bool.or_self, cond_false, State.taskRestart, hr, hc, beq_self_eq_true,
    Bool.and_self, cond_true, h, hn]
theorem execCapacityWaitRestart_restarts (h : (s.task t).state = .capWait)
    (hf : ∀ u, u < s.lanes.tasks.length → (s.task u).state = .capWait → s.taskVd u = s.taskVd t →
      (s.task t).faultAt < (s.task u).faultAt ∨ ((s.task t).faultAt = (s.task u).faultAt ∧ t ≤ u))
    (hw : ∀ w ∈ (s.task t).need, w.2 ≤ (s.kshare (s.taskVd t) w.1).res) : execCapacityWaitRestart t s = .next (s.toRestart t) := by
  have holdest : ((List.range s.lanes.tasks.length).all fun u =>
      !((s.task u).state == .capWait && s.taskVd u == s.taskVd t) || decide ((s.task t).faultAt < (s.task u).faultAt) ||
        ((s.task t).faultAt == (s.task u).faultAt && decide (t ≤ u))) = true := by
    refine List.all_eq_true.2 fun u hu => ?_
    by_cases hwaits : (s.task u).state = .capWait ∧ s.taskVd u = s.taskVd t
    · obtain ⟨hcap, hvd⟩ := hwaits
      rcases hf u (List.mem_range.1 hu) hcap hvd with hlt | ⟨heq, hle⟩
      · simp [hlt]
      · simp [heq, hle]
    · have hother : ((s.task u).state == .capWait && s.taskVd u == s.taskVd t) = false := by
        rw [Bool.eq_false_iff, ne_eq, Bool.and_eq_true, beq_iff_eq, beq_iff_eq]
        exact hwaits
      simp [hother]
  have hneed : ((s.task t).need.all fun w => decide (w.2 ≤ (s.kshare (s.taskVd t) w.1).res)) = true :=
    List.all_eq_true.2 fun w hm => decide_eq_true (hw w hm)
  simp only [execCapacityWaitRestart, holdest, hneed, h, beq_self_eq_true, Bool.and_self, cond_true]
/-- A team retires: the cursor of a grid passes it. -/
theorem teamRetire_retires {killed : Bool} (hk : ((s.task t).state == .killed) = killed)
    (hr : (killed || ((s.task t).state == .live && (s.task t).settled)) = true) (hs : SharesRetired s t) :
    s.teamRetire t = (teamRetired s t killed).launchTest (s.task t).launch := by
  obtain ⟨hall, hne⟩ := sharesRetired_test hs
  have hlaunch : (fun l : Launch =>
      let r := bif l.billets || (s.task t).billet then (l.cursor, l.retired)
        else advance (l.retired.length + 1) l.cursor ((s.task t).team :: l.retired)
      { l with idleNs := 0, cursor := r.1, retired := r.2, fault := l.fault || killed }) = fun l =>
      { l with
        idleNs := 0, fault := l.fault || killed,
        cursor := if l.billets = true ∨ (s.task t).billet = true then l.cursor
          else (advance (l.retired.length + 1) l.cursor ((s.task t).team :: l.retired)).1,
        retired := if l.billets = true ∨ (s.task t).billet = true then l.retired
          else (advance (l.retired.length + 1) l.cursor ((s.task t).team :: l.retired)).2 } := by
    funext l
    cases hb : l.billets <;> cases hc : (s.task t).billet <;> simp
  simp only [State.teamRetire, hk, hall, hne, hr, Bool.not_false, Bool.and_self, cond_true, teamRetired]
  rw [hlaunch]

/-! ## Launches (R377, R378, R385) -/

theorem execLaunchWatchdogExpiry_faults {l : Nat} (h : (s.launch l).started = true) (he : (s.launch l).ended = false)
    (hw : (s.launch l).par.wdog * 1000000 ≤ (s.launch l).idleNs) : execLaunchWatchdogExpiry l s = .next (s.launchFault l 0#32) := by
  simp only [execLaunchWatchdogExpiry, h, he, decide_eq_true hw, Bool.not_false, Bool.and_self, cond_true]
theorem chipRanges_eq {d : Nat} :
    (fun y : Launch => bif (keepRanges (y.dist.die.getD d [])).isEmpty then [y.dist.chip] else []) = chipRanges d :=
  funext fun _ => Bool.cond_eq_ite ..

end

/-- Settles O48: a due event takes the branch of its row. -/
theorem taskEvents : Obligations.TaskEvents := by
  intro i s t h
  cases h with
  | fault t _ f h =>
    refine congrArg Host.Outcome.next ?_
    rw [faultReaches_handled h.toFaulted, taskFault_eq h.state h.fault, restartsFor_final h, cond_false]
  | pageFault t _ f s1 h hc hn hb hm =>
    have hagain : restartsFor s t f = true := by
      simp [restartsFor, hc, hn, Option.isSome_iff_ne_none.2 hb]
    refine congrArg Host.Outcome.next ?_
    rw [faultReaches_handled h, taskFault_eq h.state h.fault, hagain, hc, hm]
    rfl
  | capacityFault t _ f h hc hn ht =>
    have hagain : restartsFor s t f = true := by simp [restartsFor, hc, hn, ht]
    refine congrArg Host.Outcome.next ?_
    rw [faultReaches_handled h, taskFault_eq h.state h.fault, hagain, hc]
    rfl
  | faultHeld t _ h hv =>
    refine congrArg Host.Outcome.next ?_
    rw [faultReaches_awake hv, h, cond_true]
  | faultFrozen t _ f h hv =>
    show execTaskFault t s = _
    simp only [execTaskFault, State.faultReaches, hv, h]
  | restart t cores _ s1 hr hn hc hg ho hp h => exact execTaskRestart_restarts hr hn hc hg ho hp h
  | capacityRestart t _ h hf hw => exact execCapacityWaitRestart_restarts h hf hw
  | commitRequest t _ h hu hs hc =>
    obtain ⟨hall, hne⟩ := sharesRetired_test hs
    show execCommitRequest t s = _
    simp only [execCommitRequest, h, hu, hne, hall, hc, beq_self_eq_true, Bool.not_false, Bool.and_self, cond_true]
  | commitConflict t _ h hu hs hc =>
    obtain ⟨hall, hne⟩ := sharesRetired_test hs
    show execCommitRequest t s = _
    simp only [execCommitRequest, h, hu, hne, hall, hc, beq_self_eq_true, Bool.not_false, Bool.and_self, cond_true, cond_false]
  | versionCommit t _ s1 h hc =>
    show execVersionCommit t s = _
    simp only [execVersionCommit, h, hc, beq_self_eq_true, cond_true]
  | tokenGrant p t _ hp hv h hr =>
    subst hv
    show execCommitTokenGrant _ s = _
    simp only [execCommitTokenGrant, State.grantToken, h, hr, decide_eq_true hp, beq_self_eq_true, Bool.and_self, cond_true]
  | teamRetire t _ h hu hs =>
    exact congrArg Host.Outcome.next (teamRetire_retires (by rw [h]; rfl) (by rw [h, hu]; rfl) hs)
  | teamKilled t _ h hs =>
    exact congrArg Host.Outcome.next (teamRetire_retires (by rw [h]; rfl) rfl hs)
  | watchdog l _ h he hw hv =>
    refine (execLaunchWatchdogExpiry_faults h he hw).trans (congrArg Host.Outcome.next ?_)
    rw [State.launchFault, beq_eq_false_iff_ne.2 hv, cond_false]
  | watchdogFrozen l _ h he hw hv =>
    refine (execLaunchWatchdogExpiry_faults h he hw).trans (congrArg Host.Outcome.next ?_)
    rw [State.launchFault, hv]
    rfl
  | dieRequest d l _ a b rest h hd hr hb he ht =>
    show execDieDistributorRequest d l s = _
    simp only [execDieDistributorRequest, chipRanges_eq, h, decide_eq_true hd, hr, hb, he, ht, List.isEmpty_nil, Bool.not_false,
      Bool.and_self, cond_true]
  | handout d c l _ r rest h hr hb ht =>
    obtain ⟨hgrid, hd, hc⟩ := h
    show execClusterRangeHandout d c l s = _
    simp only [execClusterRangeHandout, hgrid, decide_eq_true hd, decide_eq_true hc, hr, hb, ht, Bool.not_false, Bool.and_self, cond_true]
  | placement d c l _ a b rest w h hr ho ht ha hp =>
    obtain ⟨hgrid, hd, hc⟩ := h
    show execTeamPlacement d c l s = _
    simp only [execTeamPlacement, hgrid, decide_eq_true hd, decide_eq_true hc, hr, ho, ht, decide_eq_true ha, hp, Bool.not_false,
      Bool.and_self, cond_true]
  | steal d c f l _ rs got h hd hc hf hn he hr hb hs =>
    show execRangeSteal (.cluster d c) (.cluster d f) l s = _
    simp only [execRangeSteal, h, decide_eq_true hd, decide_eq_true hc, decide_eq_true hf, bne_iff_ne.2 hn, he, hr, hb, hs,
      beq_self_eq_true, List.isEmpty_nil, Bool.not_true, Bool.not_false, Bool.and_self, cond_false, cond_true]
  | dieSteal d e l _ rs got h hd he hn hu hk hr hb hs =>
    show execRangeSteal (.die d) (.die e) l s = _
    simp only [execRangeSteal, h, decide_eq_true hd, decide_eq_true he, bne_iff_ne.2 hn, hu, hk, hr, hb, hs,
      List.isEmpty_nil, Bool.not_true, Bool.not_false, Bool.and_self, cond_false, cond_true]
  | pop c l _ n h hp hb =>
    show execGangFormerPop c l s = _
    simp only [execGangFormerPop, h, hp, hb, Bool.and_self, cond_true]
  | binTimeout c b _ x h ht hn =>
    show execBinTimeout c b s = _
    simp only [execBinTimeout, h, decide_eq_true ht, List.isEmpty_eq_false_iff.2 hn, Bool.not_false, Bool.and_self, cond_true]
  | cordWalk v _ => rfl
  | cordAgeing v _ => rfl

end Sys2Proof.Machine
end

section
/-! SUPPORT. The events of memory and the kiln (R214, R253, R330, R337, R339, R358, R363 to R365, R369, R372, R373). -/

namespace Sys2Proof.Machine
open Sys2Proof.Claims

section
variable {s s1 : State} {v d st : Nat} {va : DWord}

/-! ## Residency and replicas (R214, R363 to R365) -/

/-- No hand-over holds the place of a page, as the model tests it. -/
theorem placeFree_test (hh : ∀ l, s.walk v va = some l → s.placeHeld v va l = false) :
    ((s.walk v va).map fun l => s.placeHeld v va l).getD false = false := by
  cases hw : s.walk v va with
  | none => rfl
  | some l => exact hh l hw
theorem execMakeResident_brings (h : (v, pageNo va, d) ∈ s.store.requests)
    (hh : ∀ l, s.walk v va = some l → s.placeHeld v va l = false) (hp : s.makePageResident v d va true = some s1) :
    execMakeResident v va d true s =
      .next ((s1.modStore fun m => { m with requests := m.requests.erase (v, pageNo va, d) }).wake v (pageNo va) true) := by
  simp only [execMakeResident, placeFree_test hh, hp, show s.store.requests.elem (v, va48 va / 65536, d) = true from
    List.elem_eq_true_of_mem h, Bool.not_false, Bool.and_self, cond_true, pageNo]
theorem execMakeResident_refuses (h : (v, pageNo va, d) ∈ s.store.requests)
    (hh : ∀ l, s.walk v va = some l → s.placeHeld v va l = false) (hp : s.makePageResident v d va true = none) :
    execMakeResident v va d true s =
      .next ((s.modStore fun m => { m with requests := m.requests.erase (v, pageNo va, d) }).wake v (pageNo va) false) := by
  simp only [execMakeResident, placeFree_test hh, hp, show s.store.requests.elem (v, va48 va / 65536, d) = true from
    List.elem_eq_true_of_mem h, Bool.not_false, Bool.and_self, cond_true, pageNo]
theorem execMakeResident_unasked {dup : Bool} (h : (v, pageNo va, d) ∉ s.store.requests) : execMakeResident v va d dup s = .next s := by
  have helem : s.store.requests.elem (v, va48 va / 65536, d) = false := by
    rw [Bool.eq_false_iff, ne_eq, List.elem_iff]
    exact h
  simp only [execMakeResident, helem, Bool.false_and, cond_false]
theorem wantsReplica_of {l : Leaf} (h : WantsReplica s v d va l) : s.wantsReplica v d va l = true := by
  obtain ⟨hnone, haway, hfree, ⟨hclosed, hpart⟩, hdup⟩ := h
  have hhas : (s.store.replicas.any fun r => r.die == d && r.vd == v && r.vpn == va48 va / 65536) = false := by
    refine List.any_eq_false.2 fun r hr => ?_
    simpa only [Bool.and_eq_true, beq_iff_eq, and_assoc, pageNo] using hnone r hr
  by_cases hloc : region l.base = 0
  · have hdie : s.ownerDie (stackOf l.base) ≠ d := haway.resolve_left (fun h => h hloc)
    have hdup' : l.res = 3 ∨ (l.res = 0 ∧ bits l.e 52 1 = 1) := hdup.imp_right fun ⟨hres, _, hbit⟩ => ⟨hres, hbit⟩
    simpa [State.wantsReplica, hhas, hclosed, hpart, hfree hloc, hdie, hloc] using hdup'
  · have hres : l.res = 3 := hdup.resolve_right fun ⟨_, hzero, _⟩ => hloc hzero
    simp [State.wantsReplica, hhas, hclosed, hpart, hloc, hres]

/-! ## Hand-overs and loans (R369, R371 to R373) -/

theorem handoverOn_steps {x : Handover} (h : s.store.handovers.find? (fun h => h.stack == st) = some x) :
    s.handoverOn st = (s.handoverStep x).1.modStore fun m =>
      { m with handovers := (s.handoverStep x).2.toList ++ s.store.handovers.erase x } := by
  simp only [State.handoverOn, h]
  cases (s.handoverStep x).2 <;> rfl
theorem execLoanAgreement_agrees {b n : Nat} (hu : s.hearth.config.unified = false) (hs : st < 8) (hb : b < 2) (hd : s.ownerDie st ≠ b)
    (h1 : 1 ≤ n) (h2 : n ≤ 60) (hh : s.handing st = false) (hl : ∀ l ∈ s.store.loans, l.stack ≠ st)
    (hm : s.leaveStack (s.ownerDie st) (s.ownerDie st) st = s1) (he : s1.emptyStack (s.ownerDie st) st = true) :
    execLoanAgreement st b n s =
      .next (s1.modStore fun m => { m with loans := m.loans ++ [⟨st, b, n, [0, 1], true, [], none⟩] }) := by
  have hfresh : (s.store.loans.any fun l => l.stack == st) = false :=
    List.any_eq_false.2 fun l hmem hst => hl l hmem (beq_iff_eq.1 hst)
  simp only [execLoanAgreement, hu, decide_eq_true hs, decide_eq_true hb, bne_iff_ne.2 hd, decide_eq_true h1, decide_eq_true h2, hh,
    hfresh, hm, he, Bool.not_false, Bool.and_self, cond_true]
theorem stack_of_find {l : Loan} (h : s.store.loans.find? (fun l => l.stack == st && l.agreed && l.due.isNone) = some l) :
    l.stack = st := by
  have hpred := List.find?_some h
  simp only [Bool.and_eq_true, beq_iff_eq] at hpred
  obtain ⟨⟨hst, _⟩, _⟩ := hpred
  exact hst
theorem execLoanEnd_demands {l : Loan} (h : s.store.loans.find? (fun l => l.stack == st && l.agreed && l.due.isNone) = some l) :
    execLoanEnd st true s = .next
      ((s.modStore fun m => { m with loans := m.loans.map (demanded s l) }).leaveStack l.borrower l.borrower st) := by
  have hdemanded : (fun x : Loan =>
      bif x.stack == st then { x with due := some (s.now + l.seconds * 1000000000), endAsked := [1 - l.borrower] } else x) =
      demanded s l := by
    funext x
    simp only [demanded, stack_of_find h, Bool.cond_eq_ite, beq_iff_eq]
  simp only [execLoanEnd, h, cond_true, hdemanded]

end

/-- Settles O49: a due event takes the branch of its row. -/
theorem memoryEvents : Obligations.MemoryEvents := by
  intro i s t h
  cases h with
  | writeback b _ h hp =>
    show execBlockWriteback b s = _
    simp only [execBlockWriteback, h, hp, Bool.or_self, cond_false]
  | grantMove v st _ => rfl
  | balloonOpen v _ s1 h1 hd hv hl =>
    subst h1
    show Host.Outcome.next (s.openBalloon v) = _
    simp only [State.openBalloon, hd, bne_iff_ne.2 hv, decide_eq_true hl, Option.isNone_none, Bool.and_self, cond_true]
  | balloonExpiry v _ d h hd he =>
    show execBalloonDeadlineExpiry v s = _
    simp only [execBalloonDeadlineExpiry, h, decide_eq_true hd, he, Bool.not_false, Bool.and_self, cond_true]
  | chargeLift v _ => rfl
  | pageWalk c v va k _ h hv =>
    show execPageWalk c v va k s = _
    simp only [execPageWalk, decide_eq_true h, hv, beq_self_eq_true, Bool.and_self, cond_true]
  | makeResident v va d _ s1 h hh hp =>
    show execMakeResident v va d true s = _
    exact execMakeResident_brings h hh hp
  | pageRefused v va d _ h hh hp =>
    show execMakeResident v va d true s = _
    exact execMakeResident_refuses h hh hp
  | notRequested v va d dup _ h =>
    show execMakeResident v va d dup s = _
    exact execMakeResident_unasked h
  | replicaCreate v va d _ l s1 h hr hd hh hm =>
    show execReplicaCreate v va d s = _
    simp only [execReplicaCreate, h, wantsReplica_of hr, decide_eq_true hd, hh, hm, Bool.not_false, Bool.and_self, cond_true,
      Option.getD_some]
  | replicaCollapse v va d _ l h hp hd hh =>
    show execReplicaCollapse v va d s = _
    simp only [execReplicaCollapse, h, hp, decide_eq_true hd, hh, Bool.not_false, Bool.and_self, cond_true]
  | handover st _ x h => exact congrArg Host.Outcome.next (handoverOn_steps h)
  | loanAgreement st b n _ hu hs hb hd h1 h2 hh hl s1 hm he =>
    show execLoanAgreement st b n s = _
    exact execLoanAgreement_agrees hu hs hb hd h1 h2 hh hl hm he
  | loanEnd st _ l h =>
    show execLoanEnd st false s = _
    simp only [execLoanEnd, h, cond_false, State.returnLoan]
  | loanDemand st _ l h =>
    show execLoanEnd st true s = _
    exact execLoanEnd_demands h
  | loanExpiry st _ l d h hd hn =>
    show execLoanDeadlineExpiry st s = _
    simp only [execLoanDeadlineExpiry, h, hd, decide_eq_true hn, cond_true]

end Sys2Proof.Machine
end

section
/-! SUPPORT. The events of slices: switches, refills, run ends and carve-outs (R246 to R249, R416, R417, R422). -/

namespace Sys2Proof.Machine
open Sys2Proof.Claims

section
variable {s r : State} {c v u : Nat} {ch : Bool}

/-! ## Switches (R247, R248) -/

theorem allYielded_test (he : ∀ k ∈ s.together c, (sliceOf s k).ending.isSome = true ∧ s.allYielded k = true) :
    ((s.together c).all fun k => (s.core k).slice.ending.isSome && s.allYielded k) = true :=
  List.all_eq_true.2 fun k hk => Bool.and_eq_true_iff.2 (he k hk)
/-- A core whose front ends have all yielded is swapped, or stopped where something holds the swap. -/
theorem execContextSwap_yielded (he : ∀ k ∈ s.together c, (sliceOf s k).ending.isSome = true ∧ s.allYielded k = true) :
    execContextSwap c s = .next ((s.swap c).getD (stopping s c)) := by
  rw [execContextSwap, allYielded_test he, cond_true]
  rfl
theorem execHandlerBudgetExpiry_swaps {t : State} {e : Nat} (he : (sliceOf s c).ending = some e) (hv : (sliceOf s c).vd = some v)
    (hd : (sliceOf s c).force = true ∨ e + s.handlerNs v ≤ s.now) (h : s.swap c = some t) :
    execHandlerBudgetExpiry c s = .next t := by
  have hdue : ((s.core c).slice.force || decide (e + s.handlerNs v ≤ s.now)) = true := by
    rw [Bool.or_eq_true, decide_eq_true_iff]
    exact hd
  have hending : (s.core c).slice.ending = some e := he
  have htenant : (s.core c).slice.vd = some v := hv
  simp only [execHandlerBudgetExpiry, hending, htenant, hdue, cond_true, State.swapOrStop, h, Option.getD_some]
theorem execSpillComplete_idle (h : (sliceOf s c).out = none) : execSpillComplete c s = .next (filled s c) := by
  have hout : (s.core c).slice.out = none := h
  simp only [execSpillComplete, hout, cond_false, State.spillDone, filled]
theorem execSpillComplete_writes (h : (sliceOf s c).out = some v)
    (hh : ∀ pa ∈ s.savePages v c, s.betweenSteps (stackOf pa) = false) :
    execSpillComplete c s = .next (filled (s.writeSaveArea v c) c) := by
  have hout : (s.core c).slice.out = some v := h
  have hfree : ((s.savePages v c).any fun pa => s.betweenSteps (stackOf pa)) = false :=
    List.any_eq_false.2 fun pa hpa => Bool.eq_false_iff.1 (hh pa hpa)
  simp only [execSpillComplete, hout, hfree, cond_false, State.spillDone, filled]

/-! ## Refills (R416) -/

theorem execBudgetRefill_due (hd : (s.vdev v).state ≠ .absent) (hm : s.mayUse v c = true) (hp : s.periodNs v c ≠ 0)
    (ht : s.refillAt v c ≤ s.now) : execBudgetRefill v c s =
      .next ((s.refillTimes v c ((s.now - s.refillAt v c) / s.periodNs v c + 1)).noteAll c) := by
  simp only [execBudgetRefill, State.refill, bne_iff_ne.2 hd, hm, bne_iff_ne.2 hp, decide_eq_true ht, Bool.and_self, cond_true]

/-! ## Run ends (R416, R417) -/

/-- The end of a run where no switch is under way and a tenant is next: what the run used is charged first. -/
theorem endRun_tenant (h : NoSwitch s c) (ht : (charged s c).nextTenant c = some (u, ch)) : s.endRun c =
    bif (sliceOf s c).vd == some u then (charged s c).startRun u c ch none
    else bif (sliceOf s c).vd.isNone then
      bif (sliceOf s c).spilling then charged s c else (((charged s c).startRun u c ch none).switchInAll u c).dueWalk u
    else (charged s c).modSlice c fun y => { y with next := some (u, ch, 0) } := by
  obtain ⟨hnext, hending⟩ := h
  simp only [charged, sliceOf] at hnext hending ht ⊢
  simp only [State.endRun, hnext, hending, Option.isSome_none, Bool.or_self, cond_false, ht]
theorem endRun_noTenant (h : NoSwitch s c) (hv : (sliceOf s c).vd = some v) (ht : (charged s c).nextTenant c = none) : s.endRun c =
    bif ((charged s c).residents c).isEmpty then ((charged s c).modSlice c fun _ => Slice.reset).pauseTest v
    else (charged s c).beginEnd c none := by
  obtain ⟨hnext, hending⟩ := h
  simp only [charged, sliceOf] at hnext hending hv ht ⊢
  simp only [State.endRun, hnext, hending, Option.isSome_none, Bool.or_self, cond_false, ht, hv]
theorem endRun_again (h : NoSwitch s c) (hv : (sliceOf s c).vd = some v) (ht : (charged s c).nextTenant c = some (v, ch)) :
    s.endRun c = (charged s c).startRun v c ch none := by
  rw [endRun_tenant h ht, hv, beq_self_eq_true, cond_true]
theorem endRun_next (h : NoSwitch s c) (hv : (sliceOf s c).vd = some v) (ht : (charged s c).nextTenant c = some (u, ch)) (hu : u ≠ v) :
    s.endRun c = (charged s c).modSlice c fun y => { y with next := some (u, ch, 0) } := by
  have hother : (some v == some u) = false := beq_eq_false_iff_ne.2 fun h => hu (Option.some.inj h).symm
  rw [endRun_tenant h ht, hv, hother, Option.isNone_some, cond_false, cond_false]
theorem endRun_first (h : NoSwitch s c) (hv : (sliceOf s c).vd = none) (hs : (sliceOf s c).spilling = false)
    (ht : (charged s c).nextTenant c = some (u, ch)) :
    s.endRun c = (((charged s c).startRun u c ch none).switchInAll u c).dueWalk u := by
  have hother : ((none : Option Nat) == some u) = false := rfl
  rw [endRun_tenant h ht, hv, hs, hother, Option.isNone_none, cond_false, cond_true, cond_false]
theorem execRunEnd_runs (h : RunTest s c r) (hv : (sliceOf r c).vd = some v) (hf : (sliceOf r c).forced = none)
    (ho : r.runOver v c = true) : execRunEnd c s = .next (r.endRun c) := by
  have hvd : (r.core c).slice.vd = some v := hv
  have hforced : (r.core c).slice.forced = none := hf
  simp only [execRunEnd, h.refilled, hvd, hforced, ho, Option.isNone_none, Bool.and_self, cond_true]
theorem execRunEnd_idle (h : RunTest s c r) (hv : (sliceOf r c).vd = none) : execRunEnd c s = .next (r.endRun c) := by
  have hvd : (r.core c).slice.vd = none := hv
  simp only [execRunEnd, h.refilled, hvd]
theorem execCtxswRunEnd_runs {n : Nat} (hv : (sliceOf s c).vd = some v) (hf : (sliceOf s c).forced = some n)
    (ho : s.runOver v c = true) : execCtxswRunEnd c s = .next (s.endRun c) := by
  have hvd : (s.core c).slice.vd = some v := hv
  have hforced : (s.core c).slice.forced = some n := hf
  simp only [execCtxswRunEnd, hvd, hforced, ho, Option.isSome_some, Bool.and_self, cond_true]

end

/-- Settles O50: a due event takes the branch of its row. -/
theorem sliceEvents : Obligations.SliceEvents := by
  intro i s t h
  cases h with
  | sliceEnd c _ he hn =>
    have hending : (s.core c).slice.ending = none := he
    have hnext : (s.core c).slice.next.isNone = false := by
      rw [← Option.not_isSome, show (s.core c).slice.next.isSome = true from hn, Bool.not_true]
    refine congrArg Host.Outcome.next ?_
    simp only [State.sliceEnd, hending, hnext, Option.isSome_none, Bool.or_self, cond_false]
  | swap c _ _ he h => exact (execContextSwap_yielded he).trans (by rw [h, Option.getD_some])
  | swapHeld c _ he h => exact (execContextSwap_yielded he).trans (by rw [h, Option.getD_none])
  | budgetExpiry c _ _ e v he hv hd h => exact execHandlerBudgetExpiry_swaps he hv hd h
  | spillComplete c _ h => exact execSpillComplete_idle h
  | spillWritten c _ v h hh => exact execSpillComplete_writes h hh
  | refill v c _ hd hm hp ht hn =>
    refine (execBudgetRefill_due hd hm hp ht).trans ?_
    rw [Nat.div_eq_of_lt (Nat.sub_lt_left_of_lt_add ht hn)]
    rfl
  | refills v c _ hd hm hp ht => exact execBudgetRefill_due hd hm hp ht
  | refillEarly v c _ ht =>
    show execBudgetRefill v c s = _
    simp only [execBudgetRefill, State.refill, decide_eq_false (Nat.not_le.2 ht), Bool.and_false, cond_false]
  | newRun c _ r v ch h hv hf ho ht =>
    exact (execRunEnd_runs h hv hf ho).trans (congrArg Host.Outcome.next (endRun_again h.steady hv ht))
  | runEnd c _ r v u ch h hv hf ho ht hu =>
    exact (execRunEnd_runs h hv hf ho).trans (congrArg Host.Outcome.next (endRun_next h.steady hv ht hu))
  | firstRun c _ r u ch h hv hs ht =>
    exact (execRunEnd_idle h hv).trans (congrArg Host.Outcome.next (endRun_first h.steady hv hs ht))
  | idleEnd c _ r v h hv hf ho ht he =>
    refine (execRunEnd_runs h hv hf ho).trans (congrArg Host.Outcome.next ?_)
    rw [endRun_noTenant h.steady hv ht, he, List.isEmpty_nil, cond_true]
  | lastEnd c _ r v h hv hf ho ht he =>
    refine (execRunEnd_runs h hv hf ho).trans (congrArg Host.Outcome.next ?_)
    rw [endRun_noTenant h.steady hv ht, List.isEmpty_eq_false_iff.2 he, cond_false]
  | ctxswAgain c _ v ch n hn hv hf ho ht =>
    exact (execCtxswRunEnd_runs hv hf ho).trans (congrArg Host.Outcome.next (endRun_again hn hv ht))
  | ctxswRunEnd c _ v u ch n hn hv hf ho ht hu =>
    exact (execCtxswRunEnd_runs hv hf ho).trans (congrArg Host.Outcome.next (endRun_next hn hv ht hu))
  | carveout c n _ h =>
    show execCarveoutChange c n s = _
    simp only [execCarveoutChange, decide_eq_false (Nat.not_lt.2 h), Bool.cond_eq_ite, beq_iff_eq, if_false, reduceCtorEq]
  | carveoutEffect c _ n h hu =>
    show execCarveoutChangeEffect c s = _
    simp only [execCarveoutChangeEffect, h, decide_eq_true hu, cond_true]

end Sys2Proof.Machine
end

section
/-! SUPPORT. The events of mailboxes, queues and packets (R397 to R408). -/

namespace Sys2Proof.Machine
open Sys2Proof.Claims

section
variable {s t u : State} {i : Instr} {q n ty c : Nat} {p : List Byte}

/-! ## Queues and who manages them (R397 to R400) -/

theorem mayManage_of (hm : Manages s n q) : s.mayManage n q = true := by
  obtain ⟨⟨hlow, hhigh⟩, hexists, howns⟩ := hm
  simp only [State.mayManage, senderPart, decide_eq_true hlow, decide_eq_true hhigh, decide_eq_true hexists, howns, beq_self_eq_true,
    Bool.and_self]
theorem mayManage_denied (hm : ¬Manages s n q) : s.mayManage n q = false := by
  rw [Bool.eq_false_iff]
  intro h
  simp only [State.mayManage, senderPart, Bool.and_eq_true, decide_eq_true_eq, beq_iff_eq] at h
  obtain ⟨⟨⟨hlow, hhigh⟩, hexists⟩, howns⟩ := h
  exact hm ⟨⟨hlow, hhigh⟩, hexists, howns⟩
theorem execMailboxMessage_drops {box : Nat} {m : List Byte} (ht : box < 8) (hs : field m 0 1 ≠ n ∨ 12 ≤ field m 0 1 ∨ m.length ≠ 64) :
    execMailboxMessage box n m s = .next (s.modTele fun x => { x with dropped := x.dropped + 1 }) := by
  have hbad : (decide (12 ≤ field m 0 1) || field m 0 1 != n || m.length != 64) = true := by
    rcases hs with hs | hs | hs <;> simp [hs]
  simp only [execMailboxMessage, decide_eq_false (Nat.not_le.2 ht), hbad, cond_false, cond_true]
/-- A message of a sender that may send it goes to a box with room, and waits at a full one. -/
theorem execMailboxMessage_sends {box : Nat} {m : List Byte} (ht : box < 8) (hs : field m 0 1 = n) (hn : n < 12) (hl : m.length = 64) :
    execMailboxMessage box n m s = .next (bif decide (32 ≤ (s.hearth.boxes.getD box []).length) then s
      else s.modHearth fun h => { h with boxes := h.boxes.set box (s.hearth.boxes.getD box [] ++ [⟨n, box, m⟩]) }) := by
  have hgood : (decide (12 ≤ n) || n != n || m.length != 64) = false := by simp [Nat.not_le.2 hn, hl]
  simp only [execMailboxMessage, decide_eq_false (Nat.not_le.2 ht), hs, hgood, cond_false]
theorem execQueueCreate_accepts {d bs : List Byte} (h : s.queueOk n d = true)
    (hl : s.hearthLoad (descVd n d) (BitVec.ofNat 64 (field d 16 8)) 8 = .ok bs)
    (hu : s.hearthTouch (descVd n d) (BitVec.ofNat 64 (field d 16 8)) 8 = u) : execQueueCreate n d s = .next
      ((({ u with queues := u.queues ++ [newQueue n d (leNat bs)] } : State).hearthPost
        (descVd n d) 10 (BitVec.ofNat 64 (field d 24 8)) (.store (natLe 8 (leNat bs)))).answer 1 n) := by
  simp only [execQueueCreate, h, hl, hu, cond_true]
  rfl
theorem execQueueCreate_unread {d : List Byte} (h : s.queueOk n d = true) (hc : c ≠ 0)
    (hl : s.hearthLoad (descVd n d) (BitVec.ofNat 64 (field d 16 8)) 8 = .error c) : execQueueCreate n d s = .next (s.answer 1 n) := by
  obtain ⟨k, rfl⟩ := Nat.exists_eq_succ_of_ne_zero hc
  simp only [execQueueCreate, h, hl, cond_true]

/-! ## Micro-steps (R403, R405) -/

theorem microStep_at {at_ : Nat → Bool} {k : List Byte → State → State} (ha : AtPacket s t q ty c p) (hat : at_ c = true) :
    s.microStep q ty at_ k = k p t := by
  obtain ⟨hserves, hfirst, hreads, hkind, hstep, hstart, hafter⟩ := ha
  have hstarts : (c == 0 && !s.mayStart q p) = false := by
    by_cases hc : c = 0
    · simp [hstart hc]
    · simp [hc]
  simp only [State.microStep, hserves, hfirst, hreads, hkind, hstarts, hafter, Bool.not_false, Bool.and_self, beq_self_eq_true,
    cond_true, cond_false, hstep, hat]
/-- A packet that cannot be read blocks its queue. -/
theorem microStep_unread {at_ : Nat → Bool} {k : List Byte → State → State} (hs : s.serves q = true) (hy : s.yields q = false)
    (hp : s.packetAt q = none) : s.microStep q ty at_ k = s.block_ q := by
  simp only [State.microStep, hs, hy, hp, Bool.not_false, Bool.and_self, cond_true]
/-- Reading a packet leaves its queue as it was. -/
theorem queue_after (ha : AtPacket s t q ty c p) : t.queue q = s.queue q := by
  rw [← ha.after, packetRead_queue]
theorem cursor_after (ha : AtPacket s t q ty c p) : (t.queue q).cursor = c := by
  rw [queue_after ha, ha.step]
theorem checked_passes {k : State → State} (hk : HeaderOk t q p) : t.checked q p k = k t := by
  unfold HeaderOk at hk
  simp only [State.checked, hk]
theorem checked_rejects {k : State → State} (hk : t.headerReason (vdOfQ t q) p = some n) : t.checked q p k = t.reject q p n 0#64 := by
  unfold vdOfQ at hk
  simp only [State.checked, hk]
/-- The type that PACKET_NOP serves, of a packet whose type is not reserved. -/
theorem nopType (ha : AtPacket s t q 0 c p) :
    (bif decide (9 ≤ ptype ((s.packetAt q).getD [])) then ptype ((s.packetAt q).getD []) else 0) = 0 := by
  rw [ha.reads, Option.getD_some, ha.kind]
  rfl
theorem execPacketNop_at (ha : AtPacket s t q 0 0 p) :
    execPacketNop q s = .next (t.checked q p fun s => s.dispatched q p (some 1#64)) := by
  rw [execPacketNop, nopType ha, microStep_at ha rfl]
theorem headerReason_reserved (hr : 9 ≤ ptype p) (v : Nat) : t.headerReason v p = some 1 := by
  have hreserved : packetReserved p = true := by simp [packetReserved, hr]
  simp only [State.headerReason, hreserved, cond_true]
theorem execPacketNop_reserved (h : AtPacket s t q (ptype p) 0 p) (hr : 9 ≤ ptype p) : execPacketNop q s = .next (t.reject q p 1 0#64) := by
  rw [execPacketNop, h.reads, Option.getD_some, decide_eq_true hr, cond_true, microStep_at h rfl,
    checked_rejects (headerReason_reserved hr (vdOfQ t q))]
/-- The first step of a packet that cannot be read. -/
theorem firstStep_unread (hi : FirstStep i ty q ∨ LaunchStep i ty q) (hs : s.serves q = true) (hy : s.yields q = false)
    (hp : s.packetAt q = none) : exec i s = .next (s.block_ q) := by
  rcases hi with hi | hi
  · cases hi <;> exact congrArg Host.Outcome.next (microStep_unread hs hy hp)
  · cases hi <;> exact congrArg Host.Outcome.next (microStep_unread hs hy hp)
/-- A packet whose header does not pass is rejected by its first step. -/
theorem firstStep_rejects (hi : FirstStep i ty q) (ha : AtPacket s t q ty 0 p) (hk : t.headerReason (vdOfQ t q) p = some n) :
    exec i s = .next (t.reject q p n 0#64) := by
  cases hi with
  | nop => exact (execPacketNop_at ha).trans (congrArg Host.Outcome.next (checked_rejects hk))
  | ranges => exact congrArg Host.Outcome.next ((microStep_at ha rfl).trans (checked_rejects hk))
  | _ => exact congrArg Host.Outcome.next ((microStep_at ha rfl).trans (checked_rejects hk))

/-! ## Launches (R404, R405) -/

section
variable {h x : List Byte} {es : List (List Byte)} {l : Nat} {a : DWord}

theorem beginLaunch_begins (hr : t.readLaunch (vdOfQ t q) p = ⟨.ok h, .ok x, .ok es⟩) (hu : t.touchLaunch (vdOfQ t q) p = u)
    (hk : u.launchReason q p = none) : t.beginLaunch q p = checkedLaunch u q p h x es := by
  unfold vdOfQ at hr hu
  simp only [State.beginLaunch, hr, hu, hk, checkedLaunch]
theorem beginLaunch_rejects (hr : NotHeld (t.readLaunch (vdOfQ t q) p)) (hu : t.touchLaunch (vdOfQ t q) p = u)
    (hk : u.launchReason q p = some (n, a)) : t.beginLaunch q p = u.reject q p n a := by
  obtain ⟨hkernel, hxrec, hnodes⟩ := hr
  unfold vdOfQ at hkernel hxrec hnodes hu
  unfold State.beginLaunch
  dsimp only
  split
  · next h => exact absurd h hkernel
  · next h _ => exact absurd h hxrec
  · next h _ _ => exact absurd h hnodes
  · simp only [hu, hk]
theorem beginLaunch_held (hr : ¬NotHeld (t.readLaunch (vdOfQ t q) p)) : t.beginLaunch q p = (t.touchLaunch (vdOfQ t q) p).block_ q := by
  unfold State.beginLaunch
  dsimp only
  split
  · rfl
  · rfl
  · rfl
  · next hkernel hxrec hnodes => exact absurd ⟨hkernel, hxrec, hnodes⟩ hr
theorem startLaunch_starts (hl : (t.queue q).launching = some l) (hc : (t.queue q).cursor = 2 + (t.launch l).billetSteps) :
    t.startLaunch q p = ((launched t l).dispatched q p none).dueWalk (vdOfQ t q) := by
  simp only [State.startLaunch, hl, hc, beq_self_eq_true, cond_true]
  rfl
/-- The first step of a launch reads and checks it. -/
theorem launchStep_begins (hi : LaunchStep i ty q) (ha : AtPacket s t q ty 0 p) : exec i s = .next (t.beginLaunch q p) := by
  cases hi with
  | launch => exact congrArg Host.Outcome.next (microStep_at ha rfl)
  | cord =>
    refine congrArg Host.Outcome.next ((microStep_at ha rfl).trans ?_)
    rw [cursor_after ha, beq_self_eq_true, cond_true]
theorem execLaunchBilletStep_steps (ha : AtPacket s t q 1 c p) (hc : 2 ≤ c) (hl : (s.queue q).launching = some l)
    (hn : c < 2 + (t.launch l).billetSteps) : execLaunchBilletStep q s =
      .next ((t.modLaunch l fun x => x.createBillets (256 * (c - 2)) 256).stepped q (c + 1)) := by
  have hlaunching : (t.queue q).launching = some l := by rw [queue_after ha, hl]
  rw [execLaunchBilletStep, microStep_at ha (decide_eq_true hc)]
  simp only [hlaunching, cursor_after ha, decide_eq_true hn, cond_true]
theorem execLaunchDispatch_starts (hl : (s.queue q).launching = some l) (ha : AtPacket s t q 1 (2 + (t.launch l).billetSteps) p) :
    execLaunchDispatch q s = .next (((launched t l).dispatched q p none).dueWalk (vdOfQ s q)) := by
  have hlaunching : (t.queue q).launching = some l := by rw [queue_after ha, hl]
  rw [execLaunchDispatch, microStep_at ha (decide_eq_true (Nat.le_add_right ..)), startLaunch_starts hlaunching (cursor_after ha),
    vdOfQ, queue_after ha, vdOfQ]
theorem execPacketCord_starts (hl : (s.queue q).launching = some l) (ha : AtPacket s t q 2 (2 + (t.launch l).billetSteps) p) :
    execPacketCord q s = .next (((launched t l).dispatched q p none).dueWalk (vdOfQ s q)) := by
  have hlaunching : (t.queue q).launching = some l := by rw [queue_after ha, hl]
  have hlater : ((t.queue q).cursor == 0) = false := by rw [cursor_after ha, beq_eq_false_iff_ne]; omega
  rw [execPacketCord, microStep_at ha rfl, hlater, cond_false, startLaunch_starts hlaunching (cursor_after ha),
    vdOfQ, queue_after ha, vdOfQ]

end

/-! ## Waits and writes (R401, R403, R406) -/

section
variable {va : DWord} {w : HWrite} {s1 : State} {k : State → State} {bs : List Byte}

/-- The test of a WAIT whose location has been read. -/
theorem waitTest_read (hk : HeaderOk t q p) (hl : t.hearthLoad (vdOfQ t q) (paddr p 16) 8 = .ok bs) :
    t.waitTest q p = bif waitHolds (field p 32 1) (leNat bs) (field p 24 8) then (afterTest t q p).dispatched q p (some 1#64)
      else (afterTest t q p).block_ q := by
  unfold vdOfQ at hl
  rw [State.waitTest, checked_passes hk]
  simp only [hl, afterTest, vdOfQ]
theorem waitTest_fails (hk : HeaderOk t q p) (hc : c ≠ 0) (hl : t.hearthLoad (vdOfQ t q) (paddr p 16) 8 = .error c) :
    t.waitTest q p = (afterTest t q p).reject q p 8 (paddr p 16) := by
  obtain ⟨k, rfl⟩ := Nat.exists_eq_succ_of_ne_zero hc
  unfold vdOfQ at hl
  rw [State.waitTest, checked_passes hk]
  simp only [hl, afterTest, vdOfQ]
theorem execWaitConditionMet_tests (hb : (s.queue q).state = .blocked) (ha : AtPacket s t q 3 0 p) :
    execWaitConditionMet q s = .next (t.waitTest q p) := by
  rw [execWaitConditionMet, hb, beq_self_eq_true, cond_true, microStep_at ha rfl]
theorem relHeld_of_noPosts (hp : NoPosts t q p) : t.relHeld q p = false := by
  rw [Bool.eq_false_iff, ne_eq, State.relHeld, Bool.and_eq_true, beq_iff_eq]
  exact hp
theorem relHeld_of_posts (hp : ¬NoPosts t q p) : t.relHeld q p = true := by
  rw [State.relHeld, Bool.and_eq_true, beq_iff_eq]
  exact not_not.1 hp
theorem packetWrite_done (hp : NoPosts t q p) (hw : t.hearthDo (queueMaker q) (vdOfQ t q) va w = (s1, none)) :
    t.packetWrite q p va w k = k s1 := by
  unfold vdOfQ at hw
  simp only [State.packetWrite, relHeld_of_noPosts hp, cond_false, hw]
theorem packetWrite_fails (hp : NoPosts t q p) (hc : c ≠ 0) (hw : t.hearthDo (queueMaker q) (vdOfQ t q) va w = (s1, some c)) :
    t.packetWrite q p va w k = s1.reject q p 8 (t.hearthMissOf (vdOfQ t q) va w) := by
  obtain ⟨k, rfl⟩ := Nat.exists_eq_succ_of_ne_zero hc
  unfold vdOfQ at hw
  simp only [State.packetWrite, relHeld_of_noPosts hp, cond_false, hw, vdOfQ]
theorem packetWrite_held (hp : NoPosts t q p) (hw : t.hearthDo (queueMaker q) (vdOfQ t q) va w = (s1, some 0)) :
    t.packetWrite q p va w k = s1.block_ q := by
  unfold vdOfQ at hw
  simp only [State.packetWrite, relHeld_of_noPosts hp, cond_false, hw]
theorem packetWrite_releases (hp : ¬NoPosts t q p) : t.packetWrite q p va w k = releaseWaits t q := by
  simp only [State.packetWrite, relHeld_of_posts hp, cond_true, State.waitRelease, releaseWaits]
/-- A step that writes performs its write; what follows it is the packet's end, but for the first step of a WRSIG. -/
theorem writeStep_writes (ha : AtWrite s t i q p va w) : ∃ k, exec i s = .next (t.packetWrite q p va w k) ∧
    (i ≠ .packetWrsigWrite q → k = fun s => s.dispatched q p (some 1#64)) ∧ (i = .packetWrsigWrite q → k = fun s => s.stepped q 2) := by
  obtain ⟨ty, cu, f, g, hstep, hat, hheader, rfl, rfl⟩ := ha.step
  cases hstep with
  | write => exact ⟨_, congrArg Host.Outcome.next ((microStep_at hat rfl).trans (checked_passes (hheader rfl))), fun _ => rfl, nofun⟩
  | signal => exact ⟨_, congrArg Host.Outcome.next ((microStep_at hat rfl).trans (checked_passes (hheader rfl))), fun _ => rfl, nofun⟩
  | wrsigWrite =>
    exact ⟨_, congrArg Host.Outcome.next ((microStep_at hat rfl).trans (checked_passes (hheader rfl))), fun h => absurd rfl h, fun _ => rfl⟩
  | wrsigSignal => exact ⟨_, congrArg Host.Outcome.next (microStep_at hat rfl), fun _ => rfl, nofun⟩

end

/-! ## Chains, ranges and completions (R366, R402, R403) -/

theorem execPacketChainrun_at (ha : AtPacket s t q 7 0 p) (hk : HeaderOk t q p) {k : Option Nat}
    (hf : (List.range 4).find? (fun k => (t.hearth.chains.getD (4 * field p 24 1 + k) none).isNone) = k) :
    execPacketChainrun q s = .next (k.elim (t.block_ q) fun k =>
      (t.setChain (.hearth (field p 24 1) k) (some (packetChain t q p))).dispatched q p none) := by
  rw [execPacketChainrun, microStep_at ha rfl, checked_passes hk]
  subst hf
  dsimp only
  cases (List.range 4).find? fun k => (t.hearth.chains.getD (4 * field p 24 1 + k) none).isNone <;> rfl
theorem execPacketRanges_brings (ha : AtPacket s t q 8 c p) (hk : HeaderOk t q p)
    (hh : t.bringHeld (vdOfQ t q) (((rangePages p).drop (64 * (c - 1))).take 64) = false) : execPacketRanges q s =
      .next (bif decide ((rangePages p).length ≤ 64 * (c - 1 + 1)) then
        (t.bringPages (vdOfQ t q) (((rangePages p).drop (64 * (c - 1))).take 64)).dispatched q p (some 1#64)
        else (t.bringPages (vdOfQ t q) (((rangePages p).drop (64 * (c - 1))).take 64)).stepped q (c - 1 + 2)) := by
  unfold vdOfQ at hh
  rw [execPacketRanges, microStep_at ha rfl, checked_passes hk]
  simp only [cursor_after ha, hh, cond_false, vdOfQ]
theorem execPacketCompletion_signals {k : Nat} {y : InFlight} {v : DWord} (hy : (s.queue q).inflight[k]? = some y)
    (hf : (s.queue q).inflight.findIdx? (fun y => y.done.isSome) = some k) (hd : y.done = some v) (hw : s.signalWaits q y = false) :
    execPacketCompletion q k s = .next
      (bif y.sig == 0#64 then s.modQueue q fun z => { z with inflight := z.inflight.eraseIdx k }
      else bif (s.modQueue q fun z => { z with inflight := z.inflight.eraseIdx k }).hearthHeld (s.queue q).vd y.sig (.add v) then s
      else (s.modQueue q fun z => { z with inflight := z.inflight.eraseIdx k }).hearthPost (s.queue q).vd 4 y.sig (.add v)) := by
  simp only [execPacketCompletion, hy, hf, hd, hw, beq_self_eq_true, Bool.not_false, Bool.and_self, cond_true]
theorem execPacketCompletion_held {k : Nat} {y : InFlight} {v : DWord} (hy : (s.queue q).inflight[k]? = some y) (hd : y.done = some v)
    (hs : y.sig ≠ 0#64)
    (hh : (s.modQueue q fun z => { z with inflight := z.inflight.eraseIdx k }).hearthHeld (s.queue q).vd y.sig (.add v) = true) :
    execPacketCompletion q k s = .next s := by
  cases hj : (s.queue q).inflight.findIdx? (fun y => y.done.isSome) with
  | none => simp only [execPacketCompletion, hy, hj]
  | some j => simp only [execPacketCompletion, hy, hj, hd, beq_eq_false_iff_ne.2 hs, hh, cond_false, cond_true, Bool.cond_self]

end

/-- Settles O51: a due event takes the branch of its row. -/
theorem queueEvents : Obligations.QueueEvents := by
  intro i s t h
  cases h with
  | message b n m _ ht hs hn hl hb =>
    show execMailboxMessage b n m s = _
    rw [execMailboxMessage_sends ht hs hn hl, decide_eq_false (Nat.not_le.2 hb), cond_false]
  | full b n m _ ht hs hn hl hb =>
    show execMailboxMessage b n m s = _
    rw [execMailboxMessage_sends ht hs hn hl, decide_eq_true hb, cond_true]
  | dropped b n m _ ht hs => exact execMailboxMessage_drops ht hs
  | create n d _ u w bs h ha hl hu =>
    subst ha
    exact execQueueCreate_accepts h hl hu
  | createWaits n d _ h hl =>
    show execQueueCreate n d s = _
    simp only [execQueueCreate, h, hl, cond_true]
  | createUnread n d _ c h hc hl => exact execQueueCreate_unread h hc hl
  | refused n d _ h =>
    show execQueueCreate n d s = _
    simp only [execQueueCreate, h, cond_false]
  | reset n q j _ h hi hm =>
    show execQueueReset ⟨n, q⟩ j s = _
    simp only [execQueueReset, h, decide_eq_true hi, mayManage_of hm, beq_self_eq_true, Bool.and_self, cond_true]
    rfl
  | destroy n q _ h hm =>
    have hstop : (fun x : Chain => bif x.packet.1 == q then { x with stop := true } else x) =
        fun x => if x.packet.1 = q then { x with stop := true } else x :=
      funext fun x => by rw [Bool.cond_eq_ite]; simp only [beq_iff_eq]
    show execQueueDestroy ⟨n, q⟩ s = _
    simp only [execQueueDestroy, bne_iff_ne.2 h, mayManage_of hm, Bool.and_self, cond_true, State.destroyQueue, State.stopChains, hstop]
  | resetDenied n q j _ hm =>
    show execQueueReset ⟨n, q⟩ j s = _
    simp only [execQueueReset, mayManage_denied hm, Bool.and_false, cond_false]
  | destroyDenied n q _ hm =>
    show execQueueDestroy ⟨n, q⟩ s = _
    simp only [execQueueDestroy, mayManage_denied hm, Bool.and_false, cond_false]
  | destroyed q _ h hi =>
    show execQueueDestroyComplete q s = _
    simp only [execQueueDestroyComplete, h, hi, beq_self_eq_true, List.isEmpty_nil, Bool.and_self, cond_true]
  | doorbell q j _ h hd hq =>
    refine congrArg Host.Outcome.next ?_
    simp only [State.ring, h, beq_eq_false_iff_ne.2 hd, decide_eq_false (Nat.not_le.2 hq), Bool.or_self, cond_false]
  | notice q _ h hd bs hl =>
    unfold vdOfQ at hl
    show execWriteIndexNotice q s = _
    simp only [execWriteIndexNotice, h, bne_iff_ne.2 hd, Bool.and_self, cond_true, State.readWidx, hl, indexRead, vdOfQ]
  | noticeHeld q _ h hd hl =>
    unfold vdOfQ at hl
    show execWriteIndexNotice q s = _
    simp only [execWriteIndexNotice, h, bne_iff_ne.2 hd, Bool.and_self, cond_true, State.readWidx, hl]
  | held _ q _ hi hs hy hp =>
    obtain ⟨ty, hi⟩ := hi
    exact firstStep_unread hi hs hy hp
  | rejected _ ty q _ t p n hi ha hk => exact firstStep_rejects hi ha hk
  | nop q _ t p h hk => exact (execPacketNop_at h).trans (congrArg Host.Outcome.next (checked_passes hk))
  | reserved q _ t p h hr => exact execPacketNop_reserved h hr
  | launch q _ t u p h x es ha hr hu hk =>
    exact (launchStep_begins (.launch q) ha).trans (congrArg Host.Outcome.next (beginLaunch_begins hr hu hk))
  | launchRejected _ ty q _ t u p n a hi ha hr hu hk =>
    exact (launchStep_begins hi ha).trans (congrArg Host.Outcome.next (beginLaunch_rejects hr hu hk))
  | launchHeld _ ty q _ t p hi ha hr => exact (launchStep_begins hi ha).trans (congrArg Host.Outcome.next (beginLaunch_held hr))
  | billets q _ t p c l ha hc hl hn => exact execLaunchBilletStep_steps ha hc hl hn
  | dispatch q _ t p l hl ha => exact execLaunchDispatch_starts hl ha
  | cord q _ t u p h x es ha hr hu hk =>
    exact (launchStep_begins (.cord q) ha).trans (congrArg Host.Outcome.next (beginLaunch_begins hr hu hk))
  | cordDispatch q _ t p l hl ha => exact execPacketCord_starts hl ha
  | wait q _ t p bs ha hk hl hc =>
    refine congrArg Host.Outcome.next ((microStep_at ha rfl).trans ?_)
    rw [waitTest_read hk hl, hc, cond_true]
  | waits q _ t p bs ha hk hl hc =>
    refine congrArg Host.Outcome.next ((microStep_at ha rfl).trans ?_)
    rw [waitTest_read hk hl, hc, cond_false]
  | waitMet q _ t p bs hb ha hk hl hc =>
    refine (execWaitConditionMet_tests hb ha).trans (congrArg Host.Outcome.next ?_)
    rw [waitTest_read hk hl, hc, cond_true]
  | waitFails q _ t p c ha hk hc hl => exact congrArg Host.Outcome.next ((microStep_at ha rfl).trans (waitTest_fails hk hc hl))
  | written _ q _ t p va w s1 ha hi hp hw =>
    obtain ⟨k, hexec, hrest, _⟩ := writeStep_writes ha
    rw [hexec, packetWrite_done hp hw, hrest hi]
  | wrsigWrite q _ t p va w s1 ha hp hw =>
    obtain ⟨k, hexec, _, hfirst⟩ := writeStep_writes ha
    rw [hexec, packetWrite_done hp hw, hfirst rfl]
  | writeFails _ q _ t p va w s1 c ha hp hc hw =>
    obtain ⟨k, hexec, _, _⟩ := writeStep_writes ha
    rw [hexec, packetWrite_fails hp hc hw]
  | writeHeld _ q _ t p va w s1 ha hp hw =>
    obtain ⟨k, hexec, _, _⟩ := writeStep_writes ha
    rw [hexec, packetWrite_held hp hw]
  | writeReleases _ q _ t p va w ha hp =>
    obtain ⟨k, hexec, _, _⟩ := writeStep_writes ha
    rw [hexec, packetWrite_releases hp]
  | chainrun q _ t p k ha hk hf => exact execPacketChainrun_at ha hk hf
  | chainrunFull q _ t p ha hk hf => exact execPacketChainrun_at ha hk hf
  | ranges q _ t p c ha hk hh hn =>
    show execPacketRanges q s = _
    rw [execPacketRanges_brings ha hk hh, decide_eq_false (Nat.not_le.2 hn), cond_false]
  | rangesLast q _ t p c ha hk hh hn =>
    show execPacketRanges q s = _
    rw [execPacketRanges_brings ha hk hh, decide_eq_true hn, cond_true]
  | kindling q _ => rfl
  | completion q k _ y v hy hf hd hw hs hh =>
    show execPacketCompletion q k s = _
    rw [execPacketCompletion_signals hy hf hd hw, beq_eq_false_iff_ne.2 hs, hh, cond_false, cond_false]
  | completionHeld q k _ y v hy hd hs hh => exact execPacketCompletion_held hy hd hs hh
  | completionBare q k _ y v hy hf hd hw hs =>
    show execPacketCompletion q k s = _
    rw [execPacketCompletion_signals hy hf hd hw, hs, beq_self_eq_true, cond_true]

end Sys2Proof.Machine
end

section
/-! SUPPORT. The events of virtual devices (R331, R349, R350, R411, R414, R418 to R421). -/

namespace Sys2Proof.Machine
open Sys2Proof.Claims

section
variable {s : State} {v : Nat}

/-- Two changes of one virtual device are one. -/
theorem modVdev_modVdev (f g : Vdev → Vdev) : (s.modVdev v f).modVdev v g = s.modVdev v fun d => g (f d) := by
  simp only [State.modVdev, List.modify_modify_eq]
  rfl
/-- A change that keeps the held messages keeps them. -/
theorem modVdev_heldMsg (f : Vdev → Vdev) (hf : ∀ d, (f d).heldMsg = d.heldMsg) :
    ((s.modVdev v f).vdev v).heldMsg = (s.vdev v).heldMsg := by
  simp only [State.vdev, State.modVdev, List.getD_eq_getElem?_getD, List.getElem?_modify_eq]
  cases s.vdevs[v]? with
  | none => rfl
  | some d => exact hf d
/-- An answer of a hearth core leaves the virtual devices as they were. -/
theorem answer_vdev (src dst : Nat) : (s.answer src dst).vdev v = s.vdev v := by
  unfold State.answer State.send
  cases decide (8 ≤ dst) && decide (dst ≤ 11) <;> rfl

/-! ## Grants, pauses and resets (R331, R411, R418) -/

theorem grantedBeside_eq (st : Nat) : s.grantedBeside v st = othersOn s v st := by
  refine congrArg List.sum (List.map_congr_left fun u _ => ?_)
  rw [Bool.cond_eq_ite]
  simp only [Bool.or_eq_true, Bool.and_eq_true, beq_iff_eq, bne_iff_ne]
theorem execGrantMessage_grants {st n : Nat} (hv : v < 32) (hs : st < 8) (hp : s.portOpen (partOf v) st = true)
    (ho : othersOn s v st + n ≤ 2 ^ 29) (hu : (s.kshare v st).used + (s.kshare v st).pend ≤ n)
    (hg : (s.kshare v st).grant ≤ n ∨ s.ratioOk v (s.grantOf v - (s.kshare v st).grant + n) = true) :
    execGrantMessage v st n s = .next ((s.modK v st fun x => { x with grant := n }).balloonTest v) := by
  have hratio : (decide ((s.kshare v st).grant ≤ n) || s.ratioOk v (s.grantOf v - (s.kshare v st).grant + n)) = true := by
    rw [Bool.or_eq_true, decide_eq_true_iff]
    exact hg
  have hfits : decide (s.grantedBeside v st + n ≤ stackSectors) = true := decide_eq_true (by rw [grantedBeside_eq]; exact ho)
  simp only [execGrantMessage, decide_eq_true hv, decide_eq_true hs, hp, hfits, decide_eq_true hu, hratio, Bool.and_self, cond_true]
theorem freeze_ready {cls reason : Nat} (h : (s.vdev v).state = .ready) : s.freeze v cls reason =
    (s.modVdev v fun d => { d with state := .frozen, frozenAt := s.guest v }).ashRecord v cls reason := by
  simp only [State.freeze, h]
theorem freeze_paused {cls reason : Nat} (h : (s.vdev v).state = .paused) : s.freeze v cls reason =
    (s.modVdev v fun d => { d with state := .frozen, frozenAt := s.guest v, offset := (s.now : Int) - d.saved }).ashRecord v cls reason := by
  simp only [State.freeze, h]
  rw [modVdev_modVdev]
/-- The queues of a resumed virtual device return to the states they were suspended in. -/
theorem execTenantResume_resumes (h : (s.vdev v).state = .paused) (hm : ∀ m ∈ (s.vdev v).heldMsg, m = 1) :
    execTenantResume v s = .next
      (({ s with queues := s.queues.map (unsuspended v) } : State).modVdev v fun d =>
        { d with state := .ready, offset := (s.now : Int) - d.saved }) := by
  have hall : ((s.vdev v).heldMsg.all (· == 1)) = true := List.all_eq_true.2 fun m hmem => beq_iff_eq.2 (hm m hmem)
  simp only [execTenantResume, h, hall, beq_self_eq_true, Bool.and_self, cond_true]
  refine congrArg (fun qs => Host.Outcome.next (({ s with queues := qs } : State).modVdev v fun d =>
    { d with state := .ready, offset := (s.now : Int) - d.saved })) (List.map_congr_left fun q _ => ?_)
  unfold unsuspended
  cases q.state with
  | suspended was => simp only [Bool.cond_eq_ite, beq_iff_eq]
  | _ => rfl

/-! ## Clearing (R418, R419) -/

theorem execTenantClear_clears (h : (s.vdev v).state = .frozen) (hn : s.noHandover = true) (hw : ∀ x ∈ s.hearth.waiting, x.ashOf v = false) :
    execTenantClear v s = .next ((s.clearTenant v).modVdev v fun d => { d with state := .clearing }) := by
  have hwritten : (s.hearth.waiting.any fun x => x.ashOf v) = false :=
    List.any_eq_false.2 fun x hx => Bool.eq_false_iff.1 (hw x hx)
  simp only [execTenantClear, h, hn, hwritten, beq_self_eq_true, Bool.not_false, Bool.and_self, cond_true]
/-- The end of a clearing: READY again, with what is held first. -/
theorem execClearingDone_ends (h : (s.vdev v).state = .clearing) : execClearingDone v s = .next
    (bif (s.vdev v).heldMsg.head? == some 1 then
      ((s.modVdev v fun d => { d with state := .ready, faults := 0 }).answer 2 (10 + partOf v)).beginPause v
    else (s.modVdev v fun d => { d with state := .ready, faults := 0 }).answer 2 (10 + partOf v)) := by
  simp only [execClearingDone, h, beq_self_eq_true, cond_true, answer_vdev,
    modVdev_heldMsg (fun d => { d with state := .ready, faults := 0 }) fun _ => rfl]

/-! ## Images (R350, R418, R421) -/

theorem execTenantExport_exports {n : Nat} {s1 : State} {im : Image} (h : (s.vdev v).state = .paused) (hn : s.noHandover = true)
    (hc : s.capture v = (s1, im)) (ht : n < 12) : execTenantExport v n s = .next
      (((((s1.clearTenant v).modHearth fun h => { h with images := h.images ++ [im] }).dropKiln fun u => u == v).modVdev v fun _ =>
        Vdev.reset).answer 3 n) := by
  simp only [execTenantExport, h, hn, cond_true, State.exportTenant, Bool.not_true, cond_false, hc, decide_eq_true ht]
theorem execTenantImport_absent {k : Nat} (hv : (s.vdev v).state = .absent) (h32 : v < 32) :
    execTenantImport v k s = .next (bif s.noHandover then s.importTenant v k else s.holdMsg v (2 + k)) := by
  simp only [execTenantImport, hv, bne_self_eq_false, decide_eq_false (Nat.not_le.2 h32), Bool.or_self, cond_false]
theorem execTenantUndefine_present (h : (s.vdev v).state = .ready ∨ (s.vdev v).state = .paused) :
    execTenantUndefine v s = .next (bif s.noHandover then s.undefineTenant v else s.holdMsg v 0) := by
  have hpresent : ((s.vdev v).state == .ready || (s.vdev v).state == .paused) = true := by
    rw [Bool.or_eq_true, beq_iff_eq, beq_iff_eq]
    exact h
  simp only [execTenantUndefine, hpresent, cond_true]
theorem execCheckpoint_copies {x : ImageOf} {s1 s2 : State} {ims : List Image}
    (h : ∀ v ∈ s.imageVds x, (s.vdev v).state = .ready ∨ (s.vdev v).state = .paused)
    (hb : s.hearth.config.buddy.isSome = true) (hn : s.noHandover = true) (h1 : s.saveAll (imageShares s x) = some s1)
    (h2 : s1.captureAll (s.imageVds x) = (s2, ims)) : execCheckpoint x s = .next
      ((imageShares s x).foldl (fun t h => (t.resumeShare h (s.share h).core).getD t)
        (s2.modHearth fun h => { h with images := h.images ++ ims })) := by
  have hall : ((s.imageVds x).all fun v => (s.vdev v).state == .ready || (s.vdev v).state == .paused) = true := by
    refine List.all_eq_true.2 fun v hv => ?_
    rw [Bool.or_eq_true, beq_iff_eq, beq_iff_eq]
    exact h v hv
  unfold imageShares at h1 ⊢
  simp only [execCheckpoint, hall, hb, hn, Bool.and_self, cond_true, h1, h2]

end

/-- Settles O52: a due event takes the branch of its row. -/
theorem tenantEvents : Obligations.TenantEvents := by
  intro i s t h
  cases h with
  | defined p d _ h ha =>
    show execVdevDescriptor p d s = _
    simp only [execVdevDescriptor, h, ha, Bool.not_true, beq_self_eq_true, cond_false, cond_true]
  | replaced p d _ h ha =>
    show execVdevDescriptor p d s = _
    simp only [execVdevDescriptor, h, beq_eq_false_iff_ne.2 ha, Bool.not_true, cond_false]
  | refused p d _ h =>
    show execVdevDescriptor p d s = _
    simp only [execVdevDescriptor, h, Bool.not_false, cond_true]
  | grant v st n _ hv hs hp ho hu hg => exact execGrantMessage_grants hv hs hp ho hu hg
  | pause v _ h =>
    show execTenantPause v s = _
    simp only [execTenantPause, h]
  | pauseHeld v _ h =>
    show execTenantPause v s = _
    rcases h with h | h <;> simp only [execTenantPause, h, State.holdMsg, holdMessage]
  | resume v _ h hm => exact execTenantResume_resumes h hm
  | reset v _ h =>
    show execTenantReset v s = _
    simp only [execTenantReset, h, freeze_ready h]
  | resetPaused v _ h =>
    show execTenantReset v s = _
    simp only [execTenantReset, h, freeze_paused h]
  | resetMerged v _ h =>
    show execTenantReset v s = _
    rcases h with h | h <;> simp only [execTenantReset, h]
  | clear v _ h hn hw => exact execTenantClear_clears h hn hw
  | clearingDone v _ h hm => exact (execClearingDone_ends h).trans (by rw [beq_eq_false_iff_ne.2 hm, cond_false])
  | pausedAfterClearing v _ h hv hm => exact (execClearingDone_ends h).trans (by rw [hm, beq_self_eq_true, cond_true])
  | exported v n _ s1 im h hn hc ht => exact execTenantExport_exports h hn hc ht
  | exportHeld v n _ h =>
    show execTenantExport v n s = _
    rcases h with h | h | ⟨h, hn⟩
    · simp only [execTenantExport, h, State.holdMsg, holdMessage]
    · simp only [execTenantExport, h, State.holdMsg, holdMessage]
    · simp only [execTenantExport, h, hn, cond_false, State.holdMsg, holdMessage]
  | imported v k _ im h hv h32 hn hg =>
    refine (execTenantImport_absent hv h32).trans (congrArg Host.Outcome.next ?_)
    simp only [hn, cond_true, State.importTenant, h, hg, Bool.not_true, cond_false, withCounters]
  | importRefused v k _ im h hv h32 hn hg =>
    refine (execTenantImport_absent hv h32).trans (congrArg Host.Outcome.next ?_)
    simp only [hn, cond_true, State.importTenant, h, hg, Bool.not_false]
  | importHeld v k _ hv h32 hn =>
    refine (execTenantImport_absent hv h32).trans (congrArg Host.Outcome.next ?_)
    simp only [hn, cond_false, State.holdMsg, holdMessage]
  | undefine v _ h hn =>
    refine (execTenantUndefine_present h).trans (congrArg Host.Outcome.next ?_)
    simp only [hn, cond_true, State.undefineTenant]
  | undefineHeld v _ h hn =>
    refine (execTenantUndefine_present h).trans (congrArg Host.Outcome.next ?_)
    simp only [hn, cond_false, State.holdMsg, holdMessage]
  | checkpoint x _ s1 s2 ims h hb hn h1 h2 => exact execCheckpoint_copies h hb hn h1 h2

end Sys2Proof.Machine
end

section
/-! SUPPORT. The events of the platform (R19, R124, R410, R420, R424, R426 to R431). -/

namespace Sys2Proof.Machine
open Sys2Proof.Claims

section
variable {s t : State}

/-! ## Links (R124, R424) -/

theorem holdPosted_eq (l : Nat) (b : Bool) : (s.modStore fun m =>
      { m with posted := m.posted.map fun p => bif p.link == some l then { p with held := b } else p }) = holdPosted s l b := by
  have hmap : (fun p : Posted => bif p.link == some l then { p with held := b } else p) =
      fun p => if p.link = some l then { p with held := b } else p :=
    funext fun p => by rw [Bool.cond_eq_ite]; simp only [beq_iff_eq]
  rw [hmap, holdPosted]

/-! ## Hearth cores (R19, R405, R409) -/

/-- A core is entered in the list of those that restart, once. -/
theorem noteRestart_eq (l : List Nat) (k : Nat) : (bif l.elem k then l else l ++ [k]) = if k ∈ l then l else l ++ [k] := by
  rw [Bool.cond_eq_ite]
  simp only [List.elem_iff]
theorem restarting_eq (k : Nat) : ((s.hearthRestart 4).modHearth fun h =>
      { h with restart := bif h.restart.elem k then h.restart else h.restart ++ [k] }) = restarting s k := by
  simp only [noteRestart_eq, State.hearthRestart, restarting]
/-- A hearth core other than core 0 restarts; core 1 may repeat its micro-step. -/
theorem execHearthCoreTimeout_restarts {k : Nat} (h1 : 1 ≤ k) (h7 : k ≤ 7) :
    execHearthCoreTimeout k s = .next (bif k == 1 then (restarting s k).restartQueues else restarting s k) := by
  simp only [execHearthCoreTimeout, decide_eq_true h1, decide_eq_true h7, Bool.and_self, cond_true, restarting_eq]
theorem restartQueues_served {q : Nat} (h : s.servedQueue = some q) : s.restartQueues =
    bif Config.freeChoice s.free 4 q 0 0 then { (stepNoted s q).serveStep q with queues := s.queues } else stepNoted s q := by
  simp only [State.restartQueues, h, stepNoted]
  rfl
theorem within24h_old {x : Option Nat} (h : ∀ t, x = some t → t + 86400000000000 ≤ s.now) : s.within24h x = false := by
  cases x with
  | none => rfl
  | some t => exact decide_eq_false (Nat.not_lt.2 (h t rfl))
theorem within24h_recent {t : Nat} (ht : s.now < t + 86400000000000) : s.within24h (some t) = true := decide_eq_true ht
theorem execSupervisionTimerExpiry_first (h : s.within24h s.hearth.lastExpiry = false) :
    execSupervisionTimerExpiry true s = .next (rebooting s) := by
  simp only [execSupervisionTimerExpiry, h, Bool.not_true, Bool.or_self, cond_false, noteRestart_eq, rebooting]
theorem execSupervisionTimerExpiry_again (h : s.within24h s.hearth.lastExpiry = true) :
    execSupervisionTimerExpiry true s = .next (rebooted s).deviceFault := by
  simp only [execSupervisionTimerExpiry, h, Bool.true_or, cond_true, State.hearthRestart, rebooted]
theorem execSupervisionTimerExpiry_failed : execSupervisionTimerExpiry false s = .next
    ((rebooted s).deviceFault.modHearth fun h => { h with recovery := true, booted := false }) := by
  simp only [execSupervisionTimerExpiry, Bool.not_false, Bool.or_true, cond_true, cond_false, State.hearthRestart, rebooted]

/-! ## Errors (R410) -/

/-- A fault of several virtual devices, in split mode. -/
theorem deviceFaultOf_split {vs : List Nat} (hu : s.hearth.config.unified = false) : s.deviceFaultOf vs =
    bif vs.any fun v => partOf v == 1 then (bif vs.any fun v => partOf v == 0 then s.partitionFault 0 else s).partitionFault 1
    else bif vs.any fun v => partOf v == 0 then s.partitionFault 0 else s := by
  simp only [State.deviceFaultOf, hu, cond_false, List.foldl_cons, List.foldl_nil]
theorem anyPart_true {vs : List Nat} {v p : Nat} (h : v ∈ vs) (hp : partOf v = p) : (vs.any fun v => partOf v == p) = true :=
  List.any_eq_true.2 ⟨v, h, beq_iff_eq.2 hp⟩
theorem anyPart_false {vs : List Nat} {p r : Nat} (hv : ∀ v ∈ vs, partOf v = p) (hr : p ≠ r) : (vs.any fun v => partOf v == r) = false :=
  List.any_eq_false.2 fun v hm he => hr ((hv v hm).symm.trans (beq_iff_eq.1 he))
theorem deviceFaultOf_partition {p : Nat} {vs : List Nat} (hu : s.hearth.config.unified = false) (hp : p < 2) (hn : vs ≠ [])
    (hv : ∀ v ∈ vs, partOf v = p) : s.deviceFaultOf vs = s.partitionFault p := by
  obtain ⟨v, hm⟩ := List.exists_mem_of_ne_nil vs hn
  obtain rfl | rfl : p = 0 ∨ p = 1 := by omega
  · rw [deviceFaultOf_split hu, anyPart_true hm (hv v hm), anyPart_false hv (by decide), cond_false, cond_true]
  · rw [deviceFaultOf_split hu, anyPart_true hm (hv v hm), anyPart_false hv (by decide), cond_true, cond_false]

/-! ## Package resets and boot (R426, R428, R431) -/

theorem resetOr_package (h : ∀ x ∈ s.hearth.waiting, x.kind ≠ 6) :
    s.resetOr 2 = s.resetPackage.modHearth fun h => { h with recovery := s.hearth.recovery } := by
  have hwritten : s.resetWaits 2 = false := by
    refine List.any_eq_false.2 fun x hx => ?_
    rw [beq_eq_false_iff_ne.2 (h x hx), Bool.false_and]
    exact Bool.false_ne_true
  simp only [State.resetOr, hwritten, cond_false, State.performReset, beq_self_eq_true, cond_true]
theorem resetOr_held {x : HeldWrite} (h : x ∈ s.hearth.waiting) (hk : x.kind = 6) :
    s.resetOr 2 = s.modHearth fun h => { h with resets := if 2 ∈ h.resets then h.resets else h.resets ++ [2] } := by
  have hwaits : s.resetWaits 2 = true := List.any_eq_true.2 ⟨x, h, by rw [hk]; rfl⟩
  simp only [State.resetOr, hwaits, cond_true, noteRestart_eq]
theorem bootNow_boots (h : Boots s) : s.bootNow true = booted s := by
  obtain ⟨hversion, hkeys⟩ := h
  have htrain : (fun (t : State) l => bif s.hearth.config.linken.getLsbD l && t.linkIs l .down then t.setLink l .training else t) =
      fun t l => if s.hearth.config.linken.getLsbD l = true ∧ t.linkIs l .down = true then t.setLink l .training else t := by
    funext t l
    rw [Bool.cond_eq_ite]
    simp only [Bool.and_eq_true]
  simp only [State.bootNow, decide_eq_true hversion, hkeys, Bool.and_self, cond_true, htrain]
  cases hu : s.hearth.config.unified <;> simp only [booted, hu, State.modHearth, cond_true, cond_false, if_true, if_false, reduceCtorEq]
theorem bootNow_fails : s.bootNow false = s.modHearth fun h => { h with booted := false, recovery := true } := by
  simp only [State.bootNow, Bool.false_and, cond_false]
theorem verifyRecord_none {ok : Bool} (h : s.hearth.nextConfig = none) : s.verifyRecord ok = s := by
  simp only [State.verifyRecord, h, Option.isNone_none, Bool.or_true, cond_true]
theorem verifyRecord_ok : s.verifyRecord true = s := by
  simp only [State.verifyRecord, Bool.true_or, cond_true]
theorem verifyRecord_refuses {r : ConfigRecord} (h : s.hearth.nextConfig = some r) :
    s.verifyRecord false = (s.modHearth fun h => { h with nextConfig := none }).logEntry 1 5 := by
  simp only [State.verifyRecord, h, Option.isNone_some, Bool.or_self, cond_false]
theorem execPackageResetBoot_fresh {sig rv : Bool} (h : FreshPackage s) : execPackageResetBoot ⟨sig, rv⟩ s = .next (s.bootNow sig) := by
  obtain ⟨hbooted, hrecovery, hconfig⟩ := h
  simp only [execPackageResetBoot, verifyRecord_none hconfig, hbooted, hrecovery, hconfig, Option.isSome_none, Bool.or_self, cond_false]
theorem execPackageResetBoot_resets (h : ¬FreshPackage s) : execPackageResetBoot ⟨true, true⟩ s = .next (s.resetPackage.bootNow true) := by
  have hused : (s.hearth.booted || s.hearth.recovery || s.hearth.nextConfig.isSome) = true := by
    cases hb : s.hearth.booted with
    | true => rfl
    | false => cases hr : s.hearth.recovery with
      | true => rfl
      | false => cases hc : s.hearth.nextConfig with
        | some r => rfl
        | none => exact absurd ⟨hb, hr, hc⟩ h
  simp only [execPackageResetBoot, verifyRecord_ok, hused, cond_true]
theorem execPackageResetBoot_refuses {r : ConfigRecord} (hb : s.hearth.booted = true ∨ s.hearth.recovery = true)
    (hr : s.hearth.nextConfig = some r) : execPackageResetBoot ⟨true, false⟩ s =
      .next ((((s.modHearth fun h => { h with nextConfig := none }).logEntry 1 5).resetPackage).bootNow true) := by
  have hused : (s.hearth.booted || s.hearth.recovery) = true := Bool.or_eq_true_iff.2 hb
  simp only [execPackageResetBoot, verifyRecord_refuses hr]
  simp only [State.logEntry, State.modHearth, hused, Bool.true_or, cond_true]
theorem execRecovery_resets {b : Bundle} (h : s.hearth.recovery = true) (hv : b.signaturesVerify = true)
    (hf : s.hearth.fwMin ≤ b.version) : execRecovery b s = .next
      (((s.modHearth fun h => { h with fwVersion := b.version, badBundles := 0 }).verifyRecord b.recordVerifies).resetPackage.bootNow true) := by
  simp only [execRecovery, h, hv, decide_eq_true hf, Bool.not_true, Bool.and_self, cond_false, cond_true]
/-- A bundle that fails is counted; the third makes an entry. -/
theorem execRecovery_bad {b : Bundle} (h : s.hearth.recovery = true) (hv : b.signaturesVerify = false ∨ b.version < s.hearth.fwMin) :
    execRecovery b s = .next (bif decide (2 ≤ s.hearth.badBundles) then (s.modHearth fun h => { h with badBundles := 0 }).logEntry 1 6
      else s.modHearth fun h => { h with badBundles := h.badBundles + 1 }) := by
  have hbad : (b.signaturesVerify && decide (s.hearth.fwMin ≤ b.version)) = false := by
    rcases hv with hv | hv
    · rw [hv, Bool.false_and]
    · rw [decide_eq_false (Nat.not_le.2 hv), Bool.and_false]
  simp only [execRecovery, h, hbad, Bool.not_true, cond_false]
theorem execConfigRecordUpdate_refuses {r : ConfigRecord} {v : Bool} (h : v = false ∨ r.svn < s.hearth.svn ∨ configOk r = false) :
    execConfigRecordUpdate r v s = .next (s.logEntry 1 5) := by
  have hbad : (v && decide (s.hearth.svn ≤ r.svn) && configOk r) = false := by
    rcases h with h | h | h
    · rw [h, Bool.false_and, Bool.false_and]
    · rw [decide_eq_false (Nat.not_le.2 h), Bool.and_false, Bool.false_and]
    · rw [h, Bool.and_false]
  simp only [execConfigRecordUpdate, hbad, cond_false]

end

/-- Settles O53: a due event takes the branch of its row. -/
theorem platformEvents : Obligations.PlatformEvents := by
  intro i s t h
  cases h with
  | enable l _ h =>
    show execLinkEnable l s = _
    simp only [execLinkEnable, h, cond_true]
  | trained l _ h ht =>
    show execLinkTrained l s = _
    simp only [execLinkTrained, h, decide_eq_true ht, Bool.and_self, cond_true]
  | trainingTimeout l _ h ht =>
    show execLinkTrainingTimeout l s = _
    simp only [execLinkTrainingTimeout, h, decide_eq_true ht, Bool.and_self, cond_true]
  | lostLock l _ h =>
    show execLinkLostLock l s = _
    simp only [execLinkLostLock, h, cond_true, holdPosted_eq]
  | retrained l _ h ht =>
    show execLinkRetrained l s = _
    simp only [execLinkRetrained, h, decide_eq_true ht, Bool.and_self, cond_true, holdPosted_eq]
  | recoveryExpiry l _ h ht =>
    show execLinkRecoveryExpiry l s = _
    rw [execLinkRecoveryExpiry, h, decide_eq_true ht, Bool.and_self, cond_true]
  | ack k _ p h hh hl =>
    show execPostedWriteAck k s = _
    simp only [execPostedWriteAck, h, hh, hl, Bool.or_self, cond_false]
  | hearthTimeout k _ h1 h7 =>
    refine (execHearthCoreTimeout_restarts (Nat.le_of_succ_le h1) h7).trans ?_
    rw [beq_eq_false_iff_ne.2 (Nat.ne_of_gt h1), cond_false]
  | core1Idle _ h =>
    refine (execHearthCoreTimeout_restarts (by decide) (by decide)).trans (congrArg Host.Outcome.next ?_)
    simp only [State.restartQueues, h, beq_self_eq_true, cond_true]
  | core1Stops q _ h hc =>
    refine (execHearthCoreTimeout_restarts (by decide) (by decide)).trans (congrArg Host.Outcome.next ?_)
    rw [beq_self_eq_true, cond_true, restartQueues_served h, hc, cond_false]
  | core1Repeats q _ h hc =>
    refine (execHearthCoreTimeout_restarts (by decide) (by decide)).trans (congrArg Host.Outcome.next ?_)
    rw [beq_self_eq_true, cond_true, restartQueues_served h, hc, cond_true]
    rfl
  | supervisionFirst _ h => exact execSupervisionTimerExpiry_first (within24h_old h)
  | supervisionAgain _ t h ht => exact execSupervisionTimerExpiry_again (by rw [h]; exact within24h_recent ht)
  | supervisionFailed _ => exact execSupervisionTimerExpiry_failed
  | errorTask l _ h =>
    refine congrArg Host.Outcome.next ?_
    simp only [State.launchFault, beq_eq_false_iff_ne.2 h, cond_false]
  | errorFrozen l _ h =>
    refine congrArg Host.Outcome.next ?_
    simp only [State.launchFault, h, beq_self_eq_true, cond_true]
    rfl
  | errorVdev v _ => rfl
  | errorHearth _ => rfl
  | errorShared vs _ hu =>
    refine congrArg Host.Outcome.next ?_
    simp only [State.deviceFaultOf, hu, cond_true]
  | errorPartition p vs _ hu hp hn hv => exact congrArg Host.Outcome.next (deviceFaultOf_partition hu hp hn hv)
  | errorBoth vs _ u v hu h0 h1 hp hq =>
    refine congrArg Host.Outcome.next ((deviceFaultOf_split hu).trans ?_)
    rw [anyPart_true h0 hp, anyPart_true h1 hq, cond_true, cond_true]
  | softError st ch _ h =>
    show execSoftError st ch s = _
    simp only [execSoftError, decide_eq_true h, cond_true]
  | dieLink _ => rfl
  | alarm2 _ h =>
    show execSecurityAlarmL2 s = _
    simp only [execSecurityAlarmL2, within24h_old h, cond_false]
  | alarm2Again _ t h ht =>
    show execSecurityAlarmL2 s = _
    simp only [execSecurityAlarmL2, h, within24h_recent ht, cond_true]
  | alarm3 _ => rfl
  | throttleDown _ => rfl
  | throttleUp _ => rfl
  | overtemp _ h => exact congrArg Host.Outcome.next (resetOr_package h)
  | overtempHeld _ x h hk => exact congrArg Host.Outcome.next (resetOr_held h hk)
  | boot rv _ h hb => exact (execPackageResetBoot_fresh h).trans (congrArg Host.Outcome.next (bootNow_boots hb))
  | bootFails rv _ h => exact (execPackageResetBoot_fresh h).trans (congrArg Host.Outcome.next bootNow_fails)
  | packageReset _ h hb => exact (execPackageResetBoot_resets h).trans (congrArg Host.Outcome.next (bootNow_boots hb))
  | recordRefused _ t r hb hr ht hk =>
    subst ht
    exact (execPackageResetBoot_refuses hb hr).trans (congrArg Host.Outcome.next (bootNow_boots hk))
  | recovery b _ t h hv hf hr ht hk =>
    subst ht
    have hrecord : ((s.modHearth fun h => { h with fwVersion := b.version, badBundles := 0 }).verifyRecord b.recordVerifies) =
        s.modHearth fun h => { h with fwVersion := b.version, badBundles := 0 } := by
      rcases hr with hr | hr
      · rw [hr, verifyRecord_ok]
      · exact verifyRecord_none hr
    refine (execRecovery_resets h hv hf).trans (congrArg Host.Outcome.next ?_)
    rw [hrecord, bootNow_boots hk]
  | recoveryRefuses b _ t r h hv hf hr hc ht hk =>
    subst ht
    have hrecord := verifyRecord_refuses (s := s.modHearth fun h => { h with fwVersion := b.version, badBundles := 0 }) hc
    refine (execRecovery_resets h hv hf).trans (congrArg Host.Outcome.next ?_)
    rw [hr, hrecord, bootNow_boots hk]
  | recoveryBad b _ h hv hn =>
    refine (execRecovery_bad h hv).trans ?_
    rw [decide_eq_false (Nat.not_le.2 hn), cond_false]
  | recoveryThird b _ h hv hn =>
    refine (execRecovery_bad h hv).trans ?_
    rw [decide_eq_true hn, cond_true]
  | config r _ hs ho =>
    show execConfigRecordUpdate r true s = _
    simp only [execConfigRecordUpdate, decide_eq_true hs, ho, Bool.and_self, cond_true]
  | configRefused r v _ h => exact execConfigRecordUpdate_refuses h
  | identity p _ => rfl
  | enrollment r _ => rfl
  | telemetry _ h =>
    have hday : decide (s.hearth.tele.start + dayNs ≤ s.now) = true := by
      rw [decide_eq_true_iff, dayNs]
      exact h
    show execTelemetryRecord s = _
    simp only [execTelemetryRecord, hday, cond_true]
  | telemetryRequest p _ bs h =>
    subst h
    rfl
  | ptp n _ h =>
    show execPtpCorrection n s = _
    simp only [execPtpCorrection, h, cond_true]
  | ptpOff n _ h =>
    show execPtpCorrection n s = _
    simp only [execPtpCorrection, h, cond_false]

end Sys2Proof.Machine
end

section
/-! SUPPORT. The accesses of outside agents and of the debugger (R106, R107, R245, R324, R425). -/

namespace Sys2Proof.Machine
open Sys2Proof.Claims

section
variable {s : State} {who k pa n : Nat} {op : HostOp} {bs : List Byte}

/-! ## Admission (R107, R253) -/

/-- Nothing that an agent did before keeps its next access behind. -/
theorem behindHeld_nothing (hm : NothingHeld s who) (hf : op ≠ .fence) : s.behindHeld who op = false := by
  refine List.any_eq_false.2 fun x hx => ?_
  by_cases hw : x.1 = who
  · obtain ⟨hlt, hfence⟩ := hm x hx hw
    simp [hw, Nat.not_le.2 hlt, hfence, hf]
  · simp [hw]
theorem outsideDo_admitted {reads : Bool} (ha : Admitted s who pa n reads) (hs : hostSpan op = some (pa, n)) (hr : readsOnly op = reads)
    (hf : op ≠ .fence) (hb : s.boxFull op = false) : s.outsideDo who op = s.outsideNow who op := by
  obtain ⟨hreaches, hfree, hforemost⟩ := ha
  simp only [State.outsideDo, hs, hreaches, behindHeld_nothing hforemost hf, hb, hr, hfree, Bool.not_true, Bool.or_self, cond_false]
/-- An access without bytes of its own, with nothing held before it. -/
theorem outsideDo_spanless (hm : NothingHeld s who) (hs : hostSpan op = none) (hf : op ≠ .fence) (hb : s.boxFull op = false) :
    s.outsideDo who op = s.outsideNow who op := by
  simp only [State.outsideDo, hs, behindHeld_nothing hm hf, hb, Bool.or_self, cond_false]
theorem outsideDo_held (hs : hostSpan op = some (pa, n)) (ha : s.reaches (s.partOfWho who) pa n = true)
    (hh : s.holdsOutside (s.partOfWho who) pa n (readsOnly op) = true) : s.outsideDo who op = heldBack s who op := by
  simp only [State.outsideDo, hs, ha, hh, Bool.not_true, Bool.or_true, cond_false, cond_true, heldBack]
theorem outsideDo_behind (hs : hostSpan op = some (pa, n)) (ha : s.reaches (s.partOfWho who) pa n = true)
    (hh : s.behindHeld who op = true) : s.outsideDo who op = heldBack s who op := by
  simp only [State.outsideDo, hs, ha, hh, Bool.not_true, Bool.true_or, cond_false, cond_true, heldBack]
theorem outsideDo_boxFull (hs : hostSpan op = none) (hb : s.boxFull op = true) : s.outsideDo who op = heldBack s who op := by
  simp only [State.outsideDo, hs, hb, Bool.or_true, Bool.true_or, cond_false, cond_true, heldBack]

/-! ## Atomic accesses (R100, R218) -/

theorem atomAt_test (hn : AtomAt pa n) : ((n == 4 || n == 8) && pa % n == 0) = true := by
  obtain ⟨hsize, haligned⟩ := hn
  rw [haligned]
  rcases hsize with rfl | rfl <;> rfl
theorem outsideAmo_done (hn : AtomAt pa n) (o : Nat) (x y : DWord) : s.outsideAmo who pa n o x y =
    atomDone s who pa n (amoNew o n (numberAt s pa n) (x.toNat % 2 ^ (8 * n)) (y.toNat % 2 ^ (8 * n))) := by
  rw [State.outsideAmo, atomAt_test hn, cond_true, atomDone, numberAt]
theorem outsideAmo_add (hn : AtomAt pa n) (x : DWord) : s.outsideAmo who pa n 0 x 0#64 =
    atomDone s who pa n ((numberAt s pa n + x.toNat) % 2 ^ (8 * n)) := by
  rw [outsideAmo_done hn, amoNew, Nat.add_mod_mod]
theorem outsideAmo_swap (hn : AtomAt pa n) (x : DWord) : s.outsideAmo who pa n 8 x 0#64 =
    atomDone s who pa n (x.toNat % 2 ^ (8 * n)) := by
  rw [outsideAmo_done hn, amoNew]
theorem outsideAmo_cas (hn : AtomAt pa n) (x y : DWord) : s.outsideAmo who pa n 9 x y =
    atomDone s who pa n (if numberAt s pa n = x.toNat % 2 ^ (8 * n) then y.toNat % 2 ^ (8 * n) else numberAt s pa n) := by
  rw [outsideAmo_done hn, amoNew, Bool.cond_eq_ite]
  simp only [beq_iff_eq]
theorem outsideNow_amo {o : Nat} (hn : AtomAt pa n) (ho : o < 9) (x : DWord) : s.outsideNow who (.amo pa n o x) =
    atomDone s who pa n (amoNew o n (numberAt s pa n) (x.toNat % 2 ^ (8 * n)) 0) := by
  have hop : (o != 9 && (decide (o < 9) || (o == 10 && n == 4))) = true := by
    rw [bne_iff_ne.2 (Nat.ne_of_lt ho), decide_eq_true ho, Bool.true_or, Bool.and_self]
  rw [State.outsideNow, hop, cond_true, outsideAmo_done hn, show (0#64 : DWord).toNat % 2 ^ (8 * n) = 0 from Nat.zero_mod _]
theorem outsideNow_lr (hn : AtomAt pa n) :
    s.outsideNow who (.lr pa n) = (s.setResv who (some (pa, n))).returned who (s.store.mem.getN pa n) := by
  rw [State.outsideNow, atomAt_test hn, cond_true]
theorem outsideNow_sc (hn : AtomAt pa n) (x : DWord) : s.outsideNow who (.sc pa n x) =
    bif s.reserved who pa n && Config.freeChoice s.free 6 who 0 0 then
      ((s.setResv who none).outsidePut pa (natLe n x.toNat)).returned who [0#8]
    else (s.setResv who none).returned who [1#8] := by
  rw [State.outsideNow, atomAt_test hn, cond_true, State.outsideSc]

/-! ## Application cores (R107, R397, R413) -/

/-- A released core's access, where it is none that the hearth keeps apart. -/
def plainAccess : HostOp → Bool
  | .claim _ => false
  | .retire _ => false
  | .exportQueue _ _ => false
  | .setWindow _ _ => false
  | .mailbox _ _ _ => false
  | .frame _ => false
  | .pause _ => false
  | _ => true
theorem hartFree_test (hr : HartFree s k) : (!s.hearth.booted || decide (32 ≤ k)) = false := by
  rw [hr.booted, decide_eq_false (Nat.not_le.2 hr.exists_)]
  rfl
theorem execApplicationCoreAccess_plain (hr : HartFree s k) (hp : plainAccess op = true) :
    execApplicationCoreAccess k op s = .next (s.outsideDo k op) := by
  unfold execApplicationCoreAccess
  rw [hartFree_test hr, cond_false]
  cases op with
  | claim | retire | exportQueue | setWindow | mailbox | frame | pause => cases hp
  | _ => rfl
theorem plainAccess_of_span (hs : hostSpan op = some (pa, n)) : plainAccess op = true := by
  cases op <;> cases hs <;> rfl
/-- An admitted access of a released core to bytes of local memory is performed. -/
theorem coreAccess_admitted {reads : Bool} (hr : HartFree s k) (ha : Admitted s k pa n reads) (hs : hostSpan op = some (pa, n))
    (hro : readsOnly op = reads) : exec (.applicationCoreAccess k op) s = .next (s.outsideNow k op) := by
  have hfence : op ≠ .fence := fun h => by subst h; cases hs
  have hbox : s.boxFull op = false := by cases op <;> cases hs <;> rfl
  exact (execApplicationCoreAccess_plain hr (plainAccess_of_span hs)).trans
    (congrArg Host.Outcome.next (outsideDo_admitted ha hs hro hfence hbox))
theorem sourceMode_of (hn : MailSource s k n) : s.sourceMode k = some n := by
  unfold State.sourceMode
  rcases hn with ⟨hmode, rfl⟩ | ⟨hmode, rfl⟩ <;> rw [hmode]
theorem hypervises_test (hp : Hypervises s k) : (s.partOfWho k == 0 && s.sourceMode k == some 10) = true := by
  rw [sourceMode_of (n := 10) (.inr ⟨hp.mode, by rw [hp.part]⟩), hp.part]
  rfl
theorem mailSource_lt (hr : HartFree s k) (hn : MailSource s k n) : n < 12 := by
  have hpart : s.partOfWho k < 2 := by
    unfold State.partOfWho whoPart
    rw [decide_eq_true hr.exists_, cond_true]
    have := hr.exists_
    cases s.hearth.config.unified
    · rw [cond_false]; omega
    · rw [cond_true]; omega
  rcases hn with ⟨_, rfl⟩ | ⟨_, rfl⟩ <;> omega
theorem execApplicationCoreAccess_mails {box : Nat} {m : List Byte} (hr : HartFree s k) (hn : MailSource s k n) :
    execApplicationCoreAccess k (.mailbox box n m) s = .next (s.outsideDo k (.mailbox box n m)) := by
  unfold execApplicationCoreAccess
  dsimp only
  rw [hartFree_test hr, cond_false, sourceMode_of hn, beq_self_eq_true, cond_true]
theorem field_head {b : Byte} {m : List Byte} : field (b :: m) 0 1 = b.toNat := by
  simp [field, leNat]
theorem outsideNow_mails {box : Nat} {m : List Byte} (hn : n < 12) (ht : box < 8) (hl : m.length = 64)
    (hb : (s.hearth.boxes.getD box []).length < 32) : s.outsideNow k (.mailbox box n m) =
      s.modHearth fun h => { h with boxes := h.boxes.set box (s.hearth.boxes.getD box [] ++ [⟨n, box, BitVec.ofNat 8 n :: m.drop 1⟩]) } := by
  have hsrc : field (BitVec.ofNat 8 n :: m.drop 1) 0 1 = n := by
    rw [field_head, BitVec.toNat_ofNat]
    exact Nat.mod_eq_of_lt (by omega)
  have hlen : (BitVec.ofNat 8 n :: m.drop 1).length = 64 := by
    rw [List.length_cons, List.length_drop, hl]
  rw [State.outsideNow, execMailboxMessage_sends ht hsrc hn hlen, decide_eq_false (Nat.not_le.2 hb), cond_false]
  rfl

/-! ## Ports, drives and peers (R273, R412, R423, R425) -/

theorem holdsPort_of {port : Nat} (hp : OwnsPort s k port) : s.holdsPort k port = true := by
  rw [State.holdsPort, decide_eq_true hp.exists_, hp.part, beq_self_eq_true, Bool.and_self]
theorem netSend_sends {port q len : Nat} (hp : OwnsPort s k port) (hn : q < (s.port port).pairs) (hl : len ≤ 9216)
    (hc : (s.port port).paused = 0#8) : s.netSend k port q pa len none = s.sends (.frame port s.now (s.store.mem.getN pa len)) := by
  simp only [State.netSend, holdsPort_of hp, decide_eq_true hn, decide_eq_true hl, Bool.and_self, cond_true, State.transmit, hc,
    BitVec.getLsbD_zero, cond_false]
theorem netReceive_receives {port q len time : Nat} {rest : List (Nat × Nat × List Byte)} (hp : OwnsPort s k port)
    (hx : (s.port port).rx = (q, time, bs) :: rest) (hl : bs.length ≤ len) : s.netReceive k port q pa len =
      ((s.modPort port fun p => { p with rx := p.rx.drop 1 }).outsidePut pa bs).returned k (natLe 8 time ++ natLe 4 bs.length) := by
  have hbefore : ((q, time, bs) :: rest).takeWhile (fun x => x.1 != q) = [] := by
    rw [List.takeWhile_cons, bne_self_eq_false, if_neg Bool.false_ne_true]
  have hfirst : ((q, time, bs) :: rest).find? (fun x => x.1 == q) = some (q, time, bs) := List.find?_cons_of_pos (by simp)
  simp only [State.netReceive, hx, hfirst, holdsPort_of hp, Bool.not_true, cond_false, hbefore, decide_eq_false (Nat.not_lt.2 hl),
    Bool.and_false, List.nil_append, List.length_nil, Nat.zero_add, List.take_of_length_le hl]
theorem hasNamespace_of (hd : s.hearth.config.nvme.getD (s.partOfWho k) [] ≠ []) : s.hasNamespace (s.partOfWho k) = true := by
  rw [State.hasNamespace, List.isEmpty_eq_false_iff.2 hd]
  rfl
/-- Bytes inside the BAR2 window, as the model tests them. -/
theorem inWindow_test {b len : Nat} (hw : InWindow s pa n b len) : (decide (b ≤ pa) && decide (pa + n ≤ b + len)) = true := by
  rw [decide_eq_true hw.low, decide_eq_true hw.high, Bool.and_self]
theorem execPcieHostAccess_host (he : s.hearth.config.pcieRoot = false) (hm : s.hostMay op = true) :
    execPcieHostAccess ⟨0, op⟩ s = .next (s.outsideDo 32 op) := by
  simp only [execPcieHostAccess, he, hm, beq_self_eq_true, Bool.and_self, cond_false, cond_true]
theorem hostMay_store {b len : Nat} (hw : InWindow s pa bs.length b len) : s.hostMay (.store pa bs) = true := by
  simp only [State.hostMay, hostSpan, hw.window, inWindow_test hw]
theorem execInboundFabricWrite_peer {p : Nat} (h : s.linkIs p .up = true) (hm : peerMay op = true) :
    execInboundFabricWrite p op s = .next (s.outsideDo (64 + p) op) := by
  have hlink : p < 18 := by
    rw [State.linkIs, Bool.and_eq_true, decide_eq_true_iff] at h
    exact h.1
  have hport : (p == 32 || p == 33) = false := by
    rw [Bool.or_eq_false_iff, beq_eq_false_iff_ne, beq_eq_false_iff_ne]
    omega
  simp only [execInboundFabricWrite, hport, h, hm, Bool.and_self, cond_false, cond_true]
theorem execInboundFabricWrite_frame {port : Nat} (hp : port < 2) :
    execInboundFabricWrite (32 + port) (.frame bs) s = .next (s.frameArrives port bs) := by
  have hport : (32 + port == 32 || 32 + port == 33) = true := by
    rw [Bool.or_eq_true, beq_iff_eq, beq_iff_eq]
    omega
  simp only [execInboundFabricWrite, hport, cond_true, Nat.add_sub_cancel_left]

end

/-! ## The debugger (R245, R324) -/

section
variable {s : State} {ag : Nat}

theorem halted_of (h : (s.agent ag).status = .halted) : s.halted ag = true := beq_iff_eq.2 h
theorem execDebugAccess_halted {op : DebugOp} (h : (s.agent ag).status = .halted) :
    execDebugAccess ag op s = .next (s.debugDo ag op) := by
  rw [execDebugAccess, halted_of h, cond_true]
/-- A halted thread that was not parked goes on at its halt PC. -/
theorem debugGo_goes {r : HaltRec} {once : Bool} (hh : (s.agent ag).halt = some r) (hp : r.parked = none) : s.debugGo ag once =
    s.modAgent ag fun a => { a with status := .ready, halt := none, skipBp := true, stepOnce := once, pc := r.pc } := by
  simp only [State.debugGo, hh, hp]
  rw [modAgent_modAgent]
  rfl
theorem debugGo_parks {r : HaltRec} {once : Bool} {w : Wait} (hh : (s.agent ag).halt = some r) (hp : r.parked = some w) : s.debugGo ag once =
    (s.modAgent ag fun a => { a with status := .ready, halt := none, skipBp := true, stepOnce := once }).repark ag w := by
  simp only [State.debugGo, hh, hp]

end

/-- Settles O54: a due access takes the branch of its row. -/
theorem outsideEvents : Obligations.OutsideEvents := by
  intro i s t h
  cases h with
  | core k pa bs _ hr ha => exact coreAccess_admitted hr ha rfl rfl
  | coreLoad k pa n _ hr ha => exact coreAccess_admitted hr ha rfl rfl
  | heldCore k op pa n _ hr hp ha hh =>
    exact (execApplicationCoreAccess_plain hr (plainAccess_of_span hp)).trans (congrArg Host.Outcome.next (outsideDo_held hp ha hh))
  | fence k _ hr hf =>
    have hbehind : s.behindHeld k .fence = false := by
      refine List.any_eq_false.2 fun x hx => ?_
      rw [beq_eq_false_iff_ne.2 (hf x hx), Bool.false_and]
      exact Bool.false_ne_true
    refine (execApplicationCoreAccess_plain (op := .fence) hr rfl).trans (congrArg Host.Outcome.next ?_)
    simp only [State.outsideDo, hostSpan, hbehind, State.boxFull, Bool.or_self, cond_false, State.outsideNow]
  | fenceWaits k _ x hr hx =>
    have hbehind : s.behindHeld k .fence = true := List.any_eq_true.2 ⟨_, hx, by simp⟩
    refine (execApplicationCoreAccess_plain (op := .fence) hr rfl).trans (congrArg Host.Outcome.next ?_)
    simp only [State.outsideDo, hostSpan, hbehind, Bool.true_or, cond_false, cond_true, heldBack]
  | behindFence k pa bs _ hr ha hx =>
    have hbehind : s.behindHeld k (.store pa bs) = true := List.any_eq_true.2 ⟨_, hx, by simp⟩
    exact (execApplicationCoreAccess_plain (op := .store pa bs) hr rfl).trans (congrArg Host.Outcome.next (outsideDo_behind rfl ha hbehind))
  | retire k x _ hr =>
    show execApplicationCoreAccess k (.retire x) s = _
    simp only [execApplicationCoreAccess, hartFree_test hr, cond_false]
  | coreAdd k pa n x _ hr hn ha =>
    exact (coreAccess_admitted hr ha rfl rfl).trans (congrArg Host.Outcome.next (outsideAmo_add hn x))
  | coreSwap k pa n x _ hr hn ha =>
    exact (coreAccess_admitted hr ha rfl rfl).trans (congrArg Host.Outcome.next (outsideAmo_swap hn x))
  | coreCas k pa n x y _ hr hn ha =>
    exact (coreAccess_admitted hr ha rfl rfl).trans (congrArg Host.Outcome.next (outsideAmo_cas hn x y))
  | coreAmo k pa n o x _ hr hn ha ho =>
    exact (coreAccess_admitted hr ha rfl rfl).trans (congrArg Host.Outcome.next (outsideNow_amo hn ho x))
  | coreLr k pa n _ hr hn ha => exact (coreAccess_admitted hr ha rfl rfl).trans (congrArg Host.Outcome.next (outsideNow_lr hn))
  | coreSc k pa n x _ hr hn ha hv hc =>
    refine (coreAccess_admitted hr ha rfl rfl).trans (congrArg Host.Outcome.next ?_)
    rw [outsideNow_sc hn, hv, hc, Bool.and_self, cond_true]
  | coreScFails k pa n x _ hr hn ha hc =>
    have hfails : (s.reserved k pa n && Config.freeChoice s.free 6 k 0 0) = false := Bool.and_eq_false_iff.2 hc
    refine (coreAccess_admitted hr ha rfl rfl).trans (congrArg Host.Outcome.next ?_)
    rw [outsideNow_sc hn, hfails, cond_false]
  | coreDoorbell k q j _ hr hp hm =>
    refine (execApplicationCoreAccess_plain (op := .doorbell q j) hr rfl).trans (congrArg Host.Outcome.next ?_)
    rw [outsideDo_spanless (op := .doorbell q j) hm rfl nofun rfl, State.outsideNow, hp, beq_self_eq_true, cond_true]
  | coreMail k b n m _ hr hn ht hl hm hb =>
    have hroom : s.boxFull (.mailbox b n m) = false := by
      rw [State.boxFull, decide_eq_false (Nat.not_le.2 hb), Bool.and_false]
    refine (execApplicationCoreAccess_mails hr hn).trans (congrArg Host.Outcome.next ?_)
    rw [outsideDo_spanless (op := .mailbox b n m) hm rfl nofun hroom, outsideNow_mails (mailSource_lt hr hn) ht hl hb]
  | mailWaits k b n m _ hr hn ht hb =>
    have hfull : s.boxFull (.mailbox b n m) = true := by
      rw [State.boxFull, decide_eq_true ht, decide_eq_true hb, Bool.and_self]
    exact (execApplicationCoreAccess_mails hr hn).trans (congrArg Host.Outcome.next (outsideDo_boxFull rfl hfull))
  | claim k x _ hr =>
    show execApplicationCoreAccess k (.claim x) s = _
    simp only [execApplicationCoreAccess, hartFree_test hr, cond_false]
  | exportQueue k q _ hr hp =>
    show execApplicationCoreAccess k (.exportQueue q true) s = _
    simp only [execApplicationCoreAccess, hartFree_test hr, hypervises_test hp, cond_false, cond_true]
  | withdrawQueue k q _ hr hp =>
    show execApplicationCoreAccess k (.exportQueue q false) s = _
    simp only [execApplicationCoreAccess, hartFree_test hr, hypervises_test hp, cond_false, cond_true]
  | setWindow k b n _ hr hp =>
    show execApplicationCoreAccess k (.setWindow b n) s = _
    simp only [execApplicationCoreAccess, hartFree_test hr, hypervises_test hp, cond_false, cond_true]
  | netSetup k port sum mrg n _ hr hp hm h1 h2 =>
    refine (execApplicationCoreAccess_plain (op := .netSetup port sum mrg n) hr rfl).trans (congrArg Host.Outcome.next ?_)
    rw [outsideDo_spanless (op := .netSetup port sum mrg n) hm rfl nofun rfl]
    simp only [State.outsideNow, State.deviceOp, holdsPort_of hp, decide_eq_true h1, decide_eq_true h2, Bool.and_self, cond_true]
  | netSend k port n pa len _ hr hp ha hn hl hc =>
    exact (coreAccess_admitted hr ha rfl rfl).trans (congrArg Host.Outcome.next (netSend_sends hp hn hl hc))
  | netReceive k port n pa len time bs rest _ hr hp ha hx hl =>
    exact (coreAccess_admitted hr ha rfl rfl).trans (congrArg Host.Outcome.next (netReceive_receives hp hx hl))
  | blkWrite k sector pa n _ hr ha hd =>
    refine (coreAccess_admitted hr ha rfl rfl).trans (congrArg Host.Outcome.next ?_)
    simp only [State.outsideNow, State.deviceOp, hasNamespace_of hd, cond_true]
  | blkRead k sector pa bs _ hr ha hd =>
    refine (coreAccess_admitted hr ha rfl rfl).trans (congrArg Host.Outcome.next ?_)
    simp only [State.outsideNow, State.deviceOp, hasNamespace_of hd, cond_true]
  | ecamWrite k port reg bs _ hr hm hc hp h4 =>
    refine (execApplicationCoreAccess_plain (op := .ecamWrite port reg bs) hr rfl).trans (congrArg Host.Outcome.next ?_)
    rw [outsideDo_spanless (op := .ecamWrite port reg bs) hm rfl nofun rfl]
    simp only [State.outsideNow, State.deviceOp, hc, hp, decide_eq_true h4, beq_self_eq_true, Bool.and_self, cond_true]
  | frameArrives port bs _ hp hl =>
    refine (execInboundFabricWrite_frame hp).trans (congrArg Host.Outcome.next ?_)
    rw [State.frameArrives, decide_eq_false (Nat.not_lt.2 hl), cond_false]
  | frameTooLong port bs _ hp hl =>
    refine (execInboundFabricWrite_frame hp).trans (congrArg Host.Outcome.next ?_)
    rw [State.frameArrives, decide_eq_true hl, cond_true]
  | asleep k op _ h =>
    have hasleep : (!s.hearth.booted || decide (32 ≤ k)) = true := by
      rw [Bool.or_eq_true, Bool.not_eq_true', decide_eq_true_iff]
      exact h
    show execApplicationCoreAccess k op s = _
    unfold execApplicationCoreAccess
    rw [hasleep, cond_true]
  | pcie pa bs _ b n hw ha =>
    exact (execPcieHostAccess_host hw.endpoint (hostMay_store hw)).trans
      (congrArg Host.Outcome.next (outsideDo_admitted ha rfl rfl nofun rfl))
  | pcieLoad pa n _ b len hw ha =>
    have hmay : s.hostMay (.load pa n) = true := by simp only [State.hostMay, hostSpan, hw.window, inWindow_test hw]
    exact (execPcieHostAccess_host hw.endpoint hmay).trans (congrArg Host.Outcome.next (outsideDo_admitted ha rfl rfl nofun rfl))
  | pcieAdd pa n x _ b len hw hn ha =>
    have hmay : s.hostMay (.fetchAdd pa n x) = true := by simp only [State.hostMay, hostSpan, hw.window, inWindow_test hw]
    refine (execPcieHostAccess_host hw.endpoint hmay).trans (congrArg Host.Outcome.next ?_)
    rw [outsideDo_admitted (op := .fetchAdd pa n x) ha rfl rfl nofun rfl, State.outsideNow, outsideAmo_add hn]
  | pcieDoorbell q j _ he hq hp hm =>
    have hmay : s.hostMay (.doorbell q j) = true := List.elem_eq_true_of_mem hq
    refine (execPcieHostAccess_host he hmay).trans (congrArg Host.Outcome.next ?_)
    rw [outsideDo_spanless (op := .doorbell q j) hm rfl nofun rfl, State.outsideNow, hp, beq_self_eq_true, cond_true]
  | pcieOutside pa bs _ he hw =>
    have hmay : s.hostMay (.store pa bs) = false := by
      cases hbar : s.hearth.bar2 with
      | none => simp only [State.hostMay, hostSpan, hbar]
      | some x =>
        obtain ⟨b, n⟩ := x
        simp only [State.hostMay, hostSpan, hbar, Bool.and_eq_false_iff, decide_eq_false_iff_not, Nat.not_le]
        exact hw b n hbar
    show execPcieHostAccess ⟨0, .store pa bs⟩ s = _
    simp only [execPcieHostAccess, he, hmay, Bool.and_false, cond_false]
  | pcieBehind pa bs _ b n x hw ha hx =>
    have hbehind : s.behindHeld 32 (.store pa bs) = true := List.any_eq_true.2 ⟨_, hx, by simp⟩
    exact (execPcieHostAccess_host hw.endpoint (hostMay_store hw)).trans
      (congrArg Host.Outcome.next (outsideDo_behind rfl ha hbehind))
  | drive p pa bs _ he hp ha =>
    show execPcieHostAccess ⟨p, .store pa bs⟩ s = _
    simp only [execPcieHostAccess, he, decide_eq_true hp, driveMay, Bool.and_self, cond_true]
    exact congrArg Host.Outcome.next (outsideDo_admitted ha rfl rfl nofun rfl)
  | fabric p pa bs _ h ha =>
    exact (execInboundFabricWrite_peer (op := .store pa bs) h rfl).trans (congrArg Host.Outcome.next (outsideDo_admitted (op := .store pa bs) ha rfl rfl nofun rfl))
  | fabricAdd p pa n x _ h hn ha =>
    refine (execInboundFabricWrite_peer (op := .fetchAdd pa n x) h rfl).trans (congrArg Host.Outcome.next ?_)
    rw [outsideDo_admitted (op := .fetchAdd pa n x) ha rfl rfl nofun rfl, State.outsideNow, outsideAmo_add hn]
  | readReg ag r _ h hr =>
    refine (execDebugAccess_halted h).trans (congrArg Host.Outcome.next ?_)
    simp only [State.debugDo, beq_eq_false_iff_ne.2 hr, cond_false, Agent.get]
  | writeReg ag r x _ h hr =>
    refine (execDebugAccess_halted h).trans (congrArg Host.Outcome.next ?_)
    simp only [State.debugDo, decide_eq_true hr, cond_true, Agent.set]
  | readZero ag _ h => exact execDebugAccess_halted h
  | readPred ag p _ h =>
    refine (execDebugAccess_halted h).trans (congrArg Host.Outcome.next ?_)
    simp only [State.debugDo, Agent.get]
    cases (s.agent ag).preds.getLsbD p.toNat <;> rfl
  | writePred ag p x _ h hp =>
    refine (execDebugAccess_halted h).trans (congrArg Host.Outcome.next ?_)
    simp only [State.debugDo, beq_eq_false_iff_ne.2 hp, Bool.cond_eq_ite, if_false, reduceCtorEq]
  | readTrap ag n w _ h hn =>
    refine (execDebugAccess_halted h).trans (congrArg Host.Outcome.next ?_)
    simp only [State.debugDo, hn, Option.getD_some]
  | writeTrap ag n x _ h => exact execDebugAccess_halted h
  | readPc ag _ r h hh =>
    refine (execDebugAccess_halted h).trans (congrArg Host.Outcome.next ?_)
    simp only [State.debugDo, hh, Option.getD_some]
  | readHalt ag _ r h hh =>
    refine (execDebugAccess_halted h).trans (congrArg Host.Outcome.next ?_)
    simp only [State.debugDo, hh, Option.getD_some]
  | readCtx ag x n _ h => exact execDebugAccess_halted h
  | writeCtx ag x n v y _ h hy hs hx =>
    refine (execDebugAccess_halted h).trans (congrArg Host.Outcome.next ?_)
    simp only [State.debugDo, State.debugCtx, hy, hs, decide_eq_true hx, Bool.and_self, cond_true]
  | writeCtxRefused ag x n v _ h hy =>
    refine (execDebugAccess_halted h).trans (congrArg Host.Outcome.next ?_)
    cases hput : (s.xctx ag x).putField v n with
    | none => simp only [State.debugDo, State.debugCtx, hput]
    | some y => simp only [State.debugDo, State.debugCtx, hput, hy y hput, Bool.false_and, cond_false]
  | writePc ag x _ r h hh =>
    refine (execDebugAccess_halted h).trans (congrArg Host.Outcome.next ?_)
    simp only [State.debugDo, hh, Option.getD_some]
  | goOn ag _ r h hh hp =>
    refine congrArg Host.Outcome.next ?_
    rw [halted_of h, cond_true, debugGo_goes hh hp]
  | goParked ag _ r w h hh hp =>
    refine congrArg Host.Outcome.next ?_
    rw [halted_of h, cond_true, debugGo_parks hh hp]
  | running ag op _ h =>
    have hruns : s.halted ag = false := beq_eq_false_iff_ne.2 h
    show execDebugAccess ag op s = _
    rw [execDebugAccess, hruns, cond_false]
  | stepOn ag _ r h hh hp =>
    refine congrArg Host.Outcome.next ?_
    rw [halted_of h, cond_true, debugGo_goes hh hp]
  | kill ag _ h hc =>
    show execDebugKill ag s = _
    rw [execDebugKill, halted_of h, hc, Bool.and_self, cond_true, State.killAgent]
  | dropMask ag m _ h hf hm =>
    show execDebugDropMask ag m s = _
    rw [execDebugDropMask, halted_of h, hf, Bool.not_false, Bool.and_self, cond_true, State.jdrop1, hm, cond_true]

end Sys2Proof.Machine
end

section
/-! SUPPORT. An unhandled trap with UNH = 0: its record leaves the threads, and the thread ends (R148, R224, R235, R240). -/

namespace Sys2Proof.Machine
open Sys2Proof.Claims

/-! ## Writes of the hearth leave the threads as they were (R432) -/

theorem ByTranslation.agents {s t : State} (h : ByTranslation s t) : t.lanes.agents = s.lanes.agents := by rw [h]
theorem writeback_agents (s : State) (no : Nat) : (s.writeback no).lanes.agents = s.lanes.agents := by
  unfold State.writeback
  refine cond_prop (p := fun t => t.lanes.agents = s.lanes.agents) _ rfl ?_
  split
  · split
    · exact cond_prop (p := fun t => t.lanes.agents = s.lanes.agents) _ rfl rfl
    · exact cond_prop (p := fun t => t.lanes.agents = s.lanes.agents) _ rfl rfl
  · rfl
theorem settleHome_agents (s : State) (b : Bool) (pa n : Nat) : (s.settleHome b pa n).lanes.agents = s.lanes.agents := by
  refine cond_prop (p := fun t => t.lanes.agents = s.lanes.agents) _ ?_ rfl
  exact foldl_prop (p := fun t => t.lanes.agents = s.lanes.agents) (fun t no h => (writeback_agents t no).trans h) _ s rfl
theorem writeCommitted_agents (s : State) (maker : Nat) (t : Option Nat) (pa : Nat) (bs : List Byte) :
    (s.writeCommitted maker t pa bs).lanes.agents = s.lanes.agents :=
  cond_prop (p := fun u => u.lanes.agents = s.lanes.agents) _ ((collapseHome_only s pa).trans (putBytes_only bs _ pa)).agents rfl
theorem chargeAll_agents {v : Nat} {ps : List (Nat × Bool)} : ∀ {s t : State}, s.chargeAll v ps = .ok t → t.lanes.agents = s.lanes.agents := by
  induction ps with
  | nil =>
    intro s t h
    exact congrArg (fun u : State => u.lanes.agents) (Except.ok.inj h).symm
  | cons p ps ih =>
    intro s t h
    rw [State.chargeAll] at h
    split at h
    · next u hc =>
      rcases charge_accepted hc with rfl | ⟨b, rfl⟩
      · exact ih h
      · exact (ih h : t.lanes.agents = (s.setBlock b).lanes.agents)
    · cases h
    · cases h
theorem hearthStore_agents (s : State) (maker v : Nat) (va : DWord) (bs : List Byte) :
    (s.hearthStore maker v va bs).1.lanes.agents = s.lanes.agents := by
  unfold State.hearthStore
  dsimp only
  have hplaces := (hearthPlaces_only v .store ((pieces va (bs.length + 1) bs).map (·.1)) s).agents
  split
  · exact hplaces
  · split
    · exact hplaces
    · exact hplaces
    · next hcharged =>
      exact foldl_prop (p := fun t => t.lanes.agents = s.lanes.agents)
        (fun t x ht => (settleHome_agents ..).trans ((writeCommitted_agents ..).trans ht)) _ _ ((chargeAll_agents hcharged).trans hplaces)
theorem hearthAdd_agents (s : State) (maker v : Nat) (va x : DWord) : (s.hearthAdd maker v va x).1.lanes.agents = s.lanes.agents := by
  unfold State.hearthAdd
  split
  · rfl
  · exact hearthStore_agents ..
theorem hearthDo_agents (s : State) (maker v : Nat) (va : DWord) (w : HWrite) : (s.hearthDo maker v va w).1.lanes.agents = s.lanes.agents := by
  cases w with
  | store bs => exact hearthStore_agents ..
  | add x => exact hearthAdd_agents ..
theorem hearthPost_agents (s : State) (v kind : Nat) (va : DWord) (w : HWrite) : (s.hearthPost v kind va w).lanes.agents = s.lanes.agents := by
  have hdo := hearthDo_agents s noAgent v va w
  unfold State.hearthPost
  split <;> next h => rw [h] at hdo; exact hdo
theorem hearthRecord_agents (s : State) (v : Nat) (va : DWord) (bs : List Byte) (count : Option DWord) :
    (s.hearthRecord v va bs count).lanes.agents = s.lanes.agents := by
  have hdo := hearthDo_agents s noAgent v va (.store bs)
  unfold State.hearthRecord
  split
  · next h =>
    rw [h] at hdo
    cases count with
    | none => exact hdo
    | some a => exact (hearthPost_agents ..).trans hdo
  · next h => rw [h] at hdo; exact hdo
  · next h => rw [h] at hdo; exact hdo
theorem record_agents (s : State) (l : Nat) (r : FaultRecord) : (s.record l r).lanes.agents = s.lanes.agents :=
  cond_prop (p := fun t => t.lanes.agents = s.lanes.agents) _ rfl (hearthRecord_agents ..)
theorem taskRecord_agents (s : State) (t flags : Nat) (f : FaultInfo) (supp : Nat) : (s.taskRecord t flags f supp).lanes.agents = s.lanes.agents :=
  record_agents ..

/-! ## A thread that has ended stays ended while the others are told (R148) -/

/-- A thread has ended. -/
def HasEnded (ag : Nat) (s : State) : Prop := (s.agent ag).status = .ended

section
variable {s : State} {ag : Nat}

theorem HasEnded.of_agents {t : State} (h : HasEnded ag s) (ht : t.lanes.agents = s.lanes.agents) : HasEnded ag t := by
  unfold HasEnded State.agent at *
  rw [ht]
  exact h
theorem HasEnded.modAgent (h : HasEnded ag s) (b : Nat) {f : Agent → Agent} (hf : ∀ a, a.status = .ended → (f a).status = .ended) :
    HasEnded ag (s.modAgent b f) := by
  unfold HasEnded at *
  rw [State.modAgent_agent]
  split
  · exact hf _ (by simp_all)
  · exact h
theorem HasEnded.modAgents {f : Agent → Agent} (hf : ∀ a, a.status = .ended → (f a).status = .ended) (l : List Nat) :
    ∀ {s : State}, HasEnded ag s → HasEnded ag (s.modAgents f l) := by
  induction l with
  | nil => exact fun h => h
  | cons b l ih => exact fun h => ih (h.modAgent b hf)
/-- A change of other threads leaves this one as it was. -/
theorem HasEnded.modAgents_of_notMem {f : Agent → Agent} {l : List Nat} :
    ∀ {s : State}, HasEnded ag s → ag ∉ l → HasEnded ag (s.modAgents f l) := by
  induction l with
  | nil => exact fun h _ => h
  | cons b l ih =>
    intro s h hl
    have hb : ag ≠ b := fun e => hl (e ▸ List.mem_cons_self)
    refine ih ?_ fun hm => hl (List.mem_cons_of_mem b hm)
    unfold HasEnded
    rw [State.modAgent_agent, if_neg fun e => hb e.1.symm]
    exact h
/-- A mask releases threads that are parked on it, none that has ended. -/
theorem HasEnded.maskTest (h : HasEnded ag s) (g m : Nat) : HasEnded ag (s.maskTest g m) := by
  unfold State.maskTest
  split
  · exact h
  · next set _ =>
    dsimp only
    cases hall : ((List.range (s.group g).members.length).filter fun i => set.getLsbD i).all fun i => s.arrivedAt (s.member g i) m with
    | false => exact h
    | true =>
      refine HasEnded.of_agents (h.modAgents_of_notMem fun hmem => ?_) rfl
      obtain ⟨i, hi, rfl⟩ := List.mem_map.1 hmem
      have hparked := List.all_eq_true.1 hall i hi
      simp only [State.arrivedAt, show (s.agent (s.member g i)).status = .ended from h] at hparked
      cases hparked
theorem HasEnded.maskDropAll (h : HasEnded ag s) (g i : Nat) : HasEnded ag (s.maskDropAll g i) := by
  refine foldl_prop (fun t m (ht : HasEnded ag t) => ?_) _ s h
  show HasEnded ag (t.maskDrop g m i)
  unfold State.maskDrop
  split
  · exact ht
  · refine HasEnded.maskTest ?_ g m
    exact ht.of_agents rfl
theorem HasEnded.cvLeave (h : HasEnded ag s) (t b : Nat) : HasEnded ag (s.cvLeave t b) := by
  refine foldl_prop (fun u c (hu : HasEnded ag u) => ?_) _ s h
  refine cond_prop _ (HasEnded.of_agents (foldl_prop (fun v g (hv : HasEnded ag v) => ?_) _ u hu) rfl) hu
  exact hv.modAgent _ fun a ha => by rw [ha]; exact ha
theorem releaseBar_ended {x : Barrier} {b : Nat} {a : Agent} (ha : a.status = .ended) : (releaseBar x b a).status = .ended := by
  unfold releaseBar
  rw [ha]
  exact ha
theorem HasEnded.barTest (h : HasEnded ag s) (t b : Nat) : HasEnded ag (s.barTest t b) := by
  refine cond_prop _ (HasEnded.modAgents (fun a ha => ?_) _ ?_) h
  · exact releaseBar_ended ha
  · exact h.of_agents rfl
theorem HasEnded.barLeave (h : HasEnded ag s) (t g : Nat) (was : Agent) : HasEnded ag (s.barLeave t g was) := by
  refine foldl_prop (fun u b (hu : HasEnded ag u) => ?_) _ s h
  refine cond_prop _ (HasEnded.barTest ?_ t b) hu
  exact hu.of_agents rfl
theorem unparkIf_ended {w : Wait} {a : Agent} (ha : a.status = .ended) : (unparkIf w a).status = .ended := by
  unfold unparkIf
  rw [ha]
  exact ha
theorem HasEnded.dqFree (h : HasEnded ag s) (x : Nat) : HasEnded ag (s.dqFree x) :=
  cond_prop _ (HasEnded.modAgent (HasEnded.of_agents (s := s) h rfl) _ fun _ ha => unparkIf_ended ha) (HasEnded.of_agents (s := s) h rfl)
end

/-! ## A thread that is killed has ended (R148) -/

theorem freeRecord_agents (s : State) (ag : Nat) : (s.freeRecord ag).lanes.agents = s.lanes.agents := by
  unfold State.freeRecord
  dsimp only
  split
  · exact cond_prop (p := fun t => t.lanes.agents = s.lanes.agents) _ rfl rfl
  · rfl
theorem hasEnded_endAgent {s : State} {ag : Nat} (hag : ag < s.lanes.agents.length) : HasEnded ag (s.endAgent ag) := by
  unfold State.endAgent
  dsimp only
  cases hlive : s.live ag with
  | false => simpa [HasEnded, State.live, hag] using hlive
  | true =>
    rw [Bool.not_true, cond_false]
    have hended (f : Agent → Agent) (hf : ∀ a, (f a).status = .ended) : HasEnded ag ((s.freeRecord ag).modAgent ag f) := by
      unfold HasEnded
      rw [State.modAgent_agent_self _ _ _ (by rw [freeRecord_agents]; exact hag)]
      exact hf _
    split
    · exact hended _ fun _ => rfl
    · exact ((((hended _ fun _ => rfl).maskDropAll ..).cvLeave ..).barLeave ..).dqFree _
theorem hasEnded_killAgent {s : State} {ag : Nat} (hag : ag < s.lanes.agents.length) : HasEnded ag (s.killAgent ag) := by
  have hnoted (t : State) (b : Nat) (ht : ag < t.lanes.agents.length) :
      ag < (t.noteBar (t.taskOf ag) b (t.barRank ag)).lanes.agents.length := ht
  exact hasEnded_endAgent (foldl_prop hnoted _ s hag)
/-- An unhandled trap with UNH = 0 ends its thread, once its record is written (R235, R240). -/
theorem hasEnded_unhandled {s : State} {ag : Nat} (hag : ag < s.lanes.agents.length) (hunh : bits (s.policyOf ag).toNat 0 2 = 0)
    (cause : Nat) (pc addr : DWord) (info : Word) (short supp : Nat) : HasEnded ag (s.unhandled ag cause pc addr info short supp) := by
  unfold State.unhandled
  dsimp only
  rw [hunh]
  exact hasEnded_killAgent ((congrArg (ag < ·.length) (taskRecord_agents ..)).mpr hag)

/-- Settles O27: a trap that has no handler waits with the thread where its record or a barrier holds it, and ends the thread otherwise. -/
theorem unhandledTraps : Obligations.UnhandledTraps := by
  intro s ag cause pc addr info hag _ hhandler hdebug hunh
  have hlen : ag < (s.modAgent ag Agent.settle).lanes.agents.length := by simpa [State.modAgent] using hag
  have hself : (s.modAgent ag Agent.settle).agent ag = (s.agent ag).settle := State.modAgent_agent_self _ _ _ hag
  have hdbg : (s.modAgent ag Agent.settle).debugged ag cause = false := by
    rw [modAgent_debugged s ag cause _ settle_home]
    simpa [State.debugged] using hdebug
  refine ⟨fun hwait => ?_, fun hwait => ?_⟩
  · have hnone : ((s.agent ag).settle.trap.h || (s.agent ag).settle.trap.vec == 0#64) = true := by simpa using hhandler
    simp only [State.takeTrap, State.takeTrapWith, hwait, hdbg, hself, hnone, cond_false, cond_true]
    exact hasEnded_unhandled hlen (by rw [modAgent_policyOf s ag _ settle_home]; exact hunh) ..
  · simp only [State.takeTrap, State.takeTrapWith, hwait, cond_true, State.parkRecord]
    rw [State.modAgent_agent_self _ _ _ hlen]
    exact ⟨_, rfl⟩

end Sys2Proof.Machine
end

section
/-! SUPPORT. The raw fields of an encoded row are the fields it was made of (R44 to R54). -/

namespace Sys2Proof

/-! ## The words of raw fields read back (R45) -/

/-- Fields that no word of the form holds are zero. -/
def Raw.Canon (r : Raw) : Prop :=
  (r.l.getLsbD 1 = false → r.w1 = 0#32 ∧ r.w2 = 0#32) ∧ (r.l.getLsbD 0 = false → r.lit = 0#64)

theorem append_halves (x : DWord) : x.extractLsb' 32 32 ++ x.extractLsb' 0 32 = x := by
  apply BitVec.eq_of_getLsbD_eq
  intro i hi
  simp only [BitVec.getLsbD_append, BitVec.getLsbD_extractLsb']
  split
  · simp only [Nat.zero_add, *, decide_true, Bool.true_and]
  · simp only [show i - 32 < 32 by omega, decide_true, Bool.true_and, show 32 + (i - 32) = i by omega]

theorem rawOfWords_cons (top : BitVec 22) (op : BitVec 7) (w : Bool) (l : BitVec 2) (ws : List Word) :
    rawOfWords ((top ++ op ++ BitVec.ofBool w ++ l) :: ws) =
      { l := l, w := w, op := op, top := top,
        w1 := bif l.getLsbD 1 then ws.getD 0 0#32 else 0#32, w2 := bif l.getLsbD 1 then ws.getD 1 0#32 else 0#32,
        lit := bif l.getLsbD 0 then ws.getD (bif l.getLsbD 1 then 3 else 1) 0#32 ++ ws.getD (bif l.getLsbD 1 then 2 else 0) 0#32
          else 0#64 } := by
  have hl := rawOfWords_l top op w l ws
  have hw := rawOfWords_w top op w l ws
  have hop := rawOfWords_op top op w l ws
  have htop := rawOfWords_top top op w l ws
  simp only [rawOfWords, List.getD_cons_zero] at hl hw hop htop
  simp only [rawOfWords, List.getD_cons_zero, hl, hw, hop, htop, List.getD_cons_succ]
  cases l.getLsbD 1 <;> rfl
theorem form_cases (l : BitVec 2) : l = 0#2 ∨ l = 1#2 ∨ l = 2#2 ∨ l = 3#2 := by
  revert l
  decide
theorem rawOfWords_words {r : Raw} (h : r.Canon) : rawOfWords r.words = r := by
  obtain ⟨l, w, op, top, w1, w2, lit⟩ := r
  obtain ⟨hwords, hlit⟩ : (l.getLsbD 1 = false → w1 = 0#32 ∧ w2 = 0#32) ∧ (l.getLsbD 0 = false → lit = 0#64) := h
  have hhalves := append_halves lit
  rcases form_cases l with rfl | rfl | rfl | rfl
  · obtain ⟨rfl, rfl⟩ := hwords (by decide)
    obtain rfl := hlit (by decide)
    exact rawOfWords_cons top op w 0#2 []
  · obtain ⟨rfl, rfl⟩ := hwords (by decide)
    exact (rawOfWords_cons top op w 1#2 [_, _]).trans (congrArg (Raw.mk 1#2 w op top 0#32 0#32) hhalves)
  · obtain rfl := hlit (by decide)
    exact rawOfWords_cons top op w 2#2 [w1, w2]
  · exact (rawOfWords_cons top op w 3#2 [w1, w2, _, _]).trans (congrArg (Raw.mk 3#2 w op top w1 w2) hhalves)
theorem decodeWords_words {r : Raw} (h : r.Canon) : decodeWords r.words = decodeRaw r := by
  rw [decodeWords, rawOfWords_words h]

/-! ## Checks of a row (R71) -/

@[simp] theorem firstBad_nil (i : Instr) : firstBad [] i = .ok i := rfl
@[simp] theorem firstBad_cons_good (n : Nat) (l : List (Nat × Bool)) (i : Instr) : firstBad ((n, false) :: l) i = firstBad l i := rfl

/-! ## Registers of a base form (R47) -/

@[simp] theorem reg7_reg8to7 {r : Reg} (h : baseReg r = true) : reg7 (reg8to7 r) = r := by
  revert r
  decide

@[simp] theorem baseReg_vz : baseReg 255#8 = true := rfl

/-! ## A narrow field in a wider one -/

section
variable {n : Nat}

/-- A narrow field is what it was after it has been widened. -/
@[simp] theorem extractLsb'_setWidth {w : Nat} (h : w ≤ n) (v : BitVec w) : (v.setWidth n).extractLsb' 0 w = v := by
  apply BitVec.eq_of_getLsbD_eq
  intro i hi
  simp only [BitVec.getLsbD_extractLsb', BitVec.getLsbD_setWidth, hi, Nat.zero_add, decide_true, Bool.true_and,
    show i < n by omega]

end

/-- A predicate's or a row's number stands in its register field. -/
@[simp] theorem setWidth_lt_of_three (v : BitVec 3) : v.setWidth 8 < 8#8 := by
  revert v
  decide
@[simp] theorem setWidth_lt_of_four (v : BitVec 4) : v.setWidth 8 < 16#8 := by
  revert v
  decide
@[simp] theorem setWidth_seven_lt (v : BitVec 4) : v.setWidth 7 < 16#7 := by
  revert v
  decide
@[simp] theorem codeIn_three (v : BitVec 3) : codeIn 0x00FF#16 (v.setWidth 4) = true := by
  revert v
  decide
/-- CTWAIT's scopes of global memory (R277). -/
theorem codeIn_high {v : BitVec 3} (h : 2#3 ≤ v) : codeIn 0x00FC#16 (v.setWidth 4) = true := by
  revert v
  decide
@[simp] theorem codeIn_two (v : BitVec 2) : codeIn 0x000F#16 (v.setWidth 4) = true := by
  revert v
  decide

/-! ## MOD is made of fields that do not meet (R51) -/

theorem getLsbD_flagBit {n : Nat} (x : Bool) (m : Nat) (h : n < 16) : (flagBit n x).getLsbD m = (decide (m = n) && x) := by
  cases x with
  | false => simp [flagBit]
  | true =>
    simp only [flagBit, cond_true, BitVec.getLsbD_shiftLeft, BitVec.getLsbD_one]
    by_cases hm : m = n
    · simp [hm, h]
    · have hbit : m < n ∨ m - n ≠ 0 := by omega
      rcases hbit with hlt | hne
      · simp [hm, hlt]
      · simp [hm, hne]
theorem getLsbD_field {w k : Nat} (v : BitVec w) (m : Nat) (h : w + k ≤ 16) :
    (v.setWidth 16 <<< k).getLsbD m = (decide (k ≤ m) && v.getLsbD (m - k)) := by
  simp only [BitVec.getLsbD_shiftLeft, BitVec.getLsbD_setWidth]
  by_cases hm : m < 16
  · by_cases hk : k ≤ m
    · simp [hm, hk, show m - k < 16 by omega, show ¬m < k by omega]
    · simp [hm, hk, show m < k by omega]
  · simp [hm, BitVec.getLsbD_of_ge v (m - k) (by omega)]
@[simp] theorem getElem_flagBit {n : Nat} (x : Bool) (m : Nat) (hm : m < 16) (h : n < 16) : (flagBit n x)[m] = (decide (m = n) && x) :=
  getLsbD_flagBit x m h
@[simp] theorem getElem_field {w k : Nat} (v : BitVec w) (m : Nat) (hm : m < 16) (h : w + k ≤ 16) :
    (v.setWidth 16 <<< k)[m] = (decide (k ≤ m) && v.getLsbD (m - k)) := getLsbD_field v m h
@[simp] theorem flagBit_false (n : Nat) : flagBit n false = 0#16 := BitVec.zero_shiftLeft n
/-- A field of MOD is read where it was put. -/
@[simp] theorem extractLsb'_field {w k : Nat} (v : BitVec w) (h : w + k ≤ 16) : (v.setWidth 16 <<< k).extractLsb' k w = v := by
  apply BitVec.eq_of_getLsbD_eq
  intro i hi
  simp [getLsbD_field v _ h, hi]
/-- CMODE of CHAIN is one bit, read as TCOPY's two (R275). -/
@[simp] theorem extractLsb'_field_one (v : BitVec 1) : (v.setWidth 16 <<< 2).extractLsb' 2 2 = v.setWidth 2 := by
  revert v
  decide
/-- A field of MOD leaves the bits before it and behind it as they were. -/
@[simp] theorem extractLsb'_field_apart {w k s n : Nat} (v : BitVec w) (h : w + k ≤ 16) (hs : s + n ≤ k ∨ w + k ≤ s) :
    (v.setWidth 16 <<< k).extractLsb' s n = 0#n := by
  apply BitVec.eq_of_getLsbD_eq
  intro i hi
  simp only [BitVec.getLsbD_extractLsb', getLsbD_field v _ h, hi, BitVec.getLsbD_zero, decide_true, Bool.true_and]
  rcases hs with hs | hs
  · simp [show ¬k ≤ s + i by omega]
  · simp [BitVec.getLsbD_of_ge v (s + i - k) (by omega)]
@[simp] theorem extractLsb'_flagBit_apart {k s n : Nat} (x : Bool) (h : k < 16) (hs : s + n ≤ k ∨ k < s) :
    (flagBit k x).extractLsb' s n = 0#n := by
  apply BitVec.eq_of_getLsbD_eq
  intro i hi
  simp only [BitVec.getLsbD_extractLsb', getLsbD_flagBit x _ h, hi, BitVec.getLsbD_zero, decide_true, Bool.true_and]
  simp [show ¬s + i = k by omega]
/-- A flag that the row has passes its mask. -/
@[simp] theorem flagBit_and {k : Nat} (x : Bool) {mask : BitVec 16} (hk : k < 16) (h : mask.getLsbD k = false) : flagBit k x &&& mask = 0#16 := by
  apply BitVec.eq_of_getLsbD_eq
  intro i hi
  simp only [BitVec.getLsbD_and, getLsbD_flagBit x _ hk, BitVec.getLsbD_zero]
  by_cases hm : i = k
  · simp [hm, h]
  · simp [hm]
/-- A field that the row has passes its mask. -/
@[simp] theorem field_and {w k : Nat} (v : BitVec w) {mask : BitVec 16} (hw : w + k ≤ 16) (h : mask.extractLsb' k w = 0#w) :
    v.setWidth 16 <<< k &&& mask = 0#16 := by
  apply BitVec.eq_of_getLsbD_eq
  intro i hi
  simp only [BitVec.getLsbD_and, getLsbD_field _ _ hw, BitVec.getLsbD_zero]
  by_cases hk : k ≤ i ∧ i - k < w
  · have hb := congrArg (BitVec.getLsbD · (i - k)) h
    simp only [BitVec.getLsbD_extractLsb', BitVec.getLsbD_zero, hk.2, decide_true, Bool.true_and, Nat.add_sub_cancel' hk.1] at hb
    rw [hb, Bool.and_false]
  · by_cases hki : k ≤ i
    · simp [BitVec.getLsbD_of_ge v (i - k) (by omega)]
    · simp [hki]

/-- The same for a field at bit 0 of MOD. -/
@[simp] theorem field_zero_and {w : Nat} (v : BitVec w) {mask : BitVec 16} (hw : w ≤ 16) (h : mask.extractLsb' 0 w = 0#w) :
    v.setWidth 16 &&& mask = 0#16 := by
  simpa using field_and (k := 0) v hw h
@[simp] theorem extractLsb'_field_zero_apart {w s n : Nat} (v : BitVec w) (h : w ≤ 16) (hs : w ≤ s) :
    (v.setWidth 16).extractLsb' s n = 0#n := by
  simpa using extractLsb'_field_apart (k := 0) v h (.inr hs)

/-! ## An extended row, or a base form with a literal, shows its fields (R46, R51) -/

/-- What a row holds where its operand asks for the base form with a literal: the form has no field for anything else. -/
def Xf.Fits (x : Xf) (mi : BitVec 6) (c : Ctl) (mod : BitVec 16) (d a b cc : Reg) (f2 f1 f0 : BitVec 4) : Prop :=
  x.l = 1#2 → (mi = 0#6 ∧ c.g = 7#4 ∧ mod = 0#16 ∧ x.ib = false) ∧ (baseReg d = true ∧ baseReg a = true ∧ x.b.getD b = 255#8 ∧ cc = 255#8) ∧
    x.imm = 0#16 ∧ f2 = 0#4 ∧ f1 = 0#4 ∧ f0 = 0#4
/-- Fields of an operand that its form can hold. -/
def Xf.Canon (x : Xf) : Prop := x.l ≠ 0#2 ∧ (x.l.getLsbD 0 = false → x.lit = 0#64)

theorem encX_of_ne {x : Xf} (h : x.l ≠ 1#2) (maj : BitVec 7) (mi : BitVec 6) (c : Ctl) (mod : BitVec 16) (d a b cc : Reg) (f2 f1 f0 : BitVec 4) :
    encX maj mi c mod d a b cc x f2 f1 f0 =
      { Raw.extended c.w maj (mod ||| flagBit 15 x.ib) mi cc (x.b.getD b) a d x.imm f2 f1 f0 c.g with l := x.l, lit := x.lit } := by
  rw [encX, beq_eq_false_iff_ne.2 h]
  rfl
theorem encX_of_base {x : Xf} (h : x.l = 1#2) (maj : BitVec 7) (mi : BitVec 6) (c : Ctl) (mod : BitVec 16) (d a b cc : Reg) (f2 f1 f0 : BitVec 4) :
    encX maj mi c mod d a b cc x f2 f1 f0 =
      { l := 1#2, w := c.w, op := maj, top := 0#8 ++ reg8to7 a ++ reg8to7 d, w1 := 0#32, w2 := 0#32, lit := x.lit } := by
  rw [encX, h]
  rfl

section
variable {maj : BitVec 7} {mi : BitVec 6} {c : Ctl} {mod : BitVec 16} {d a b cc : Reg} {x : Xf} {f2 f1 f0 : BitVec 4}

@[simp] theorem encX_op : (encX maj mi c mod d a b cc x f2 f1 f0).op = maj := by
  by_cases h : x.l = 1#2
  · rw [encX_of_base h]
  · rw [encX_of_ne h]; rfl
@[simp] theorem encX_l : (encX maj mi c mod d a b cc x f2 f1 f0).l = x.l := by
  by_cases h : x.l = 1#2
  · rw [encX_of_base h, h]
  · rw [encX_of_ne h]
@[simp] theorem encX_lit : (encX maj mi c mod d a b cc x f2 f1 f0).lit = x.lit := by
  by_cases h : x.l = 1#2
  · rw [encX_of_base h]
  · rw [encX_of_ne h]
theorem encX_isBase : (encX maj mi c mod d a b cc x f2 f1 f0).isBase = (x.l == 1#2) := by rw [Raw.isBase, encX_l]
theorem encX_canon (hx : x.Canon) : (encX maj mi c mod d a b cc x f2 f1 f0).Canon := by
  obtain ⟨hl, hlit⟩ := hx
  by_cases h : x.l = 1#2
  · rw [encX_of_base h]
    exact ⟨fun _ => ⟨rfl, rfl⟩, fun h => absurd h (show ¬(1#2).getLsbD 0 = false by decide)⟩
  · rw [encX_of_ne h]
    refine ⟨fun hlow => ?_, hlit⟩
    rcases form_cases x.l with hform | hform | hform | hform
    · exact absurd hform hl
    · exact absurd hform h
    · exact absurd hlow (by simp [hform])
    · exact absurd hlow (by simp [hform])

/-- The fields that raw words show. -/
structure Raw.Shows (r : Raw) (mi : BitVec 6) (c : Ctl) (mod : BitVec 16) (d a b cc : Reg) (imm : BitVec 16) (f2 f1 f0 : BitVec 4) : Prop where
  minor : r.minor = mi
  ctl : r.ctl = c
  mod : r.mod = mod
  rd : r.rd = d
  ra : r.ra = a
  xb : r.xb = b
  xc : r.xc = cc
  ximm : r.ximm = imm
  xf2 : r.xf2 = f2
  xf1 : r.xf1 = f1
  xf0 : r.xf0 = f0

theorem Raw.extended_shows (e : Raw) {l : BitVec 2} {lit : DWord} {imm : BitVec 16}
    (he : e = { Raw.extended c.w maj mod mi cc b a d imm f2 f1 f0 c.g with l := l, lit := lit }) (hl : l ≠ 1#2) :
    e.Shows mi c mod d a b cc imm f2 f1 f0 := by
  have hext : e.isBase = false := by rw [he]; exact beq_eq_false_iff_ne.2 hl
  constructor
  all_goals
    simp only [Raw.minor, Raw.ctl, Raw.mod, Raw.rd, Raw.ra, Raw.xb, Raw.xc, Raw.ximm, Raw.xf2, Raw.xf1, Raw.xf0, hext, cond_false]
    subst he
  · exact Raw.extended_minor c.w maj mod mi cc b a d imm f2 f1 f0 c.g
  · exact Raw.extended_ctl c.w maj mod mi cc b a d imm f2 f1 f0 c.g
  · exact Raw.extended_mod c.w maj mod mi cc b a d imm f2 f1 f0 c.g
  · exact Raw.extended_rd c.w maj mod mi cc b a d imm f2 f1 f0 c.g
  · exact Raw.extended_ra c.w maj mod mi cc b a d imm f2 f1 f0 c.g
  · exact Raw.extended_xb c.w maj mod mi cc b a d imm f2 f1 f0 c.g
  · exact Raw.extended_xc c.w maj mod mi cc b a d imm f2 f1 f0 c.g
  · exact Raw.extended_ximm c.w maj mod mi cc b a d imm f2 f1 f0 c.g
  · exact Raw.extended_xf2 c.w maj mod mi cc b a d imm f2 f1 f0 c.g
  · exact Raw.extended_xf1 c.w maj mod mi cc b a d imm f2 f1 f0 c.g
  · exact Raw.extended_xf0 c.w maj mod mi cc b a d imm f2 f1 f0 c.g
theorem encX_shows (hx : x.Fits mi c mod d a b cc f2 f1 f0) :
    (encX maj mi c mod d a b cc x f2 f1 f0).Shows mi c (mod ||| flagBit 15 x.ib) d a (x.b.getD b) cc x.imm f2 f1 f0 := by
  by_cases h : x.l = 1#2
  · obtain ⟨⟨hmi, hg, hmod, hib⟩, ⟨hd, ha, hb, hcc⟩, himm, hf2, hf1, hf0⟩ := hx h
    rw [encX_of_base h]
    generalize he : Raw.mk 1#2 c.w maj (0#8 ++ reg8to7 a ++ reg8to7 d) 0#32 0#32 x.lit = e
    have hbase : e.isBase = true := he ▸ rfl
    constructor
    all_goals
      simp only [Raw.minor, Raw.ctl, Raw.mod, Raw.rd, Raw.ra, Raw.xb, Raw.xc, Raw.ximm, Raw.xf2, Raw.xf1, Raw.xf0, hbase, cond_true,
        hmi, hmod, hib, hb, hcc, himm, hf2, hf1, hf0]
    · exact congrArg₂ Ctl.mk (he ▸ rfl) hg.symm
    · rfl
    · subst he
      exact (congrArg reg7 BitVec.extractLsb'_append_eq_right).trans (reg7_reg8to7 hd)
    · subst he
      refine (congrArg reg7 ?_).trans (reg7_reg8to7 ha)
      show (0#8 ++ reg8to7 a ++ reg8to7 d).extractLsb' 7 7 = _
      rw [BitVec.extractLsb'_append_eq_of_le (by decide)]
      exact BitVec.extractLsb'_append_eq_right
  · exact Raw.extended_shows _ (encX_of_ne h ..) h

/-- A form that has every field fits any row. -/
@[simp] theorem fits_of_ne (h : x.l ≠ 1#2) : x.Fits mi c mod d a b cc f2 f1 f0 := fun hl => absurd hl h

section
variable (hx : x.Fits mi c mod d a b cc f2 f1 f0)
include hx
@[simp] theorem encX_minor : (encX maj mi c mod d a b cc x f2 f1 f0).minor = mi := (encX_shows hx).minor
@[simp] theorem encX_ctl : (encX maj mi c mod d a b cc x f2 f1 f0).ctl = c := (encX_shows hx).ctl
@[simp] theorem encX_mod : (encX maj mi c mod d a b cc x f2 f1 f0).mod = mod ||| flagBit 15 x.ib := (encX_shows hx).mod
@[simp] theorem encX_rd : (encX maj mi c mod d a b cc x f2 f1 f0).rd = d := (encX_shows hx).rd
@[simp] theorem encX_ra : (encX maj mi c mod d a b cc x f2 f1 f0).ra = a := (encX_shows hx).ra
@[simp] theorem encX_xb : (encX maj mi c mod d a b cc x f2 f1 f0).xb = x.b.getD b := (encX_shows hx).xb
@[simp] theorem encX_xc : (encX maj mi c mod d a b cc x f2 f1 f0).xc = cc := (encX_shows hx).xc
@[simp] theorem encX_ximm : (encX maj mi c mod d a b cc x f2 f1 f0).ximm = x.imm := (encX_shows hx).ximm
@[simp] theorem encX_xf2 : (encX maj mi c mod d a b cc x f2 f1 f0).xf2 = f2 := (encX_shows hx).xf2
@[simp] theorem encX_xf1 : (encX maj mi c mod d a b cc x f2 f1 f0).xf1 = f1 := (encX_shows hx).xf1
@[simp] theorem encX_xf0 : (encX maj mi c mod d a b cc x f2 f1 f0).xf0 = f0 := (encX_shows hx).xf0
/-- IB is the operand's, where MOD leaves bit 31 of word 0 to it. -/
@[simp] theorem encX_ib (hm : mod.getLsbD 15 = false) : (encX maj mi c mod d a b cc x f2 f1 f0).ib = x.ib := by
  rw [Raw.ib, encX_mod hx, BitVec.getLsbD_or, hm, getLsbD_flagBit x.ib 15 (by decide)]
  simp
end
end

/-! ## Operands (R46, R47, R52, R205) -/

section
variable {maj : BitVec 7} {mi : BitVec 6} {c : Ctl} {mod : BitVec 16} {d a b cc : Reg} {x : Xf} {f2 f1 f0 : BitVec 4}

@[simp] theorem encX_k6Base : (encX maj mi c mod d a b cc x f2 f1 f0).k6Base = false := by
  by_cases h : x.l = 1#2
  · have htop : (0#8 ++ reg8to7 a ++ reg8to7 d).extractLsb' 14 8 = 0#8 := by
      rw [BitVec.extractLsb'_append_eq_of_le (by decide)]
      exact BitVec.extractLsb'_append_eq_left
    rw [encX_of_base h, Raw.k6Base]
    simp only [htop, bne_self_eq_false, Bool.and_false]
  · rw [Raw.k6Base, encX_isBase, beq_eq_false_iff_ne.2 h, Bool.false_and]

/-! ### A row without an operand in IMM16, or with a number there -/

@[simp] theorem fits_plain (n : BitVec 16) : (Xf.plain n).Fits mi c mod d a b cc f2 f1 f0 :=
  fits_of_ne (show (2#2 : BitVec 2) ≠ 1#2 by decide)
@[simp] theorem plain_l (n : BitVec 16) : (Xf.plain n).l = 2#2 := rfl
@[simp] theorem plain_ib (n : BitVec 16) : (Xf.plain n).ib = false := rfl
@[simp] theorem plain_imm (n : BitVec 16) : (Xf.plain n).imm = n := rfl
@[simp] theorem plain_b (n : BitVec 16) : (Xf.plain n).b = none := rfl
theorem plain_canon (n : BitVec 16) : (Xf.plain n).Canon := ⟨by simp [Xf.plain], fun _ => rfl⟩
@[simp] theorem encX_plain_l4Ext (n : BitVec 16) : (encX maj mi c mod d a b cc (Xf.plain n) f2 f1 f0).l4Ext = false := by
  rw [Raw.l4Ext, encX_l]; rfl

/-! ### B operands -/

theorem isBase_of_wf {s : Src} {w : Bool} (h : s.wf false w = true) : s.isBase = false := by cases s <;> simp_all [Src.wf, Src.isBase]
theorem xf_l_src (s : Src) : (s.xf.l == 1#2) = s.isBase := by cases s <;> rfl
theorem src_canon (s : Src) : s.xf.Canon := by cases s <;> simp [Src.xf, Xf.Canon]
theorem xf_l_ne_src {s : Src} {w : Bool} (h : s.wf false w = true) : s.xf.l ≠ 1#2 := fun hl => by
  have hbase := xf_l_src s
  rw [hl, isBase_of_wf h] at hbase
  cases hbase
/-- The extended form of a row that has a base form as well fits it. -/
theorem fits_src_base {s : Src} {p : Bool} (h : (!s.isBase || p) = true)
    (hp : p = true → c.g = 7#4 ∧ baseReg d = true ∧ baseReg a = true ∧ mod = 0#16 ∧ f0 = 0#4) :
    s.xf.Fits 0#6 c mod d a 255#8 255#8 0#4 0#4 f0 := fun hl => by
  have hbase := xf_l_src s
  rw [hl] at hbase
  rw [← hbase] at h
  obtain ⟨hg, hd, ha, hm, hf⟩ := hp h
  cases s <;> simp_all [Src.xf, Src.isBase]

section
variable {s : Src} (hx : s.xf.Fits mi c mod d a b cc f2 f1 f0) (hm : mod.getLsbD 15 = false)
include hx hm

@[simp] theorem encX_srcB : (encX maj mi c mod d a b cc s.xf f2 f1 f0).srcB = s := by
  rw [Raw.srcB, encX_l, encX_lit, encX_ib hx hm, encX_ximm hx, encX_xb hx]
  cases s <;> rfl
@[simp] theorem encX_src_l4Base : (encX maj mi c mod d a b cc s.xf f2 f1 f0).l4Base = false := by
  rw [Raw.l4Base, encX_l, encX_ib hx hm]
  cases s <;> rfl
@[simp] theorem encX_src_k6Src : (encX maj mi c mod d a b cc s.xf f2 f1 f0).k6Src = false := by
  rw [Raw.k6Src, encX_isBase, encX_ib hx hm, encX_ximm hx]
  cases s <;> rfl
omit hm in
@[simp] theorem encX_src_k6Imm : (encX maj mi c mod d a b cc s.xf f2 f1 f0).k6Imm = false := by
  rw [Raw.k6Imm, encX_l, encX_ximm hx]
  cases s <;> rfl
end
theorem encX_src_l4Ib {s : Src} {w : Bool} (hs : s.wf false w = true) (hm : mod.getLsbD 15 = false) :
    (encX maj mi c mod d a b cc s.xf f2 f1 f0).l4Ib = false := by
  have hbase := encX_src_l4Base (maj := maj) (fits_of_ne (mi := mi) (c := c) (d := d) (a := a) (b := b) (cc := cc) (f2 := f2) (f1 := f1)
    (f0 := f0) (xf_l_ne_src hs)) hm
  rw [Raw.l4Base] at hbase
  rw [Raw.l4Ib, hbase, encX_l, xf_l_src, isBase_of_wf hs]
  rfl
theorem encX_src_k6Hi {s : Src} {base w : Bool} (hs : s.wf base w = true) (hw : w = false) : (encX maj mi c mod d a b cc s.xf f2 f1 f0).k6Hi = false := by
  rw [Raw.k6Hi, encX_l, encX_lit]
  cases s <;> simp_all [Src.xf, Src.wf]

/-! ### Displacements and offsets -/

theorem isBase_of_wf_disp {s : Disp} (h : s.wf false = true) : s.isBase = false := by cases s <;> simp_all [Disp.wf, Disp.isBase]
theorem xf_l_disp (s : Disp) : (s.xf.l == 1#2) = s.isBase := by cases s <;> rfl
theorem disp_canon (s : Disp) : s.xf.Canon := by cases s <;> simp [Disp.xf, Xf.Canon]
@[simp] theorem xfPlain_ib (s : Disp) : s.xfPlain.ib = false := by cases s <;> rfl
@[simp] theorem xfPlain_b (s : Disp) : s.xfPlain.b = none := by cases s <;> rfl
theorem dispPlain_canon (s : Disp) : s.xfPlain.Canon := by cases s <;> simp [Disp.xfPlain, Xf.Canon]
theorem xf_l_ne_disp {s : Disp} (h : s.wf false = true) : s.xf.l ≠ 1#2 := fun hl => by
  have hbase := xf_l_disp s
  rw [hl, isBase_of_wf_disp h] at hbase
  cases hbase
theorem xfPlain_l_ne {s : Disp} (h : s.wf false = true) : s.xfPlain.l ≠ 1#2 := fun hl => by
  cases s <;> simp_all [Disp.xfPlain, Disp.wf]
/-- The extended form of a row that has a base form as well fits it. -/
theorem fits_disp_base {s : Disp} {p : Bool} (h : (!s.isBase || p) = true)
    (hp : p = true → c.g = 7#4 ∧ baseReg d = true ∧ baseReg a = true ∧ mod = 0#16 ∧ f2 = 0#4 ∧ f1 = 0#4 ∧ f0 = 0#4) :
    s.xf.Fits 0#6 c mod d a 255#8 255#8 f2 f1 f0 := fun hl => by
  have hbase := xf_l_disp s
  rw [hl] at hbase
  rw [← hbase] at h
  obtain ⟨hg, hd, ha, hm, hf⟩ := hp h
  cases s <;> simp_all [Disp.xf, Disp.isBase]

section
variable {s : Disp} (hx : s.xf.Fits mi c mod d a b cc f2 f1 f0) (hm : mod.getLsbD 15 = false)
include hx
@[simp] theorem encX_disp : (encX maj mi c mod d a b cc s.xf f2 f1 f0).disp = s := by
  rw [Raw.disp, encX_l, encX_lit, encX_ximm hx]
  cases s <;> simp [Disp.xf]
@[simp] theorem encX_disp_k6Imm : (encX maj mi c mod d a b cc s.xf f2 f1 f0).k6Imm = false := by
  rw [Raw.k6Imm, encX_l, encX_ximm hx]
  cases s <;> rfl
include hm
@[simp] theorem encX_disp_l4Base : (encX maj mi c mod d a b cc s.xf f2 f1 f0).l4Base = false := by
  rw [Raw.l4Base, encX_l, encX_ib hx hm]
  cases s <;> rfl
@[simp] theorem encX_disp_l4Ib (hs : s.wf false = true) : (encX maj mi c mod d a b cc s.xf f2 f1 f0).l4Ib = false := by
  have hbase := encX_disp_l4Base (maj := maj) hx hm
  rw [Raw.l4Base] at hbase
  rw [Raw.l4Ib, hbase, encX_l, xf_l_disp, isBase_of_wf_disp hs]
  rfl
@[simp] theorem encX_disp_k6Disp : (encX maj mi c mod d a b cc s.xf f2 f1 f0).k6Disp = false := by
  rw [Raw.k6Disp, encX_isBase, encX_ib hx hm]
  cases s <;> rfl
end
theorem extractLsb'_high_setWidth (x : Word) : (x.setWidth 64).extractLsb' 32 32 = 0#32 := by
  apply BitVec.eq_of_getLsbD_eq
  intro i hi
  simp
@[simp] theorem encX_disp_k6Hi {s : Disp} : (encX maj mi c mod d a b cc s.xf f2 f1 f0).k6Hi = false := by
  rw [Raw.k6Hi, encX_l, encX_lit]
  cases s <;> simp [Disp.xf, extractLsb'_high_setWidth]

section
variable {s : Disp} (hs : s.wf false = true)
include hs
@[simp] theorem encX_dispPlain : (encX maj mi c mod d a b cc s.xfPlain f2 f1 f0).disp = s := by
  rw [Raw.disp, encX_l, encX_lit, encX_ximm (fits_of_ne (xfPlain_l_ne hs))]
  cases s <;> simp_all [Disp.xfPlain, Disp.wf]
@[simp] theorem encX_dispPlain_l4Lit : (encX maj mi c mod d a b cc s.xfPlain f2 f1 f0).l4Lit = false := by
  rw [Raw.l4Lit, encX_l]
  cases s <;> simp_all [Disp.xfPlain, Disp.wf]
@[simp] theorem encX_dispPlain_k6Imm : (encX maj mi c mod d a b cc s.xfPlain f2 f1 f0).k6Imm = false := by
  rw [Raw.k6Imm, encX_l, encX_ximm (fits_of_ne (xfPlain_l_ne hs))]
  cases s <;> rfl
omit hs in
@[simp] theorem encX_dispPlain_k6Hi : (encX maj mi c mod d a b cc s.xfPlain f2 f1 f0).k6Hi = false := by
  rw [Raw.k6Hi, encX_l, encX_lit]
  cases s <;> simp [Disp.xfPlain, extractLsb'_high_setWidth]
end
end

/-! ## Base forms of one word (R44, R47) -/

section
variable (maj : BitVec 7) (w : Bool)

@[simp] theorem encTop_op (top : BitVec 22) : (encTop maj w top).op = maj := rfl
@[simp] theorem encTop_l (top : BitVec 22) : (encTop maj w top).l = 0#2 := rfl
@[simp] theorem encTop_w (top : BitVec 22) : (encTop maj w top).w = w := rfl
@[simp] theorem encTop_top (top : BitVec 22) : (encTop maj w top).top = top := rfl
theorem encTop_canon (top : BitVec 22) : (encTop maj w top).Canon := ⟨fun _ => ⟨rfl, rfl⟩, fun _ => rfl⟩

/-- CSRR and CSRW: the register behind the number. -/
@[simp] theorem encTop_num_bd (num : BitVec 15) (d : BitVec 7) : (encTop maj w (num ++ d)).bd = d := BitVec.extractLsb'_append_eq_right

@[simp] theorem extractLsb'_num (num : BitVec 15) (d : BitVec 7) : BitVec.extractLsb' 7 15 (num ++ d : BitVec 22) = num :=
  BitVec.extractLsb'_append_eq_left

variable (i : Bool) (b a d : BitVec 7)

@[simp] theorem encTop_bi : (encTop maj w (BitVec.ofBool i ++ b ++ a ++ d)).bi = i := by
  show (BitVec.ofBool i ++ b ++ a ++ d).getLsbD 21 = i
  rw [BitVec.getLsbD_append, if_neg (by decide), BitVec.getLsbD_append, if_neg (by decide), BitVec.getLsbD_append, if_neg (by decide)]
  exact BitVec.getLsbD_ofBool i 0
@[simp] theorem encTop_bb : (encTop maj w (BitVec.ofBool i ++ b ++ a ++ d)).bb = b := by
  show (BitVec.ofBool i ++ b ++ a ++ d).extractLsb' 14 7 = b
  rw [BitVec.extractLsb'_append_eq_of_le (by decide), BitVec.extractLsb'_append_eq_of_le (by decide)]
  exact BitVec.extractLsb'_append_eq_right
@[simp] theorem encTop_ba : (encTop maj w (BitVec.ofBool i ++ b ++ a ++ d)).ba = a := by
  show (BitVec.ofBool i ++ b ++ a ++ d).extractLsb' 7 7 = a
  rw [BitVec.extractLsb'_append_eq_of_le (by decide)]
  exact BitVec.extractLsb'_append_eq_right
@[simp] theorem encTop_bd : (encTop maj w (BitVec.ofBool i ++ b ++ a ++ d)).bd = d :=
  BitVec.extractLsb'_append_eq_right
@[simp] theorem encTop_src7 {s : Src7} (hs : s.wf = true) : (encTop maj w (BitVec.ofBool s.isImm ++ s.field ++ a ++ d)).src7 = s := by
  rw [Raw.src7, encTop_bi, encTop_bb]
  cases s with
  | reg r => exact congrArg Src7.reg (reg7_reg8to7 hs)
  | imm i => rfl
end

end Sys2Proof
end

section
/-! SUPPORT. What it takes that the words of a row decode to it: the row the decoder goes to, and the fields it reads there (R44 to R63). -/

namespace Sys2Proof

/-! ## Which row the decoder takes (R62, R63) -/

section
variable {r : Raw} {x y : Except Nat Instr}

theorem bit1_of_form {l : BitVec 2} (h0 : l ≠ 0#2) (h1 : l ≠ 1#2) : l.getLsbD 1 = true := by
  revert l
  decide
theorem Raw.extOnly_of_form (h0 : r.l ≠ 0#2) (h1 : r.l ≠ 1#2) : r.extOnly x = x := by
  rw [Raw.extOnly, bit1_of_form h0 h1, cond_true]
theorem Raw.single_of_minor (h : r.minor = 0#6) : r.single x = x := by
  rw [Raw.single, h]
  rfl
end

/-- An instruction is decoded where no check of its row fails. -/
theorem firstBad_of_all {l : List (Nat × Bool)} {i : Instr} (h : ∀ p ∈ l, p.2 = false) : firstBad l i = .ok i := by
  induction l with
  | nil => rfl
  | cons p l ih =>
    rw [firstBad, h p List.mem_cons_self, cond_false]
    exact ih fun q hq => h q (List.mem_cons_of_mem p hq)

/-- The words of a row decode to it. -/
def Instr.Coded (i : Instr) : Prop := ∀ r : Raw, i.wf = true → i.raw = some r → decodeWords r.words = .ok i

section
variable {i : Instr} {maj : BitVec 7} {dec decB : Raw → Except Nat Instr}

/-- A base form of one word, in a major that has one. -/
theorem coded_top {w : Bool} {top : BitVec 22} (hraw : i.raw = some (encTop maj w top))
    (hmaj : ∀ r : Raw, r.op = maj → r.l = 0#2 → decodeRaw r = decB r) (h : i.wf = true → decB (encTop maj w top) = .ok i) : i.Coded :=
  fun r hwf hr => by
    obtain rfl := Option.some.inj (hraw.symm.trans hr)
    rw [decodeWords_words (encTop_canon ..), hmaj _ rfl rfl]
    exact h hwf

section
variable {c : Ctl} {mod : BitVec 16} {d a b cc : Reg} {x : Xf} {f2 f1 f0 : BitVec 4}

/-- The extended form of a major that has a base form as well. -/
theorem coded_both (hraw : i.raw = some (encX maj 0#6 c mod d a b cc x f2 f1 f0)) (hx : x.Canon)
    (hmaj : ∀ r : Raw, r.op = maj → decodeRaw r = if r.l = 0#2 then decB r else r.single (dec r))
    (hfits : i.wf = true → x.Fits 0#6 c mod d a b cc f2 f1 f0)
    (h : i.wf = true → x.Fits 0#6 c mod d a b cc f2 f1 f0 → dec (encX maj 0#6 c mod d a b cc x f2 f1 f0) = .ok i) : i.Coded :=
  fun r hwf hr => by
    obtain rfl := Option.some.inj (hraw.symm.trans hr)
    have hx' := hfits hwf
    rw [decodeWords_words (encX_canon hx), hmaj _ encX_op, if_neg (by rw [encX_l]; exact hx.1), Raw.single_of_minor (encX_minor hx')]
    exact h hwf hx'
/-- A row of a major with extended forms only, told by MINOR. -/
theorem coded_minor {mi : BitVec 6} {p : Prop} (hraw : i.raw = some (encX maj mi c mod d a b cc x f2 f1 f0)) (hx : x.Canon)
    (hmaj : ∀ r : Raw, r.op = maj → r.minor = mi → decodeRaw r = r.extOnly (dec r)) (hne : p → x.l ≠ 1#2) (hp : i.wf = true → p)
    (h : i.wf = true → p → dec (encX maj mi c mod d a b cc x f2 f1 f0) = .ok i) : i.Coded :=
  fun r hwf hr => by
    obtain rfl := Option.some.inj (hraw.symm.trans hr)
    have hne' := hne (hp hwf)
    rw [decodeWords_words (encX_canon hx), hmaj _ encX_op (encX_minor (fits_of_ne hne')),
      Raw.extOnly_of_form (by rw [encX_l]; exact hx.1) (by rw [encX_l]; exact hne')]
    exact h hwf (hp hwf)
/-- A row of a major that holds one instruction, or instructions that F0 tells apart. -/
theorem coded_single {p : Prop} (hraw : i.raw = some (encX maj 0#6 c mod d a b cc x f2 f1 f0)) (hx : x.Canon)
    (hmaj : ∀ r : Raw, r.op = maj → r.xf0 = f0 → decodeRaw r = r.extOnly (r.single (dec r))) (hne : p → x.l ≠ 1#2) (hp : i.wf = true → p)
    (h : i.wf = true → p → dec (encX maj 0#6 c mod d a b cc x f2 f1 f0) = .ok i) : i.Coded :=
  fun r hwf hr => by
    obtain rfl := Option.some.inj (hraw.symm.trans hr)
    have hne' := hne (hp hwf)
    rw [decodeWords_words (encX_canon hx), hmaj _ encX_op (encX_xf0 (fits_of_ne hne')),
      Raw.extOnly_of_form (by rw [encX_l]; exact hx.1) (by rw [encX_l]; exact hne'), Raw.single_of_minor (encX_minor (fits_of_ne hne'))]
    exact h hwf (hp hwf)
end
end

theorem coded_ill (top : BitVec 22) (w : Bool) (l : BitVec 2) : (Instr.ill top w l).Coded := fun r _ hr => by
  obtain rfl := Option.some.inj hr
  rw [decodeWords_words ⟨fun _ => ⟨rfl, rfl⟩, fun _ => rfl⟩]
  rfl
theorem plain_ne (n : BitVec 16) (_ : True) : (Xf.plain n).l ≠ 1#2 := by simp [Xf.plain]

end Sys2Proof
end

section
/-! SUPPORT. Every row's words decode to it: one lemma for the rows that share their checks and their fields, then all rows (R44 to R63). -/

namespace Sys2Proof

-- One row after the other: proved side by side, the rows need more threads than the check's memory limit has room for.
set_option Elab.async false

/-! ## Moves, integers and predicates (R152 to R163) -/

theorem coded_mov (w : Bool) (d : Reg) (b : Src7) : (Instr.mov w d b).Coded :=
  coded_top rfl (fun r hop hl => by rw [decodeRaw, hop, hl]) fun h => by
    simp [Instr.wf] at h
    simp [decMov, h]
theorem coded_movExt (c0 : Ctl) (d : Reg) (b : Src) : (Instr.movExt c0 d b).Coded :=
  coded_both rfl (src_canon _) (fun r hop => by rw [decodeRaw, hop]; rfl) (fun h => by
    simp only [Instr.wf, Bool.and_eq_true] at h
    exact fits_src_base h.2 (fun hp => by simp_all)) fun h hx => by
    simp [Instr.wf] at h
    have hb : b.wf true false = true := by simp [h]
    simp [decMovExt, Raw.m5, hx, encX_src_k6Hi hb]
theorem coded_alu {k : Bool → Reg → Reg → Src7 → Instr} {maj : BitVec 7}
    (hwf : ∀ w d a b, (k w d a b).wf = (baseReg d && baseReg a && b.wf))
    (hraw : ∀ w d a b, (k w d a b).raw = some (encTop maj w (BitVec.ofBool b.isImm ++ b.field ++ (reg8to7 a) ++ (reg8to7 d))))
    (hmaj : ∀ r : Raw, r.op = maj → r.l = 0#2 → decodeRaw r = (.ok (k r.w (reg7 r.bd) (reg7 r.ba) r.src7)))
    (w : Bool) (d : Reg) (a : Reg) (b : Src7) : (k w d a b).Coded :=
  coded_top (hraw ..) hmaj fun h => by
    rw [hwf] at h
    simp at h
    simp [h]
theorem coded_aluFlagExt {k : Ctl → Bool → Reg → Reg → Src → Instr} {maj : BitVec 7} {decB : Raw → Except Nat Instr}
    (hwf : ∀ c0 sat d a b, (k c0 sat d a b).wf = (b.wf true false && (!b.isBase || (c0.g == 7#4 && baseReg d && baseReg a && !sat))))
    (hraw : ∀ c0 sat d a b, (k c0 sat d a b).raw = some (encX maj 0#6 c0 ((flagBit 0 sat)) d a 255#8 255#8 b.xf 0#4 0#4 0#4))
    (hmaj : ∀ r : Raw, r.op = maj → decodeRaw r = if r.l = 0#2 then decB r else r.single
        (firstBad [(4, r.l4Base), (5, r.m5 0x8001#16), (6, r.k6Imm || r.k6Base || r.k6Hi), (7, r.xf0 != 0#4), (7, r.xf1 != 0#4),
        (7, r.xf2 != 0#4)] (k r.ctl (r.mod.getLsbD 0) r.rd r.ra r.srcB)))
    (c0 : Ctl) (sat : Bool) (d : Reg) (a : Reg) (b : Src) : (k c0 sat d a b).Coded :=
  coded_both (hraw ..) (src_canon _) hmaj (fun h => by
    simp only [hwf, Bool.and_eq_true] at h
    exact fits_src_base h.2 (fun hp => by simp_all)) fun h hx => by
    rw [hwf] at h
    simp at h
    have hb : b.wf true false = true := by simp [h]
    simp [Raw.m5, BitVec.and_or_distrib_right, hx, encX_src_k6Hi hb]
theorem coded_aluExt {k : Ctl → Reg → Reg → Src → Instr} {maj : BitVec 7} {decB : Raw → Except Nat Instr}
    (hwf : ∀ c0 d a b, (k c0 d a b).wf = (b.wf true false && (!b.isBase || (c0.g == 7#4 && baseReg d && baseReg a))))
    (hraw : ∀ c0 d a b, (k c0 d a b).raw = some (encX maj 0#6 c0 (0#16) d a 255#8 255#8 b.xf 0#4 0#4 0#4))
    (hmaj : ∀ r : Raw, r.op = maj → decodeRaw r = if r.l = 0#2 then decB r else r.single
        (firstBad [(4, r.l4Base), (5, r.m5 0x8000#16), (6, r.k6Imm || r.k6Base || r.k6Hi), (7, r.xf0 != 0#4), (7, r.xf1 != 0#4),
        (7, r.xf2 != 0#4)] (k r.ctl r.rd r.ra r.srcB)))
    (c0 : Ctl) (d : Reg) (a : Reg) (b : Src) : (k c0 d a b).Coded :=
  coded_both (hraw ..) (src_canon _) hmaj (fun h => by
    simp only [hwf, Bool.and_eq_true] at h
    exact fits_src_base h.2 (fun hp => by simp_all)) fun h hx => by
    rw [hwf] at h
    simp at h
    have hb : b.wf true false = true := by simp [h]
    simp [Raw.m5, hx, encX_src_k6Hi hb]
theorem coded_three {k : Ctl → Reg → Reg → Src → Reg → Instr} {maj : BitVec 7}
    (hwf : ∀ c0 d a b c, (k c0 d a b c).wf = (b.wf false false))
    (hraw : ∀ c0 d a b c, (k c0 d a b c).raw = some (encX maj 0#6 c0 (0#16) d a 255#8 c b.xf 0#4 0#4 0#4))
    (hmaj : ∀ r : Raw, r.op = maj → r.xf0 = 0#4 → decodeRaw r = r.extOnly (r.single
        (firstBad [(4, r.l4Ib), (5, r.m5 0x8000#16), (6, r.k6Imm || r.k6Hi), (7, r.xf0 != 0#4), (7, r.xf1 != 0#4), (7, r.xf2 != 0#4)]
        (k r.ctl r.rd r.ra r.srcB r.xc))))
    (c0 : Ctl) (d : Reg) (a : Reg) (b : Src) (c : Reg) : (k c0 d a b c).Coded :=
  coded_single (hraw ..) (src_canon _) hmaj (xf_l_ne_src (w := false)) (fun h => by
    simp only [hwf] at h
    simp [h]) fun _ hb => by
    simp [Raw.m5, fits_of_ne (xf_l_ne_src hb), encX_src_l4Ib hb, encX_src_k6Hi hb]
theorem coded_sel (c0 : Ctl) (n : Bool) (d : Reg) (a : Reg) (b : Src) (p : BitVec 3) : (Instr.sel c0 n d a b p).Coded :=
  coded_single rfl (src_canon _) (fun r hop _ => by rw [decodeRaw, hop]; rfl) (xf_l_ne_src (w := false)) (fun h => by
    simp only [Instr.wf] at h
    simp [h]) fun _ hb => by
    simp [decSel, Raw.m5, BitVec.and_or_distrib_right, fits_of_ne (xf_l_ne_src hb), encX_src_l4Ib hb, encX_src_k6Hi hb]
theorem coded_cmp (c0 : Ctl) (cc : BitVec 4) (pd : BitVec 3) (a : Reg) (b : Src) : (Instr.cmp c0 cc pd a b).Coded :=
  coded_single rfl (src_canon _) (fun r hop _ => by rw [decodeRaw, hop]; rfl) (xf_l_ne_src (w := false)) (fun h => by
    simp only [Instr.wf, Bool.and_eq_true] at h
    simp [h]) fun h hb => by
    simp [Instr.wf] at h
    simp [decCmp, Raw.m5, fits_of_ne (xf_l_ne_src hb), encX_src_l4Ib hb, encX_src_k6Hi hb, h]
theorem coded_plog (c0 : Ctl) (lut : BitVec 8) (pd : BitVec 3) (pa : BitVec 3) (pb : BitVec 3) (pc : BitVec 3) :
    (Instr.plog c0 lut pd pa pb pc).Coded :=
  coded_single rfl (plain_canon _) (fun r hop _ => by rw [decodeRaw, hop]; rfl) (plain_ne _) (fun _ => trivial) fun _ _ => by
    simp [decPlog, Raw.m5]
theorem coded_lea (w : Bool) (d : Reg) (a : Reg) (b : Src7) : (Instr.lea w d a b).Coded :=
  coded_top rfl (fun r hop hl => by rw [decodeRaw, hop, hl]) fun h => by
    simp [Instr.wf] at h
    simp [decLea, h]
theorem coded_leaExt (c0 : Ctl) (sh : BitVec 3) (u : Bool) (d : Reg) (a : Reg) (b : Src) : (Instr.leaExt c0 sh u d a b).Coded :=
  coded_both rfl (src_canon _) (fun r hop => by rw [decodeRaw, hop]; rfl) (fun h => by
    simp only [Instr.wf, Bool.and_eq_true] at h
    exact fits_src_base h.2 (fun hp => by simp_all)) fun h hx => by
    rw [BitVec.shiftLeft_zero] at hx
    simp [Instr.wf] at h
    have hb : b.wf true false = true := by simp [h]
    simp [decLeaExt, Raw.m5, BitVec.and_or_distrib_right, BitVec.extractLsb'_or, hx, encX_src_k6Hi hb, h]
theorem coded_pair {k : Ctl → Reg → Reg → Src → Instr} {maj : BitVec 7} {mi : BitVec 6}
    (hwf : ∀ c0 d a b, (k c0 d a b).wf = (pairOk d && pairOk a && b.wf false true && b.pairOk))
    (hraw : ∀ c0 d a b, (k c0 d a b).raw = some (encX maj mi c0 (0#16) d a 255#8 255#8 b.xf 0#4 0#4 0#4))
    (hmaj : ∀ r : Raw, r.op = maj → r.minor = mi → decodeRaw r = r.extOnly (firstBad
        [(4, r.l4Ib), (5, r.m5 0x8000#16), (6, r.k6Imm), (7, r.xf0 != 0#4), (7, r.xf1 != 0#4), (7, r.xf2 != 0#4), (8, !pairOk r.rd),
        (8, !pairOk r.ra), (8, !r.srcB.pairOk)] (k r.ctl r.rd r.ra r.srcB)))
    (c0 : Ctl) (d : Reg) (a : Reg) (b : Src) : (k c0 d a b).Coded :=
  coded_minor (hraw ..) (src_canon _) hmaj (xf_l_ne_src (w := true)) (fun h => by
    simp only [hwf, Bool.and_eq_true] at h
    simp [h]) fun h hb => by
    rw [hwf] at h
    simp at h
    simp [Raw.m5, fits_of_ne (xf_l_ne_src hb), encX_src_l4Ib hb, h]
theorem coded_pairShift {k : Ctl → Reg → Reg → Src → Instr} {maj : BitVec 7} {mi : BitVec 6}
    (hwf : ∀ c0 d a b, (k c0 d a b).wf = (pairOk d && pairOk a && b.wf false false))
    (hraw : ∀ c0 d a b, (k c0 d a b).raw = some (encX maj mi c0 (0#16) d a 255#8 255#8 b.xf 0#4 0#4 0#4))
    (hmaj : ∀ r : Raw, r.op = maj → r.minor = mi → decodeRaw r = r.extOnly (firstBad
        [(4, r.l4Ib), (5, r.m5 0x8000#16), (6, r.k6Imm || r.k6Hi), (7, r.xf0 != 0#4), (7, r.xf1 != 0#4), (7, r.xf2 != 0#4), (8, !pairOk r.rd),
        (8, !pairOk r.ra)] (k r.ctl r.rd r.ra r.srcB)))
    (c0 : Ctl) (d : Reg) (a : Reg) (b : Src) : (k c0 d a b).Coded :=
  coded_minor (hraw ..) (src_canon _) hmaj (xf_l_ne_src (w := false)) (fun h => by
    simp only [hwf, Bool.and_eq_true] at h
    simp [h]) fun h hb => by
    rw [hwf] at h
    simp at h
    simp [Raw.m5, fits_of_ne (xf_l_ne_src hb), encX_src_l4Ib hb, encX_src_k6Hi hb, h]
theorem coded_cmp64 (c0 : Ctl) (cc : BitVec 4) (pd : BitVec 3) (a : Reg) (b : Src) : (Instr.cmp64 c0 cc pd a b).Coded :=
  coded_minor rfl (src_canon _) (fun r hop hmi => by rw [decodeRaw, hop, hmi]; rfl) (xf_l_ne_src (w := true)) (fun h => by
    simp only [Instr.wf, Bool.and_eq_true] at h
    simp [h]) fun h hb => by
    simp [Instr.wf] at h
    simp [decCmp64, Raw.m5, fits_of_ne (xf_l_ne_src hb), encX_src_l4Ib hb, h]
theorem coded_flagUnary {k : Ctl → Bool → Reg → Reg → Instr} {maj : BitVec 7} {mi : BitVec 6}
    (hraw : ∀ c0 sat d a, (k c0 sat d a).raw = some (encX maj mi c0 ((flagBit 0 sat)) d a 255#8 255#8 (Xf.plain 0#16) 0#4 0#4 0#4))
    (hmaj : ∀ r : Raw, r.op = maj → r.minor = mi → decodeRaw r = r.extOnly (firstBad
        [(4, r.l4Ext), (5, r.m5 0x0001#16), (7, r.xf0 != 0#4), (7, r.xf1 != 0#4), (7, r.xf2 != 0#4)] (k r.ctl (r.mod.getLsbD 0) r.rd r.ra)))
    (c0 : Ctl) (sat : Bool) (d : Reg) (a : Reg) : (k c0 sat d a).Coded :=
  coded_minor (hraw ..) (plain_canon _) hmaj (plain_ne _) (fun _ => trivial) fun _ _ => by
    simp [Raw.m5]
theorem coded_unary {k : Ctl → Reg → Reg → Instr} {maj : BitVec 7} {mi : BitVec 6}
    (hraw : ∀ c0 d a, (k c0 d a).raw = some (encX maj mi c0 (0#16) d a 255#8 255#8 (Xf.plain 0#16) 0#4 0#4 0#4))
    (hmaj : ∀ r : Raw, r.op = maj → r.minor = mi → decodeRaw r = r.extOnly (firstBad
        [(4, r.l4Ext), (5, r.m5 0x0000#16), (7, r.xf0 != 0#4), (7, r.xf1 != 0#4), (7, r.xf2 != 0#4)] (k r.ctl r.rd r.ra)))
    (c0 : Ctl) (d : Reg) (a : Reg) : (k c0 d a).Coded :=
  coded_minor (hraw ..) (plain_canon _) hmaj (plain_ne _) (fun _ => trivial) fun _ _ => by
    simp [Raw.m5]
theorem coded_csr {k : Bool → Reg → BitVec 15 → Instr} {maj : BitVec 7}
    (hwf : ∀ w d num, (k w d num).wf = (baseReg d))
    (hraw : ∀ w d num, (k w d num).raw = some (encTop maj w (num ++ reg8to7 d)))
    (hmaj : ∀ r : Raw, r.op = maj → r.l = 0#2 → decodeRaw r = (.ok (k r.w (reg7 r.bd) (r.top.extractLsb' 7 15))))
    (w : Bool) (d : Reg) (num : BitVec 15) : (k w d num).Coded :=
  coded_top (hraw ..) hmaj fun h => by
    rw [hwf] at h
    simp [h]
theorem coded_csrrExt (c0 : Ctl) (d : Reg) (num : BitVec 16) : (Instr.csrrExt c0 d num).Coded :=
  coded_both rfl (plain_canon _) (fun r hop => by rw [decodeRaw, hop]; rfl) (fun _ => fits_plain _) fun _ _ => by
    simp [decCsrrExt, Raw.m5]
theorem coded_csrwExt (c0 : Ctl) (a : Reg) (num : BitVec 16) : (Instr.csrwExt c0 a num).Coded :=
  coded_both rfl (plain_canon _) (fun r hop => by rw [decodeRaw, hop]; rfl) (fun _ => fits_plain _) fun _ _ => by
    simp [decCsrwExt, Raw.m5]
theorem coded_nop (w : Bool) : (Instr.nop w).Coded :=
  coded_top rfl (fun r hop _ => by rw [decodeRaw, hop]) fun _ => by
    simp [decNop, Raw.baseOnly]

/-! ## Floating point (R163 to R178) -/

theorem coded_fpExt {k : Ctl → BitVec 3 → Reg → Reg → Src → Instr} {maj : BitVec 7} {decB : Raw → Except Nat Instr}
    (hwf : ∀ c0 rm d a b, (k c0 rm d a b).wf = (b.wf true false && codeIn 0x001F#16 (rm.setWidth 4) &&
        (!b.isBase || (c0.g == 7#4 && baseReg d && baseReg a && rm == 0#3))))
    (hraw : ∀ c0 rm d a b, (k c0 rm d a b).raw = some (encX maj 0#6 c0 (0#16) d a 255#8 255#8 b.xf 0#4 0#4 (rm.setWidth 4)))
    (hmaj : ∀ r : Raw, r.op = maj → decodeRaw r = if r.l = 0#2 then decB r else r.single
        (firstBad [(4, r.l4Base), (5, r.m5 0x8000#16), (6, r.k6Imm || r.k6Base || r.k6Hi), (7, !codeIn 0x001F#16 r.xf0), (7, r.xf1 != 0#4),
        (7, r.xf2 != 0#4)] (k r.ctl (r.xf0.extractLsb' 0 3) r.rd r.ra r.srcB)))
    (c0 : Ctl) (rm : BitVec 3) (d : Reg) (a : Reg) (b : Src) : (k c0 rm d a b).Coded :=
  coded_both (hraw ..) (src_canon _) hmaj (fun h => by
    simp only [hwf, Bool.and_eq_true] at h
    exact fits_src_base h.2 (fun hp => by simp_all)) fun h hx => by
    rw [hwf] at h
    simp at h
    have hb : b.wf true false = true := by simp [h]
    simp [Raw.m5, hx, encX_src_k6Hi hb, h]
theorem coded_ffma (c0 : Ctl) (rm : BitVec 3) (d : Reg) (a : Reg) (b : Src) (c : Reg) : (Instr.ffma c0 rm d a b c).Coded :=
  coded_single rfl (src_canon _) (fun r hop _ => by rw [decodeRaw, hop]; rfl) (xf_l_ne_src (w := false)) (fun h => by
    simp only [Instr.wf, Bool.and_eq_true] at h
    simp [h]) fun h hb => by
    simp [Instr.wf] at h
    simp [decFfma, Raw.m5, fits_of_ne (xf_l_ne_src hb), encX_src_l4Ib hb, encX_src_k6Hi hb, h]
theorem coded_fcmp (c0 : Ctl) (cc : BitVec 4) (pd : BitVec 3) (a : Reg) (b : Src) : (Instr.fcmp c0 cc pd a b).Coded :=
  coded_single rfl (src_canon _) (fun r hop _ => by rw [decodeRaw, hop]; rfl) (xf_l_ne_src (w := false)) (fun h => by
    simp only [Instr.wf, Bool.and_eq_true] at h
    simp [h]) fun h hb => by
    simp [Instr.wf] at h
    simp [decFcmp, Raw.m5, fits_of_ne (xf_l_ne_src hb), encX_src_l4Ib hb, encX_src_k6Hi hb, h]
theorem coded_rounded {k : Ctl → BitVec 3 → Reg → Reg → Instr} {maj : BitVec 7} {mi : BitVec 6}
    (hwf : ∀ c0 rm d a, (k c0 rm d a).wf = (codeIn 0x001F#16 (rm.setWidth 4)))
    (hraw : ∀ c0 rm d a, (k c0 rm d a).raw = some (encX maj mi c0 (0#16) d a 255#8 255#8 (Xf.plain 0#16) 0#4 0#4 (rm.setWidth 4)))
    (hmaj : ∀ r : Raw, r.op = maj → r.minor = mi → decodeRaw r = r.extOnly (firstBad
        [(4, r.l4Ext), (5, r.m5 0x0000#16), (7, !codeIn 0x001F#16 r.xf0), (7, r.xf1 != 0#4), (7, r.xf2 != 0#4)]
        (k r.ctl (r.xf0.extractLsb' 0 3) r.rd r.ra)))
    (c0 : Ctl) (rm : BitVec 3) (d : Reg) (a : Reg) : (k c0 rm d a).Coded :=
  coded_minor (hraw ..) (plain_canon _) hmaj (plain_ne _) (fun _ => trivial) fun h _ => by
    rw [hwf] at h
    simp [Raw.m5, h]
theorem coded_packed {k : Ctl → BitVec 3 → BitVec 4 → Reg → Reg → Reg → Instr} {maj : BitVec 7} {mi : BitVec 6}
    (hwf : ∀ c0 rm fmt d a b, (k c0 rm fmt d a b).wf = (codeIn 0x001F#16 (rm.setWidth 4) && codeIn 0x0006#16 (fmt.setWidth 4)))
    (hraw : ∀ c0 rm fmt d a b, (k c0 rm fmt d a b).raw = some (encX maj mi c0 (0#16) d a b 255#8 (Xf.plain 0#16) 0#4 fmt (rm.setWidth 4)))
    (hmaj : ∀ r : Raw, r.op = maj → r.minor = mi → decodeRaw r = r.extOnly (firstBad
        [(4, r.l4Ext), (5, r.m5 0x0000#16), (7, !codeIn 0x001F#16 r.xf0), (7, !codeIn 0x0006#16 r.xf1), (7, r.xf2 != 0#4)]
        (k r.ctl (r.xf0.extractLsb' 0 3) r.xf1 r.rd r.ra r.xb)))
    (c0 : Ctl) (rm : BitVec 3) (fmt : BitVec 4) (d : Reg) (a : Reg) (b : Reg) : (k c0 rm fmt d a b).Coded :=
  coded_minor (hraw ..) (plain_canon _) hmaj (plain_ne _) (fun _ => trivial) fun h _ => by
    rw [hwf] at h
    simp at h
    simp [Raw.m5, h]
theorem coded_hfma2 (c0 : Ctl) (rm : BitVec 3) (fmt : BitVec 4) (d : Reg) (a : Reg) (b : Reg) (c : Reg) : (Instr.hfma2 c0 rm fmt d a b c).Coded :=
  coded_minor rfl (plain_canon _) (fun r hop hmi => by rw [decodeRaw, hop, hmi]; rfl) (plain_ne _) (fun _ => trivial) fun h _ => by
    simp [Instr.wf] at h
    simp [decHfma2, Raw.m5, h]
theorem coded_packedMinmax {k : Ctl → BitVec 4 → Reg → Reg → Reg → Instr} {maj : BitVec 7} {mi : BitVec 6}
    (hwf : ∀ c0 fmt d a b, (k c0 fmt d a b).wf = (codeIn 0x0006#16 (fmt.setWidth 4)))
    (hraw : ∀ c0 fmt d a b, (k c0 fmt d a b).raw = some (encX maj mi c0 (0#16) d a b 255#8 (Xf.plain 0#16) 0#4 fmt 0#4))
    (hmaj : ∀ r : Raw, r.op = maj → r.minor = mi → decodeRaw r = r.extOnly (firstBad
        [(4, r.l4Ext), (5, r.m5 0x0000#16), (7, r.xf0 != 0#4), (7, !codeIn 0x0006#16 r.xf1), (7, r.xf2 != 0#4)] (k r.ctl r.xf1 r.rd r.ra r.xb)))
    (c0 : Ctl) (fmt : BitVec 4) (d : Reg) (a : Reg) (b : Reg) : (k c0 fmt d a b).Coded :=
  coded_minor (hraw ..) (plain_canon _) hmaj (plain_ne _) (fun _ => trivial) fun h _ => by
    rw [hwf] at h
    simp at h
    simp [Raw.m5, h]
theorem coded_fdot2 (c0 : Ctl) (rm : BitVec 3) (fmt : BitVec 4) (d : Reg) (a : Reg) (b : Reg) (c : Reg) : (Instr.fdot2 c0 rm fmt d a b c).Coded :=
  coded_single rfl (plain_canon _) (fun r hop _ => by rw [decodeRaw, hop]; rfl) (plain_ne _) (fun _ => trivial) fun h _ => by
    simp [Instr.wf] at h
    simp [decFdot2, Raw.m5, h]
theorem coded_fcvt (c0 : Ctl) (sat : Bool) (dir : Bool) (elt : BitVec 2) (rm : BitVec 3) (fmt : BitVec 4) (d : Reg) (a : Reg) :
    (Instr.fcvt c0 sat dir elt rm fmt d a).Coded :=
  coded_single rfl (plain_canon _) (fun r hop _ => by rw [decodeRaw, hop]; rfl) (plain_ne _) (fun _ => trivial) fun h _ => by
    simp [Instr.wf] at h
    simp [decFcvt, Raw.m5, BitVec.and_or_distrib_right, BitVec.extractLsb'_or, h]
    exact firstBad_of_all (by simp; grind)
theorem coded_toInt {k : Ctl → Bool → BitVec 3 → Reg → Reg → Instr} {maj : BitVec 7} {mi : BitVec 6}
    (hwf : ∀ c0 sat rm d a, (k c0 sat rm d a).wf = (codeIn 0x001F#16 (rm.setWidth 4)))
    (hraw : ∀ c0 sat rm d a, (k c0 sat rm d a).raw = some (encX maj mi c0 ((flagBit 0 sat)) d a 255#8 255#8 (Xf.plain 0#16) 0#4 0#4
        (rm.setWidth 4)))
    (hmaj : ∀ r : Raw, r.op = maj → r.minor = mi → decodeRaw r = r.extOnly (firstBad
        [(4, r.l4Ext), (5, r.m5 0x0001#16), (7, !codeIn 0x001F#16 r.xf0), (7, r.xf1 != 0#4), (7, r.xf2 != 0#4)]
        (k r.ctl (r.mod.getLsbD 0) (r.xf0.extractLsb' 0 3) r.rd r.ra)))
    (c0 : Ctl) (sat : Bool) (rm : BitVec 3) (d : Reg) (a : Reg) : (k c0 sat rm d a).Coded :=
  coded_minor (hraw ..) (plain_canon _) hmaj (plain_ne _) (fun _ => trivial) fun h _ => by
    rw [hwf] at h
    simp [Raw.m5, h]
theorem coded_qnt (c0 : Ctl) (sat : Bool) (rm : BitVec 3) (fmt : BitVec 4) (d : Reg) (a : Reg) (b : Src) : (Instr.qnt c0 sat rm fmt d a b).Coded
    :=
  coded_minor rfl (src_canon _) (fun r hop hmi => by rw [decodeRaw, hop, hmi]; rfl) (xf_l_ne_src (w := false)) (fun h => by
    simp only [Instr.wf, Bool.and_eq_true] at h
    simp [h]) fun h hb => by
    simp [Instr.wf] at h
    simp [decQnt, Raw.m5, BitVec.and_or_distrib_right, fits_of_ne (xf_l_ne_src hb), encX_src_l4Ib hb, encX_src_k6Hi hb, h]
    exact firstBad_of_all (by simp; tauto)
theorem coded_dqnt (c0 : Ctl) (sat : Bool) (rm : BitVec 3) (fmt : BitVec 4) (d : Reg) (a : Reg) (b : Src) :
    (Instr.dqnt c0 sat rm fmt d a b).Coded :=
  coded_minor rfl (src_canon _) (fun r hop hmi => by rw [decodeRaw, hop, hmi]; rfl) (xf_l_ne_src (w := false)) (fun h => by
    simp only [Instr.wf, Bool.and_eq_true] at h
    simp [h]) fun h hb => by
    simp [Instr.wf] at h
    simp [decDqnt, Raw.m5, BitVec.and_or_distrib_right, fits_of_ne (xf_l_ne_src hb), encX_src_l4Ib hb, encX_src_k6Hi hb, h]
theorem coded_had (c0 : Ctl) (sz : BitVec 2) (rm : BitVec 3) (fmt : BitVec 4) (d : Reg) (a : Reg) : (Instr.had c0 sz rm fmt d a).Coded :=
  coded_single rfl (plain_canon _) (fun r hop _ => by rw [decodeRaw, hop]; rfl) (plain_ne _) (fun _ => trivial) fun h _ => by
    simp [Instr.wf] at h
    simp [decHad, Raw.m5, h]
    exact firstBad_of_all (by simp [h])
theorem coded_cmpr (c0 : Ctl) (s48 : Bool) (fmt : BitVec 4) (d : Reg) (a : Reg) (c : Reg) : (Instr.cmpr c0 s48 fmt d a c).Coded :=
  coded_single rfl (plain_canon _) (fun r hop _ => by rw [decodeRaw, hop]; rfl) (plain_ne _) (fun _ => trivial) fun h _ => by
    simp [Instr.wf] at h
    simp [decCmpr, Raw.m5, h]

/-! ## Rays, the other threads of the fragment (R191 to R204) -/

theorem coded_boxt (c0 : Ctl) (d : Reg) (a : Reg) (b : Reg) : (Instr.boxt c0 d a b).Coded :=
  coded_single rfl (plain_canon _) (fun r hop _ => by rw [decodeRaw, hop]; rfl) (plain_ne _) (fun _ => trivial) fun h _ => by
    simp [Instr.wf] at h
    simp [decBoxt, Raw.m5, h]
theorem coded_trit (c0 : Ctl) (clip : Bool) (d : Reg) (a : Reg) (b : Reg) (pc : BitVec 3) : (Instr.trit c0 clip d a b pc).Coded :=
  coded_single rfl (plain_canon _) (fun r hop _ => by rw [decodeRaw, hop]; rfl) (plain_ne _) (fun _ => trivial) fun h _ => by
    simp [Instr.wf] at h
    simp [decTrit, Raw.m5, h]
theorem coded_rebin (c0 : Ctl) (b : Reg) (a : Reg) (off : Disp) : (Instr.rebin c0 b a off).Coded :=
  coded_single rfl (dispPlain_canon _) (fun r hop _ => by rw [decodeRaw, hop]; rfl) (xfPlain_l_ne) (fun h => by
    simp only [Instr.wf, Bool.and_eq_true] at h
    simp [h]) fun h hb => by
    simp [Instr.wf] at h
    simp [decRebin, Raw.m5, fits_of_ne (xfPlain_l_ne hb), hb, h]
theorem coded_shfl {k : Ctl → BitVec 3 → Reg → Reg → Src → BitVec 3 → Instr} {maj : BitVec 7} {mi : BitVec 6}
    (hwf : ∀ c0 seg d a b pc, (k c0 seg d a b pc).wf = (b.wf false false))
    (hraw : ∀ c0 seg d a b pc, (k c0 seg d a b pc).raw = some (encX maj mi c0 (0#16) d a 255#8 (pc.setWidth 8) b.xf (seg.setWidth 4) 0#4 0#4))
    (hmaj : ∀ r : Raw, r.op = maj → r.minor = mi → decodeRaw r = r.extOnly (firstBad
        [(4, r.l4Ib), (5, r.m5 0x8000#16), (6, r.k6Imm || r.k6Hi), (7, r.xf0 != 0#4), (7, r.xf1 != 0#4), (7, !codeIn 0x00FF#16 r.xf2),
        (8, !(r.xc < 8#8))] (k r.ctl (r.xf2.extractLsb' 0 3) r.rd r.ra r.srcB (r.xc.extractLsb' 0 3))))
    (c0 : Ctl) (seg : BitVec 3) (d : Reg) (a : Reg) (b : Src) (pc : BitVec 3) : (k c0 seg d a b pc).Coded :=
  coded_minor (hraw ..) (src_canon _) hmaj (xf_l_ne_src (w := false)) (fun h => by
    simp only [hwf] at h
    simp [h]) fun _ hb => by
    simp [Raw.m5, fits_of_ne (xf_l_ne_src hb), encX_src_l4Ib hb, encX_src_k6Hi hb]
theorem coded_votePred {k : Ctl → BitVec 3 → BitVec 3 → Instr} {maj : BitVec 7} {mi : BitVec 6}
    (hraw : ∀ c0 pd pa, (k c0 pd pa).raw = some (encX maj mi c0 (0#16) (pd.setWidth 8) (pa.setWidth 8) 255#8 255#8 (Xf.plain 0#16) 0#4 0#4 0#4))
    (hmaj : ∀ r : Raw, r.op = maj → r.minor = mi → decodeRaw r = r.extOnly (firstBad
        [(4, r.l4Ext), (5, r.m5 0x0000#16), (7, r.xf0 != 0#4), (7, r.xf1 != 0#4), (7, r.xf2 != 0#4), (8, !(r.rd < 8#8)), (8, !(r.ra < 8#8))]
        (k r.ctl (r.rd.extractLsb' 0 3) (r.ra.extractLsb' 0 3))))
    (c0 : Ctl) (pd : BitVec 3) (pa : BitVec 3) : (k c0 pd pa).Coded :=
  coded_minor (hraw ..) (plain_canon _) hmaj (plain_ne _) (fun _ => trivial) fun _ _ => by
    simp [Raw.m5]
theorem coded_regPred {k : Ctl → Reg → BitVec 3 → Instr} {maj : BitVec 7} {mi : BitVec 6}
    (hraw : ∀ c0 d pa, (k c0 d pa).raw = some (encX maj mi c0 (0#16) d (pa.setWidth 8) 255#8 255#8 (Xf.plain 0#16) 0#4 0#4 0#4))
    (hmaj : ∀ r : Raw, r.op = maj → r.minor = mi → decodeRaw r = r.extOnly (firstBad
        [(4, r.l4Ext), (5, r.m5 0x0000#16), (7, r.xf0 != 0#4), (7, r.xf1 != 0#4), (7, r.xf2 != 0#4), (8, !(r.ra < 8#8))]
        (k r.ctl r.rd (r.ra.extractLsb' 0 3))))
    (c0 : Ctl) (d : Reg) (pa : BitVec 3) : (k c0 d pa).Coded :=
  coded_minor (hraw ..) (plain_canon _) hmaj (plain_ne _) (fun _ => trivial) fun _ _ => by
    simp [Raw.m5]
theorem coded_voteEq (c0 : Ctl) (pd : BitVec 3) (a : Reg) : (Instr.voteEq c0 pd a).Coded :=
  coded_minor rfl (plain_canon _) (fun r hop hmi => by rw [decodeRaw, hop, hmi]; rfl) (plain_ne _) (fun _ => trivial) fun _ _ => by
    simp [decVoteEq, Raw.m5]
theorem coded_gred {k : Ctl → BitVec 3 → Reg → Reg → Instr} {maj : BitVec 7} {mi : BitVec 6}
    (hraw : ∀ c0 seg d a, (k c0 seg d a).raw = some (encX maj mi c0 (0#16) d a 255#8 255#8 (Xf.plain 0#16) (seg.setWidth 4) 0#4 0#4))
    (hmaj : ∀ r : Raw, r.op = maj → r.minor = mi → decodeRaw r = r.extOnly (firstBad
        [(4, r.l4Ext), (5, r.m5 0x0000#16), (7, r.xf0 != 0#4), (7, r.xf1 != 0#4), (7, !codeIn 0x00FF#16 r.xf2)]
        (k r.ctl (r.xf2.extractLsb' 0 3) r.rd r.ra)))
    (c0 : Ctl) (seg : BitVec 3) (d : Reg) (a : Reg) : (k c0 seg d a).Coded :=
  coded_minor (hraw ..) (plain_canon _) hmaj (plain_ne _) (fun _ => trivial) fun _ _ => by
    simp [Raw.m5]
theorem coded_gredFlag {k : Ctl → Bool → BitVec 3 → Reg → Reg → Instr} {maj : BitVec 7} {mi : BitVec 6}
    (hraw : ∀ c0 u seg d a, (k c0 u seg d a).raw = some (encX maj mi c0 ((flagBit 0 u)) d a 255#8 255#8 (Xf.plain 0#16) (seg.setWidth 4) 0#4 0#4))
    (hmaj : ∀ r : Raw, r.op = maj → r.minor = mi → decodeRaw r = r.extOnly (firstBad
        [(4, r.l4Ext), (5, r.m5 0x0001#16), (7, r.xf0 != 0#4), (7, r.xf1 != 0#4), (7, !codeIn 0x00FF#16 r.xf2)]
        (k r.ctl (r.mod.getLsbD 0) (r.xf2.extractLsb' 0 3) r.rd r.ra)))
    (c0 : Ctl) (u : Bool) (seg : BitVec 3) (d : Reg) (a : Reg) : (k c0 u seg d a).Coded :=
  coded_minor (hraw ..) (plain_canon _) hmaj (plain_ne _) (fun _ => trivial) fun _ _ => by
    simp [Raw.m5]
theorem coded_gredFadd (c0 : Ctl) (rm : BitVec 3) (seg : BitVec 3) (d : Reg) (a : Reg) : (Instr.gredFadd c0 rm seg d a).Coded :=
  coded_minor rfl (plain_canon _) (fun r hop hmi => by rw [decodeRaw, hop, hmi]; rfl) (plain_ne _) (fun _ => trivial) fun h _ => by
    simp [Instr.wf] at h
    simp [decGredFadd, Raw.m5, h]

/-! ## Control (R182 to R190) -/

theorem coded_bra (w : Bool) (off : BitVec 22) : (Instr.bra w off).Coded := fun r _ hr => by
  obtain rfl := Option.some.inj hr
  exact decodeWords_bra w [] off
theorem coded_brq (w : Bool) (off : BitVec 22) : (Instr.brq w off).Coded := fun r _ hr => by
  obtain rfl := Option.some.inj hr
  exact decodeWords_brq w [] off
theorem coded_call (w : Bool) (off : BitVec 22) : (Instr.call w off).Coded := fun r _ hr => by
  obtain rfl := Option.some.inj hr
  exact decodeWords_call w [] off
theorem coded_brc (w : Bool) (off : BitVec 18) (n : Bool) (p : BitVec 3) : (Instr.brc w off n p).Coded := fun r _ hr => by
  obtain rfl := Option.some.inj hr
  exact decodeWords_brc w [] off n p
theorem coded_bare {k : Bool → Instr} {maj : BitVec 7}
    (hraw : ∀ w, (k w).raw = some (encTop maj w (BitVec.ofBool false ++ 127#7 ++ 127#7 ++ 127#7)))
    (hmaj : ∀ r : Raw, r.op = maj → r.l = 0#2 → decodeRaw r = (firstBad [(6, r.bi)] (k r.w)))
    (w : Bool) : (k w).Coded :=
  coded_top (hraw ..) hmaj fun _ => by
    simp only [encTop_bi, encTop_w]
    simp []
theorem coded_bareExt {k : Ctl → Instr} {maj : BitVec 7} {decB : Raw → Except Nat Instr}
    (hraw : ∀ c0, (k c0).raw = some (encX maj 0#6 c0 (0#16) 255#8 255#8 255#8 255#8 (Xf.plain 0#16) 0#4 0#4 0#4))
    (hmaj : ∀ r : Raw, r.op = maj → decodeRaw r = if r.l = 0#2 then decB r else r.single
        (firstBad [(4, r.l4Ext), (5, r.m5 0x0000#16), (6, (r.ximm != 0#16)), (7, r.xf0 != 0#4), (7, r.xf1 != 0#4), (7, r.xf2 != 0#4)] (k r.ctl)))
    (c0 : Ctl) : (k c0).Coded :=
  coded_both (hraw ..) (plain_canon _) hmaj (fun _ => fits_plain _) fun _ _ => by
    simp [Raw.m5]
theorem coded_maskTop {k : Bool → BitVec 4 → Instr} {maj : BitVec 7}
    (hraw : ∀ w m, (k w m).raw = some (encTop maj w (BitVec.ofBool false ++ 127#7 ++ (m.setWidth 7) ++ 127#7)))
    (hmaj : ∀ r : Raw, r.op = maj → r.l = 0#2 → decodeRaw r = (firstBad [(6, r.bi), (8, !(r.ba < 16#7))] (k r.w (r.ba.extractLsb' 0 4))))
    (w : Bool) (m : BitVec 4) : (k w m).Coded :=
  coded_top (hraw ..) hmaj fun _ => by
    simp only [encTop_bi, encTop_ba, encTop_w]
    simp []
theorem coded_maskExt {k : Ctl → BitVec 4 → Instr} {maj : BitVec 7} {decB : Raw → Except Nat Instr}
    (hraw : ∀ c0 m, (k c0 m).raw = some (encX maj 0#6 c0 (0#16) 255#8 (m.setWidth 8) 255#8 255#8 (Xf.plain 0#16) 0#4 0#4 0#4))
    (hmaj : ∀ r : Raw, r.op = maj → decodeRaw r = if r.l = 0#2 then decB r else r.single
        (firstBad [(4, r.l4Ext), (5, r.m5 0x0000#16), (6, (r.ximm != 0#16)), (7, r.xf0 != 0#4), (7, r.xf1 != 0#4), (7, r.xf2 != 0#4),
        (8, !(r.ra < 16#8))] (k r.ctl (r.ra.extractLsb' 0 4))))
    (c0 : Ctl) (m : BitVec 4) : (k c0 m).Coded :=
  coded_both (hraw ..) (plain_canon _) hmaj (fun _ => fits_plain _) fun _ _ => by
    simp [Raw.m5]
theorem coded_code {k : Bool → Src7 → Instr} {maj : BitVec 7}
    (hwf : ∀ w b, (k w b).wf = (b.wf))
    (hraw : ∀ w b, (k w b).raw = some (encTop maj w (BitVec.ofBool b.isImm ++ b.field ++ 127#7 ++ 127#7)))
    (hmaj : ∀ r : Raw, r.op = maj → r.l = 0#2 → decodeRaw r = (.ok (k r.w r.src7)))
    (w : Bool) (b : Src7) : (k w b).Coded :=
  coded_top (hraw ..) hmaj fun h => by
    rw [hwf] at h
    simp [h]
theorem coded_codeExt {k : Ctl → Src → Instr} {maj : BitVec 7} {decB : Raw → Except Nat Instr}
    (hwf : ∀ c0 b, (k c0 b).wf = (b.wf true false && (!b.isBase || (c0.g == 7#4))))
    (hraw : ∀ c0 b, (k c0 b).raw = some (encX maj 0#6 c0 (0#16) 255#8 255#8 255#8 255#8 b.xf 0#4 0#4 0#4))
    (hmaj : ∀ r : Raw, r.op = maj → decodeRaw r = if r.l = 0#2 then decB r else r.single
        (firstBad [(4, r.l4Base), (5, r.m5 0x8000#16), (6, r.k6Imm || r.k6Base || r.k6Hi || r.k6Src), (7, r.xf0 != 0#4), (7, r.xf1 != 0#4),
        (7, r.xf2 != 0#4)] (k r.ctl r.srcB)))
    (c0 : Ctl) (b : Src) : (k c0 b).Coded :=
  coded_both (hraw ..) (src_canon _) hmaj (fun h => by
    simp only [hwf, Bool.and_eq_true] at h
    exact fits_src_base h.2 (fun hp => by simp_all)) fun h hx => by
    rw [hwf] at h
    simp at h
    have hb : b.wf true false = true := by simp [h]
    simp [Raw.m5, hx, encX_src_k6Hi hb]
theorem coded_dqpop (w : Bool) (d : Reg) : (Instr.dqpop w d).Coded :=
  coded_top rfl (fun r hop hl => by rw [decodeRaw, hop, hl]) fun h => by
    simp [Instr.wf] at h
    simp only [decDqpop, encTop_bi, encTop_bd, encTop_w]
    simp [h]
theorem coded_dqpopExt (c0 : Ctl) (d : Reg) : (Instr.dqpopExt c0 d).Coded :=
  coded_both rfl (plain_canon _) (fun r hop => by rw [decodeRaw, hop]; rfl) (fun _ => fits_plain _) fun _ _ => by
    simp [decDqpopExt, Raw.m5]

/-! ## Memory (R205 to R221) -/

theorem coded_memTop {k : Bool → Reg → Reg → BitVec 7 → Instr} {maj : BitVec 7}
    (hwf : ∀ w d a disp, (k w d a disp).wf = (baseReg d && (baseReg a && pairOk a)))
    (hraw : ∀ w d a disp, (k w d a disp).raw = some (encTop maj w (BitVec.ofBool true ++ disp ++ (reg8to7 a) ++ (reg8to7 d))))
    (hmaj : ∀ r : Raw, r.op = maj → r.l = 0#2 → decodeRaw r = (firstBad [(6, !r.bi), (8, !pairOk (reg7 r.ba))]
        (k r.w (reg7 r.bd) (reg7 r.ba) r.bb)))
    (w : Bool) (d : Reg) (a : Reg) (disp : BitVec 7) : (k w d a disp).Coded :=
  coded_top (hraw ..) hmaj fun h => by
    rw [hwf] at h
    simp at h
    simp only [encTop_bi, encTop_ba, encTop_bb, encTop_bd, encTop_w]
    simp [h]
theorem coded_ldExt (c0 : Ctl) (ord : Bool) (width : BitVec 3) (scope : BitVec 3) (hint : BitVec 2) (d : Reg) (a : Reg) (disp : Disp) :
    (Instr.ldExt c0 ord width scope hint d a disp).Coded :=
  coded_both rfl (disp_canon _) (fun r hop => by rw [decodeRaw, hop]; rfl) (fun h => by
    simp only [Instr.wf, Bool.and_eq_true] at h
    exact fits_disp_base h.2 (fun hp => by simp_all)) fun h hx => by
    simp [Instr.wf] at h
    simp [decLdExt, Raw.m5, BitVec.and_or_distrib_right, hx, h]
    have hscope : ord = false → scope.setWidth 4 = 0#4 := fun ho => by rw [h.1.2.resolve_left (by simp [ho])]; rfl
    exact firstBad_of_all (by simpa using hscope)
theorem coded_ldz (c0 : Ctl) (width : BitVec 3) (hint : BitVec 2) (d : Reg) (pc : BitVec 3) (a : Reg) (disp : Disp) :
    (Instr.ldz c0 width hint d pc a disp).Coded :=
  coded_single rfl (disp_canon _) (fun r hop _ => by rw [decodeRaw, hop]; rfl) (xf_l_ne_disp) (fun h => by
    simp only [Instr.wf, Bool.and_eq_true] at h
    simp [h]) fun h hb => by
    simp [Instr.wf] at h
    simp [decLdz, Raw.m5, fits_of_ne (xf_l_ne_disp hb), hb, h]
theorem coded_stExt (c0 : Ctl) (ord : Bool) (width : BitVec 3) (scope : BitVec 3) (hint : BitVec 2) (d : Reg) (a : Reg) (disp : Disp) :
    (Instr.stExt c0 ord width scope hint d a disp).Coded :=
  coded_both rfl (disp_canon _) (fun r hop => by rw [decodeRaw, hop]; rfl) (fun h => by
    simp only [Instr.wf, Bool.and_eq_true] at h
    exact fits_disp_base h.2 (fun hp => by simp_all)) fun h hx => by
    simp [Instr.wf] at h
    simp [decStExt, Raw.m5, BitVec.and_or_distrib_right, hx, h]
    have hscope : ord = false → scope.setWidth 4 = 0#4 := fun ho => by rw [h.1.2.resolve_left (by simp [ho])]; rfl
    exact firstBad_of_all (by simpa using hscope)
theorem coded_stsTop {k : Bool → Reg → Reg → BitVec 7 → Instr} {maj : BitVec 7}
    (hwf : ∀ w d a disp, (k w d a disp).wf = (baseReg d && baseReg a))
    (hraw : ∀ w d a disp, (k w d a disp).raw = some (encTop maj w (BitVec.ofBool true ++ disp ++ (reg8to7 a) ++ (reg8to7 d))))
    (hmaj : ∀ r : Raw, r.op = maj → r.l = 0#2 → decodeRaw r = (firstBad [(6, !r.bi)] (k r.w (reg7 r.bd) (reg7 r.ba) r.bb)))
    (w : Bool) (d : Reg) (a : Reg) (disp : BitVec 7) : (k w d a disp).Coded :=
  coded_top (hraw ..) hmaj fun h => by
    rw [hwf] at h
    simp at h
    simp only [encTop_bi, encTop_ba, encTop_bb, encTop_bd, encTop_w]
    simp [h]
theorem coded_ldsExt (c0 : Ctl) (width : BitVec 3) (d : Reg) (a : Reg) (disp : Disp) : (Instr.ldsExt c0 width d a disp).Coded :=
  coded_both rfl (disp_canon _) (fun r hop => by rw [decodeRaw, hop]; rfl) (fun h => by
    simp only [Instr.wf, Bool.and_eq_true] at h
    exact fits_disp_base h.2 (fun hp => by simp_all)) fun h hx => by
    simp [Instr.wf] at h
    simp [decLdsExt, Raw.m5, hx, h]
theorem coded_stsExt (c0 : Ctl) (width : BitVec 3) (d : Reg) (a : Reg) (disp : Disp) : (Instr.stsExt c0 width d a disp).Coded :=
  coded_both rfl (disp_canon _) (fun r hop => by rw [decodeRaw, hop]; rfl) (fun h => by
    simp only [Instr.wf, Bool.and_eq_true] at h
    exact fits_disp_base h.2 (fun hp => by simp_all)) fun h hx => by
    simp [Instr.wf] at h
    simp [decStsExt, Raw.m5, hx, h]
theorem coded_ldcExt (c0 : Ctl) (width : BitVec 3) (hint : BitVec 2) (d : Reg) (a : Reg) (disp : Disp) :
    (Instr.ldcExt c0 width hint d a disp).Coded :=
  coded_both rfl (disp_canon _) (fun r hop => by rw [decodeRaw, hop]; rfl) (fun h => by
    simp only [Instr.wf, Bool.and_eq_true] at h
    exact fits_disp_base h.2 (fun hp => by simp_all)) fun h hx => by
    simp [Instr.wf] at h
    simp [decLdcExt, Raw.m5, hx, h]
theorem coded_atom {k : Ctl → Bool → Bool → BitVec 3 → Reg → Reg → Src → Instr} {maj : BitVec 7} {mi : BitVec 6}
    (hwf : ∀ c0 ord w64 scope d a b, (k c0 ord w64 scope d a b).wf = ((!w64 || pairOk d) && pairOk a && b.wf false w64 && (!w64 || b.pairOk)))
    (hraw : ∀ c0 ord w64 scope d a b, (k c0 ord w64 scope d a b).raw = some (encX maj mi c0 ((flagBit 0 ord)) d a 255#8 255#8 b.xf 0#4
        (scope.setWidth 4) (bif w64 then 5#4 else 0#4)))
    (hmaj : ∀ r : Raw, r.op = maj → r.minor = mi → decodeRaw r = r.extOnly (firstBad
        [(4, r.l4Ib), (5, r.m5 0x8003#16), (6, r.k6Imm || (r.xf0 != 5#4 && r.k6Hi) || r.k6Src), (7, r.mod.getLsbD 1),
        (7, r.xf0 != 0#4 && r.xf0 != 5#4), (7, !codeIn 0x00FF#16 r.xf1), (7, r.xf2 != 0#4), (8, (r.xf0 == 5#4) && !pairOk r.rd),
        (8, !pairOk r.ra), (8, (r.xf0 == 5#4) && !r.srcB.pairOk)] (k r.ctl (r.mod.getLsbD 0) (r.xf0 == 5#4) (r.xf1.extractLsb' 0 3) r.rd r.ra
        r.srcB)))
    (c0 : Ctl) (ord : Bool) (w64 : Bool) (scope : BitVec 3) (d : Reg) (a : Reg) (b : Src) : (k c0 ord w64 scope d a b).Coded :=
  coded_minor (hraw ..) (src_canon _) hmaj (xf_l_ne_src (w := w64)) (fun h => by
    simp only [hwf, Bool.and_eq_true] at h
    simp [h]) fun h hb => by
    rw [hwf] at h
    simp at h
    cases w64 <;> simp at h <;> simp [Raw.m5, BitVec.and_or_distrib_right, fits_of_ne (xf_l_ne_src hb), encX_src_l4Ib hb, encX_src_k6Hi hb, h]
theorem coded_atomCas (c0 : Ctl) (ord : Bool) (w64 : Bool) (scope : BitVec 3) (d : Reg) (a : Reg) (b : Src) (c : Reg) :
    (Instr.atomCas c0 ord w64 scope d a b c).Coded :=
  coded_minor rfl (src_canon _) (fun r hop hmi => by rw [decodeRaw, hop, hmi]; rfl) (xf_l_ne_src (w := w64)) (fun h => by
    simp only [Instr.wf, Bool.and_eq_true] at h
    simp [h]) fun h hb => by
    simp [Instr.wf] at h
    cases w64 <;> simp at h <;> simp [decAtomCas, Raw.m5, BitVec.and_or_distrib_right, fits_of_ne (xf_l_ne_src hb), encX_src_l4Ib hb,
        encX_src_k6Hi hb, h]
theorem coded_atomFadd (c0 : Ctl) (ord : Bool) (scope : BitVec 3) (d : Reg) (a : Reg) (b : Src) : (Instr.atomFadd c0 ord scope d a b).Coded :=
  coded_minor rfl (src_canon _) (fun r hop hmi => by rw [decodeRaw, hop, hmi]; rfl) (xf_l_ne_src (w := false)) (fun h => by
    simp only [Instr.wf, Bool.and_eq_true] at h
    simp [h]) fun h hb => by
    simp [Instr.wf] at h
    simp [decAtomFadd, Raw.m5, BitVec.and_or_distrib_right, fits_of_ne (xf_l_ne_src hb), encX_src_l4Ib hb, encX_src_k6Hi hb, h]
theorem coded_red {k : Ctl → Bool → BitVec 3 → Reg → Src → Instr} {maj : BitVec 7} {mi : BitVec 6}
    (hwf : ∀ c0 w64 scope a b, (k c0 w64 scope a b).wf = (pairOk a && b.wf false w64 && (!w64 || b.pairOk)))
    (hraw : ∀ c0 w64 scope a b, (k c0 w64 scope a b).raw = some (encX maj mi c0 (0#16) 255#8 a 255#8 255#8 b.xf 0#4 (scope.setWidth 4)
        (bif w64 then 5#4 else 0#4)))
    (hmaj : ∀ r : Raw, r.op = maj → r.minor = mi → decodeRaw r = r.extOnly (firstBad
        [(4, r.l4Ib), (5, r.m5 0x8003#16), (6, r.k6Imm || (r.xf0 != 5#4 && r.k6Hi) || r.k6Src), (7, r.xf0 != 0#4 && r.xf0 != 5#4),
        (7, !codeIn 0x00FF#16 r.xf1), (7, r.xf2 != 0#4), (7, r.mod.extractLsb' 0 2 != 0#2), (8, !pairOk r.ra),
        (8, (r.xf0 == 5#4) && !r.srcB.pairOk)] (k r.ctl (r.xf0 == 5#4) (r.xf1.extractLsb' 0 3) r.ra r.srcB)))
    (c0 : Ctl) (w64 : Bool) (scope : BitVec 3) (a : Reg) (b : Src) : (k c0 w64 scope a b).Coded :=
  coded_minor (hraw ..) (src_canon _) hmaj (xf_l_ne_src (w := w64)) (fun h => by
    simp only [hwf, Bool.and_eq_true] at h
    simp [h]) fun h hb => by
    rw [hwf] at h
    simp at h
    cases w64 <;> simp at h <;> simp [Raw.m5, fits_of_ne (xf_l_ne_src hb), encX_src_l4Ib hb, encX_src_k6Hi hb, h]
theorem coded_redFadd (c0 : Ctl) (scope : BitVec 3) (a : Reg) (b : Src) : (Instr.redFadd c0 scope a b).Coded :=
  coded_minor rfl (src_canon _) (fun r hop hmi => by rw [decodeRaw, hop, hmi]; rfl) (xf_l_ne_src (w := false)) (fun h => by
    simp only [Instr.wf, Bool.and_eq_true] at h
    simp [h]) fun h hb => by
    simp [Instr.wf] at h
    simp [decRedFadd, Raw.m5, fits_of_ne (xf_l_ne_src hb), encX_src_l4Ib hb, encX_src_k6Hi hb, h]
theorem coded_fence (c0 : Ctl) (scope : BitVec 3) : (Instr.fence c0 scope).Coded :=
  coded_single rfl (plain_canon _) (fun r hop _ => by rw [decodeRaw, hop]; rfl) (plain_ne _) (fun _ => trivial) fun _ _ => by
    simp [decFence, Raw.m5]
theorem coded_pref (c0 : Ctl) (lvl : BitVec 2) (hint : BitVec 2) (a : Reg) (disp : Disp) : (Instr.pref c0 lvl hint a disp).Coded :=
  coded_single rfl (disp_canon _) (fun r hop _ => by rw [decodeRaw, hop]; rfl) (xf_l_ne_disp) (fun h => by
    simp only [Instr.wf, Bool.and_eq_true] at h
    simp [h]) fun h hb => by
    simp [Instr.wf] at h
    simp [decPref, Raw.m5, fits_of_ne (xf_l_ne_disp hb), hb, h]
theorem coded_spres (c0 : Ctl) (pd : BitVec 3) (a : Reg) (disp : Disp) : (Instr.spres c0 pd a disp).Coded :=
  coded_single rfl (disp_canon _) (fun r hop _ => by rw [decodeRaw, hop]; rfl) (xf_l_ne_disp) (fun h => by
    simp only [Instr.wf] at h
    simp [h]) fun _ hb => by
    simp [decSpres, Raw.m5, fits_of_ne (xf_l_ne_disp hb), hb]
theorem coded_pgreq (c0 : Ctl) (blk : Bool) (pd : BitVec 3) (a : Reg) (disp : Disp) : (Instr.pgreq c0 blk pd a disp).Coded :=
  coded_single rfl (disp_canon _) (fun r hop _ => by rw [decodeRaw, hop]; rfl) (xf_l_ne_disp) (fun h => by
    simp only [Instr.wf, Bool.and_eq_true] at h
    simp [h]) fun h hb => by
    simp [Instr.wf] at h
    simp [decPgreq, Raw.m5, BitVec.and_or_distrib_right, fits_of_ne (xf_l_ne_disp hb), hb, h]
theorem coded_barReg {k : Ctl → Reg → BitVec 4 → Instr} {maj : BitVec 7} {mi : BitVec 6}
    (hraw : ∀ c0 d bar, (k c0 d bar).raw = some (encX maj mi c0 (0#16) d (bar.setWidth 8) 255#8 255#8 (Xf.plain 0#16) 0#4 0#4 0#4))
    (hmaj : ∀ r : Raw, r.op = maj → r.minor = mi → decodeRaw r = r.extOnly (firstBad
        [(4, r.l4Ext), (5, r.m5 0x0000#16), (6, (r.ximm != 0#16)), (7, r.xf0 != 0#4), (7, r.xf1 != 0#4), (7, r.xf2 != 0#4), (8, !(r.ra < 16#8))]
        (k r.ctl r.rd (r.ra.extractLsb' 0 4))))
    (c0 : Ctl) (d : Reg) (bar : BitVec 4) : (k c0 d bar).Coded :=
  coded_minor (hraw ..) (plain_canon _) hmaj (plain_ne _) (fun _ => trivial) fun _ _ => by
    simp [Raw.m5]
theorem coded_barSrc {k : Ctl → BitVec 4 → Src → Instr} {maj : BitVec 7} {mi : BitVec 6}
    (hwf : ∀ c0 bar b, (k c0 bar b).wf = (b.wf false false))
    (hraw : ∀ c0 bar b, (k c0 bar b).raw = some (encX maj mi c0 (0#16) 255#8 (bar.setWidth 8) 255#8 255#8 b.xf 0#4 0#4 0#4))
    (hmaj : ∀ r : Raw, r.op = maj → r.minor = mi → decodeRaw r = r.extOnly (firstBad
        [(4, r.l4Ib), (5, r.m5 0x8000#16), (6, r.k6Imm || r.k6Hi || r.k6Src), (7, r.xf0 != 0#4), (7, r.xf1 != 0#4), (7, r.xf2 != 0#4),
        (8, !(r.ra < 16#8))] (k r.ctl (r.ra.extractLsb' 0 4) r.srcB)))
    (c0 : Ctl) (bar : BitVec 4) (b : Src) : (k c0 bar b).Coded :=
  coded_minor (hraw ..) (src_canon _) hmaj (xf_l_ne_src (w := false)) (fun h => by
    simp only [hwf] at h
    simp [h]) fun _ hb => by
    simp [Raw.m5, fits_of_ne (xf_l_ne_src hb), encX_src_l4Ib hb, encX_src_k6Hi hb]
theorem coded_cvset (c0 : Ctl) (n1 : BitVec 7) (cv : BitVec 4) (b : Src) : (Instr.cvset c0 n1 cv b).Coded :=
  coded_single rfl (src_canon _) (fun r hop _ => by rw [decodeRaw, hop]; rfl) (xf_l_ne_src (w := false)) (fun h => by
    simp only [Instr.wf] at h
    simp [h]) fun _ hb => by
    simp [decCvset, Raw.m5, BitVec.and_or_distrib_right, BitVec.extractLsb'_or, fits_of_ne (xf_l_ne_src hb), encX_src_l4Ib hb, encX_src_k6Hi hb]

/-! ## Kiln and engines (R260 to R348) -/

theorem coded_rsvq {k : Ctl → BitVec 4 → Reg → Instr} {maj : BitVec 7} {mi : BitVec 6}
    (hwf : ∀ c0 stk d, (k c0 stk d).wf = (pairOk d && !(stk != 0#4 && stk < 8#4)))
    (hraw : ∀ c0 stk d, (k c0 stk d).raw = some (encX maj mi c0 ((stk.setWidth 16 <<< 0)) d 255#8 255#8 255#8 (Xf.plain 0#16) 0#4 0#4 0#4))
    (hmaj : ∀ r : Raw, r.op = maj → r.minor = mi → decodeRaw r = r.extOnly (firstBad
        [(4, r.l4Ext), (5, r.m5 0x000F#16), (6, (r.ximm != 0#16)), (7, r.xf0 != 0#4), (7, r.xf1 != 0#4), (7, r.xf2 != 0#4),
        (7, (r.mod.extractLsb' 0 4) != 0#4 && (r.mod.extractLsb' 0 4) < 8#4), (8, !pairOk r.rd)] (k r.ctl (r.mod.extractLsb' 0 4) r.rd)))
    (c0 : Ctl) (stk : BitVec 4) (d : Reg) : (k c0 stk d).Coded :=
  coded_minor (hraw ..) (plain_canon _) hmaj (plain_ne _) (fun _ => trivial) fun h _ => by
    rw [hwf] at h
    simp at h
    simp [Raw.m5, h]
    exact firstBad_of_all (by simp; tauto)
theorem coded_blksz (c0 : Ctl) (wb : Bool) (d : Reg) (a : Reg) (disp : Disp) : (Instr.blksz c0 wb d a disp).Coded :=
  coded_single rfl (disp_canon _) (fun r hop _ => by rw [decodeRaw, hop]; rfl) (xf_l_ne_disp) (fun h => by
    simp only [Instr.wf, Bool.and_eq_true] at h
    simp [h]) fun h hb => by
    simp [Instr.wf] at h
    simp [decBlksz, Raw.m5, BitVec.and_or_distrib_right, fits_of_ne (xf_l_ne_disp hb), hb, h]
theorem coded_blkfill (c0 : Ctl) (a : Reg) (disp : Disp) (c : Reg) : (Instr.blkfill c0 a disp c).Coded :=
  coded_single rfl (disp_canon _) (fun r hop _ => by rw [decodeRaw, hop]; rfl) (xf_l_ne_disp) (fun h => by
    simp only [Instr.wf, Bool.and_eq_true] at h
    simp [h]) fun h hb => by
    simp [Instr.wf] at h
    simp [decBlkfill, Raw.m5, fits_of_ne (xf_l_ne_disp hb), hb, h]
    exact firstBad_of_all (by simp; tauto)
theorem coded_balq (c0 : Ctl) (d : Reg) : (Instr.balq c0 d).Coded :=
  coded_single rfl (plain_canon _) (fun r hop _ => by rw [decodeRaw, hop]; rfl) (plain_ne _) (fun _ => trivial) fun h _ => by
    simp [Instr.wf] at h
    simp [decBalq, Raw.m5, h]
theorem coded_pageRow {k : Ctl → Reg → Disp → Instr} {maj : BitVec 7}
    (hwf : ∀ c0 a disp, (k c0 a disp).wf = (pairOk a && disp.wf false))
    (hraw : ∀ c0 a disp, (k c0 a disp).raw = some (encX maj 0#6 c0 (0#16) 255#8 a 255#8 255#8 disp.xf 0#4 0#4 0#4))
    (hmaj : ∀ r : Raw, r.op = maj → r.xf0 = 0#4 → decodeRaw r = r.extOnly (r.single
        (firstBad [(4, r.l4Ib), (5, r.m5 0x8000#16), (6, r.k6Imm || r.k6Hi || r.k6Disp), (7, r.xf0 != 0#4), (7, r.xf1 != 0#4), (7, r.xf2 != 0#4),
        (8, !pairOk r.ra)] (k r.ctl r.ra r.disp))))
    (c0 : Ctl) (a : Reg) (disp : Disp) : (k c0 a disp).Coded :=
  coded_single (hraw ..) (disp_canon _) hmaj (xf_l_ne_disp) (fun h => by
    simp only [hwf, Bool.and_eq_true] at h
    simp [h]) fun h hb => by
    rw [hwf] at h
    simp at h
    simp [Raw.m5, fits_of_ne (xf_l_ne_disp hb), hb, h]
theorem coded_wload (c0 : Ctl) (sparse : BitVec 2) (hadn : BitVec 2) (fmt : BitVec 4) (a : Reg) (b : Src) (c : Reg) :
    (Instr.wload c0 sparse hadn fmt a b c).Coded :=
  coded_single rfl (src_canon _) (fun r hop _ => by rw [decodeRaw, hop]; rfl) (xf_l_ne_src (w := false)) (fun h => by
    simp only [Instr.wf, Bool.and_eq_true] at h
    simp [h]) fun h hb => by
    simp [Instr.wf] at h
    simp [decWload, Raw.m5, BitVec.and_or_distrib_right, BitVec.extractLsb'_or, fits_of_ne (xf_l_ne_src hb), encX_src_l4Ib hb, encX_src_k6Hi hb,
        h]
    exact firstBad_of_all (by simp; tauto)
theorem coded_mma (c0 : Ctl) (row0 : BitVec 7) (z : Bool) (as : Bool) (ksz : BitVec 2) (kh : Bool) (fmt : BitVec 4) (t : BitVec 3) (a : Reg)
    (cv : BitVec 4) : (Instr.mma c0 row0 z as ksz kh fmt t a cv).Coded :=
  coded_single rfl (plain_canon _) (fun r hop _ => by rw [decodeRaw, hop]; rfl) (plain_ne _) (fun _ => trivial) fun h _ => by
    simp [Instr.wf] at h
    simp [decMma, Raw.m5, BitVec.and_or_distrib_right, BitVec.extractLsb'_or, h]
    exact firstBad_of_all (by simp; grind)
theorem coded_mmam (c0 : Ctl) (row0 : BitVec 7) (z : Bool) (as : Bool) (ksz : BitVec 2) (sp : Bool) (fmt : BitVec 4) (t : BitVec 3) (a : Reg)
    (cv : BitVec 4) (disp : Disp) : (Instr.mmam c0 row0 z as ksz sp fmt t a cv disp).Coded :=
  coded_single rfl (dispPlain_canon _) (fun r hop _ => by rw [decodeRaw, hop]; rfl) (xfPlain_l_ne) (fun h => by
    simp only [Instr.wf, Bool.and_eq_true] at h
    simp [h]) fun h hb => by
    simp [Instr.wf] at h
    simp [decMmam, Raw.m5, BitVec.and_or_distrib_right, BitVec.extractLsb'_or, fits_of_ne (xfPlain_l_ne hb), hb, h]
    exact firstBad_of_all (by simp; grind)
theorem coded_aclr (c0 : Ctl) (t : BitVec 3) : (Instr.aclr c0 t).Coded :=
  coded_single rfl (plain_canon _) (fun r hop _ => by rw [decodeRaw, hop]; rfl) (plain_ne _) (fun _ => trivial) fun _ _ => by
    simp [decAclr, Raw.m5]
theorem coded_ard (c0 : Ctl) (chunk : BitVec 3) (d : Reg) (t : BitVec 3) (b : Src) : (Instr.ard c0 chunk d t b).Coded :=
  coded_single rfl (src_canon _) (fun r hop _ => by rw [decodeRaw, hop]; rfl) (xf_l_ne_src (w := false)) (fun h => by
    simp only [Instr.wf, Bool.and_eq_true] at h
    simp [h]) fun h hb => by
    simp [Instr.wf] at h
    simp [decArd, Raw.m5, BitVec.and_or_distrib_right, BitVec.extractLsb'_or, fits_of_ne (xf_l_ne_src hb), encX_src_l4Ib hb, encX_src_k6Hi hb, h]
theorem coded_awr (c0 : Ctl) (chunk : BitVec 3) (t : BitVec 3) (a : Reg) (b : Src) : (Instr.awr c0 chunk t a b).Coded :=
  coded_single rfl (src_canon _) (fun r hop _ => by rw [decodeRaw, hop]; rfl) (xf_l_ne_src (w := false)) (fun h => by
    simp only [Instr.wf, Bool.and_eq_true] at h
    simp [h]) fun h hb => by
    simp [Instr.wf] at h
    simp [decAwr, Raw.m5, BitVec.and_or_distrib_right, BitVec.extractLsb'_or, fits_of_ne (xf_l_ne_src hb), encX_src_l4Ib hb, encX_src_k6Hi hb, h]
theorem coded_adrain (c0 : Ctl) (sat : Bool) (clr : Bool) (sp : Bool) (scale : BitVec 8) (fmt : BitVec 4) (t : BitVec 3) (a : Reg) (b : Src)
    (c : Reg) : (Instr.adrain c0 sat clr sp scale fmt t a b c).Coded :=
  coded_single rfl (src_canon _) (fun r hop _ => by rw [decodeRaw, hop]; rfl) (xf_l_ne_src (w := false)) (fun h => by
    simp only [Instr.wf, Bool.and_eq_true] at h
    simp [h]) fun h hb => by
    simp [Instr.wf] at h
    simp [decAdrain, Raw.m5, BitVec.and_or_distrib_right, BitVec.extractLsb'_or, fits_of_ne (xf_l_ne_src hb), encX_src_l4Ib hb, encX_src_k6Hi hb,
        h]
    exact firstBad_of_all (by cases sp <;> simp_all)
theorem coded_fieldless {k : Ctl → Instr} {maj : BitVec 7}
    (hraw : ∀ c0, (k c0).raw = some (encX maj 0#6 c0 (0#16) 255#8 255#8 255#8 255#8 (Xf.plain 0#16) 0#4 0#4 0#4))
    (hmaj : ∀ r : Raw, r.op = maj → r.xf0 = 0#4 → decodeRaw r = r.extOnly (r.single
        (firstBad [(4, r.l4Ext), (5, r.m5 0x0000#16), (6, (r.ximm != 0#16)), (7, r.xf0 != 0#4), (7, r.xf1 != 0#4), (7, r.xf2 != 0#4)] (k r.ctl))))
    (c0 : Ctl) : (k c0).Coded :=
  coded_single (hraw ..) (plain_canon _) hmaj (plain_ne _) (fun _ => trivial) fun _ _ => by
    simp [Raw.m5]
theorem coded_mstat (c0 : Ctl) (keep : Bool) (d : Reg) : (Instr.mstat c0 keep d).Coded :=
  coded_single rfl (plain_canon _) (fun r hop _ => by rw [decodeRaw, hop]; rfl) (plain_ne _) (fun _ => trivial) fun _ _ => by
    simp [decMstat, Raw.m5]
theorem coded_xcfg (c0 : Ctl) (depth : BitVec 4) (meth : BitVec 2) (x : BitVec 3) (a : Reg) (b : Src) (c : Reg) :
    (Instr.xcfg c0 depth meth x a b c).Coded :=
  coded_single rfl (src_canon _) (fun r hop _ => by rw [decodeRaw, hop]; rfl) (xf_l_ne_src (w := false)) (fun h => by
    simp only [Instr.wf, Bool.and_eq_true] at h
    simp [h]) fun h hb => by
    simp [Instr.wf] at h
    simp [decXcfg, Raw.m5, BitVec.and_or_distrib_right, BitVec.extractLsb'_or, fits_of_ne (xf_l_ne_src hb), encX_src_l4Ib hb, encX_src_k6Hi hb, h]
    exact firstBad_of_all (by simp [h])
theorem coded_xpush (c0 : Ctl) (x : BitVec 3) (a : Reg) (pc : BitVec 3) : (Instr.xpush c0 x a pc).Coded :=
  coded_single rfl (plain_canon _) (fun r hop _ => by rw [decodeRaw, hop]; rfl) (plain_ne _) (fun _ => trivial) fun _ _ => by
    simp [decXpush, Raw.m5]
theorem coded_xest (c0 : Ctl) (d : Reg) (x : BitVec 3) (pc : BitVec 3) : (Instr.xest c0 d x pc).Coded :=
  coded_single rfl (plain_canon _) (fun r hop _ => by rw [decodeRaw, hop]; rfl) (plain_ne _) (fun _ => trivial) fun h _ => by
    simp [Instr.wf] at h
    simp [decXest, Raw.m5, h]
theorem coded_xclr (c0 : Ctl) (x : BitVec 3) : (Instr.xclr c0 x).Coded :=
  coded_minor rfl (plain_canon _) (fun r hop hmi => by rw [decodeRaw, hop, hmi]; rfl) (plain_ne _) (fun _ => trivial) fun _ _ => by
    simp [decXclr, Raw.m5]
theorem coded_tcopy (c0 : Ctl) (dir : BitVec 2) (cmode : BitVec 2) (scope : BitVec 3) (d : Reg) (a : Reg) (b : Reg) (c : Reg) :
    (Instr.tcopy c0 dir cmode scope d a b c).Coded :=
  coded_single rfl (plain_canon _) (fun r hop _ => by rw [decodeRaw, hop]; rfl) (plain_ne _) (fun _ => trivial) fun h _ => by
    simp [Instr.wf] at h
    simp [decTcopy, Raw.m5, BitVec.and_or_distrib_right, BitVec.extractLsb'_or, h]
    exact firstBad_of_all (by simp; tauto)
theorem coded_chain (c0 : Ctl) (cmode : BitVec 1) (scope : BitVec 3) (d : Reg) (a : Reg) (c : Reg) : (Instr.chain c0 cmode scope d a c).Coded :=
  coded_single rfl (plain_canon _) (fun r hop _ => by rw [decodeRaw, hop]; rfl) (plain_ne _) (fun _ => trivial) fun h _ => by
    simp [Instr.wf] at h
    simp [decChain, Raw.m5, h]
theorem coded_ctwait (c0 : Ctl) (sp : Bool) (scope : BitVec 3) (d : Reg) (a : Reg) (b : Src) : (Instr.ctwait c0 sp scope d a b).Coded :=
  coded_single rfl (src_canon _) (fun r hop _ => by rw [decodeRaw, hop]; rfl) (xf_l_ne_src (w := true)) (fun h => by
    simp only [Instr.wf, Bool.and_eq_true] at h
    simp [h]) fun h hb => by
    simp [Instr.wf] at h
    simp [decCtwait, Raw.m5, BitVec.and_or_distrib_right, fits_of_ne (xf_l_ne_src hb), encX_src_l4Ib hb, h]
    refine firstBad_of_all ?_
    cases sp with
    | true => simp_all
    | false => simp_all [codeIn_high]
theorem coded_chkill (c0 : Ctl) (a : Reg) : (Instr.chkill c0 a).Coded :=
  coded_single rfl (plain_canon _) (fun r hop _ => by rw [decodeRaw, hop]; rfl) (plain_ne _) (fun _ => trivial) fun _ _ => by
    simp [decChkill, Raw.m5]

/-! ## Tasks and the system (R252 to R256, R383 to R393) -/

theorem coded_spawn (c0 : Ctl) (d : Reg) (a : Reg) (b : Reg) (c : Reg) (off : Disp) : (Instr.spawn c0 d a b c off).Coded :=
  coded_single rfl (dispPlain_canon _) (fun r hop _ => by rw [decodeRaw, hop]; rfl) (xfPlain_l_ne) (fun h => by
    simp only [Instr.wf, Bool.and_eq_true] at h
    simp [h]) fun h hb => by
    simp [Instr.wf] at h
    simp [decSpawn, Raw.m5, fits_of_ne (xfPlain_l_ne hb), hb, h]
theorem coded_enqn (c0 : Ctl) (a : Reg) (b : Src) : (Instr.enqn c0 a b).Coded :=
  coded_single rfl (src_canon _) (fun r hop _ => by rw [decodeRaw, hop]; rfl) (xf_l_ne_src (w := false)) (fun h => by
    simp only [Instr.wf, Bool.and_eq_true] at h
    simp [h]) fun h hb => by
    simp [Instr.wf] at h
    simp [decEnqn, Raw.m5, fits_of_ne (xf_l_ne_src hb), encX_src_l4Ib hb, encX_src_k6Hi hb, h]
theorem coded_jdec (c0 : Ctl) (d : Reg) (a : Reg) (b : Src) : (Instr.jdec c0 d a b).Coded :=
  coded_single rfl (src_canon _) (fun r hop _ => by rw [decodeRaw, hop]; rfl) (xf_l_ne_src (w := false)) (fun h => by
    simp only [Instr.wf] at h
    simp [h]) fun _ hb => by
    simp [decJdec, Raw.m5, fits_of_ne (xf_l_ne_src hb), encX_src_l4Ib hb, encX_src_k6Hi hb]
theorem coded_taskq {k : Ctl → Reg → Src → Instr} {maj : BitVec 7} {kd : BitVec 4}
    (hwf : ∀ c0 d b, (k c0 d b).wf = (b.wf false false))
    (hraw : ∀ c0 d b, (k c0 d b).raw = some (encX maj 0#6 c0 (0#16) d 255#8 255#8 255#8 b.xf 0#4 0#4 kd))
    (hmaj : ∀ r : Raw, r.op = maj → r.xf0 = kd → decodeRaw r = r.extOnly (r.single
        (firstBad [(4, r.l4Ib), (5, r.m5 0x8000#16), (6, r.k6Imm || r.k6Hi), (7, r.xf1 != 0#4), (7, r.xf2 != 0#4)] (k r.ctl r.rd r.srcB))))
    (c0 : Ctl) (d : Reg) (b : Src) : (k c0 d b).Coded :=
  coded_single (hraw ..) (src_canon _) hmaj (xf_l_ne_src (w := false)) (fun h => by
    simp only [hwf] at h
    simp [h]) fun _ hb => by
    simp [Raw.m5, fits_of_ne (xf_l_ne_src hb), encX_src_l4Ib hb, encX_src_k6Hi hb]
theorem coded_stkho (c0 : Ctl) (die : BitVec 1) (scope : BitVec 3) (a : Reg) (b : Src) : (Instr.stkho c0 die scope a b).Coded :=
  coded_single rfl (src_canon _) (fun r hop _ => by rw [decodeRaw, hop]; rfl) (xf_l_ne_src (w := false)) (fun h => by
    simp only [Instr.wf, Bool.and_eq_true] at h
    simp [h]) fun h hb => by
    simp [Instr.wf] at h
    simp [decStkho, Raw.m5, BitVec.and_or_distrib_right, BitVec.extractLsb'_or, fits_of_ne (xf_l_ne_src hb), encX_src_l4Ib hb, encX_src_k6Hi hb,
        h]
theorem coded_flush {k : Ctl → BitVec 3 → Reg → Src → Instr} {maj : BitVec 7} {kd : BitVec 4}
    (hwf : ∀ c0 scope a b, (k c0 scope a b).wf = (pairOk a && b.wf false false && codeIn 0x0074#16 (scope.setWidth 4)))
    (hraw : ∀ c0 scope a b, (k c0 scope a b).raw = some (encX maj 0#6 c0 (0#16) 255#8 a 255#8 255#8 b.xf 0#4 (scope.setWidth 4) kd))
    (hmaj : ∀ r : Raw, r.op = maj → r.xf0 = kd → decodeRaw r = r.extOnly (r.single
        (firstBad [(4, r.l4Ib), (5, r.m5 0x8000#16), (6, r.k6Imm || r.k6Hi), (7, !codeIn 0x0074#16 r.xf1), (7, r.xf2 != 0#4), (8, !pairOk r.ra)]
        (k r.ctl (r.xf1.extractLsb' 0 3) r.ra r.srcB))))
    (c0 : Ctl) (scope : BitVec 3) (a : Reg) (b : Src) : (k c0 scope a b).Coded :=
  coded_single (hraw ..) (src_canon _) hmaj (xf_l_ne_src (w := false)) (fun h => by
    simp only [hwf, Bool.and_eq_true] at h
    simp [h]) fun h hb => by
    rw [hwf] at h
    simp at h
    simp [Raw.m5, fits_of_ne (xf_l_ne_src hb), encX_src_l4Ib hb, encX_src_k6Hi hb, h]
theorem coded_tlbi {k : Ctl → BitVec 3 → Src → Instr} {maj : BitVec 7} {kd : BitVec 4}
    (hwf : ∀ c0 scope b, (k c0 scope b).wf = (b.wf false false && codeIn 0x0074#16 (scope.setWidth 4)))
    (hraw : ∀ c0 scope b, (k c0 scope b).raw = some (encX maj 0#6 c0 (0#16) 255#8 255#8 255#8 255#8 b.xf 0#4 (scope.setWidth 4) kd))
    (hmaj : ∀ r : Raw, r.op = maj → r.xf0 = kd → decodeRaw r = r.extOnly (r.single
        (firstBad [(4, r.l4Ib), (5, r.m5 0x8000#16), (6, r.k6Imm || r.k6Hi), (7, !codeIn 0x0074#16 r.xf1), (7, r.xf2 != 0#4)]
        (k r.ctl (r.xf1.extractLsb' 0 3) r.srcB))))
    (c0 : Ctl) (scope : BitVec 3) (b : Src) : (k c0 scope b).Coded :=
  coded_single (hraw ..) (src_canon _) hmaj (xf_l_ne_src (w := false)) (fun h => by
    simp only [hwf, Bool.and_eq_true] at h
    simp [h]) fun h hb => by
    rw [hwf] at h
    simp at h
    simp [Raw.m5, fits_of_ne (xf_l_ne_src hb), encX_src_l4Ib hb, encX_src_k6Hi hb, h]
theorem coded_ctxsw (c0 : Ctl) (force : Bool) (scope : BitVec 3) (d : Reg) (a : Reg) (b : Src) : (Instr.ctxsw c0 force scope d a b).Coded :=
  coded_single rfl (src_canon _) (fun r hop _ => by rw [decodeRaw, hop]; rfl) (xf_l_ne_src (w := false)) (fun h => by
    simp only [Instr.wf, Bool.and_eq_true] at h
    simp [h]) fun h hb => by
    simp [Instr.wf] at h
    simp [decCtxsw, Raw.m5, BitVec.and_or_distrib_right, fits_of_ne (xf_l_ne_src hb), encX_src_l4Ib hb, encX_src_k6Hi hb, h]

/-! ## All rows -/

/-- The words of every row decode to it; an event has none. -/
theorem coded (i : Instr) : i.Coded := by
  cases i with
  | ill x w l => exact coded_ill x w l
  | mov w d b => exact coded_mov w d b
  | movExt c0 d b => exact coded_movExt c0 d b
  | add w d a b | sub w d a b | mul w d a b | mulh w d a b | min w d a b | max w d a b
  | and w d a b | or w d a b | xor w d a b | shl w d a b | shr w d a b | sar w d a b
  | rot w d a b | bfx w d a b | fadd w d a b | fsub w d a b | fmul w d a b | fmin w d a b
  | fmax w d a b =>
    exact coded_alu (fun _ _ _ _ => rfl) (fun _ _ _ _ => rfl) (fun r hop hl => by rw [decodeRaw, hop, hl]; rfl) w d a b
  | addExt c0 sat d a b | subExt c0 sat d a b | mulhExt c0 sat d a b | minExt c0 sat d a b | maxExt c0 sat d a b | bfxExt c0 sat d a b =>
    exact coded_aluFlagExt (fun _ _ _ _ _ => rfl) (fun _ _ _ _ _ => rfl) (fun r hop => by rw [decodeRaw, hop]; rfl) c0 sat d a b
  | mulExt c0 d a b | andExt c0 d a b | orExt c0 d a b | xorExt c0 d a b | shlExt c0 d a b | shrExt c0 d a b
  | sarExt c0 d a b | rotExt c0 d a b | fminExt c0 d a b | fmaxExt c0 d a b =>
    exact coded_aluExt (fun _ _ _ _ => rfl) (fun _ _ _ _ => rfl) (fun r hop => by rw [decodeRaw, hop]; rfl) c0 d a b
  | mad c0 d a b c | bfi c0 d a b c =>
    exact coded_three (fun _ _ _ _ _ => rfl) (fun _ _ _ _ _ => rfl) (fun r hop _ => by rw [decodeRaw, hop]; rfl) c0 d a b c
  | sel c0 n d a b p => exact coded_sel c0 n d a b p
  | cmp c0 cc pd a b => exact coded_cmp c0 cc pd a b
  | plog c0 lut pd pa pb pc => exact coded_plog c0 lut pd pa pb pc
  | lea w d a b => exact coded_lea w d a b
  | leaExt c0 sh u d a b => exact coded_leaExt c0 sh u d a b
  | add64 c0 d a b | sub64 c0 d a b =>
    exact coded_pair (fun _ _ _ _ => rfl) (fun _ _ _ _ => rfl) (fun r hop hmi => by rw [decodeRaw, hop, hmi]; rfl) c0 d a b
  | shl64 c0 d a b | shr64 c0 d a b =>
    exact coded_pairShift (fun _ _ _ _ => rfl) (fun _ _ _ _ => rfl) (fun r hop hmi => by rw [decodeRaw, hop, hmi]; rfl) c0 d a b
  | cmp64 c0 cc pd a b => exact coded_cmp64 c0 cc pd a b
  | abs c0 sat d a | neg c0 sat d a =>
    exact coded_flagUnary (fun _ _ _ _ => rfl) (fun r hop hmi => by rw [decodeRaw, hop, hmi]; rfl) c0 sat d a
  | not c0 d a | popc c0 d a | clz c0 d a | brev c0 d a | sext8 c0 d a | sext16 c0 d a
  | zext8 c0 d a | zext16 c0 d a | fabs c0 d a | fneg c0 d a | fclass c0 d a | frcp c0 d a
  | frsq c0 d a | fexp2 c0 d a | flog2 c0 d a | fsin c0 d a | fcos c0 d a =>
    exact coded_unary (fun _ _ _ => rfl) (fun r hop hmi => by rw [decodeRaw, hop, hmi]; rfl) c0 d a
  | csrr w d num | csrw w d num =>
    exact coded_csr (fun _ _ _ => rfl) (fun _ _ _ => rfl) (fun r hop hl => by rw [decodeRaw, hop, hl]; rfl) w d num
  | csrrExt c0 d num => exact coded_csrrExt c0 d num
  | csrwExt c0 a num => exact coded_csrwExt c0 a num
  | nop w => exact coded_nop w
  | faddExt c0 rm d a b | fsubExt c0 rm d a b | fmulExt c0 rm d a b =>
    exact coded_fpExt (fun _ _ _ _ _ => rfl) (fun _ _ _ _ _ => rfl) (fun r hop => by rw [decodeRaw, hop]; rfl) c0 rm d a b
  | ffma c0 rm d a b c => exact coded_ffma c0 rm d a b c
  | fcmp c0 cc pd a b => exact coded_fcmp c0 cc pd a b
  | frint c0 rm d a | fsqrt c0 rm d a | i2f c0 rm d a | u2f c0 rm d a =>
    exact coded_rounded (fun _ _ _ _ => rfl) (fun _ _ _ _ => rfl) (fun r hop hmi => by rw [decodeRaw, hop, hmi]; rfl) c0 rm d a
  | hadd2 c0 rm fmt d a b | hmul2 c0 rm fmt d a b =>
    exact coded_packed (fun _ _ _ _ _ _ => rfl) (fun _ _ _ _ _ _ => rfl) (fun r hop hmi => by rw [decodeRaw, hop, hmi]; rfl) c0 rm fmt d a b
  | hfma2 c0 rm fmt d a b c => exact coded_hfma2 c0 rm fmt d a b c
  | hmin2 c0 fmt d a b | hmax2 c0 fmt d a b =>
    exact coded_packedMinmax (fun _ _ _ _ _ => rfl) (fun _ _ _ _ _ => rfl) (fun r hop hmi => by rw [decodeRaw, hop, hmi]; rfl) c0 fmt d a b
  | fdot2 c0 rm fmt d a b c => exact coded_fdot2 c0 rm fmt d a b c
  | fcvt c0 sat dir elt rm fmt d a => exact coded_fcvt c0 sat dir elt rm fmt d a
  | f2i c0 sat rm d a | f2u c0 sat rm d a =>
    exact coded_toInt (fun _ _ _ _ _ => rfl) (fun _ _ _ _ _ => rfl) (fun r hop hmi => by rw [decodeRaw, hop, hmi]; rfl) c0 sat rm d a
  | qnt c0 sat rm fmt d a b => exact coded_qnt c0 sat rm fmt d a b
  | dqnt c0 sat rm fmt d a b => exact coded_dqnt c0 sat rm fmt d a b
  | had c0 sz rm fmt d a => exact coded_had c0 sz rm fmt d a
  | cmpr c0 s48 fmt d a c => exact coded_cmpr c0 s48 fmt d a c
  | boxt c0 d a b => exact coded_boxt c0 d a b
  | trit c0 clip d a b pc => exact coded_trit c0 clip d a b pc
  | rebin c0 b a off => exact coded_rebin c0 b a off
  | shflIdx c0 seg d a b pc | shflUp c0 seg d a b pc | shflDown c0 seg d a b pc | shflXor c0 seg d a b pc =>
    exact coded_shfl (fun _ _ _ _ _ _ => rfl) (fun _ _ _ _ _ _ => rfl) (fun r hop hmi => by rw [decodeRaw, hop, hmi]; rfl) c0 seg d a b pc
  | voteAny c0 pd pa | voteAll c0 pd pa =>
    exact coded_votePred (fun _ _ _ => rfl) (fun r hop hmi => by rw [decodeRaw, hop, hmi]; rfl) c0 pd pa
  | voteBallot c0 d pa | xstat c0 d pa =>
    exact coded_regPred (fun _ _ _ => rfl) (fun r hop hmi => by rw [decodeRaw, hop, hmi]; rfl) c0 d pa
  | voteEq c0 pd a => exact coded_voteEq c0 pd a
  | gredAdd c0 seg d a | gredAnd c0 seg d a | gredOr c0 seg d a | gredXor c0 seg d a | gredFmin c0 seg d a | gredFmax c0 seg d a =>
    exact coded_gred (fun _ _ _ _ => rfl) (fun r hop hmi => by rw [decodeRaw, hop, hmi]; rfl) c0 seg d a
  | gredMin c0 u seg d a | gredMax c0 u seg d a =>
    exact coded_gredFlag (fun _ _ _ _ _ => rfl) (fun r hop hmi => by rw [decodeRaw, hop, hmi]; rfl) c0 u seg d a
  | gredFadd c0 rm seg d a => exact coded_gredFadd c0 rm seg d a
  | bra w off => exact coded_bra w off
  | brq w off => exact coded_brq w off
  | call w off => exact coded_call w off
  | brc w off n p => exact coded_brc w off n p
  | ret w | exit w | yield w | sret w =>
    exact coded_bare (fun _ => rfl) (fun r hop hl => by rw [decodeRaw, hop, hl]; rfl) w
  | retExt c0 | exitExt c0 | yieldExt c0 | sretExt c0 =>
    exact coded_bareExt (fun _ => rfl) (fun r hop => by rw [decodeRaw, hop]; rfl) c0
  | jarm w m | jwait w m | jdrop w m =>
    exact coded_maskTop (fun _ _ => rfl) (fun r hop hl => by rw [decodeRaw, hop, hl]; rfl) w m
  | jarmExt c0 m | jwaitExt c0 m | jdropExt c0 m =>
    exact coded_maskExt (fun _ _ => rfl) (fun r hop => by rw [decodeRaw, hop]; rfl) c0 m
  | trap w b | brk w b | dqpush w b =>
    exact coded_code (fun _ _ => rfl) (fun _ _ => rfl) (fun r hop hl => by rw [decodeRaw, hop, hl]; rfl) w b
  | trapExt c0 b | brkExt c0 b | dqpushExt c0 b =>
    exact coded_codeExt (fun _ _ => rfl) (fun _ _ => rfl) (fun r hop => by rw [decodeRaw, hop]; rfl) c0 b
  | dqpop w d => exact coded_dqpop w d
  | dqpopExt c0 d => exact coded_dqpopExt c0 d
  | ld w d a disp | st w d a disp | ldc w d a disp =>
    exact coded_memTop (fun _ _ _ _ => rfl) (fun _ _ _ _ => rfl) (fun r hop hl => by rw [decodeRaw, hop, hl]; rfl) w d a disp
  | ldExt c0 ord width scope hint d a disp => exact coded_ldExt c0 ord width scope hint d a disp
  | ldz c0 width hint d pc a disp => exact coded_ldz c0 width hint d pc a disp
  | stExt c0 ord width scope hint d a disp => exact coded_stExt c0 ord width scope hint d a disp
  | lds w d a disp | sts w d a disp =>
    exact coded_stsTop (fun _ _ _ _ => rfl) (fun _ _ _ _ => rfl) (fun r hop hl => by rw [decodeRaw, hop, hl]; rfl) w d a disp
  | ldsExt c0 width d a disp => exact coded_ldsExt c0 width d a disp
  | stsExt c0 width d a disp => exact coded_stsExt c0 width d a disp
  | ldcExt c0 width hint d a disp => exact coded_ldcExt c0 width hint d a disp
  | atomAdd c0 ord w64 scope d a b | atomMin c0 ord w64 scope d a b | atomMax c0 ord w64 scope d a b | atomUmin c0 ord w64 scope d a b
  | atomUmax c0 ord w64 scope d a b | atomAnd c0 ord w64 scope d a b
  | atomOr c0 ord w64 scope d a b | atomXor c0 ord w64 scope d a b | atomExch c0 ord w64 scope d a b =>
    exact coded_atom (fun _ _ _ _ _ _ _ => rfl) (fun _ _ _ _ _ _ _ => rfl) (fun r hop hmi => by rw [decodeRaw, hop, hmi]; rfl) c0 ord w64 scope d
        a b
  | atomCas c0 ord w64 scope d a b c => exact coded_atomCas c0 ord w64 scope d a b c
  | atomFadd c0 ord scope d a b => exact coded_atomFadd c0 ord scope d a b
  | redAdd c0 w64 scope a b | redMin c0 w64 scope a b | redMax c0 w64 scope a b | redUmin c0 w64 scope a b
  | redUmax c0 w64 scope a b | redAnd c0 w64 scope a b
  | redOr c0 w64 scope a b | redXor c0 w64 scope a b =>
    exact coded_red (fun _ _ _ _ _ => rfl) (fun _ _ _ _ _ => rfl) (fun r hop hmi => by rw [decodeRaw, hop, hmi]; rfl) c0 w64 scope a b
  | redFadd c0 scope a b => exact coded_redFadd c0 scope a b
  | fence c0 scope => exact coded_fence c0 scope
  | pref c0 lvl hint a disp => exact coded_pref c0 lvl hint a disp
  | spres c0 pd a disp => exact coded_spres c0 pd a disp
  | pgreq c0 blk pd a disp => exact coded_pgreq c0 blk pd a disp
  | barArr c0 d bar | barSync c0 d bar =>
    exact coded_barReg (fun _ _ _ => rfl) (fun r hop hmi => by rw [decodeRaw, hop, hmi]; rfl) c0 d bar
  | barWait c0 bar b | barExpect c0 bar b | barInit c0 bar b =>
    exact coded_barSrc (fun _ _ _ => rfl) (fun _ _ _ => rfl) (fun r hop hmi => by rw [decodeRaw, hop, hmi]; rfl) c0 bar b
  | cvset c0 n1 cv b => exact coded_cvset c0 n1 cv b
  | rsvqFree c0 stk d | rsvqPend c0 stk d | rsvqNominal c0 stk d | rsvqSurr c0 stk d =>
    exact coded_rsvq (fun _ _ _ => rfl) (fun _ _ _ => rfl) (fun r hop hmi => by rw [decodeRaw, hop, hmi]; rfl) c0 stk d
  | blksz c0 wb d a disp => exact coded_blksz c0 wb d a disp
  | blkfill c0 a disp c => exact coded_blkfill c0 a disp c
  | balq c0 d => exact coded_balq c0 d
  | pgsurr c0 a disp | pgrecl c0 a disp =>
    exact coded_pageRow (fun _ _ _ => rfl) (fun _ _ _ => rfl) (fun r hop _ => by rw [decodeRaw, hop]; rfl) c0 a disp
  | wload c0 sparse hadn fmt a b c => exact coded_wload c0 sparse hadn fmt a b c
  | mma c0 row0 z as ksz kh fmt t a cv => exact coded_mma c0 row0 z as ksz kh fmt t a cv
  | mmam c0 row0 z as ksz sp fmt t a cv disp => exact coded_mmam c0 row0 z as ksz sp fmt t a cv disp
  | aclr c0 t => exact coded_aclr c0 t
  | ard c0 chunk d t b => exact coded_ard c0 chunk d t b
  | awr c0 chunk t a b => exact coded_awr c0 chunk t a b
  | adrain c0 sat clr sp scale fmt t a b c => exact coded_adrain c0 sat clr sp scale fmt t a b c
  | wrel c0 | settle c0 =>
    exact coded_fieldless (fun _ => rfl) (fun r hop _ => by rw [decodeRaw, hop]; rfl) c0
  | mstat c0 keep d => exact coded_mstat c0 keep d
  | xcfg c0 depth meth x a b c => exact coded_xcfg c0 depth meth x a b c
  | xpush c0 x a pc => exact coded_xpush c0 x a pc
  | xest c0 d x pc => exact coded_xest c0 d x pc
  | xclr c0 x => exact coded_xclr c0 x
  | tcopy c0 dir cmode scope d a b c => exact coded_tcopy c0 dir cmode scope d a b c
  | chain c0 cmode scope d a c => exact coded_chain c0 cmode scope d a c
  | ctwait c0 sp scope d a b => exact coded_ctwait c0 sp scope d a b
  | chkill c0 a => exact coded_chkill c0 a
  | spawn c0 d a b c off => exact coded_spawn c0 d a b c off
  | enqn c0 a b => exact coded_enqn c0 a b
  | jdec c0 d a b => exact coded_jdec c0 d a b
  | taskqPrio c0 d b | taskqRestart c0 d b | taskqSettled c0 d b | taskqVlines c0 d b | taskqBqueue c0 d b | taskqNqueue c0 d b
  | taskqCursor c0 d b =>
    exact coded_taskq (fun _ _ _ => rfl) (fun _ _ _ => rfl) (fun r hop hf => by rw [decodeRaw, hop, hf]; rfl) c0 d b
  | stkho c0 die scope a b => exact coded_stkho c0 die scope a b
  | tlbiPage c0 scope a b | cflushClean c0 scope a b | cflushInv c0 scope a b | cflushDiscard c0 scope a b =>
    exact coded_flush (fun _ _ _ _ => rfl) (fun _ _ _ _ => rfl) (fun r hop hf => by rw [decodeRaw, hop, hf]; rfl) c0 scope a b
  | tlbiVdev c0 scope b | tlbiVdevn c0 scope b | tlbiAll c0 scope b =>
    exact coded_tlbi (fun _ _ _ => rfl) (fun _ _ _ => rfl) (fun r hop hf => by rw [decodeRaw, hop, hf]; rfl) c0 scope b
  | ctxsw c0 force scope d a b => exact coded_ctxsw c0 force scope d a b
  | _ =>
    intro r _ hr
    cases hr

/-- Settles O6: the row lemmas for decoding, and `raw` for which rows have words. -/
theorem decodeEncode : Obligations.DecodeEncode := by
  refine ⟨fun i ws hwf hws => ?_, fun i hraw => ?_, fun i hraw => by rw [encode, hraw]; rfl⟩
  · obtain ⟨r, hr, rfl⟩ := Option.map_eq_some_iff.1 hws
    exact coded i r hwf hr
  · obtain ⟨r, hr⟩ := Option.ne_none_iff_exists'.1 hraw
    exact ⟨r.words, by rw [encode, hr]; rfl⟩

end Sys2Proof
end

section
/-! SUPPORT. Memory's canonical form along what the model's functions give: a state, a state beside something else, a state that there may be (R354). -/

namespace Sys2Proof.Machine

/-! ## The form in each kind of result -/

/-- The state that is given beside something else has the form. -/
def FstCanonical {α : Type} (p : State × α) : Prop := MemCanonical p.1
/-- The state, where there is one, has the form. -/
def SomeCanonical (o : Option State) : Prop := ∀ t, o = some t → MemCanonical t
/-- The state beside something else, where there is one, has the form. -/
def SomeFst {α : Type} (o : Option (State × α)) : Prop := ∀ p, o = some p → MemCanonical p.1
/-- The state, where there is no error, has the form. -/
def OkCanonical {ε : Type} (r : Except ε State) : Prop := ∀ t, r = .ok t → MemCanonical t
/-- The state beside something else, where there is no error, has the form. -/
def OkFst {ε α : Type} (r : Except ε (State × α)) : Prop := ∀ p, r = .ok p → MemCanonical p.1
/-- The state that an outcome gives has the form. -/
def NextCanonical (r : Result) : Prop := ∀ t, r = .next t → MemCanonical t

section
variable {s t : State} {α β ε : Type}

/-- The form depends on the bytes alone. -/
theorem MemCanonical.of_mem (h : MemCanonical s) (ht : t.store.mem = s.store.mem) : MemCanonical t := by
  unfold MemCanonical
  rw [ht]
  exact h
theorem FstCanonical.mk {x : α} (h : MemCanonical t) : FstCanonical (t, x) := h
theorem FstCanonical.of_eq {p : State × α} {x : α} (h : FstCanonical p) (e : p = (t, x)) : MemCanonical t := by
  subst e
  exact h
theorem SomeCanonical.some (h : MemCanonical t) : SomeCanonical (some t) := fun _ e => Option.some.inj e ▸ h
theorem SomeCanonical.none : SomeCanonical none := fun t e => absurd e.symm (Option.some_ne_none t)
theorem SomeCanonical.of_eq {o : Option State} (h : SomeCanonical o) (e : o = Option.some t) : MemCanonical t := h t e
theorem MemCanonical.getD {o : Option State} (h : SomeCanonical o) (hs : MemCanonical s) : MemCanonical (o.getD s) := by
  cases o with
  | none => exact hs
  | some t => exact h t rfl
theorem SomeCanonical.map {o : Option α} {f : α → State} (h : ∀ x, o = Option.some x → MemCanonical (f x)) : SomeCanonical (o.map f) := by
  cases o with
  | none => exact .none
  | some x => exact .some (h x rfl)
theorem SomeCanonical.mapState {o : Option State} {f : State → State} (ho : SomeCanonical o) (h : ∀ t, MemCanonical t → MemCanonical (f t)) :
    SomeCanonical (o.map f) := .map fun t e => h t (ho t e)
theorem SomeCanonical.bind {o : Option α} {f : α → Option State} (h : ∀ x, o = Option.some x → SomeCanonical (f x)) :
    SomeCanonical (o.bind f) := by
  cases o with
  | none => exact .none
  | some x => exact h x rfl
theorem SomeCanonical.bindState {o : Option State} {f : State → Option State} (ho : SomeCanonical o)
    (h : ∀ t, MemCanonical t → SomeCanonical (f t)) : SomeCanonical (o.bind f) := .bind fun t e => h t (ho t e)
theorem SomeFst.some {x : α} (h : MemCanonical t) : SomeFst (some (t, x)) := fun _ e => Option.some.inj e ▸ h
theorem SomeFst.none : SomeFst (none : Option (State × α)) := fun t e => absurd e.symm (Option.some_ne_none t)
theorem SomeFst.of_eq {o : Option (State × α)} {x : α} (h : SomeFst o) (e : o = Option.some (t, x)) : MemCanonical t := h _ e
theorem OkCanonical.ok (h : MemCanonical t) : OkCanonical (.ok t : Except ε State) := fun _ e => Except.ok.inj e ▸ h
theorem OkCanonical.error {e : ε} : OkCanonical (.error e : Except ε State) := fun _ e => by simp at e
theorem OkCanonical.of_eq {r : Except ε State} (h : OkCanonical r) (e : r = .ok t) : MemCanonical t := h t e
theorem OkFst.ok {x : α} (h : MemCanonical t) : OkFst (.ok (t, x) : Except ε (State × α)) := fun _ e => Except.ok.inj e ▸ h
theorem OkFst.error {e : ε} : OkFst (.error e : Except ε (State × α)) := fun _ e => by simp at e
theorem OkFst.of_eq {r : Except ε (State × α)} {x : α} (h : OkFst r) (e : r = .ok (t, x)) : MemCanonical t := h _ e
theorem NextCanonical.next (h : MemCanonical t) : NextCanonical (.next t) := fun _ e => Host.Outcome.next.inj e ▸ h
theorem NextCanonical.of_eq {r : Result} (h : NextCanonical r) (e : r = .next t) : MemCanonical t := h t e
end

/-! ## The form in what ends a commit, a charge of a chain, an entry and a choice -/

/-- The state in which a commit ends, settled or failed, has the form. -/
def CommitCanonical : Commit → Prop
  | .done t => MemCanonical t
  | .failed t => MemCanonical t
  | .held => True
/-- The state in which a chain's charges are taken has the form. -/
def ChainChargeCanonical : ChainCharge → Prop
  | .taken t => MemCanonical t
  | .held => True
  | .refused _ _ _ => True
/-- The state that an entry of a chain leaves, performed or not, has the form. -/
def CStepCanonical : CStep → Prop
  | .go t _ => MemCanonical t
  | .stop t _ => MemCanonical t
/-- The states of the next move have the form: the one that an instruction runs on, or the one that is left and the one that a move performed already gives. -/
def MoveCanonical : Move → Prop
  | .run _ t => MemCanonical t
  | .done t r => MemCanonical t ∧ NextCanonical r

section
variable {t : State}

theorem CommitCanonical.of_done {c : Commit} (h : CommitCanonical c) (e : c = .done t) : MemCanonical t := by
  subst e
  exact h
theorem CommitCanonical.of_failed {c : Commit} (h : CommitCanonical c) (e : c = .failed t) : MemCanonical t := by
  subst e
  exact h
theorem ChainChargeCanonical.of_eq {c : ChainCharge} (h : ChainChargeCanonical c) (e : c = .taken t) : MemCanonical t := by
  subst e
  exact h
theorem CStepCanonical.of_go {c : CStep} {x : Chain} (h : CStepCanonical c) (e : c = .go t x) : MemCanonical t := by
  subst e
  exact h
theorem CStepCanonical.of_stop {c : CStep} {x : CStop} (h : CStepCanonical c) (e : c = .stop t x) : MemCanonical t := by
  subst e
  exact h
end

/-! ## The form along choices and folds -/

section
variable {α β γ : Type} {p : α → Prop}

theorem prop_cond (b : Bool) {x y : α} (h : p x) (k : p y) : p (bif b then x else y) := by cases b <;> assumption
theorem prop_ite (c : Prop) [Decidable c] {x y : α} (h : p x) (k : p y) : p (if c then x else y) := by split <;> assumption
theorem prop_foldl {f : α → β → α} (h : ∀ {t x}, p t → p (f t x)) (l : List β) : ∀ {a : α}, p a → p (l.foldl f a) := by
  induction l with
  | nil => exact fun ha => ha
  | cons x l ih => exact fun ha => ih (h ha)
theorem prop_findSome {q : Option α → Prop} {f : β → Option α} (hn : q none) (h : ∀ {x}, q (f x)) (l : List β) : q (l.findSome? f) := by
  induction l with
  | nil => exact hn
  | cons x l ih =>
    rw [List.findSome?_cons]
    split
    · next e => exact e ▸ h
    · exact ih
end

section
variable {s t : State} {α β ε : Type} {b : Bool} {c : Prop} [Decidable c] {l : List β}

theorem MemCanonical.cond {x y : State} (h : MemCanonical x) (k : MemCanonical y) : MemCanonical (bif b then x else y) := prop_cond b h k
theorem MemCanonical.ite {x y : State} (h : MemCanonical x) (k : MemCanonical y) : MemCanonical (if c then x else y) := prop_ite c h k
theorem FstCanonical.cond {x y : State × α} (h : FstCanonical x) (k : FstCanonical y) : FstCanonical (bif b then x else y) := prop_cond b h k
theorem FstCanonical.ite {x y : State × α} (h : FstCanonical x) (k : FstCanonical y) : FstCanonical (if c then x else y) := prop_ite c h k
theorem SomeCanonical.cond {x y : Option State} (h : SomeCanonical x) (k : SomeCanonical y) : SomeCanonical (bif b then x else y) := prop_cond b h k
theorem SomeCanonical.ite {x y : Option State} (h : SomeCanonical x) (k : SomeCanonical y) : SomeCanonical (if c then x else y) := prop_ite c h k
theorem SomeFst.cond {x y : Option (State × α)} (h : SomeFst x) (k : SomeFst y) : SomeFst (bif b then x else y) := prop_cond b h k
theorem OkFst.ite {x y : Except ε (State × α)} (h : OkFst x) (k : OkFst y) : OkFst (if c then x else y) := prop_ite c h k
theorem NextCanonical.cond {x y : Result} (h : NextCanonical x) (k : NextCanonical y) : NextCanonical (bif b then x else y) := prop_cond b h k
theorem CommitCanonical.ite {x y : Commit} (h : CommitCanonical x) (k : CommitCanonical y) : CommitCanonical (if c then x else y) := prop_ite c h k
theorem CStepCanonical.cond {x y : CStep} (h : CStepCanonical x) (k : CStepCanonical y) : CStepCanonical (bif b then x else y) := prop_cond b h k
theorem CStepCanonical.ite {x y : CStep} (h : CStepCanonical x) (k : CStepCanonical y) : CStepCanonical (if c then x else y) := prop_ite c h k
theorem MoveCanonical.cond {x y : Move} (h : MoveCanonical x) (k : MoveCanonical y) : MoveCanonical (bif b then x else y) := prop_cond b h k

theorem MemCanonical.foldl {f : State → β → State} (h : ∀ {t x}, MemCanonical t → MemCanonical (f t x)) (hs : MemCanonical s) :
    MemCanonical (l.foldl f s) := prop_foldl h l hs
theorem MemCanonical.foldlFst {f : State × α → β → State × α} {x : α} (h : ∀ {t x}, MemCanonical t.1 → MemCanonical (f t x).1)
    (hs : MemCanonical s) : MemCanonical (l.foldl f (s, x)).1 := prop_foldl (p := fun q : State × α => MemCanonical q.1) h l hs
theorem FstCanonical.foldl {f : State × α → β → State × α} (h : ∀ {t x}, FstCanonical t → FstCanonical (f t x)) {p : State × α}
    (hp : FstCanonical p) : FstCanonical (l.foldl f p) := prop_foldl h l hp
theorem SomeCanonical.findSome {f : β → Option State} (h : ∀ {x}, SomeCanonical (f x)) : SomeCanonical (l.findSome? f) :=
  prop_findSome .none h l
/-- A change of the store keeps the form where it keeps that of the bytes. -/
theorem MemCanonical.modStore {f : Store → Store} (h : (f s.store).mem.wf = true) : MemCanonical (s.modStore f) := h
theorem MemCanonical.keepStore {f : Store → Store} (hs : MemCanonical s) (h : (f s.store).mem = s.store.mem) : MemCanonical (s.modStore f) :=
  hs.of_mem h
/-- A change of anything but the store changes no byte. -/
theorem MemCanonical.of_store {lanes queues vdevs hearth now sched cur free moves} (h : MemCanonical s) :
    MemCanonical ⟨lanes, s.store, queues, vdevs, hearth, now, sched, cur, free, moves⟩ := h
end

end Sys2Proof.Machine
end

section
/-! SUPPORT. Memory stays canonical through memory accesses, translation, what a thread writes and ends with, and instructions issued (R354). -/

namespace Sys2Proof.Machine
set_option Elab.async false

/-! ## Accesses and charges -/

theorem modAgent_canonical {s a f} (hs : MemCanonical s) : MemCanonical (s.modAgent a f) :=
  hs.of_mem rfl
theorem modGroup_canonical {s g f} (hs : MemCanonical s) : MemCanonical (s.modGroup g f) :=
  hs.of_mem rfl
theorem modShare_canonical {s h f} (hs : MemCanonical s) : MemCanonical (s.modShare h f) :=
  hs.of_mem rfl
theorem modTask_canonical {s t f} (hs : MemCanonical s) : MemCanonical (s.modTask t f) :=
  hs.of_mem rfl
theorem modLaunch_canonical {s l f} (hs : MemCanonical s) : MemCanonical (s.modLaunch l f) :=
  hs.of_mem rfl
theorem modCore_canonical {s c f} (hs : MemCanonical s) : MemCanonical (s.modCore c f) :=
  hs.of_mem rfl
theorem modQueue_canonical {s q f} (hs : MemCanonical s) : MemCanonical (s.modQueue q f) :=
  hs.of_mem rfl
theorem modVdev_canonical {s v f} (hs : MemCanonical s) : MemCanonical (s.modVdev v f) :=
  hs.of_mem rfl
theorem modHearth_canonical {s f} (hs : MemCanonical s) : MemCanonical (s.modHearth f) :=
  hs.of_mem rfl
theorem modTele_canonical {s f} (hs : MemCanonical s) : MemCanonical (s.modTele f) :=
  modHearth_canonical hs

/-! ## The kiln -/

theorem setBlock_canonical {s b} (hs : MemCanonical s) : MemCanonical (s.setBlock b) :=
  .keepStore hs rfl
theorem modK_canonical {s v st f} (hs : MemCanonical s) : MemCanonical (s.modK v st f) :=
  .keepStore hs rfl
theorem refusedOn_canonical {s v st} (hs : MemCanonical s) : MemCanonical (s.refusedOn v st) :=
  modTele_canonical (modK_canonical hs)
theorem charge_canonical {s v pa rb} (hs : MemCanonical s) : FstCanonical (s.charge v pa rb) :=
  .cond (.mk hs) (.cond (.mk hs) (.cond (.mk (setBlock_canonical hs)) (.mk (refusedOn_canonical hs))))
theorem release_canonical {s no} (hs : MemCanonical s) : MemCanonical (s.release no) := hs.of_mem (release_mem s no)
theorem writeback_canonical {s no} (hs : MemCanonical s) : MemCanonical (s.writeback no) := hs.of_mem (writeback_mem s no)
theorem releaseIdle_canonical {l} : ∀ {s}, MemCanonical s → MemCanonical (s.releaseIdle l) := by
  induction l with
  | nil => exact id
  | cons no l ih => exact fun hs => ih (.cond (release_canonical hs) hs)
theorem chargeAs_canonical {s v pa rb} (hs : MemCanonical s) : MemCanonical (s.chargeAs v pa rb) := by
  unfold State.chargeAs
  split
  · next e => exact (charge_canonical hs).of_eq e
  · exact hs
theorem putBytes_canonical {s pa bs} (hs : MemCanonical s) : MemCanonical (s.putBytes pa bs) := by
  rw [MemCanonical, putBytes_mem]
  exact Mem.putN_wf bs pa hs

/-! ## Translation and pages -/

theorem setLeaf_canonical {s a e} (hs : MemCanonical s) : MemCanonical (s.setLeaf a e) := setLeaf_wf s a e hs
theorem dropTlb_canonical {s p} (hs : MemCanonical s) : MemCanonical (s.dropTlb p) :=
  .keepStore hs rfl
theorem dropPage_canonical {s v vpn} (hs : MemCanonical s) : MemCanonical (s.dropPage v vpn) :=
  dropTlb_canonical hs
theorem freePage_canonical {s base} (hs : MemCanonical s) : MemCanonical (s.freePage base) := freePage_wf s base hs
theorem bringPage_canonical {s v src dst} (hs : MemCanonical s) : MemCanonical (s.bringPage v src dst) := by
  have hbytes : MemCanonical (s.modStore fun m => { m with mem := m.mem.putN dst (s.readCommitted src 65536) }) :=
    Mem.putN_wf _ dst hs
  exact .foldl setBlock_canonical hbytes
theorem copyPage_canonical {s v src dst} (hs : MemCanonical s) : MemCanonical (s.copyPage v src dst) :=
  .cond (Mem.move_wf src dst _ (Mem.clear_wf dst 65536 hs)) (bringPage_canonical hs)
theorem replicate_canonical {s v src dst} (hs : MemCanonical s) : MemCanonical (s.replicate v src dst) :=
  .cond (Mem.move_wf src dst _ (Mem.clear_wf dst 65536 hs)) (bringPage_canonical hs)
theorem freshPage_canonical {s f} (hs : MemCanonical s) : MemCanonical (s.freshPage f) := Mem.clear_wf f 65536 hs
theorem cleanPage_canonical {s base} (hs : MemCanonical s) : MemCanonical (s.cleanPage base) :=
  .foldl writeback_canonical hs
theorem makeReplica_canonical {s v die va l} (hs : MemCanonical s) : SomeCanonical (s.makeReplica v die va l) :=
  .map fun _ _ => dropPage_canonical (setLeaf_canonical (.keepStore (replicate_canonical hs) rfl))
theorem followSigs_canonical {s old new} (hs : MemCanonical s) : MemCanonical (s.followSigs old new) :=
  .cond hs (.keepStore (hs.of_mem rfl) rfl)
theorem follow_canonical {s old new} (hs : MemCanonical s) : MemCanonical (s.follow old new) :=
  hs.of_mem rfl
theorem moveCharges_canonical {s v old new} (hs : MemCanonical s) : MemCanonical (s.moveCharges v old new) :=
  .foldl setBlock_canonical hs
theorem migrateTo_canonical {s v st va l} (hs : MemCanonical s) : MemCanonical (s.migrateTo v st va l) := by
  unfold State.migrateTo
  extract_lets vpn s1 f s2 s3 s4
  have h1 : MemCanonical s1 := .cond (cleanPage_canonical hs) hs
  have h2 : MemCanonical s2 := .cond (freshPage_canonical h1) (copyPage_canonical h1)
  have h3 : MemCanonical s3 := .cond (follow_canonical (freePage_canonical (moveCharges_canonical h2))) h2
  exact dropPage_canonical (setLeaf_canonical (followSigs_canonical h3))
theorem migrate_canonical {s v die va l} (hs : MemCanonical s) : SomeCanonical (s.migrate v die va l) :=
  .map fun _ _ => migrateTo_canonical hs
theorem makePageResident_canonical {s v die va dup} (hs : MemCanonical s) : SomeCanonical (s.makePageResident v die va dup) := by
  unfold State.makePageResident
  split
  · exact .none
  · exact .ite .none (.ite (.some hs) (.ite (makeReplica_canonical hs) (migrate_canonical hs)))
theorem collapse_canonical {s v d va} (hs : MemCanonical s) : MemCanonical (s.collapse v d va) := collapse_wf s v d va hs
theorem putTlb_canonical {s e ats} (hs : MemCanonical s) : MemCanonical (s.putTlb e ats) :=
  .keepStore hs rfl
theorem fillTlb_canonical {s v who va l replica} (hs : MemCanonical s) : MemCanonical (s.fillTlb v who va l replica) :=
  putTlb_canonical hs
theorem promote_canonical {s v who e} (hs : MemCanonical s) : MemCanonical (s.promote v who e) := by
  unfold State.promote
  dsimp only
  split
  · exact hs
  · split
    · exact putTlb_canonical hs
    · exact hs
  · exact putTlb_canonical hs
theorem collapseFor_canonical {s v die va} (hs : MemCanonical s) : MemCanonical (s.collapseFor v die va) := by
  unfold State.collapseFor
  split
  · exact .cond (collapse_canonical hs) hs
  · exact hs
theorem replicaFor_canonical {s v who va k} (hs : MemCanonical s) : MemCanonical (s.replicaFor v who va k) := by
  unfold State.replicaFor
  split
  · exact .cond (.getD (makeReplica_canonical hs) hs) hs
  · exact hs
theorem walkNow_canonical {s v who va k} (hs : MemCanonical s) : FstCanonical (s.walkNow v who va k) := by
  unfold State.walkNow
  dsimp only
  split
  · exact .mk hs
  · exact .mk hs
  · split
    · exact .cond (.mk hs) (.mk (fillTlb_canonical (setLeaf_canonical hs)))
    · exact .mk hs
    · exact .mk hs
theorem walkFor_canonical {s v who va k} (hs : MemCanonical s) : FstCanonical (s.walkFor v who va k) := by
  unfold State.walkFor
  split
  · exact .mk hs
  · exact .cond (.mk hs) (walkNow_canonical (.cond (collapseFor_canonical hs) (replicaFor_canonical hs)))
theorem xlat_canonical {s v who va k} (hs : MemCanonical s) : FstCanonical (s.xlat v who va k) := by
  unfold State.xlat
  dsimp only
  refine .ite (.mk hs) ?_
  split
  · exact .mk (.cond hs (promote_canonical hs))
  · exact walkFor_canonical hs
theorem translate_canonical {s v core va k} (hs : MemCanonical s) : FstCanonical (s.translate v core va k) :=
  xlat_canonical hs

/-! ## Versions -/

theorem collapseHome_canonical {s pa} (hs : MemCanonical s) : MemCanonical (s.collapseHome pa) := collapseHome_wf s pa hs
theorem post_canonical {s maker t pa bs} (hs : MemCanonical s) : MemCanonical (s.post maker t pa bs) :=
  .keepStore hs rfl
theorem writeCommitted_canonical {s maker t pa bs} (hs : MemCanonical s) : MemCanonical (s.writeCommitted maker t pa bs) :=
  .cond (putBytes_canonical (collapseHome_canonical hs)) (post_canonical hs)
theorem settleHome_canonical {s h11 pa n} (hs : MemCanonical s) :
    MemCanonical (s.settleHome h11 pa n) := hs.of_mem (settleHome_mem s h11 pa n)
theorem pinBlock_canonical {s b} (hs : MemCanonical s) : MemCanonical (s.pinBlock b) :=
  .cond hs (.foldl (fun h => .cond h (.keepStore h rfl)) hs)
theorem notePins_canonical {s} (hs : MemCanonical s) : MemCanonical (s.notePins) :=
  .cond hs (.foldl pinBlock_canonical (.keepStore (.foldl writeback_canonical hs) rfl))
theorem noteRead_canonical {s t pa n} (hs : MemCanonical s) : MemCanonical (s.noteRead t pa n) :=
  .cond (modTask_canonical hs) hs
theorem writeAs_canonical {s t maker pa bs} (hs : MemCanonical s) : MemCanonical (s.writeAs t maker pa bs) :=
  .cond (modTask_canonical hs) (writeCommitted_canonical hs)
theorem writeHome_canonical {s t maker pa h11 bs} (hs : MemCanonical s) : MemCanonical (s.writeHome t maker pa h11 bs) :=
  .cond (writeAs_canonical hs) (.cond (modTask_canonical (writeAs_canonical hs)) (settleHome_canonical (writeAs_canonical hs)))

/-! ## Registers, traps and ends -/

theorem wr_canonical {s ag lat d x} (hs : MemCanonical s) : MemCanonical (s.wr ag lat d x) := by
  unfold State.wr
  split
  · exact hs
  · exact modAgent_canonical hs
theorem wrReg_canonical {s ag lat r x} (hs : MemCanonical s) : MemCanonical (s.wrReg ag lat r x) :=
  wr_canonical hs
theorem wrPair_canonical {s ag lat r x} (hs : MemCanonical s) : MemCanonical (s.wrPair ag lat r x) :=
  wr_canonical (wr_canonical hs)
theorem wrPred_canonical {s ag lat p x} (hs : MemCanonical s) : MemCanonical (s.wrPred ag lat p x) :=
  wr_canonical hs
theorem out_canonical {s ag done fp ws flags} (hs : MemCanonical s) : MemCanonical (s.out ag done fp ws flags) :=
  .cond hs (modAgent_canonical hs)
theorem fillOut_canonical {s ag id ws} (hs : MemCanonical s) : MemCanonical (s.fillOut ag id ws) :=
  modAgent_canonical hs
theorem flagAt_canonical {s ag lat f} (hs : MemCanonical s) : MemCanonical (s.flagAt ag lat f) :=
  .cond hs (modAgent_canonical hs)
theorem chargeAll_canonical {l} : ∀ {s v}, MemCanonical s → OkCanonical (s.chargeAll v l) := by
  induction l with
  | nil => exact fun hs => .ok hs
  | cons x l ih =>
    intro s v hs
    rw [State.chargeAll]
    split
    · next h => exact ih ((charge_canonical hs).of_eq h)
    · exact .error
    · exact .error
theorem hearthPlaces_canonical {l} : ∀ {s v k}, MemCanonical s → FstCanonical (s.hearthPlaces v k l) := by
  induction l with
  | nil => exact fun hs => .mk hs
  | cons va l ih => exact fun hs => .mk (ih (xlat_canonical hs))
theorem hearthStore_canonical {s maker v va bs} (hs : MemCanonical s) : FstCanonical (s.hearthStore maker v va bs) := by
  unfold State.hearthStore
  dsimp only
  split
  · exact .mk (hearthPlaces_canonical hs)
  · split
    · exact .mk (hearthPlaces_canonical hs)
    · exact .mk (refusedOn_canonical (hearthPlaces_canonical hs))
    · next e =>
      exact .mk (.foldl (fun h => settleHome_canonical (writeCommitted_canonical h))
        ((chargeAll_canonical (hearthPlaces_canonical hs)).of_eq e))
theorem hearthTouch_canonical {s v va n} (hs : MemCanonical s) : MemCanonical (s.hearthTouch v va n) :=
  hearthPlaces_canonical hs
theorem hearthAdd_canonical {s maker v va x} (hs : MemCanonical s) : FstCanonical (s.hearthAdd maker v va x) := by
  unfold State.hearthAdd
  split
  · exact .mk hs
  · exact hearthStore_canonical hs
theorem hearthDo_canonical {s maker v va x} (hs : MemCanonical s) : FstCanonical (s.hearthDo maker v va x) := by
  unfold State.hearthDo
  split
  · exact hearthStore_canonical hs
  · exact hearthAdd_canonical hs
theorem hearthPost_canonical {s v kind va w} (hs : MemCanonical s) : MemCanonical (s.hearthPost v kind va w) := by
  unfold State.hearthPost
  split
  · next e => exact (hearthDo_canonical hs).of_eq e
  · next e => exact modHearth_canonical ((hearthDo_canonical hs).of_eq e)
  · next e => exact modTele_canonical ((hearthDo_canonical hs).of_eq e)
theorem hearthSignal_canonical {s v scope kind upTo va x} (hs : MemCanonical s) : MemCanonical (s.hearthSignal v scope kind upTo va x) :=
  .cond (modHearth_canonical hs) (hearthPost_canonical hs)
theorem hearthRecord_canonical {s v va bs count} (hs : MemCanonical s) : MemCanonical (s.hearthRecord v va bs count) := by
  unfold State.hearthRecord
  split
  · next e =>
    have h := (hearthDo_canonical hs).of_eq e
    split
    · exact hearthPost_canonical h
    · exact h
  · next e => exact modHearth_canonical ((hearthDo_canonical hs).of_eq e)
  · next e => exact modTele_canonical ((hearthDo_canonical hs).of_eq e)
theorem hyperPost_canonical {s v kind va w} (hs : MemCanonical s) : MemCanonical (s.hyperPost v kind va w) :=
  .cond (modHearth_canonical hs) (.foldl writeCommitted_canonical hs)
theorem hearthAgain_canonical {s x} (hs : MemCanonical s) : MemCanonical (s.hearthAgain x) := by
  unfold State.hearthAgain
  refine .cond (hyperPost_canonical hs) ?_
  split
  · exact hearthRecord_canonical hs
  · exact hearthSignal_canonical hs
  · exact hearthPost_canonical hs
theorem hearthResume_canonical {s} (hs : MemCanonical s) : MemCanonical (s.hearthResume) :=
  .foldl hearthAgain_canonical (modHearth_canonical hs)
theorem record_canonical {s l r} (hs : MemCanonical s) : MemCanonical (s.record l r) :=
  .cond (modTele_canonical (modVdev_canonical (modLaunch_canonical hs)))
    (hearthRecord_canonical (modVdev_canonical (modLaunch_canonical hs)))
theorem taskRecord_canonical {s t flags f supp} (hs : MemCanonical s) : MemCanonical (s.taskRecord t flags f supp) :=
  record_canonical hs
theorem modAgents_canonical {l} : ∀ {s f}, MemCanonical s → MemCanonical (s.modAgents f l) := by
  induction l with
  | nil => exact id
  | cons a l ih => exact fun hs => ih (modAgent_canonical hs)
theorem maskTest_canonical {s g m} (hs : MemCanonical s) : MemCanonical (s.maskTest g m) := by
  unfold State.maskTest
  dsimp only
  split
  · exact hs
  · exact .cond (modGroup_canonical (modAgents_canonical hs)) hs
theorem maskDrop_canonical {s g m i} (hs : MemCanonical s) : MemCanonical (s.maskDrop g m i) := by
  unfold State.maskDrop
  split
  · exact hs
  · exact maskTest_canonical (modGroup_canonical hs)
theorem maskDropAll_canonical {s g i} (hs : MemCanonical s) : MemCanonical (s.maskDropAll g i) :=
  .foldl maskDrop_canonical hs
theorem modBar_canonical {s t b f} (hs : MemCanonical s) : MemCanonical (s.modBar t b f) :=
  modTask_canonical hs
theorem noteBar_canonical {s t b rank} (hs : MemCanonical s) : MemCanonical (s.noteBar t b rank) :=
  modTask_canonical hs
theorem barTest_canonical {s t b} (hs : MemCanonical s) : MemCanonical (s.barTest t b) :=
  .cond (modAgents_canonical (modBar_canonical hs)) hs
theorem barArrive_canonical {s t b ag} (hs : MemCanonical s) : MemCanonical (s.barArrive t b ag) :=
  barTest_canonical (.cond (modBar_canonical (modAgent_canonical hs)) (modAgent_canonical hs))
theorem barLeave_canonical {s t g was} (hs : MemCanonical s) : MemCanonical (s.barLeave t g was) :=
  .foldl (fun h => .cond (barTest_canonical (modBar_canonical h)) h) hs
theorem modCv_canonical {s t c f} (hs : MemCanonical s) : MemCanonical (s.modCv t c f) :=
  modTask_canonical hs
theorem addAsync_canonical {s ag x} (hs : MemCanonical s) : MemCanonical (s.addAsync ag x) :=
  modAgent_canonical hs
theorem cvLeave_canonical {s t ag} (hs : MemCanonical s) : MemCanonical (s.cvLeave t ag) :=
  .foldl (fun h => .cond (modCv_canonical (.foldl addAsync_canonical h)) h) hs
theorem dqFree_canonical {s h} (hs : MemCanonical s) : MemCanonical (s.dqFree h) :=
  .cond (modAgent_canonical (modShare_canonical hs)) (modShare_canonical hs)
theorem freeRecord_canonical {s ag} (hs : MemCanonical s) : MemCanonical (s.freeRecord ag) := by
  unfold State.freeRecord
  dsimp only
  split
  · exact .cond (modLaunch_canonical hs) hs
  · exact hs
theorem endAgent_canonical {s ag} (hs : MemCanonical s) : MemCanonical (s.endAgent ag) := by
  unfold State.endAgent
  dsimp only
  refine .cond hs ?_
  split
  · exact modAgent_canonical (freeRecord_canonical hs)
  · exact dqFree_canonical (barLeave_canonical (cvLeave_canonical (maskDropAll_canonical (modAgent_canonical (freeRecord_canonical hs)))))
theorem killAgent_canonical {s ag} (hs : MemCanonical s) : MemCanonical (s.killAgent ag) :=
  endAgent_canonical (.foldl noteBar_canonical hs)
theorem discard_canonical {s t} (hs : MemCanonical s) : MemCanonical (s.discard t) := by
  refine .cond hs (releaseIdle_canonical (.of_store (modTask_canonical (.foldl (fun h => ?_) hs))))
  split
  · exact modLaunch_canonical h
  · exact h
theorem killTask_canonical {s t} (hs : MemCanonical s) : MemCanonical (s.killTask t) :=
  .cond hs (.foldl endAgent_canonical (modTask_canonical (discard_canonical hs)))
theorem unhandled_canonical {s ag cause pc addr info short supp} (hs : MemCanonical s) :
    MemCanonical (s.unhandled ag cause pc addr info short supp) := by
  unfold State.unhandled
  dsimp only
  split
  · exact killAgent_canonical (taskRecord_canonical hs)
  · exact modAgents_canonical (modAgent_canonical (taskRecord_canonical hs))
  · exact killTask_canonical (taskRecord_canonical hs)
theorem parkRecord_canonical {s ag deferred x} (hs : MemCanonical s) : MemCanonical (s.parkRecord ag deferred x) :=
  modAgent_canonical hs
theorem takeTrapWith_canonical {s ag cause pc addr info short supp} (hs : MemCanonical s) :
    MemCanonical (s.takeTrapWith ag cause pc addr info short supp) :=
  .cond (parkRecord_canonical (modAgent_canonical hs)) (.cond (taskRecord_canonical (modAgent_canonical (modAgent_canonical hs)))
    (.cond (unhandled_canonical (modAgent_canonical hs)) (modAgent_canonical (modAgent_canonical hs))))
theorem takeTrap_canonical {s ag cause pc addr info} (hs : MemCanonical s) : MemCanonical (s.takeTrap ag cause pc addr info) :=
  takeTrapWith_canonical hs
theorem markFault_canonical {s t f} (hs : MemCanonical s) : MemCanonical (s.markFault t f) :=
  modTask_canonical hs
theorem markCapacity_canonical {s t f pa} (hs : MemCanonical s) : MemCanonical (s.markCapacity t f pa) :=
  modTask_canonical (markFault_canonical hs)
theorem raise_canonical {s ag cause pc addr info} (hs : MemCanonical s) : MemCanonical (s.raise ag cause pc addr info) :=
  .cond (markFault_canonical hs) (takeTrap_canonical hs)
theorem deferred_canonical {s ag pc} (hs : MemCanonical s) : MemCanonical (s.deferred ag pc) := by
  unfold State.deferred
  dsimp only
  split
  · exact hs
  · exact .cond (parkRecord_canonical hs) (takeTrapWith_canonical (modAgent_canonical (taskRecord_canonical hs)))
theorem deliver_canonical {s ag} (hs : MemCanonical s) : MemCanonical (s.deliver ag) := by
  unfold State.deliver
  dsimp only
  refine .cond ?_ hs
  split
  · exact takeTrap_canonical (modAgent_canonical hs)
  · exact hs
theorem barTrap_canonical {s t b info} (hs : MemCanonical s) : MemCanonical (s.barTrap t b info) := by
  unfold State.barTrap
  refine .foldl (fun h => ?_) hs
  split
  · exact .cond (deliver_canonical (modAgent_canonical h)) h
  · exact h

/-! ## Issue -/

theorem perThread_canonical {f l} (hf : ∀ {a s}, MemCanonical s → FstCanonical (f a s)) :
    ∀ {s}, MemCanonical s → FstCanonical (perThread f l s) := by
  induction l with
  | nil => exact fun hs => .mk hs
  | cons a l ih => exact fun hs => .mk (ih (hf hs))
theorem plain_canonical {f l s} (hf : ∀ {x t}, MemCanonical t → MemCanonical (f x t)) (hs : MemCanonical s) : FstCanonical (plain f l s) :=
  perThread_canonical (fun h => .mk (hf h)) hs
theorem elected_canonical {f l s} (hf : ∀ {x t}, MemCanonical t → FstCanonical (f x t)) (hs : MemCanonical s) :
    FstCanonical (elected f l s) := by
  unfold elected
  dsimp only
  split
  · exact .mk hs
  · exact .mk (hf hs)
theorem afterIssue_canonical {s i ag o st} (hs : MemCanonical s) : MemCanonical (s.afterIssue i ag o st) := by
  unfold State.afterIssue
  extract_lets a w enc u t
  have ht : MemCanonical t := by
    unfold t
    split
    · exact .ite (.ite (modAgent_canonical hs) (.ite (deferred_canonical (modAgent_canonical hs)) (modAgent_canonical hs))) hs
    · exact modAgent_canonical hs
    · exact hs
  exact .ite ht (.ite (modAgent_canonical ht) (.ite (modAgent_canonical ht) ht))
theorem continueAt_canonical {s ag pc} (hs : MemCanonical s) : MemCanonical (s.continueAt ag pc) :=
  modAgent_canonical hs
theorem settleFate_canonical {s i ag o st k} (hs : MemCanonical s) : MemCanonical (s.settleFate i ag o st k) := by
  unfold State.settleFate
  dsimp only
  refine .ite hs ?_
  split
  · exact afterIssue_canonical (continueAt_canonical hs)
  · exact afterIssue_canonical (continueAt_canonical hs)
  · exact afterIssue_canonical hs
  · exact modAgent_canonical hs
  · exact afterIssue_canonical (modAgent_canonical hs)
  · exact .ite (afterIssue_canonical (continueAt_canonical hs)) (afterIssue_canonical (modAgent_canonical hs))
  · exact modAgent_canonical hs
  · exact hs
  · exact hs
theorem stepEnd_canonical {s ag o} (hs : MemCanonical s) : MemCanonical (s.stepEnd ag o) :=
  .cond (modAgent_canonical hs) hs
theorem trapFate_canonical {s ag o k} (hs : MemCanonical s) : MemCanonical (s.trapFate ag o k) := by
  unfold State.trapFate
  refine .ite hs ?_
  split
  · exact stepEnd_canonical (raise_canonical hs)
  · exact markCapacity_canonical hs
  · exact hs
theorem deferFate_canonical {s ag o} (hs : MemCanonical s) : MemCanonical (s.deferFate ag o) :=
  .ite hs (stepEnd_canonical (deferred_canonical hs))
theorem issue_canonical {s i body} (hs : MemCanonical s) (hbody : ∀ {x t}, MemCanonical t → FstCanonical (body x t)) :
    MemCanonical (s.issue i body) :=
  .foldl (fun h => .cond (deferFate_canonical h) (trapFate_canonical h))
    (.foldl (fun h => .cond h (settleFate_canonical h)) (hbody (modAgents_canonical hs)))

/-! ## Operands -/

theorem debugWrite_canonical {s ag n x} (hs : MemCanonical s) : MemCanonical (s.debugWrite ag n x) :=
  modAgent_canonical (modTask_canonical hs)
theorem csrRead_canonical {s ag n} (hs : MemCanonical s) : FstCanonical (s.csrRead ag n) := by
  unfold State.csrRead
  dsimp only
  split
  · exact .mk (modAgent_canonical hs)
  · exact .mk hs
  · exact .mk (modAgent_canonical hs)
  · exact .mk hs
  · exact .ite (.mk hs) (.ite (.mk hs) (.mk hs))

/-! ## Flags -/

theorem fpGuard_canonical {s ag f k} (hs : MemCanonical s) (hk : ∀ {t}, MemCanonical t → MemCanonical (k t)) :
    FstCanonical (s.fpGuard ag f k) :=
  .ite (.mk (modAgent_canonical hs)) (.mk (hk hs))
theorem fpReg_canonical {s ag lat d r} (hs : MemCanonical s) : FstCanonical (s.fpReg ag lat d r) :=
  fpGuard_canonical hs (fun h => flagAt_canonical (wrReg_canonical h))
theorem setSeed_canonical {s ag x} (hs : MemCanonical s) : MemCanonical (s.setSeed ag x) :=
  wr_canonical hs
theorem writeFstat_canonical {s ag x} (hs : MemCanonical s) : MemCanonical (s.writeFstat ag x) :=
  wr_canonical (modAgent_canonical hs)

/-! ## Integer instructions -/

theorem reg1_canonical {s i lat d f} (hs : MemCanonical s) : NextCanonical (s.reg1 i lat d f) :=
  .next (issue_canonical hs (plain_canonical wrReg_canonical))
theorem reg2_canonical {s i lat d f} (hs : MemCanonical s) : NextCanonical (s.reg2 i lat d f) :=
  .next (issue_canonical hs (plain_canonical wrPair_canonical))
theorem pred1_canonical {s i lat pd f} (hs : MemCanonical s) : NextCanonical (s.pred1 i lat pd f) :=
  .next (issue_canonical hs (plain_canonical wrPred_canonical))
theorem execIll_canonical {x w l s} (hs : MemCanonical s) : NextCanonical (execIll x w l s) :=
  .next (issue_canonical hs (perThread_canonical (fun h2 => .mk h2)))
theorem execMov_canonical {w d b s} (hs : MemCanonical s) : NextCanonical (execMov w d b s) :=
  reg1_canonical hs
theorem execMovExt_canonical {c0 d b s} (hs : MemCanonical s) : NextCanonical (execMovExt c0 d b s) :=
  reg1_canonical hs
theorem execAdd_canonical {w d a b s} (hs : MemCanonical s) : NextCanonical (execAdd w d a b s) :=
  reg1_canonical hs
theorem execAddExt_canonical {c0 sat d a b s} (hs : MemCanonical s) : NextCanonical (execAddExt c0 sat d a b s) :=
  reg1_canonical hs
theorem execSub_canonical {w d a b s} (hs : MemCanonical s) : NextCanonical (execSub w d a b s) :=
  reg1_canonical hs
theorem execSubExt_canonical {c0 sat d a b s} (hs : MemCanonical s) : NextCanonical (execSubExt c0 sat d a b s) :=
  reg1_canonical hs
theorem execMul_canonical {w d a b s} (hs : MemCanonical s) : NextCanonical (execMul w d a b s) :=
  reg1_canonical hs
theorem execMulExt_canonical {c0 d a b s} (hs : MemCanonical s) : NextCanonical (execMulExt c0 d a b s) :=
  reg1_canonical hs
theorem execMulh_canonical {w d a b s} (hs : MemCanonical s) : NextCanonical (execMulh w d a b s) :=
  reg1_canonical hs
theorem execMulhExt_canonical {c0 u d a b s} (hs : MemCanonical s) : NextCanonical (execMulhExt c0 u d a b s) :=
  reg1_canonical hs
theorem execMad_canonical {c0 d a b c s} (hs : MemCanonical s) : NextCanonical (execMad c0 d a b c s) :=
  reg1_canonical hs
theorem execMin_canonical {w d a b s} (hs : MemCanonical s) : NextCanonical (execMin w d a b s) :=
  reg1_canonical hs
theorem execMinExt_canonical {c0 u d a b s} (hs : MemCanonical s) : NextCanonical (execMinExt c0 u d a b s) :=
  reg1_canonical hs
theorem execMax_canonical {w d a b s} (hs : MemCanonical s) : NextCanonical (execMax w d a b s) :=
  reg1_canonical hs
theorem execMaxExt_canonical {c0 u d a b s} (hs : MemCanonical s) : NextCanonical (execMaxExt c0 u d a b s) :=
  reg1_canonical hs
theorem execAnd_canonical {w d a b s} (hs : MemCanonical s) : NextCanonical (execAnd w d a b s) :=
  reg1_canonical hs
theorem execAndExt_canonical {c0 d a b s} (hs : MemCanonical s) : NextCanonical (execAndExt c0 d a b s) :=
  reg1_canonical hs
theorem execOr_canonical {w d a b s} (hs : MemCanonical s) : NextCanonical (execOr w d a b s) :=
  reg1_canonical hs
theorem execOrExt_canonical {c0 d a b s} (hs : MemCanonical s) : NextCanonical (execOrExt c0 d a b s) :=
  reg1_canonical hs
theorem execXor_canonical {w d a b s} (hs : MemCanonical s) : NextCanonical (execXor w d a b s) :=
  reg1_canonical hs
theorem execXorExt_canonical {c0 d a b s} (hs : MemCanonical s) : NextCanonical (execXorExt c0 d a b s) :=
  reg1_canonical hs
theorem execShl_canonical {w d a b s} (hs : MemCanonical s) : NextCanonical (execShl w d a b s) :=
  reg1_canonical hs
theorem execShlExt_canonical {c0 d a b s} (hs : MemCanonical s) : NextCanonical (execShlExt c0 d a b s) :=
  reg1_canonical hs
theorem execShr_canonical {w d a b s} (hs : MemCanonical s) : NextCanonical (execShr w d a b s) :=
  reg1_canonical hs
theorem execShrExt_canonical {c0 d a b s} (hs : MemCanonical s) : NextCanonical (execShrExt c0 d a b s) :=
  reg1_canonical hs
theorem execSar_canonical {w d a b s} (hs : MemCanonical s) : NextCanonical (execSar w d a b s) :=
  reg1_canonical hs
theorem execSarExt_canonical {c0 d a b s} (hs : MemCanonical s) : NextCanonical (execSarExt c0 d a b s) :=
  reg1_canonical hs
theorem execRot_canonical {w d a b s} (hs : MemCanonical s) : NextCanonical (execRot w d a b s) :=
  reg1_canonical hs
theorem execRotExt_canonical {c0 d a b s} (hs : MemCanonical s) : NextCanonical (execRotExt c0 d a b s) :=
  reg1_canonical hs
theorem execBfx_canonical {w d a b s} (hs : MemCanonical s) : NextCanonical (execBfx w d a b s) :=
  reg1_canonical hs
theorem execBfxExt_canonical {c0 sx d a b s} (hs : MemCanonical s) : NextCanonical (execBfxExt c0 sx d a b s) :=
  reg1_canonical hs
theorem execBfi_canonical {c0 d a b c s} (hs : MemCanonical s) : NextCanonical (execBfi c0 d a b c s) :=
  reg1_canonical hs
theorem execSel_canonical {c0 n d a b p s} (hs : MemCanonical s) : NextCanonical (execSel c0 n d a b p s) :=
  reg1_canonical hs
theorem execCmp_canonical {c0 cc pd a b s} (hs : MemCanonical s) : NextCanonical (execCmp c0 cc pd a b s) :=
  pred1_canonical hs
theorem execPlog_canonical {c0 lut pd pa pb pc s} (hs : MemCanonical s) : NextCanonical (execPlog c0 lut pd pa pb pc s) :=
  pred1_canonical hs
theorem execLea_canonical {w d a b s} (hs : MemCanonical s) : NextCanonical (execLea w d a b s) :=
  reg2_canonical hs
theorem execLeaExt_canonical {c0 sh u d a b s} (hs : MemCanonical s) : NextCanonical (execLeaExt c0 sh u d a b s) :=
  reg2_canonical hs
theorem execAdd64_canonical {c0 d a b s} (hs : MemCanonical s) : NextCanonical (execAdd64 c0 d a b s) :=
  reg2_canonical hs
theorem execSub64_canonical {c0 d a b s} (hs : MemCanonical s) : NextCanonical (execSub64 c0 d a b s) :=
  reg2_canonical hs
theorem execShl64_canonical {c0 d a b s} (hs : MemCanonical s) : NextCanonical (execShl64 c0 d a b s) :=
  reg2_canonical hs
theorem execShr64_canonical {c0 d a b s} (hs : MemCanonical s) : NextCanonical (execShr64 c0 d a b s) :=
  reg2_canonical hs
theorem execCmp64_canonical {c0 cc pd a b s} (hs : MemCanonical s) : NextCanonical (execCmp64 c0 cc pd a b s) :=
  pred1_canonical hs
theorem execAbs_canonical {c0 sat d a s} (hs : MemCanonical s) : NextCanonical (execAbs c0 sat d a s) :=
  reg1_canonical hs
theorem execNeg_canonical {c0 sat d a s} (hs : MemCanonical s) : NextCanonical (execNeg c0 sat d a s) :=
  reg1_canonical hs
theorem execNot_canonical {c0 d a s} (hs : MemCanonical s) : NextCanonical (execNot c0 d a s) :=
  reg1_canonical hs
theorem execPopc_canonical {c0 d a s} (hs : MemCanonical s) : NextCanonical (execPopc c0 d a s) :=
  reg1_canonical hs
theorem execClz_canonical {c0 d a s} (hs : MemCanonical s) : NextCanonical (execClz c0 d a s) :=
  reg1_canonical hs
theorem execBrev_canonical {c0 d a s} (hs : MemCanonical s) : NextCanonical (execBrev c0 d a s) :=
  reg1_canonical hs
theorem execSext8_canonical {c0 d a s} (hs : MemCanonical s) : NextCanonical (execSext8 c0 d a s) :=
  reg1_canonical hs
theorem execSext16_canonical {c0 d a s} (hs : MemCanonical s) : NextCanonical (execSext16 c0 d a s) :=
  reg1_canonical hs
theorem execZext8_canonical {c0 d a s} (hs : MemCanonical s) : NextCanonical (execZext8 c0 d a s) :=
  reg1_canonical hs
theorem execZext16_canonical {c0 d a s} (hs : MemCanonical s) : NextCanonical (execZext16 c0 d a s) :=
  reg1_canonical hs
theorem csrRead1_canonical {s ag n d} (hs : MemCanonical s) : FstCanonical (s.csrRead1 ag n d) := by
  unfold State.csrRead1
  refine .ite (.mk (wrReg_canonical hs)) ?_
  split
  · next e => exact .mk (wrReg_canonical ((csrRead_canonical hs).of_eq e))
theorem csrWrite1_canonical {s ag n x} (hs : MemCanonical s) : MemCanonical (s.csrWrite1 ag n x) :=
  .ite (writeFstat_canonical hs) (.ite (debugWrite_canonical hs) (wr_canonical hs))
theorem execCsrr_canonical {w d num s} (hs : MemCanonical s) : NextCanonical (execCsrr w d num s) :=
  .next (issue_canonical hs (perThread_canonical csrRead1_canonical))
theorem execCsrrExt_canonical {c0 d num s} (hs : MemCanonical s) : NextCanonical (execCsrrExt c0 d num s) :=
  .next (issue_canonical hs (perThread_canonical csrRead1_canonical))
theorem execCsrw_canonical {w a num s} (hs : MemCanonical s) : NextCanonical (execCsrw w a num s) :=
  .next (issue_canonical hs (plain_canonical csrWrite1_canonical))
theorem execCsrwExt_canonical {c0 a num s} (hs : MemCanonical s) : NextCanonical (execCsrwExt c0 a num s) :=
  .next (issue_canonical hs (plain_canonical csrWrite1_canonical))
theorem execNop_canonical {w s} (hs : MemCanonical s) : NextCanonical (execNop w s) :=
  .next (issue_canonical hs (plain_canonical (fun h2 => h2)))

/-! ## Store queues -/

theorem setSq_canonical {s ag q} (hs : MemCanonical s) : MemCanonical (s.setSq ag q) := by
  unfold State.setSq
  split
  · exact modGroup_canonical hs
  · exact modShare_canonical hs
theorem perform_canonical {s e} (hs : MemCanonical s) : MemCanonical (s.perform e) := by
  unfold State.perform
  dsimp only
  split
  · exact writeHome_canonical hs
  · exact writeHome_canonical (noteRead_canonical hs)
theorem drainFirst_canonical {n} : ∀ {s ag}, MemCanonical s → FstCanonical (s.drainFirst ag n) := by
  induction n with
  | zero => exact fun hs => .mk hs
  | succ n ih =>
    intro s ag hs
    rw [State.drainFirst]
    split
    · exact .mk hs
    · exact .cond (ih (perform_canonical (setSq_canonical hs))) (.mk hs)
theorem drainAll_canonical {s ag} (hs : MemCanonical s) : FstCanonical (s.drainAll ag) :=
  drainFirst_canonical hs
theorem drainAgents_canonical {l} : ∀ {s}, MemCanonical s → FstCanonical (s.drainAgents l) := by
  induction l with
  | nil => exact fun hs => .mk hs
  | cons a l ih => exact fun hs => .mk (ih (drainAll_canonical hs))
theorem readQueued_canonical {s ag pa n} (hs : MemCanonical s) : FstCanonical (s.readQueued ag pa n) := by
  unfold State.readQueued
  dsimp only
  split
  · exact .mk (noteRead_canonical hs)
  · split
    · exact .ite (.mk (noteRead_canonical hs)) (.ite (.mk (noteRead_canonical (drainFirst_canonical hs))) (.mk (drainFirst_canonical hs)))
    · exact .ite (.mk (noteRead_canonical (drainFirst_canonical hs))) (.mk (drainFirst_canonical hs))

/-! ## Budgets -/

theorem setBucket_canonical {s v core n} (hs : MemCanonical s) : MemCanonical (s.setBucket v core n) :=
  modVdev_canonical hs
theorem modSlice_canonical {s core f} (hs : MemCanonical s) : MemCanonical (s.modSlice core f) :=
  modCore_canonical hs
theorem account_canonical {s core} (hs : MemCanonical s) : MemCanonical (s.account core) := by
  unfold State.account
  split
  · exact hs
  · exact modSlice_canonical (setBucket_canonical hs)
theorem accountTo_canonical {s v core t} (hs : MemCanonical s) : MemCanonical (s.accountTo v core t) :=
  modSlice_canonical (setBucket_canonical hs)
theorem startRun_canonical {s v core charged forced} (hs : MemCanonical s) : MemCanonical (s.startRun v core charged forced) :=
  modVdev_canonical (modSlice_canonical hs)

end Sys2Proof.Machine
end

section
/-! SUPPORT. Memory stays canonical through commits, thread accesses, barriers, copies and chains (R354). -/

namespace Sys2Proof.Machine
set_option Elab.async false

/-! ## Tasks and commits -/

theorem startAgents_canonical {l} : ∀ {s}, MemCanonical s → MemCanonical (s.startAgents l) := by
  induction l with
  | nil => exact id
  | cons a l ih => exact fun hs => ih (modAgent_canonical hs)
theorem startTrap_canonical {s f ag} (hs : MemCanonical s) : MemCanonical (s.startTrap f ag) :=
  .cond hs (takeTrapWith_canonical hs)
theorem beginRun_canonical {s v core} (hs : MemCanonical s) : MemCanonical (s.beginRun v core) :=
  .cond (startRun_canonical hs) hs
theorem place_canonical {s h core} (hs : MemCanonical s) : SomeCanonical (s.place h core) :=
  .cond .none (.map fun _ _ => beginRun_canonical (modShare_canonical (modTask_canonical (.foldl modGroup_canonical hs))))
theorem addGroup_canonical {s h gid producer w b} (hs : MemCanonical s) : MemCanonical (s.addGroup h gid producer w b) :=
  modShare_canonical (hs.of_mem rfl)
theorem addShare_canonical {s t core} (hs : MemCanonical s) : MemCanonical (s.addShare t core) :=
  modTask_canonical (hs.of_mem rfl)
theorem addTask_canonical {s l team billet prio starts} (hs : MemCanonical s) : MemCanonical (s.addTask l team billet prio starts) :=
  hs.of_mem rfl
theorem addTeam_canonical {s l team cores} (hs : MemCanonical s) : MemCanonical (s.addTeam l team cores) :=
  startAgents_canonical (.foldl (fun h => .foldl addGroup_canonical (addShare_canonical h)) (addTask_canonical hs))
theorem placeAll_canonical {l} : ∀ {s}, MemCanonical s → SomeCanonical (s.placeAll l) := by
  induction l with
  | nil => exact fun hs => .some hs
  | cons x l ih => exact fun hs => .bindState (place_canonical hs) fun _ => ih
theorem formGroup_canonical {s core l bs} (hs : MemCanonical s) : MemCanonical (s.formGroup core l bs) :=
  startAgents_canonical (addGroup_canonical (addShare_canonical (addTask_canonical hs)))
theorem setBin_canonical {s core no b} (hs : MemCanonical s) : MemCanonical (s.setBin core no b) :=
  modCore_canonical hs
theorem fileBillet_canonical {s core no l b} (hs : MemCanonical s) : MemCanonical (s.fileBillet core no l b) := by
  unfold State.fileBillet
  extract_lets t
  have ht : MemCanonical t := by
    unfold t
    split
    · exact .cond (setBin_canonical (formGroup_canonical hs)) hs
    · exact hs
  split
  · exact setBin_canonical ht
  · exact .ite (modCore_canonical ht) (.ite (setBin_canonical (formGroup_canonical ht)) (setBin_canonical ht))
theorem modSlot_canonical {s l n f} (hs : MemCanonical s) : MemCanonical (s.modSlot l n f) :=
  modLaunch_canonical hs
theorem makeReady_canonical {s l n} (hs : MemCanonical s) : MemCanonical (s.makeReady l n) :=
  modLaunch_canonical hs
theorem enterSlot_canonical {s l n} (hs : MemCanonical s) : MemCanonical (s.enterSlot l n) := by
  unfold State.enterSlot
  split
  · exact .cond (makeReady_canonical hs) (modSlot_canonical hs)
  · exact hs
theorem jdecOn_canonical {s l handle n} (hs : MemCanonical s) : OkFst (s.jdecOn l handle n) := by
  unfold State.jdecOn
  dsimp only
  split
  · exact .error
  · exact .ite .error (.ite .error (.ok (.cond (makeReady_canonical (modSlot_canonical hs)) (modSlot_canonical hs))))
theorem freeToken_canonical {s t} (hs : MemCanonical s) : MemCanonical (s.freeToken t) :=
  .keepStore hs rfl
theorem dropEngines_canonical {s h} (hs : MemCanonical s) : MemCanonical (s.dropEngines h) :=
  releaseIdle_canonical (modCore_canonical (modShare_canonical hs))
theorem toRestart_canonical {s t} (hs : MemCanonical s) : MemCanonical (s.toRestart t) :=
  modTele_canonical (modTask_canonical (.foldl dropEngines_canonical (discard_canonical hs)))
theorem conflict_canonical {s t} (hs : MemCanonical s) : MemCanonical (s.conflict t) :=
  modTask_canonical (toRestart_canonical hs)
theorem performHeld_canonical {t l} : ∀ {s}, MemCanonical s → MemCanonical (s.performHeld t l) := by
  induction l with
  | nil => exact id
  | cons w l ih =>
    intro s hs
    refine ih ?_
    split
    · exact fileBillet_canonical hs
    · exact enterSlot_canonical hs
    · split
      · next h => exact (jdecOn_canonical hs).of_eq h
      · exact taskRecord_canonical hs
theorem commit_canonical {s t} (hs : MemCanonical s) : CommitCanonical (s.commit t) := by
  have hd : FstCanonical (s.drainAgents (s.agentsOfTask t)) := drainAgents_canonical hs
  unfold State.commit
  refine .ite hs (.ite hs ?_)
  dsimp only
  refine .ite trivial (.ite (conflict_canonical hd) ?_)
  refine releaseIdle_canonical (performHeld_canonical (freeToken_canonical
    (.foldl writeback_canonical (modTask_canonical (.keepStore ?_ rfl)))))
  exact .foldl writeCommitted_canonical hd
theorem committing_canonical {s t need k} (hs : MemCanonical s) (hk : ∀ {t}, MemCanonical t → FstCanonical (k t)) :
    FstCanonical (s.committing t need k) := by
  unfold State.committing
  refine .ite ?_ (hk hs)
  split
  · next e => exact hk ((commit_canonical hs).of_done e)
  · next e => exact .mk ((commit_canonical hs).of_failed e)
  · exact .mk hs
theorem unwind_canonical {s t} (hs : MemCanonical s) : MemCanonical (s.unwind t) :=
  modTask_canonical (.foldl (fun h => .foldl modGroup_canonical (modShare_canonical h)) (.foldl dropEngines_canonical hs))
theorem restart_canonical {s t cores} (hs : MemCanonical s) : SomeCanonical (s.restart t cores) :=
  .mapState (placeAll_canonical (startAgents_canonical (modTask_canonical (unwind_canonical hs)))) fun _ h => modTask_canonical h

/-! ## Memory operations -/

theorem access_canonical {s ag ea n align k} (hs : MemCanonical s) : FstCanonical (s.access ag ea n align k) := by
  unfold State.access
  dsimp only
  refine .ite (.mk hs) ?_
  split
  · exact .mk (translate_canonical hs)
  · refine .ite ?_ (.mk (translate_canonical hs))
    split
    · exact .mk (translate_canonical hs)
    · exact .mk (translate_canonical hs)
  · refine .ite (.mk (translate_canonical hs)) ?_
    split
    · exact .mk (translate_canonical hs)
    · exact .mk (translate_canonical hs)
theorem accessParts_canonical {ag k start l} : ∀ {s}, MemCanonical s → FstCanonical (s.accessParts ag k start l) := by
  induction l with
  | nil => exact fun hs => .mk hs
  | cons x l ih =>
    intro s hs
    rw [State.accessParts]
    split
    · next h => exact (access_canonical hs).of_eq h
    · next h => exact (access_canonical hs).of_eq h
    · next h =>
      have ht := ih ((access_canonical hs).of_eq h)
      split
      · next h => exact ht.of_eq h
      · next h => exact ht.of_eq h
theorem readParts_canonical {ag l} : ∀ {s}, MemCanonical s → FstCanonical (s.readParts ag l) := by
  induction l with
  | nil => exact fun hs => .mk hs
  | cons x l ih =>
    intro s hs
    rw [State.readParts]
    split
    · next h => exact (readQueued_canonical hs).of_eq h
    · next h =>
      have ht := ih ((readQueued_canonical hs).of_eq h)
      split
      · next h => exact ht.of_eq h
      · next h => exact ht.of_eq h
theorem readRecordBy_canonical {s lock ag ea n align info} (hs : MemCanonical s) :
    FstCanonical (s.readRecordBy lock ag ea n align info) := by
  unfold State.readRecordBy
  refine .ite (.mk hs) ?_
  split
  · next e => exact .mk ((accessParts_canonical hs).of_eq e)
  · next e =>
    have h := (accessParts_canonical hs).of_eq e
    split
    · next e2 => exact .mk ((readParts_canonical h).of_eq e2)
    · next e2 => exact .mk ((readParts_canonical h).of_eq e2)
theorem readRecord_canonical {s ag ea n align info} (hs : MemCanonical s) : FstCanonical (s.readRecord ag ea n align info) :=
  readRecordBy_canonical hs
theorem loadGlobal_canonical {s ag ea c d} (hs : MemCanonical s) : FstCanonical (s.loadGlobal ag ea c d) := by
  unfold State.loadGlobal
  dsimp only
  split
  · next e => exact .mk ((access_canonical hs).of_eq e)
  · next e => exact .mk ((access_canonical hs).of_eq e)
  · next e =>
    have h := (access_canonical hs).of_eq e
    split
    · next e2 => exact .mk ((readQueued_canonical h).of_eq e2)
    · next e2 => exact .mk (out_canonical ((readQueued_canonical h).of_eq e2))
theorem loadZero_canonical {s ag ea c d pc} (hs : MemCanonical s) : FstCanonical (s.loadZero ag ea c d pc) := by
  unfold State.loadZero
  dsimp only
  split
  · next e => exact .mk ((access_canonical hs).of_eq e)
  · next e => exact .mk (out_canonical ((access_canonical hs).of_eq e))
  · next e =>
    have h := (access_canonical hs).of_eq e
    split
    · next e2 => exact .mk ((readQueued_canonical h).of_eq e2)
    · next e2 => exact .mk (out_canonical ((readQueued_canonical h).of_eq e2))
theorem loadConst_canonical {s ag ea c d} (hs : MemCanonical s) : FstCanonical (s.loadConst ag ea c d) := by
  unfold State.loadConst
  dsimp only
  split
  · next e => exact .mk ((access_canonical hs).of_eq e)
  · next e => exact .mk ((access_canonical hs).of_eq e)
  · next e => exact .mk (out_canonical ((access_canonical hs).of_eq e))
theorem flushFwd_canonical {s core part p} (hs : MemCanonical s) : MemCanonical (s.flushFwd core part p) :=
  modCore_canonical (.foldl modShare_canonical hs)
theorem flushFirst_canonical {s core part n mem} (hs : MemCanonical s) : MemCanonical (s.flushFirst core part n mem) :=
  modCore_canonical (.foldl modShare_canonical hs)
theorem flushOwn_canonical {s ag} (hs : MemCanonical s) : MemCanonical (s.flushOwn ag) :=
  flushFirst_canonical hs
theorem lineUp_canonical {s ag pad k} (hs : MemCanonical s) : FstCanonical (s.lineUp ag pad k) := by
  unfold State.lineUp
  split
  · exact .mk hs
  · exact .mk (.cond hs (modGroup_canonical hs))
theorem leaveLine_canonical {s ag pad} (hs : MemCanonical s) : MemCanonical (s.leaveLine ag pad) := by
  unfold State.leaveLine
  split
  · exact hs
  · exact .cond hs (modGroup_canonical hs)
theorem withinBudget_canonical {s ag t pa n ea k} (hs : MemCanonical s) (hk : ∀ {t}, MemCanonical t → FstCanonical (k t)) :
    FstCanonical (s.withinBudget ag t pa n ea k) := by
  unfold State.withinBudget
  dsimp only
  refine .ite ?_ (hk hs)
  split
  · next e =>
    have h := (commit_canonical hs).of_done e
    exact hk (.cond (addAsync_canonical (modTele_canonical h)) (modTele_canonical h))
  · next e => exact .mk ((commit_canonical hs).of_failed e)
  · exact .mk hs
theorem suppress_canonical {s ag ea short} (hs : MemCanonical s) : MemCanonical (s.suppress ag ea short) :=
  modAgent_canonical hs
theorem charging_canonical {s ag ea pa rb k} (hs : MemCanonical s) (hk : ∀ {t}, MemCanonical t → FstCanonical (k t)) :
    FstCanonical (s.charging ag ea pa rb k) := by
  unfold State.charging
  dsimp only
  refine .ite (.mk (suppress_canonical hs)) (.ite (lineUp_canonical hs) ?_)
  split
  · next e => exact hk (leaveLine_canonical ((charge_canonical hs).of_eq e))
  · next e => exact lineUp_canonical ((charge_canonical hs).of_eq e)
  · next e =>
    have h := (charge_canonical hs).of_eq e
    exact .ite (.mk (leaveLine_canonical h)) (.mk (suppress_canonical (leaveLine_canonical h)))
theorem enqueue_canonical {s ag ea pa rb h11 n op} (hs : MemCanonical s) : FstCanonical (s.enqueue ag ea pa rb h11 n op) :=
  .ite (lineUp_canonical hs) (withinBudget_canonical hs (fun h => charging_canonical h (fun h2 => .mk (setSq_canonical h2))))
theorem drainIssuer_canonical {s ag} (hs : MemCanonical s) : FstCanonical (s.drainIssuer ag) := by
  unfold State.drainIssuer
  split
  · next e => exact .mk (flushOwn_canonical ((drainAll_canonical hs).of_eq e))
theorem awaitPosted_canonical {s ag} (hs : MemCanonical s) : MemCanonical (s.awaitPosted ag) :=
  modAgent_canonical hs
theorem releasing_canonical {s ag system k} (hs : MemCanonical s) (hk : ∀ {t}, MemCanonical t → FstCanonical (k t)) :
    FstCanonical (s.releasing ag system k) := by
  unfold State.releasing
  refine .ite (hk hs) ?_
  split
  · next e => exact .mk ((drainIssuer_canonical hs).of_eq e)
  · next e =>
    have h := (drainIssuer_canonical hs).of_eq e
    exact .ite (.mk (awaitPosted_canonical h)) (hk h)
theorem storeGlobal_canonical {s ag ea bs rel scope} (hs : MemCanonical s) : FstCanonical (s.storeGlobal ag ea bs rel scope) := by
  unfold State.storeGlobal
  dsimp only
  split
  · next e => exact .mk ((access_canonical hs).of_eq e)
  · next e => exact .mk ((access_canonical hs).of_eq e)
  · next e =>
    exact committing_canonical ((access_canonical hs).of_eq e)
      (fun h => releasing_canonical h (fun h2 => enqueue_canonical (.cond (flushOwn_canonical h2) h2)))
theorem atom_canonical {s ag op ord w64 scope d a b c} (hs : MemCanonical s) : FstCanonical (s.atom ag op ord w64 scope d a b c) := by
  unfold State.atom
  dsimp only
  split
  · next e => exact .mk ((access_canonical hs).of_eq e)
  · next e => exact .mk ((access_canonical hs).of_eq e)
  · next e =>
    refine committing_canonical ((access_canonical hs).of_eq e) (fun h => releasing_canonical h (fun h2 => ?_))
    split
    · next e2 => exact .mk ((drainAll_canonical h2).of_eq e2)
    · next e2 =>
      have h3 := (drainAll_canonical h2).of_eq e2
      exact withinBudget_canonical (.cond (flushOwn_canonical h3) h3)
        (fun h4 => charging_canonical h4 (fun h5 => .mk (out_canonical (writeHome_canonical (noteRead_canonical h5)))))
theorem red_canonical {s ag op w64 scope a b} (hs : MemCanonical s) : FstCanonical (s.red ag op w64 scope a b) := by
  unfold State.red
  dsimp only
  split
  · next e => exact .mk ((access_canonical hs).of_eq e)
  · next e => exact .mk ((access_canonical hs).of_eq e)
  · next e => exact committing_canonical ((access_canonical hs).of_eq e) enqueue_canonical
theorem loadPad_canonical {s ag off c d} (hs : MemCanonical s) : FstCanonical (s.loadPad ag off c d) := by
  unfold State.loadPad
  dsimp only
  split
  · exact .mk hs
  · exact .mk (out_canonical hs)
theorem storePad_canonical {s ag off bs} (hs : MemCanonical s) : FstCanonical (s.storePad ag off bs) := by
  unfold State.storePad
  dsimp only
  split
  · exact .mk hs
  · exact .ite (lineUp_canonical hs) (.ite (lineUp_canonical hs) (.mk (modCore_canonical (leaveLine_canonical hs))))
theorem tellLost_canonical {s ag} (hs : MemCanonical s) : MemCanonical (s.tellLost ag) :=
  .keepStore hs rfl
theorem fenceAt_canonical {s ag scope} (hs : MemCanonical s) : FstCanonical (s.fenceAt ag scope) := by
  unfold State.fenceAt
  dsimp only
  refine .ite (.mk hs) ?_
  split
  · next e => exact .mk ((drainIssuer_canonical hs).of_eq e)
  · next e =>
    have h := (drainIssuer_canonical hs).of_eq e
    refine .ite (.mk h) (.ite (.mk (awaitPosted_canonical h)) ?_)
    split
    · exact .mk (tellLost_canonical h)
    · exact .ite (.mk (tellLost_canonical h)) (.mk (modAgent_canonical (tellLost_canonical h)))

/-! ## Barriers and convergence -/

theorem onBar_canonical {s ag b k} (hs : MemCanonical s) (hk : ∀ {t x1 x2}, MemCanonical t → FstCanonical (k t x1 x2)) :
    FstCanonical (s.onBar ag b k) :=
  .ite (.mk hs) (.ite (.mk hs) (hk hs))
theorem arrive_canonical {s ag b k} (hs : MemCanonical s) (hk : ∀ {t x1}, MemCanonical t → FstCanonical (k t x1)) :
    FstCanonical (s.arrive ag b k) := by
  unfold State.arrive
  refine onBar_canonical hs (fun h => .ite (.mk h) ?_)
  split
  · next e => exact .mk ((drainIssuer_canonical h).of_eq e)
  · next e => exact hk (barArrive_canonical ((drainIssuer_canonical h).of_eq e))
theorem barArr1_canonical {s ag d b} (hs : MemCanonical s) : FstCanonical (s.barArr1 ag d b) :=
  arrive_canonical hs (fun h => .mk (out_canonical h))
theorem barSync1_canonical {s ag d b} (hs : MemCanonical s) : FstCanonical (s.barSync1 ag d b) :=
  arrive_canonical hs (fun h => .mk (out_canonical h))
theorem barWait1_canonical {s ag b ph} (hs : MemCanonical s) : FstCanonical (s.barWait1 ag b ph) :=
  onBar_canonical hs (fun h => .mk h)
theorem barExpect1_canonical {s ag b n} (hs : MemCanonical s) : FstCanonical (s.barExpect1 ag b n) :=
  onBar_canonical hs (fun h => .ite (.mk (barTest_canonical (modBar_canonical h))) (.mk h))
theorem barInit1_canonical {s ag b n} (hs : MemCanonical s) : FstCanonical (s.barInit1 ag b n) :=
  .ite (.mk hs) (.mk (barTest_canonical (barTrap_canonical (modAgents_canonical (modBar_canonical hs)))))
theorem barCredit_canonical {s t b n} (hs : MemCanonical s) : MemCanonical (s.barCredit t b n) :=
  .ite hs (.ite (barTest_canonical (modBar_canonical (noteBar_canonical hs))) (barTrap_canonical (modBar_canonical (noteBar_canonical hs))))
theorem execBarArr_canonical {c0 d bar s} (hs : MemCanonical s) : NextCanonical (execBarArr c0 d bar s) :=
  .next (issue_canonical hs (perThread_canonical barArr1_canonical))
theorem execBarWait_canonical {c0 bar b s} (hs : MemCanonical s) : NextCanonical (execBarWait c0 bar b s) :=
  .next (issue_canonical hs (perThread_canonical barWait1_canonical))
theorem execBarSync_canonical {c0 d bar s} (hs : MemCanonical s) : NextCanonical (execBarSync c0 d bar s) :=
  .next (issue_canonical hs (perThread_canonical barSync1_canonical))
theorem execBarExpect_canonical {c0 bar b s} (hs : MemCanonical s) : NextCanonical (execBarExpect c0 bar b s) :=
  .next (issue_canonical hs (perThread_canonical barExpect1_canonical))
theorem execBarInit_canonical {c0 bar b s} (hs : MemCanonical s) : NextCanonical (execBarInit c0 bar b s) :=
  .next (issue_canonical hs (perThread_canonical barInit1_canonical))
theorem cvset1_canonical {s ag c n t0} (hs : MemCanonical s) : FstCanonical (s.cvset1 ag c n t0) :=
  .ite (.mk hs) (.ite (.mk hs) (.ite (.mk hs) (.mk (modCv_canonical hs))))
theorem execCvset_canonical {c0 n1 cv b s} (hs : MemCanonical s) : NextCanonical (execCvset c0 n1 cv b s) :=
  .next (issue_canonical hs (perThread_canonical cvset1_canonical))

/-! ## Engines -/

theorem drainGroup_canonical {s ag} (hs : MemCanonical s) : FstCanonical (s.drainGroup ag) :=
  .mk (flushFwd_canonical (drainAll_canonical hs))
theorem checkPages_canonical {ag l} : ∀ {s}, MemCanonical s → FstCanonical (s.checkPages ag l) := by
  induction l with
  | nil => exact fun hs => .mk hs
  | cons x l ih =>
    intro s hs
    rw [State.checkPages]
    split
    · next h => exact (translate_canonical hs).of_eq h
    · next h => exact modTask_canonical ((translate_canonical hs).of_eq h)
    · next h => exact ih ((translate_canonical hs).of_eq h)
theorem checkRanges_canonical {s ag ts} (hs : MemCanonical s) : FstCanonical (s.checkRanges ag ts) := by
  unfold State.checkRanges
  split
  · exact checkPages_canonical hs
  · split
    · next e => exact .mk ((checkPages_canonical hs).of_eq e)
    · next e => exact .mk ((checkPages_canonical hs).of_eq e)
theorem chargeBlocks_canonical {v core l} : ∀ {s}, MemCanonical s → FstCanonical (s.chargeBlocks v core l) := by
  induction l with
  | nil => exact fun hs => .mk hs
  | cons va l ih =>
    intro s hs
    rw [State.chargeBlocks]
    split
    · next h =>
      have ht := (translate_canonical hs).of_eq h
      split
      · next h => exact (charge_canonical ht).of_eq h
      · next h => exact (charge_canonical ht).of_eq h
      · next h =>
        have hu := ih ((charge_canonical ht).of_eq h)
        split
        · next h => exact hu.of_eq h
        · exact hu
    · next h => exact ih ((translate_canonical hs).of_eq h)
theorem charged_canonical {s ag ts k} (hs : MemCanonical s) (hk : ∀ {t x1}, MemCanonical t → FstCanonical (k t x1)) :
    FstCanonical (s.charged ag ts k) := by
  unfold State.charged
  dsimp only
  split
  · next e => exact hk ((chargeBlocks_canonical hs).of_eq e)
  · exact .mk hs
  · exact .ite (.mk (refusedOn_canonical hs)) (.mk (refusedOn_canonical hs))
theorem forcedBy_canonical {s ag va} (hs : MemCanonical s) : MemCanonical (s.forcedBy ag va) := by
  unfold State.forcedBy
  dsimp only
  split
  · exact .cond (addAsync_canonical (modTele_canonical hs)) (modTele_canonical hs)
  · exact modTele_canonical hs
theorem engBudget_canonical {s t ag lines va} (hs : MemCanonical s) : CommitCanonical (s.engBudget t ag lines va) := by
  unfold State.engBudget
  refine .ite ?_ hs
  split
  · next e => exact forcedBy_canonical ((commit_canonical hs).of_done e)
  · exact commit_canonical hs
theorem engRead_canonical {t who l} : ∀ {s}, MemCanonical s → FstCanonical (s.engRead t who l) := by
  induction l with
  | nil => exact fun hs => .mk hs
  | cons x l ih =>
    intro s hs
    refine .mk (ih ?_)
    dsimp only
    split
    · exact noteRead_canonical (xlat_canonical hs)
    · exact xlat_canonical hs
theorem engWrite_canonical {t maker core l} : ∀ {s bs}, MemCanonical s → MemCanonical (s.engWrite t maker core l bs) := by
  induction l with
  | nil => exact id
  | cons x l ih =>
    intro s bs hs
    refine ih ?_
    dsimp only
    split
    · exact writeHome_canonical (.foldl chargeAs_canonical (translate_canonical hs))
    · exact translate_canonical hs
theorem engReadN_canonical {s t who va n} (hs : MemCanonical s) : FstCanonical (s.engReadN t who va n) :=
  engRead_canonical hs
theorem engWriteN_canonical {s t maker core va bs} (hs : MemCanonical s) : MemCanonical (s.engWriteN t maker core va bs) :=
  engWrite_canonical hs
theorem padAbsent_canonical {s h off n} (hs : MemCanonical s) : MemCanonical (s.padAbsent h off n) :=
  modShare_canonical hs
theorem padWrite_canonical {s h off bs} (hs : MemCanonical s) : MemCanonical (s.padWrite h off bs) :=
  modShare_canonical hs
theorem padAdd_canonical {s h off x} (hs : MemCanonical s) : MemCanonical (s.padAdd h off x) :=
  modShare_canonical hs
theorem engAdd_canonical {s t maker core va x} (hs : MemCanonical s) : MemCanonical (s.engAdd t maker core va x) := by
  unfold State.engAdd
  split
  · next e => exact engWriteN_canonical ((engReadN_canonical hs).of_eq e)

/-! ## Copies -/

theorem enterCopy_canonical {s ag x tens tile bytes} (hs : MemCanonical s) : MemCanonical (s.enterCopy ag x tens tile bytes) :=
  .cond (padAbsent_canonical (modCore_canonical hs)) (modCore_canonical hs)
theorem tcopySteps_canonical {s ag dir cmode scope d b c r} (hs : MemCanonical s) :
    FstCanonical (s.tcopySteps ag dir cmode scope d b c r) := by
  unfold State.tcopySteps
  dsimp only
  refine .ite (.mk hs) (.ite (.mk hs) (.ite (.mk hs) (.ite (.mk hs) ?_)))
  split
  · exact .mk hs
  · split
    · next e => exact .mk ((checkPages_canonical hs).of_eq e)
    · next e =>
      have h := (checkPages_canonical hs).of_eq e
      exact .ite (.mk h) (charged_canonical h (fun h2 => .mk (enterCopy_canonical h2)))
theorem tcopy1_canonical {s ag dir cmode scope d a b c} (hs : MemCanonical s) : FstCanonical (s.tcopy1 ag dir cmode scope d a b c) := by
  unfold State.tcopy1
  dsimp only
  refine .ite (.mk hs) ?_
  split
  · next e => exact .mk ((drainGroup_canonical hs).of_eq e)
  · next e =>
    refine committing_canonical ((drainGroup_canonical hs).of_eq e) (fun h => .ite (.mk h) ?_)
    split
    · next e2 => exact .mk ((accessParts_canonical h).of_eq e2)
    · next e2 =>
      have h2 := (accessParts_canonical h).of_eq e2
      split
      · next e3 => exact .mk ((readParts_canonical h2).of_eq e3)
      · next e3 =>
        have h3 := (readParts_canonical h2).of_eq e3
        split
        · exact .mk h3
        · exact tcopySteps_canonical h3
theorem execTcopy_canonical {c0 dir cmode scope d a b c s} (hs : MemCanonical s) : NextCanonical (execTcopy c0 dir cmode scope d a b c s) :=
  .next (issue_canonical hs (elected_canonical tcopy1_canonical))
theorem startCopy_canonical {s core} (hs : MemCanonical s) : SomeCanonical (s.startCopy core) := by
  unfold State.startCopy
  dsimp only
  split
  · exact .cond (.some (modCore_canonical hs)) .none
  · exact .none
theorem readElems_canonical {t core eb l} : ∀ {s}, MemCanonical s → FstCanonical (s.readElems t core eb l) := by
  induction l with
  | nil => exact fun hs => .mk hs
  | cons x l ih =>
    cases x with
    | none => exact fun hs => .mk (ih hs)
    | some a =>
      intro s hs
      rw [State.readElems]
      dsimp only
      exact .mk (ih (engRead_canonical hs))
theorem writeElems_canonical {t maker core eb l} : ∀ {s}, MemCanonical s → MemCanonical (s.writeElems t maker core eb l) := by
  induction l with
  | nil => exact id
  | cons x l ih =>
    obtain ⟨_ | a, y⟩ := x
    · exact ih
    · exact fun hs => ih (engWrite_canonical hs)
theorem moveCopy_canonical {s t core x} (hs : MemCanonical s) : FstCanonical (s.moveCopy t core x) :=
  .ite (.mk (writeElems_canonical hs)) (.mk (.cond (padWrite_canonical (readElems_canonical hs))
    (engWriteN_canonical (readElems_canonical hs))))
theorem report_canonical {s t core x bytes} (hs : MemCanonical s) : MemCanonical (s.report t core x bytes) := by
  unfold State.report
  split
  · exact engAdd_canonical hs
  · exact padAdd_canonical hs
  · exact barCredit_canonical hs
theorem reportCopy_canonical {s core k x bytes} (hs : MemCanonical s) : MemCanonical (s.reportCopy core k x bytes) :=
  .cond (modCore_canonical hs) (releaseIdle_canonical (modCore_canonical (report_canonical hs)))
theorem finishCopy_canonical {s core k} (hs : MemCanonical s) : SomeCanonical (s.finishCopy core k) := by
  unfold State.finishCopy
  dsimp only
  refine .bind fun _ _ => .cond .none ?_
  split
  · next e => exact .some (reportCopy_canonical ((engBudget_canonical hs).of_done e))
  · next e => exact .some (reportCopy_canonical (moveCopy_canonical ((engBudget_canonical hs).of_done e)))
  · next e => exact .some ((engBudget_canonical hs).of_failed e)
  · exact .none
theorem execCopyStart_canonical {core s} (hs : MemCanonical s) : NextCanonical (execCopyStart core s) :=
  .next (.getD (startCopy_canonical hs) hs)
theorem execCopyComplete_canonical {core k s} (hs : MemCanonical s) : NextCanonical (execCopyComplete core k s) :=
  .next (.getD (finishCopy_canonical hs) hs)
theorem ctwait1_canonical {s ag sp d a b} (hs : MemCanonical s) : FstCanonical (s.ctwait1 ag sp d a b) := by
  unfold State.ctwait1
  dsimp only
  refine .ite ?_ ?_
  · split
    · exact .mk hs
    · exact .ite (.mk (out_canonical hs)) (.mk hs)
  · split
    · next e => exact .mk ((access_canonical hs).of_eq e)
    · next e => exact .mk ((access_canonical hs).of_eq e)
    · next e =>
      have h := (access_canonical hs).of_eq e
      split
      · next e2 => exact .mk ((readQueued_canonical h).of_eq e2)
      · next e2 =>
        have h2 := (readQueued_canonical h).of_eq e2
        exact .ite (.mk (out_canonical h2)) (.mk h2)
theorem execCtwait_canonical {c0 sp scope d a b s} (hs : MemCanonical s) : NextCanonical (execCtwait c0 sp scope d a b s) :=
  .next (issue_canonical hs (perThread_canonical ctwait1_canonical))

/-! ## Chains -/

theorem setChain_canonical {s u x} (hs : MemCanonical s) : MemCanonical (s.setChain u x) := by
  unfold State.setChain
  split
  · exact modCore_canonical hs
  · exact modHearth_canonical hs
theorem chainXlat_canonical {s r phys a k} (hs : MemCanonical s) : FstCanonical (s.chainXlat r phys a k) :=
  .ite (.mk hs) (xlat_canonical hs)
theorem chainParts_canonical {r phys k l} : ∀ {s}, MemCanonical s → FstCanonical (s.chainParts r phys k l) := by
  induction l with
  | nil => exact fun hs => .mk hs
  | cons x l ih =>
    intro s hs
    rw [State.chainParts]
    split
    · next h => exact (chainXlat_canonical hs).of_eq h
    · next h => exact (chainXlat_canonical hs).of_eq h
    · next h =>
      have ht := ih ((chainXlat_canonical hs).of_eq h)
      split
      · next h => exact ht.of_eq h
      · next h => exact ht.of_eq h
theorem chainPlace_canonical {s r k n x} (hs : MemCanonical s) : FstCanonical (s.chainPlace r k n x) := by
  unfold State.chainPlace
  split
  · split
    · exact .mk hs
    · exact .mk hs
  · split
    · next e => exact .mk ((chainParts_canonical hs).of_eq e)
    · next e => exact .mk ((chainParts_canonical hs).of_eq e)
  · split
    · next e => exact .mk ((chainParts_canonical hs).of_eq e)
    · next e => exact .mk ((chainParts_canonical hs).of_eq e)
theorem chainRead_canonical {s r n x} (hs : MemCanonical s) : FstCanonical (s.chainRead r n x) := by
  unfold State.chainRead
  split
  · exact .mk hs
  · split
    · exact .mk (.foldl noteRead_canonical hs)
    · exact .mk hs
theorem chainCharge_canonical {v l} : ∀ {s}, MemCanonical s → ChainChargeCanonical (s.chainCharge v l) := by
  induction l with
  | nil => exact id
  | cons x l ih =>
    intro s hs
    rw [State.chainCharge]
    split
    · next h => exact ih ((charge_canonical hs).of_eq h)
    · trivial
    · trivial
theorem chainPut_canonical {r l} : ∀ {s bs}, MemCanonical s → MemCanonical (s.chainPut r l bs) := by
  induction l with
  | nil => exact id
  | cons p l ih =>
    intro s bs hs
    refine ih ?_
    split
    · exact writeHome_canonical hs
    · exact settleHome_canonical (writeCommitted_canonical hs)
theorem chainWrite_canonical {s r bs x} (hs : MemCanonical s) : FstCanonical (s.chainWrite r bs x) := by
  unfold State.chainWrite
  dsimp only
  split
  · exact .mk (padWrite_canonical hs)
  · split
    · split
      · next e =>
        have h := (engBudget_canonical hs).of_done e
        split
        · next e2 => exact .mk (chainPut_canonical ((chainCharge_canonical h).of_eq e2))
        · exact .mk h
        · exact .mk (refusedOn_canonical h)
      · next e => exact .mk ((engBudget_canonical hs).of_failed e)
      · exact .mk hs
    · split
      · next e => exact .mk (chainPut_canonical ((chainCharge_canonical hs).of_eq e))
      · exact .mk hs
      · exact .mk (refusedOn_canonical hs)
theorem operand_canonical {s r phys k n align x} (hs : MemCanonical s) : FstCanonical (s.operand r phys k n align x) := by
  unfold State.operand
  split
  · exact .mk hs
  · exact .cond (.mk hs) (.cond (chainPlace_canonical hs) (.mk hs))
theorem chainCopy_canonical {s r e red} (hs : MemCanonical s) : FstCanonical (s.chainCopy r e red) := by
  unfold State.chainCopy
  dsimp only
  split
  · next e2 => exact .mk ((operand_canonical hs).of_eq e2)
  · next e2 =>
    have h := (operand_canonical hs).of_eq e2
    split
    · next e3 => exact .mk ((operand_canonical h).of_eq e3)
    · next e3 =>
      have h2 := (operand_canonical h).of_eq e3
      exact chainWrite_canonical (FstCanonical.cond (chainRead_canonical (chainRead_canonical h2)) (.mk (chainRead_canonical h2)))
theorem chainCounter_canonical {s r phys k x} (hs : MemCanonical s) : FstCanonical (s.chainCounter r phys k x) := by
  unfold State.chainCounter
  split
  · next e => exact .mk ((operand_canonical hs).of_eq e)
  · next e =>
    split
    · next e2 => exact .mk ((chainRead_canonical ((operand_canonical hs).of_eq e)).of_eq e2)
theorem chainDo_canonical {s r x e} (hs : MemCanonical s) : CStepCanonical (s.chainDo r x e) := by
  unfold State.chainDo
  dsimp only
  refine .ite hs (.ite hs ?_)
  split
  · exact hs
  · split
    · next e2 => exact (chainCopy_canonical hs).of_eq e2
    · next e2 => exact (chainCopy_canonical hs).of_eq e2
  · split
    · next e2 => exact (chainCopy_canonical hs).of_eq e2
    · next e2 => exact (chainCopy_canonical hs).of_eq e2
  · split
    · next e2 => exact (operand_canonical hs).of_eq e2
    · next e2 =>
      have h := (operand_canonical hs).of_eq e2
      refine .ite h ?_
      split
      · exact h
      · exact h
      · exact h
  · split
    · next e2 => exact (chainCounter_canonical hs).of_eq e2
    · next e2 => exact (chainCounter_canonical hs).of_eq e2
  · refine .ite (.ite hs (.ite hs (.ite hs ?_))) ?_
    · split
      · exact .cond hs hs
      · exact hs
      · exact hs
    · split
      · next e2 => exact (chainCounter_canonical hs).of_eq e2
      · next e2 =>
        have h := (chainCounter_canonical hs).of_eq e2
        refine .ite h ?_
        split
        · next e3 => exact (chainWrite_canonical h).of_eq e3
        · next e3 => exact (chainWrite_canonical h).of_eq e3
  · exact .ite (.ite hs hs) hs
  · split
    · next e2 => exact (chainCounter_canonical hs).of_eq e2
    · next e2 => exact (chainCounter_canonical hs).of_eq e2
theorem fetchEntry_canonical {s r x} (hs : MemCanonical s) : FstCanonical (s.fetchEntry r x) := by
  unfold State.fetchEntry
  dsimp only
  split
  · exact .ite (.mk hs) (.mk hs)
  · refine .ite (.mk hs) (.ite (.mk hs) ?_)
    split
    · next e => exact .mk ((chainParts_canonical hs).of_eq e)
    · next e => exact .mk (chainRead_canonical ((chainParts_canonical hs).of_eq e))
theorem chainFault_canonical {s u r x cause addr short} (hs : MemCanonical s) : MemCanonical (s.chainFault u r x cause addr short) := by
  unfold State.chainFault
  dsimp only
  refine .cond (setChain_canonical hs) (setChain_canonical ?_)
  split
  · exact taskRecord_canonical hs
  · exact .ite (modTele_canonical hs) (hearthPost_canonical (modVdev_canonical hs))
theorem chainStop_canonical {s u r x x4} (hs : MemCanonical s) : MemCanonical (s.chainStop u r x x4) := by
  unfold State.chainStop
  split
  · exact hs
  · exact hs
  · exact chainFault_canonical hs
  · split
    · exact markCapacity_canonical hs
    · exact hs
theorem lostTest_canonical {s u x} (hs : MemCanonical s) : MemCanonical (s.lostTest u x) := by
  unfold State.lostTest
  split
  · exact .cond (chainFault_canonical hs) hs
  · exact hs
theorem chainNext_canonical {s u} (hs : MemCanonical s) : MemCanonical (s.chainNext u) := by
  unfold State.chainNext
  dsimp only
  split
  · exact hs
  · refine .ite hs ?_
    split
    · exact chainFault_canonical hs
    · refine .ite (lostTest_canonical (setChain_canonical hs)) ?_
      split
      · next e =>
        have h := (fetchEntry_canonical hs).of_eq e
        exact .cond (chainStop_canonical h) h
      · next e =>
        have h := (fetchEntry_canonical hs).of_eq e
        split
        · refine .ite ?_ ?_
          · split
            · next e2 =>
              have h2 := (commit_canonical h).of_done e2
              split
              · next e3 => exact setChain_canonical ((chainDo_canonical h2).of_go e3)
              · next e3 =>
                have h3 := (chainDo_canonical h2).of_stop e3
                exact .cond (chainStop_canonical h3) h3
            · next e2 => exact (commit_canonical h).of_failed e2
            · exact h
          · split
            · next e2 => exact setChain_canonical ((chainDo_canonical h).of_go e2)
            · next e2 =>
              have h2 := (chainDo_canonical h).of_stop e2
              exact .cond (chainStop_canonical h2) h2
        · split
          · next e2 => exact setChain_canonical ((chainDo_canonical h).of_go e2)
          · next e2 =>
            have h2 := (chainDo_canonical h).of_stop e2
            exact .cond (chainStop_canonical h2) h2
theorem chainLost_canonical {s u link} (hs : MemCanonical s) : MemCanonical (s.chainLost u link) := by
  unfold State.chainLost
  dsimp only
  split
  · exact hs
  · exact lostTest_canonical (setChain_canonical hs)
theorem chainAck_canonical {s u accept} (hs : MemCanonical s) : MemCanonical (s.chainAck u accept) := by
  unfold State.chainAck
  split
  · exact hs
  · split
    · exact hs
    · exact .ite (lostTest_canonical (setChain_canonical hs)) (chainFault_canonical hs)
theorem chainRecv_canonical {s u} (hs : MemCanonical s) : MemCanonical (s.chainRecv u) := by
  unfold State.chainRecv
  dsimp only
  split
  · exact hs
  · refine .ite hs ?_
    split
    · next e => exact (fetchEntry_canonical hs).of_eq e
    · next e =>
      have h := (fetchEntry_canonical hs).of_eq e
      refine .ite ?_ h
      split
      · next e2 =>
        have h2 := (chainCounter_canonical h).of_eq e2
        exact .cond (setChain_canonical h2) h2
      · next e2 => exact (chainCounter_canonical h).of_eq e2
theorem chainEndCore_canonical {s u} (hs : MemCanonical s) : MemCanonical (s.chainEndCore u) := by
  unfold State.chainEndCore
  dsimp only
  split
  · exact hs
  · split
    · refine .cond hs ?_
      split
      · next e =>
        have h := (engBudget_canonical hs).of_done e
        exact setChain_canonical (.cond (engAdd_canonical h) (padAdd_canonical h))
      · next e => exact (engBudget_canonical hs).of_failed e
      · exact hs
    · exact hs
theorem execChainEntry_canonical {u s} (hs : MemCanonical s) : NextCanonical (execChainEntry u s) :=
  .next (chainNext_canonical hs)
theorem execChainSendAck_canonical {u accept s} (hs : MemCanonical s) : NextCanonical (execChainSendAck u accept s) :=
  .next (chainAck_canonical hs)
theorem execChainRecvwaitMet_canonical {u s} (hs : MemCanonical s) : NextCanonical (execChainRecvwaitMet u s) :=
  .next (chainRecv_canonical hs)
theorem chain1_canonical {s ag cmode scope d a c} (hs : MemCanonical s) : FstCanonical (s.chain1 ag cmode scope d a c) := by
  unfold State.chain1
  dsimp only
  split
  · next e => exact .mk ((drainGroup_canonical hs).of_eq e)
  · next e =>
    have h := (drainGroup_canonical hs).of_eq e
    refine .ite (.mk h) (.ite (.mk h) ?_)
    split
    · exact .mk h
    · split
      · next e2 => exact .mk ((checkPages_canonical h).of_eq e2)
      · next e2 =>
        refine committing_canonical ((checkPages_canonical h).of_eq e2) (fun h2 => ?_)
        split
        · exact .mk h2
        · exact .mk (out_canonical (modCore_canonical h2))
theorem chkill1_canonical {s ag handle} (hs : MemCanonical s) : MemCanonical (s.chkill1 ag handle) := by
  unfold State.chkill1
  dsimp only
  split
  · exact .cond (setChain_canonical hs) hs
  · exact hs
theorem execChain_canonical {c0 cmode scope d a c s} (hs : MemCanonical s) : NextCanonical (execChain c0 cmode scope d a c s) :=
  .next (issue_canonical hs (elected_canonical chain1_canonical))
theorem execChkill_canonical {c0 a s} (hs : MemCanonical s) : NextCanonical (execChkill c0 a s) :=
  .next (issue_canonical hs (plain_canonical chkill1_canonical))

end Sys2Proof.Machine
end

section
/-! SUPPORT. Memory stays canonical through control, the kiln, the engines and slices (R354). -/

namespace Sys2Proof.Machine
set_option Elab.async false

/-! ## Control -/

theorem call1_canonical {s ag target} (hs : MemCanonical s) : FstCanonical (s.call1 ag target) :=
  .ite (.mk hs) (.mk (modAgent_canonical hs))
theorem ret1_canonical {s ag len} (hs : MemCanonical s) : FstCanonical (s.ret1 ag len) := by
  unfold State.ret1
  split
  · exact .mk hs
  · exact .mk (modAgent_canonical hs)
theorem pop_canonical {s ag} (hs : MemCanonical s) : SomeFst (s.pop ag) := by
  intro p hp
  obtain ⟨w, -, rfl⟩ := Option.map_eq_some_iff.mp hp
  exact dqFree_canonical (modAgent_canonical hs)
theorem execBra_canonical {w off s} (hs : MemCanonical s) : NextCanonical (execBra w off s) :=
  .next (issue_canonical hs (perThread_canonical (fun h2 => .mk h2)))
theorem execBrc_canonical {w off n p s} (hs : MemCanonical s) : NextCanonical (execBrc w off n p s) :=
  .next (issue_canonical hs (perThread_canonical (fun h2 => .mk h2)))
theorem execBrq_canonical {w off s} (hs : MemCanonical s) : NextCanonical (execBrq w off s) := by
  unfold execBrq
  refine .next (issue_canonical hs (perThread_canonical (fun h2 => ?_)))
  split
  · exact .mk h2
  · next e => exact .mk ((pop_canonical h2).of_eq e)
theorem execCall_canonical {w off s} (hs : MemCanonical s) : NextCanonical (execCall w off s) :=
  .next (issue_canonical hs (perThread_canonical call1_canonical))
theorem execRet_canonical {w s} (hs : MemCanonical s) : NextCanonical (execRet w s) :=
  .next (issue_canonical hs (perThread_canonical ret1_canonical))
theorem execRetExt_canonical {c0 s} (hs : MemCanonical s) : NextCanonical (execRetExt c0 s) :=
  .next (issue_canonical hs (perThread_canonical ret1_canonical))
theorem jarm1_canonical {s ag m} (hs : MemCanonical s) : MemCanonical (s.jarm1 ag m) :=
  maskTest_canonical (modGroup_canonical hs)
theorem jwait1_canonical {s ag m len} (hs : MemCanonical s) : FstCanonical (s.jwait1 ag m len) :=
  .ite (.mk hs) (.ite (.mk hs) (.mk (maskTest_canonical (modAgent_canonical hs))))
theorem jdrop1_canonical {s ag m} (hs : MemCanonical s) : MemCanonical (s.jdrop1 ag m) :=
  .cond (maskDrop_canonical hs) hs
theorem execJarm_canonical {w m s} (hs : MemCanonical s) : NextCanonical (execJarm w m s) :=
  .next (issue_canonical hs (plain_canonical jarm1_canonical))
theorem execJwait_canonical {w m s} (hs : MemCanonical s) : NextCanonical (execJwait w m s) :=
  .next (issue_canonical hs (perThread_canonical jwait1_canonical))
theorem execJdrop_canonical {w m s} (hs : MemCanonical s) : NextCanonical (execJdrop w m s) :=
  .next (issue_canonical hs (plain_canonical jdrop1_canonical))
theorem execJarmExt_canonical {c0 m s} (hs : MemCanonical s) : NextCanonical (execJarmExt c0 m s) :=
  .next (issue_canonical hs (plain_canonical jarm1_canonical))
theorem execJwaitExt_canonical {c0 m s} (hs : MemCanonical s) : NextCanonical (execJwaitExt c0 m s) :=
  .next (issue_canonical hs (perThread_canonical jwait1_canonical))
theorem execJdropExt_canonical {c0 m s} (hs : MemCanonical s) : NextCanonical (execJdropExt c0 m s) :=
  .next (issue_canonical hs (plain_canonical jdrop1_canonical))
theorem onceSettled_canonical {s ag k} (hs : MemCanonical s) (hk : ∀ {t}, MemCanonical t → FstCanonical (k t)) :
    FstCanonical (s.onceSettled ag k) :=
  .ite (hk (modAgent_canonical hs)) (.mk hs)
theorem exit1_canonical {s ag} (hs : MemCanonical s) : FstCanonical (s.exit1 ag) :=
  onceSettled_canonical hs (fun h => .mk (endAgent_canonical h))
theorem yield1_canonical {s ag} (hs : MemCanonical s) : FstCanonical (s.yield1 ag) := by
  unfold State.yield1
  dsimp only
  refine onceSettled_canonical hs (fun h => ?_)
  split
  · exact .mk (modGroup_canonical h)
  · exact .ite (.mk (modAgent_canonical h)) (.mk (modShare_canonical h))
theorem sret1_canonical {s ag} (hs : MemCanonical s) : FstCanonical (s.sret1 ag) :=
  .mk (modAgent_canonical hs)
theorem execExit_canonical {w s} (hs : MemCanonical s) : NextCanonical (execExit w s) :=
  .next (issue_canonical hs (perThread_canonical exit1_canonical))
theorem execYield_canonical {w s} (hs : MemCanonical s) : NextCanonical (execYield w s) :=
  .next (issue_canonical hs (perThread_canonical yield1_canonical))
theorem execTrap_canonical {w b s} (hs : MemCanonical s) : NextCanonical (execTrap w b s) :=
  .next (issue_canonical hs (perThread_canonical (fun h2 => .mk h2)))
theorem execBrk_canonical {w b s} (hs : MemCanonical s) : NextCanonical (execBrk w b s) :=
  .next (issue_canonical hs (perThread_canonical (fun h2 => .mk h2)))
theorem execSret_canonical {w s} (hs : MemCanonical s) : NextCanonical (execSret w s) :=
  .next (issue_canonical hs (perThread_canonical sret1_canonical))
theorem execExitExt_canonical {c0 s} (hs : MemCanonical s) : NextCanonical (execExitExt c0 s) :=
  .next (issue_canonical hs (perThread_canonical exit1_canonical))
theorem execYieldExt_canonical {c0 s} (hs : MemCanonical s) : NextCanonical (execYieldExt c0 s) :=
  .next (issue_canonical hs (perThread_canonical yield1_canonical))
theorem execTrapExt_canonical {c0 b s} (hs : MemCanonical s) : NextCanonical (execTrapExt c0 b s) :=
  .next (issue_canonical hs (perThread_canonical (fun h2 => .mk h2)))
theorem execBrkExt_canonical {c0 b s} (hs : MemCanonical s) : NextCanonical (execBrkExt c0 b s) :=
  .next (issue_canonical hs (perThread_canonical (fun h2 => .mk h2)))
theorem execSretExt_canonical {c0 s} (hs : MemCanonical s) : NextCanonical (execSretExt c0 s) :=
  .next (issue_canonical hs (perThread_canonical sret1_canonical))
theorem push1_canonical {s ag x} (hs : MemCanonical s) : FstCanonical (s.push1 ag x) :=
  .ite (.mk hs) (.mk (dqFree_canonical (modAgents_canonical (modShare_canonical hs))))
theorem pop1_canonical {s ag d} (hs : MemCanonical s) : FstCanonical (s.pop1 ag d) := by
  unfold State.pop1
  split
  · exact .mk hs
  · next e => exact .mk (out_canonical ((pop_canonical hs).of_eq e))
theorem execDqpush_canonical {w b s} (hs : MemCanonical s) : NextCanonical (execDqpush w b s) :=
  .next (issue_canonical hs (perThread_canonical push1_canonical))
theorem execDqpushExt_canonical {c0 b s} (hs : MemCanonical s) : NextCanonical (execDqpushExt c0 b s) :=
  .next (issue_canonical hs (perThread_canonical push1_canonical))
theorem execDqpop_canonical {w d s} (hs : MemCanonical s) : NextCanonical (execDqpop w d s) :=
  .next (issue_canonical hs (perThread_canonical pop1_canonical))
theorem execDqpopExt_canonical {c0 d s} (hs : MemCanonical s) : NextCanonical (execDqpopExt c0 d s) :=
  .next (issue_canonical hs (perThread_canonical pop1_canonical))

/-! ## SHFL, VOTE and GRED -/

theorem shfl1_canonical {s0 ags mode seg d a b pc ag s} (hs : MemCanonical s) : MemCanonical (State.shfl1 s0 ags mode seg d a b pc ag s) :=
  out_canonical hs
theorem shflBody_canonical {mode seg d a b pc ags s0} (hs0 : MemCanonical s0) : FstCanonical (shflBody mode seg d a b pc ags s0) :=
  plain_canonical shfl1_canonical hs0
theorem execShflIdx_canonical {c0 seg d a b pc s} (hs : MemCanonical s) : NextCanonical (execShflIdx c0 seg d a b pc s) :=
  .next (issue_canonical hs shflBody_canonical)
theorem execShflUp_canonical {c0 seg d a b pc s} (hs : MemCanonical s) : NextCanonical (execShflUp c0 seg d a b pc s) :=
  .next (issue_canonical hs shflBody_canonical)
theorem execShflDown_canonical {c0 seg d a b pc s} (hs : MemCanonical s) : NextCanonical (execShflDown c0 seg d a b pc s) :=
  .next (issue_canonical hs shflBody_canonical)
theorem execShflXor_canonical {c0 seg d a b pc s} (hs : MemCanonical s) : NextCanonical (execShflXor c0 seg d a b pc s) :=
  .next (issue_canonical hs shflBody_canonical)
theorem ballot1_canonical {s0 ags d pa ag s} (hs : MemCanonical s) : MemCanonical (State.ballot1 s0 ags d pa ag s) :=
  .foldl wr_canonical hs
theorem voteBody_canonical {pd f ags s0} (hs0 : MemCanonical s0) : FstCanonical (voteBody pd f ags s0) :=
  plain_canonical wrPred_canonical hs0
theorem execVoteAny_canonical {c0 pd pa s} (hs : MemCanonical s) : NextCanonical (execVoteAny c0 pd pa s) :=
  .next (issue_canonical hs voteBody_canonical)
theorem execVoteAll_canonical {c0 pd pa s} (hs : MemCanonical s) : NextCanonical (execVoteAll c0 pd pa s) :=
  .next (issue_canonical hs voteBody_canonical)
theorem execVoteBallot_canonical {c0 d pa s} (hs : MemCanonical s) : NextCanonical (execVoteBallot c0 d pa s) :=
  .next (issue_canonical hs (plain_canonical ballot1_canonical))
theorem execVoteEq_canonical {c0 pd a s} (hs : MemCanonical s) : NextCanonical (execVoteEq c0 pd a s) :=
  .next (issue_canonical hs voteBody_canonical)
theorem gredBody_canonical {seg d a f ags s0} (hs0 : MemCanonical s0) : FstCanonical (gredBody seg d a f ags s0) :=
  perThread_canonical (fun h => fpGuard_canonical h out_canonical) hs0
theorem execGredAdd_canonical {c0 seg d a s} (hs : MemCanonical s) : NextCanonical (execGredAdd c0 seg d a s) :=
  .next (issue_canonical hs gredBody_canonical)
theorem execGredMin_canonical {c0 u seg d a s} (hs : MemCanonical s) : NextCanonical (execGredMin c0 u seg d a s) :=
  .next (issue_canonical hs gredBody_canonical)
theorem execGredMax_canonical {c0 u seg d a s} (hs : MemCanonical s) : NextCanonical (execGredMax c0 u seg d a s) :=
  .next (issue_canonical hs gredBody_canonical)
theorem execGredAnd_canonical {c0 seg d a s} (hs : MemCanonical s) : NextCanonical (execGredAnd c0 seg d a s) :=
  .next (issue_canonical hs gredBody_canonical)
theorem execGredOr_canonical {c0 seg d a s} (hs : MemCanonical s) : NextCanonical (execGredOr c0 seg d a s) :=
  .next (issue_canonical hs gredBody_canonical)
theorem execGredXor_canonical {c0 seg d a s} (hs : MemCanonical s) : NextCanonical (execGredXor c0 seg d a s) :=
  .next (issue_canonical hs gredBody_canonical)
theorem execGredFadd_canonical {c0 rm seg d a s} (hs : MemCanonical s) : NextCanonical (execGredFadd c0 rm seg d a s) :=
  .next (issue_canonical hs gredBody_canonical)
theorem execGredFmin_canonical {c0 seg d a s} (hs : MemCanonical s) : NextCanonical (execGredFmin c0 seg d a s) :=
  .next (issue_canonical hs gredBody_canonical)
theorem execGredFmax_canonical {c0 seg d a s} (hs : MemCanonical s) : NextCanonical (execGredFmax c0 seg d a s) :=
  .next (issue_canonical hs gredBody_canonical)

/-! ## Kiln instructions -/

theorem modBalloon_canonical {s v f} (hs : MemCanonical s) : MemCanonical (s.modBalloon v f) :=
  modVdev_canonical hs
theorem balloonTest_canonical {s v} (hs : MemCanonical s) : MemCanonical (s.balloonTest v) :=
  .cond (modBalloon_canonical hs) hs
theorem giveBack_canonical {s v n} (hs : MemCanonical s) : MemCanonical (s.giveBack v n) :=
  balloonTest_canonical (modBalloon_canonical hs)
theorem dropRange_canonical {s t lo n ea} (hs : MemCanonical s) : MemCanonical (s.dropRange t lo n ea) :=
  .foldl markFault_canonical (hs.of_mem rfl)
theorem zeroBlock_canonical {s no rb} (hs : MemCanonical s) : FstCanonical (s.zeroBlock no rb) :=
  .mk (setBlock_canonical hs)
theorem recharge_canonical {s v no rb} (hs : MemCanonical s) : MemCanonical (s.recharge v no rb) :=
  .cond (charge_canonical hs) hs
theorem fillBlock_canonical {s t v pa rb pat ea} (hs : MemCanonical s) : MemCanonical (s.fillBlock t v pa rb pat ea) := by
  have hz : FstCanonical ((s.dropRange t (blockOf pa * 1024) 1024 ea).zeroBlock (blockOf pa) rb) := zeroBlock_canonical
    (dropRange_canonical hs)
  unfold State.fillBlock
  dsimp only
  refine recharge_canonical (giveBack_canonical (.modStore ?_))
  dsimp only
  exact Mem.putN_wf _ _ (Mem.clear_wf _ _ hz)
theorem emptyPage_canonical {s t v base rb ea} (hs : MemCanonical s) : MemCanonical (s.emptyPage t v base rb ea) := by
  have hd := dropRange_canonical (t := t) (lo := base) (n := 65536) (ea := ea) hs
  unfold State.emptyPage
  dsimp only
  refine giveBack_canonical (Mem.clear_wf base 65536 ?_)
  refine MemCanonical.foldlFst (fun h => ?_) hd
  exact zeroBlock_canonical (rb := rb) h
theorem rechargePage_canonical {s v base rb} (hs : MemCanonical s) : MemCanonical (s.rechargePage v base rb) :=
  .foldl recharge_canonical hs
theorem pageChecked_canonical {s ag ea reclaim} (hs : MemCanonical s) : FstCanonical (s.pageChecked ag ea reclaim) := by
  unfold State.pageChecked
  dsimp only
  refine .ite (.mk hs) ?_
  split
  · exact .mk (collapseFor_canonical hs)
  · exact .mk (collapseFor_canonical hs)
theorem pageLeaf_canonical {s ag ea reclaim} (hs : MemCanonical s) : FstCanonical (s.pageLeaf ag ea reclaim) := by
  unfold State.pageLeaf
  dsimp only
  refine .ite (.mk hs) (.ite (.mk hs) ?_)
  split
  · exact .mk hs
  · exact .mk hs
  · exact .mk hs
  · exact .ite (.mk hs) (.ite (.mk hs) (.ite (.mk hs) (.ite (.mk hs) (pageChecked_canonical hs))))
theorem kilnStep_canonical {s ag ea k} (hs : MemCanonical s) (hk : ∀ {t}, MemCanonical t → FstCanonical (k t)) :
    FstCanonical (s.kilnStep ag ea k) := by
  unfold State.kilnStep
  refine .ite (.mk (suppress_canonical hs)) (committing_canonical hs (fun h => ?_))
  split
  · next e => exact .mk ((drainIssuer_canonical h).of_eq e)
  · next e => exact hk ((drainIssuer_canonical h).of_eq e)
theorem surrender_canonical {s t v l ea} (hs : MemCanonical s) : MemCanonical (s.surrender t v l ea) :=
  setLeaf_canonical (.cond (emptyPage_canonical (dropPage_canonical hs)) (dropPage_canonical hs))
theorem reclaim_canonical {s t v die l ea} (hs : MemCanonical s) : SomeCanonical (s.reclaim t v die l ea) :=
  .ite (.some (dropPage_canonical (setLeaf_canonical (rechargePage_canonical (emptyPage_canonical hs)))))
    (.map fun _ _ => dropPage_canonical (setLeaf_canonical (freshPage_canonical hs)))
theorem outPair_canonical {s ag d x} (hs : MemCanonical s) : MemCanonical (s.outPair ag d x) :=
  out_canonical hs
theorem blksz1_canonical {s ag wb d ea} (hs : MemCanonical s) : FstCanonical (s.blksz1 ag wb d ea) := by
  unfold State.blksz1
  dsimp only
  split
  · next e => exact .mk ((translate_canonical hs).of_eq e)
  · next e =>
    have h := (translate_canonical hs).of_eq e
    exact .ite (.mk (out_canonical h)) (.mk (out_canonical (.cond (writeback_canonical h) h)))
  · next e =>
    have h := (translate_canonical hs).of_eq e
    exact .ite (.mk (out_canonical h)) (.mk h)
theorem blkfill1_canonical {s ag ea pat} (hs : MemCanonical s) : FstCanonical (s.blkfill1 ag ea pat) := by
  unfold State.blkfill1
  split
  · next e => exact .mk ((access_canonical hs).of_eq e)
  · next e => exact .mk ((access_canonical hs).of_eq e)
  · next e =>
    exact kilnStep_canonical ((access_canonical hs).of_eq e) (fun h => .mk (.cond (fillBlock_canonical h) (writeCommitted_canonical h)))
theorem pgsurr1_canonical {s ag ea} (hs : MemCanonical s) : FstCanonical (s.pgsurr1 ag ea) := by
  unfold State.pgsurr1
  dsimp only
  split
  · next e => exact .mk ((pageLeaf_canonical hs).of_eq e)
  · next e =>
    have h := (pageLeaf_canonical hs).of_eq e
    exact .ite (.mk h) (kilnStep_canonical h (fun h2 => .mk (surrender_canonical h2)))
theorem pgrecl1_canonical {s ag ea} (hs : MemCanonical s) : FstCanonical (s.pgrecl1 ag ea) := by
  unfold State.pgrecl1
  dsimp only
  split
  · next e => exact .mk ((pageLeaf_canonical hs).of_eq e)
  · next e =>
    refine kilnStep_canonical ((pageLeaf_canonical hs).of_eq e) (fun h => ?_)
    split
    · exact .mk h
    · split
      · next e2 => exact .mk ((reclaim_canonical h).of_eq e2)
      · exact .mk h
theorem execRsvqFree_canonical {c0 stk d s} (hs : MemCanonical s) : NextCanonical (execRsvqFree c0 stk d s) :=
  .next (issue_canonical hs (perThread_canonical (fun h2 => .mk (outPair_canonical h2))))
theorem execRsvqPend_canonical {c0 stk d s} (hs : MemCanonical s) : NextCanonical (execRsvqPend c0 stk d s) :=
  .next (issue_canonical hs (perThread_canonical (fun h2 => .mk (outPair_canonical h2))))
theorem execRsvqNominal_canonical {c0 stk d s} (hs : MemCanonical s) : NextCanonical (execRsvqNominal c0 stk d s) :=
  .next (issue_canonical hs (perThread_canonical (fun h2 => .mk (outPair_canonical h2))))
theorem execRsvqSurr_canonical {c0 stk d s} (hs : MemCanonical s) : NextCanonical (execRsvqSurr c0 stk d s) :=
  .next (issue_canonical hs (perThread_canonical (fun h2 => .mk (outPair_canonical h2))))
theorem execBlksz_canonical {c0 wb d a disp s} (hs : MemCanonical s) : NextCanonical (execBlksz c0 wb d a disp s) :=
  .next (issue_canonical hs (perThread_canonical blksz1_canonical))
theorem execBlkfill_canonical {c0 a disp c s} (hs : MemCanonical s) : NextCanonical (execBlkfill c0 a disp c s) :=
  .next (issue_canonical hs (perThread_canonical blkfill1_canonical))
theorem execBalq_canonical {c0 d s} (hs : MemCanonical s) : NextCanonical (execBalq c0 d s) :=
  .next (issue_canonical hs (perThread_canonical (fun h2 => .mk (outPair_canonical h2))))
theorem execPgsurr_canonical {c0 a disp s} (hs : MemCanonical s) : NextCanonical (execPgsurr c0 a disp s) :=
  .next (issue_canonical hs (perThread_canonical pgsurr1_canonical))
theorem execPgrecl_canonical {c0 a disp s} (hs : MemCanonical s) : NextCanonical (execPgrecl c0 a disp s) :=
  .next (issue_canonical hs (perThread_canonical pgrecl1_canonical))
theorem moveGrant_canonical {v st want n} : ∀ {s}, MemCanonical s → MemCanonical (s.moveGrant v st want n) := by
  induction n with
  | zero => exact id
  | succ n ih =>
    intro s hs
    rw [State.moveGrant]
    dsimp only
    split
    · exact hs
    · exact .cond hs (ih (modK_canonical (modK_canonical hs)))
theorem grantTo_canonical {s v st} (hs : MemCanonical s) : MemCanonical (s.grantTo v st) :=
  .cond (moveGrant_canonical hs) hs
theorem execGrantMove_canonical {vd stack s} (hs : MemCanonical s) : NextCanonical (execGrantMove vd stack s) :=
  .next (balloonTest_canonical (grantTo_canonical hs))
theorem execBlockWriteback_canonical {blk s} (hs : MemCanonical s) : NextCanonical (execBlockWriteback blk s) :=
  .next (.cond hs (writeback_canonical hs))
theorem execHeldChargeDecided_canonical {ag s} (hs : MemCanonical s) : NextCanonical (execHeldChargeDecided ag s) :=
  .next (.cond hs (.cond (modAgent_canonical hs) hs))
theorem openBalloon_canonical {s v} (hs : MemCanonical s) : MemCanonical (s.openBalloon v) := by
  unfold State.openBalloon
  exact .cond (hyperPost_canonical (modBalloon_canonical (.foldl grantTo_canonical hs))) (.foldl grantTo_canonical hs)
theorem execBalloonRequestOpen_canonical {vd s} (hs : MemCanonical s) : NextCanonical (execBalloonRequestOpen vd s) :=
  .next (openBalloon_canonical hs)
theorem logEntry_canonical {s level kind} (hs : MemCanonical s) : MemCanonical (s.logEntry level kind) :=
  modHearth_canonical hs
theorem execBalloonDeadlineExpiry_canonical {vd s} (hs : MemCanonical s) : NextCanonical (execBalloonDeadlineExpiry vd s) := by
  unfold execBalloonDeadlineExpiry
  refine .next ?_
  split
  · exact .cond (logEntry_canonical (modBalloon_canonical hs)) hs
  · exact hs
theorem execChargePathLift_canonical {vd s} (hs : MemCanonical s) : NextCanonical (execChargePathLift vd s) :=
  .next (modBalloon_canonical hs)

/-! ## The matrix engine -/

theorem mxPut_canonical {s core h c} (hs : MemCanonical s) : MemCanonical (s.mxPut core h c) :=
  modCore_canonical hs
theorem mxPutOp_canonical {s core h c clk op} (hs : MemCanonical s) : MemCanonical (s.mxPutOp core h c clk op) :=
  modCore_canonical hs
theorem takeBack_canonical {s core e} (hs : MemCanonical s) : MemCanonical (s.takeBack core e) := by
  unfold State.takeBack
  dsimp only
  split
  · exact modAgents_canonical (modCv_canonical (modCore_canonical hs))
  · exact hs
theorem makeRoom_canonical {s core c clk} (hs : MemCanonical s) : MemCanonical (s.makeRoom core c clk) := by
  unfold State.makeRoom
  refine .cond hs ?_
  split
  · exact takeBack_canonical hs
  · exact hs
theorem freeSets_canonical {s h} (hs : MemCanonical s) : MemCanonical (s.freeSets h) :=
  modShare_canonical hs
theorem enterOp_canonical {s t c} (hs : MemCanonical s) : MemCanonical (s.enterOp t c) := by
  unfold State.enterOp
  dsimp only
  split
  · exact .ite (modCv_canonical (modAgents_canonical (mxPutOp_canonical (makeRoom_canonical hs)))) (makeRoom_canonical hs)
  · exact hs
theorem enterIssuing_canonical {s core} (hs : MemCanonical s) : MemCanonical (s.enterIssuing core) :=
  .foldl enterOp_canonical hs
theorem mxDone_canonical {s core id h} (hs : MemCanonical s) : MemCanonical (s.mxDone core id h) :=
  enterIssuing_canonical (freeSets_canonical (modCore_canonical hs))
theorem mxElected_canonical {f l s} (hf : ∀ {x t}, MemCanonical t → FstCanonical (f x t)) (hs : MemCanonical s) :
    FstCanonical (mxElected f l s) :=
  elected_canonical (fun h => .ite (hf h) (.mk h)) hs
theorem mxJoint_canonical {f ags s} (hf : ∀ {x t}, MemCanonical t → MemCanonical (f x t)) (hs : MemCanonical s) :
    FstCanonical (mxJoint f ags s) := by
  unfold mxJoint
  split
  · exact .mk hs
  · exact .ite (.mk (hf hs)) (.mk hs)
theorem enterWload_canonical {s ag sparse hadn fmt va stride sc} (hs : MemCanonical s) :
    MemCanonical (s.enterWload ag sparse hadn fmt va stride sc) :=
  enterIssuing_canonical (modTask_canonical (freeSets_canonical (mxPut_canonical (modShare_canonical hs))))
theorem wload1_canonical {s ag sparse hadn fmt a b c} (hs : MemCanonical s) : FstCanonical (s.wload1 ag sparse hadn fmt a b c) := by
  unfold State.wload1
  dsimp only
  split
  · next e => exact .mk ((drainGroup_canonical hs).of_eq e)
  · next e =>
    have h := (drainGroup_canonical hs).of_eq e
    refine .ite (.mk h) (.ite (.mk h) (.ite (.mk h) ?_))
    split
    · next e2 => exact .mk ((checkRanges_canonical h).of_eq e2)
    · next e2 => exact .mk (enterWload_canonical ((checkRanges_canonical h).of_eq e2))
theorem wrel1_canonical {s ag} (hs : MemCanonical s) : MemCanonical (s.wrel1 ag) :=
  freeSets_canonical (mxPut_canonical (modShare_canonical hs))
theorem sign_canonical {s ag c p src} (hs : MemCanonical s) : FstCanonical (s.sign ag c p src) := by
  unfold State.sign
  dsimp only
  split
  · exact .mk hs
  · split
    · exact .mk (modCv_canonical hs)
    · exact .ite (.mk hs) (.ite (.mk (enterOp_canonical (modCv_canonical hs))) (.mk (modCv_canonical hs)))
theorem mma1_canonical {s ag c p a} (hs : MemCanonical s) : FstCanonical (s.mma1 ag c p a) := by
  unfold State.mma1
  split
  · next e => exact .mk ((drainIssuer_canonical hs).of_eq e)
  · next e => exact sign_canonical ((drainIssuer_canonical hs).of_eq e)
theorem mmam1_canonical {s ag c p a disp} (hs : MemCanonical s) : FstCanonical (s.mmam1 ag c p a disp) := by
  unfold State.mmam1
  dsimp only
  split
  · next e => exact .mk ((drainIssuer_canonical hs).of_eq e)
  · next e =>
    have h := (drainIssuer_canonical hs).of_eq e
    refine .ite (.ite (.mk h) (.ite (.mk h) (sign_canonical h))) (.ite (.mk h) ?_)
    split
    · next e2 => exact .mk ((checkRanges_canonical h).of_eq e2)
    · next e2 => exact sign_canonical ((checkRanges_canonical h).of_eq e2)
theorem adrain1_canonical {s ag sat clr sp scale fmt t a b c} (hs : MemCanonical s) :
    FstCanonical (s.adrain1 ag sat clr sp scale fmt t a b c) := by
  unfold State.adrain1
  dsimp only
  split
  · next e => exact .mk ((drainGroup_canonical hs).of_eq e)
  · next e =>
    have h := (drainGroup_canonical hs).of_eq e
    refine .ite (.mk h) (.ite (.mk h) (.ite (.mk h) (.ite (.ite (.mk h) (.mk (mxPut_canonical (.foldl padAbsent_canonical h)))) ?_)))
    split
    · next e2 => exact .mk ((checkRanges_canonical h).of_eq e2)
    · next e2 => exact charged_canonical ((checkRanges_canonical h).of_eq e2) (fun h2 => .mk (mxPut_canonical h2))
theorem noteDrain_canonical {f ags s0} (hf : ∀ {x t}, MemCanonical t → FstCanonical (f x t)) (hs0 : MemCanonical s0) :
    FstCanonical (noteDrain f ags s0) :=
  .mk (.cond (hf hs0) (modAgents_canonical (hf hs0)))
theorem execWload_canonical {c0 sparse hadn fmt a b c s} (hs : MemCanonical s) : NextCanonical (execWload c0 sparse hadn fmt a b c s) :=
  .next (issue_canonical hs (mxElected_canonical wload1_canonical))
theorem execMma_canonical {c0 row0 z as ksz kh fmt t a cv s} (hs : MemCanonical s) :
    NextCanonical (execMma c0 row0 z as ksz kh fmt t a cv s) :=
  .next (issue_canonical hs (perThread_canonical mma1_canonical))
theorem execMmam_canonical {c0 row0 z as ksz sp fmt t a cv disp s} (hs : MemCanonical s) :
    NextCanonical (execMmam c0 row0 z as ksz sp fmt t a cv disp s) :=
  .next (issue_canonical hs (perThread_canonical mmam1_canonical))
theorem execAclr_canonical {c0 t s} (hs : MemCanonical s) : NextCanonical (execAclr c0 t s) :=
  .next (issue_canonical hs (mxElected_canonical (fun h2 => .mk (mxPut_canonical h2))))
theorem ardAll_canonical {s0 chunk d t b ags s} (hs : MemCanonical s) : MemCanonical (State.ardAll s0 chunk d t b ags s) :=
  mxPut_canonical (.foldl out_canonical hs)
theorem awrAll_canonical {s chunk t a b ags} (hs : MemCanonical s) : MemCanonical (s.awrAll chunk t a b ags) :=
  mxPut_canonical hs
theorem mstatAll_canonical {s0 keep d ags s} (hs : MemCanonical s) : MemCanonical (State.mstatAll s0 keep d ags s) :=
  mxPut_canonical (.foldl out_canonical hs)
theorem execArd_canonical {c0 chunk d t b s} (hs : MemCanonical s) : NextCanonical (execArd c0 chunk d t b s) :=
  .next (issue_canonical hs (mxJoint_canonical ardAll_canonical))
theorem execAwr_canonical {c0 chunk t a b s} (hs : MemCanonical s) : NextCanonical (execAwr c0 chunk t a b s) :=
  .next (issue_canonical hs (mxJoint_canonical awrAll_canonical))
theorem execAdrain_canonical {c0 sat clr sp scale fmt t a b c s} (hs : MemCanonical s) :
    NextCanonical (execAdrain c0 sat clr sp scale fmt t a b c s) :=
  .next (issue_canonical hs (noteDrain_canonical (mxElected_canonical adrain1_canonical)))
theorem execWrel_canonical {c0 s} (hs : MemCanonical s) : NextCanonical (execWrel c0 s) :=
  .next (issue_canonical hs (mxElected_canonical (fun h2 => .mk (wrel1_canonical h2))))
theorem execMstat_canonical {c0 keep d s} (hs : MemCanonical s) : NextCanonical (execMstat c0 keep d s) :=
  .next (issue_canonical hs (mxJoint_canonical mstatAll_canonical))
theorem latch_canonical {s h} (hs : MemCanonical s) : SomeCanonical (s.latch h) := by
  unfold State.latch
  dsimp only
  split
  · exact .none
  · split
    · refine .ite .none (.map fun _ _ => mxDone_canonical (modShare_canonical ?_))
      split
      · dsimp only
        refine .foldlFst (fun h => ?_) hs
        exact engReadN_canonical h
      · refine .foldlFst (fun h => ?_) (.foldlFst (fun h => ?_) hs)
        · exact engReadN_canonical h
        · exact engReadN_canonical h
    · exact .none
theorem rowBytes_canonical {s h t core n r} (hs : MemCanonical s) : SomeFst (s.rowBytes h t core n r) := by
  cases r with
  | values ws => exact .some hs
  | reading _ _ _ => exact .none
  | pad off => exact .cond .none (.some hs)
  | glob va => exact .cond .none (.some (engReadN_canonical hs))
theorem readRows_canonical {h t core p l} : ∀ {s}, MemCanonical s → SomeFst (s.readRows h t core p l) := by
  induction l with
  | nil => exact fun hs => .some hs
  | cons x l ih =>
    intro s hs
    rw [State.readRows]
    split
    · exact .none
    · next h =>
      intro q hq
      obtain ⟨y, hy, rfl⟩ := Option.map_eq_some_iff.mp hq
      exact ih ((rowBytes_canonical hs).of_eq h) y hy
theorem setTile_canonical {s h t f st} (hs : MemCanonical s) : MemCanonical (s.setTile h t f st) :=
  modShare_canonical hs
theorem operate_canonical {s core} (hs : MemCanonical s) : SomeCanonical (s.operate core) := by
  unfold State.operate
  dsimp only
  refine .ite .none ?_
  split
  · exact .none
  · split
    · split
      · exact .none
      · exact .ite .none (.map fun _ e => mxDone_canonical (setTile_canonical (readRows_canonical hs _ e)))
    · exact .none
theorem tilePath_canonical {s core k} (hs : MemCanonical s) : SomeCanonical (s.tilePath core k) := by
  unfold State.tilePath
  dsimp only
  refine .ite .none ?_
  split
  · exact .none
  · split
    · exact .cond (.some (mxDone_canonical (setTile_canonical hs))) .none
    · exact .cond (.some (mxDone_canonical (.foldl fillOut_canonical hs))) .none
    · exact .cond (.some (mxDone_canonical (setTile_canonical hs))) .none
    · exact .some (mxDone_canonical hs)
    · exact .cond (.some (mxDone_canonical (.cond (.foldl fillOut_canonical hs) (modShare_canonical (.foldl fillOut_canonical hs))))) .none
    · exact .none
theorem drainRows_canonical {s core h t fmt sat scale sp dest stride row0 n tile} (hs : MemCanonical s) :
    FstCanonical (s.drainRows core h t fmt sat scale sp dest stride row0 n tile) := by
  unfold State.drainRows
  refine .foldl (fun h2 => ?_) (.mk hs)
  split
  · split
    · exact .mk (.cond (padWrite_canonical h2) (engWriteN_canonical h2))
theorem finishDrain_canonical {s core k} (hs : MemCanonical s) : SomeCanonical (s.finishDrain core k) := by
  unfold State.finishDrain
  dsimp only
  refine .ite .none ?_
  split
  · exact .none
  · split
    · refine .ite .none ?_
      split
      · exact .none
      · next e => exact .some ((engBudget_canonical hs).of_failed e)
      · next e =>
        exact .some (releaseIdle_canonical (mxDone_canonical
          (modAgents_canonical (setTile_canonical (drainRows_canonical ((engBudget_canonical hs).of_done e))))))
    · exact .none
theorem execWeightLatch_canonical {sh s} (hs : MemCanonical s) : NextCanonical (execWeightLatch sh s) :=
  .next (.cond hs (.getD (latch_canonical hs) hs))
theorem execMatrixOperation_canonical {core s} (hs : MemCanonical s) : NextCanonical (execMatrixOperation core s) :=
  .next (.getD (operate_canonical hs) hs)
theorem execTilePathEntry_canonical {core k s} (hs : MemCanonical s) : NextCanonical (execTilePathEntry core k s) :=
  .next (.getD (tilePath_canonical hs) hs)
theorem execAdrainComplete_canonical {core k s} (hs : MemCanonical s) : NextCanonical (execAdrainComplete core k s) :=
  .next (.getD (finishDrain_canonical hs) hs)
theorem resetCvs_canonical {s h queued} (hs : MemCanonical s) : MemCanonical (s.resetCvs h queued) :=
  .foldl (fun h2 => .ite (modCv_canonical (.foldl (fun h3 => addAsync_canonical (modAgent_canonical h3)) h2))
    (.ite (modCv_canonical h2) (.ite (modCv_canonical h2) h2))) hs
theorem resetShare_canonical {s h} (hs : MemCanonical s) : MemCanonical (s.resetShare h) := by
  have hbare := modShare_canonical (h := h) (f := fun x => { x with sets := [], current := none }) (resetCvs_canonical (h := h)
    (queued := (s.core (s.share h).core).mxQ.filterMap fun e => bif e.share == h then (match e.cmd with
      | .op c _ _ _ => some c
      | _ => none) else none) hs)
  refine .ite hbare (.ite ?_ (.ite ?_ ?_))
  · exact dropEngines_canonical (.foldl setTile_canonical hbare)
  · exact dropEngines_canonical (toRestart_canonical (.foldl setTile_canonical hbare))
  · exact .foldl addAsync_canonical (taskRecord_canonical (.foldl setTile_canonical hbare))
theorem mxStartReset_canonical {s core} (hs : MemCanonical s) : MemCanonical (s.mxStartReset core) :=
  .ite hs (modCore_canonical (.foldl resetShare_canonical hs))
theorem execMatrixEngineReset_canonical {core s} (hs : MemCanonical s) : NextCanonical (execMatrixEngineReset core s) :=
  .next (mxStartReset_canonical hs)
theorem execMatrixResetEnd_canonical {core s} (hs : MemCanonical s) : NextCanonical (execMatrixResetEnd core s) :=
  .next (enterIssuing_canonical (modCore_canonical hs))

/-! ## The extrapolation unit -/

theorem setXctx_canonical {s ag k x} (hs : MemCanonical s) : MemCanonical (s.setXctx ag k x) :=
  modAgent_canonical hs
theorem xCmdPerform_canonical {c ag s} (hs : MemCanonical s) : MemCanonical (XCmd.perform c ag s) := by
  unfold XCmd.perform
  split
  · exact setXctx_canonical hs
  · split
    · exact fillOut_canonical (setXctx_canonical hs)
  · split
    · exact fillOut_canonical (setXctx_canonical hs)
  · exact setXctx_canonical hs
  · exact fillOut_canonical hs
theorem xFront_canonical {s core} (hs : MemCanonical s) : MemCanonical (s.xFront core) := by
  unfold State.xFront
  split
  · exact hs
  · refine .foldl (fun h => ?_) (modCore_canonical hs)
    split
    · exact xCmdPerform_canonical h
theorem execExtrapolationEntry_canonical {core s} (hs : MemCanonical s) : NextCanonical (execExtrapolationEntry core s) :=
  .next (xFront_canonical hs)
theorem xEntry_canonical {s cmd out ags} (hs : MemCanonical s) (hout : ∀ {x t}, MemCanonical t → MemCanonical (out x t)) :
    FstCanonical (s.xEntry cmd out ags) := by
  unfold State.xEntry
  dsimp only
  split
  · exact .mk hs
  · exact .ite (.mk hs) (.mk (modCore_canonical (.foldl hout hs)))
theorem xEntries_canonical {cmd out l} :
    ∀ {s}, MemCanonical s → (∀ {a t}, MemCanonical t → MemCanonical (out a t)) → FstCanonical (s.xEntries cmd out l) := by
  induction l with
  | nil => exact fun hs _ => .mk hs
  | cons p l ih => exact fun hs hout => .mk (ih (xEntry_canonical hs hout) hout)
theorem xPass_canonical {s cmd out ags} (hs : MemCanonical s) (hout : ∀ {x t}, MemCanonical t → MemCanonical (out x t)) :
    FstCanonical (s.xPass cmd out ags) :=
  xEntries_canonical hs hout
theorem execXcfg_canonical {c0 depth meth x a b c s} (hs : MemCanonical s) : NextCanonical (execXcfg c0 depth meth x a b c s) :=
  .next (issue_canonical hs (fun h => xPass_canonical h (fun h2 => h2)))
theorem execXpush_canonical {c0 x a pc s} (hs : MemCanonical s) : NextCanonical (execXpush c0 x a pc s) :=
  .next (issue_canonical hs (fun h => xPass_canonical h out_canonical))
theorem execXest_canonical {c0 d x pc s} (hs : MemCanonical s) : NextCanonical (execXest c0 d x pc s) :=
  .next (issue_canonical hs (fun h => xPass_canonical h out_canonical))
theorem execXclr_canonical {c0 x s} (hs : MemCanonical s) : NextCanonical (execXclr c0 x s) :=
  .next (issue_canonical hs (fun h => xPass_canonical h (fun h2 => h2)))
theorem execXstat_canonical {c0 d x s} (hs : MemCanonical s) : NextCanonical (execXstat c0 d x s) :=
  .next (issue_canonical hs (fun h => xPass_canonical h out_canonical))

/-! ## Shares -/

theorem finishCopies_canonical {core h n} : ∀ {s}, MemCanonical s → MemCanonical (s.finishCopies core h n) := by
  induction n with
  | zero => exact id
  | succ n ih =>
    intro s hs
    rw [State.finishCopies]
    split
    · exact hs
    · next e => exact ih ((SomeCanonical.findSome (.cond (finishCopy_canonical hs) .none)).of_eq e)
theorem mxStep_canonical {s core k} (hs : MemCanonical s) : SomeCanonical (s.mxStep core k) := by
  unfold State.mxStep
  split
  · exact .none
  · split
    · exact .cond (operate_canonical hs) .none
    · exact finishDrain_canonical hs
    · exact .none
    · exact tilePath_canonical hs
theorem finishX_canonical {core h n} : ∀ {s}, MemCanonical s → MemCanonical (s.finishX core h n) := by
  induction n with
  | zero => exact id
  | succ n ih => exact fun hs => .cond (ih (xFront_canonical hs)) hs
theorem finishOps_canonical {core h n} : ∀ {s}, MemCanonical s → MemCanonical (s.finishOps core h n) := by
  induction n with
  | zero => exact id
  | succ n ih =>
    intro s hs
    refine .cond ?_ hs
    split
    · next e => exact ih ((SomeCanonical.findSome (mxStep_canonical hs)).of_eq e)
    · exact hs
theorem finishStarted_canonical {s h} (hs : MemCanonical s) : MemCanonical (s.finishStarted h) :=
  finishOps_canonical (finishX_canonical (finishCopies_canonical hs))
theorem saveShare_canonical {s h} (hs : MemCanonical s) : MemCanonical (s.saveShare h) :=
  modShare_canonical (modTask_canonical (modCore_canonical (.foldl flushFwd_canonical (modAgents_canonical hs))))
theorem resumeShare_canonical {s h core} (hs : MemCanonical s) : SomeCanonical (s.resumeShare h core) :=
  .map fun _ _ => beginRun_canonical (modSlice_canonical (modShare_canonical
    (modCore_canonical (modAgents_canonical (.foldl modGroup_canonical hs)))))
theorem switchIn_canonical {s h core} (hs : MemCanonical s) : MemCanonical (s.switchIn h core) :=
  .cond hs (.getD (resumeShare_canonical hs) hs)
theorem switchInAll_canonical {s v core} (hs : MemCanonical s) : MemCanonical (s.switchInAll v core) :=
  .foldl switchIn_canonical hs
theorem placeTeam_canonical {s l team cluster} (hs : MemCanonical s) : SomeCanonical (s.placeTeam l team cluster) :=
  .bind fun _ _ => placeAll_canonical (addTeam_canonical hs)
theorem placeTeams_canonical {l cluster k} : ∀ {s n}, MemCanonical s → SomeCanonical (s.placeTeams l cluster n k) := by
  induction k with
  | zero => exact fun hs => .some hs
  | succ k ih => exact fun hs => .bindState (placeTeam_canonical hs) fun _ => ih
theorem resumeAll_canonical {v cluster l} : ∀ {s}, MemCanonical s → SomeCanonical (s.resumeAll v cluster l) := by
  induction l with
  | nil => exact fun hs => .some hs
  | cons h l ih => exact fun hs => .bindState (.findSome (resumeShare_canonical hs)) fun _ => ih
theorem placeCord_canonical {s l cluster} (hs : MemCanonical s) : SomeCanonical (s.placeCord l cluster) :=
  .cond (resumeAll_canonical hs) (.mapState (placeTeams_canonical hs) fun _ h => modLaunch_canonical h)
theorem walkCords_canonical {v l} : ∀ {s head}, MemCanonical s → FstCanonical (s.walkCords v head l) := by
  induction l with
  | nil => exact fun hs => .mk hs
  | cons x l ih =>
    intro s head hs
    unfold State.walkCords
    dsimp only
    split
    · exact ih (.getD (placeCord_canonical hs) hs)
    · split
      · exact ih hs
      · exact ih hs
theorem cordWalk_canonical {s v} (hs : MemCanonical s) : MemCanonical (s.cordWalk v) := by
  unfold State.cordWalk
  split
  · next e => exact modVdev_canonical ((walkCords_canonical hs).of_eq e)
theorem dueWalk_canonical {s v} (hs : MemCanonical s) : MemCanonical (s.dueWalk v) :=
  modVdev_canonical hs
theorem walksDue_canonical {s} (hs : MemCanonical s) : MemCanonical (s.walksDue) :=
  .foldl (fun h => .cond (cordWalk_canonical h) h) hs

/-! ## Slices -/

theorem noteEligible_canonical {s v core} (hs : MemCanonical s) : MemCanonical (s.noteEligible v core) :=
  .cond hs (.cond (.cond hs (modVdev_canonical hs)) (modVdev_canonical hs))
theorem noteAll_canonical {s core} (hs : MemCanonical s) : MemCanonical (s.noteAll core) :=
  .foldl noteEligible_canonical hs
theorem noteEverywhere_canonical {s} (hs : MemCanonical s) : MemCanonical (s.noteEverywhere) :=
  .foldl (fun h => .cond h (.foldl noteEligible_canonical h)) hs
theorem refillOnce_canonical {s v core} (hs : MemCanonical s) : MemCanonical (s.refillOnce v core) :=
  modVdev_canonical (setBucket_canonical (accountTo_canonical hs))
theorem refillTimes_canonical {v core n} : ∀ {s}, MemCanonical s → MemCanonical (s.refillTimes v core n) := by
  induction n with
  | zero => exact id
  | succ n ih => exact fun hs => ih (refillOnce_canonical hs)
theorem refill_canonical {s v core} (hs : MemCanonical s) : MemCanonical (s.refill v core) :=
  .cond (noteAll_canonical (refillTimes_canonical hs)) hs
theorem refillsDue_canonical {s core} (hs : MemCanonical s) : MemCanonical (s.refillsDue core) :=
  .foldl refill_canonical hs
theorem beginEnd_canonical {s core issuer} (hs : MemCanonical s) : MemCanonical (s.beginEnd core issuer) :=
  .cond (modSlice_canonical hs) (.foldl (fun h => .cond h (.cond (addAsync_canonical h) (deliver_canonical (addAsync_canonical h))))
    (modSlice_canonical hs))
theorem endMate_canonical {s core} (hs : MemCanonical s) : MemCanonical (s.endMate core) := by
  unfold State.endMate
  dsimp only
  refine .cond hs (beginEnd_canonical ?_)
  split
  · exact modSlice_canonical hs
  · exact hs
theorem sliceEnd_canonical {s core issuer} (hs : MemCanonical s) : MemCanonical (s.sliceEnd core issuer) :=
  .cond hs (beginEnd_canonical (.foldl endMate_canonical hs))
theorem pauseTest_canonical {s v} (hs : MemCanonical s) : MemCanonical (s.pauseTest v) :=
  .cond (modVdev_canonical (hs.of_mem rfl)) hs
theorem writeSaveArea_canonical {s v core} (hs : MemCanonical s) : MemCanonical (s.writeSaveArea v core) := by
  unfold State.writeSaveArea
  refine .foldl (fun h => ?_) hs
  split
  · exact writeCommitted_canonical h
theorem swapOut_canonical {s core} (hs : MemCanonical s) : MemCanonical (s.swapOut core) := by
  unfold State.swapOut
  dsimp only
  split
  · exact dueWalk_canonical (pauseTest_canonical (modSlice_canonical
      (.foldl modLaunch_canonical (.foldl saveShare_canonical (account_canonical hs)))))
  · exact modSlice_canonical (.foldl modLaunch_canonical (.foldl saveShare_canonical (account_canonical hs)))
theorem swapIn_canonical {s core} (hs : MemCanonical s) : MemCanonical (s.swapIn core) := by
  unfold State.swapIn
  dsimp only
  split
  · exact modSlice_canonical hs
  · refine .ite (modSlice_canonical hs) ?_
    split
    · exact hearthSignal_canonical (dueWalk_canonical (switchInAll_canonical (startRun_canonical (modSlice_canonical hs))))
    · exact dueWalk_canonical (switchInAll_canonical (startRun_canonical (modSlice_canonical hs)))
theorem swap_canonical {s core} (hs : MemCanonical s) : SomeCanonical (s.swap core) := by
  unfold State.swap
  dsimp only
  refine .cond .none (.cond .none (.some (.foldl swapIn_canonical (.foldl swapOut_canonical (drainAgents_canonical ?_)))))
  exact .foldl finishStarted_canonical hs
theorem execSliceEnd_canonical {core s} (hs : MemCanonical s) : NextCanonical (execSliceEnd core s) :=
  .next (sliceEnd_canonical hs)
theorem swapOrStop_canonical {s core} (hs : MemCanonical s) : MemCanonical (s.swapOrStop core) :=
  .getD (swap_canonical hs) (.foldl modSlice_canonical hs)
theorem execContextSwap_canonical {core s} (hs : MemCanonical s) : NextCanonical (execContextSwap core s) :=
  .next (.cond (swapOrStop_canonical hs) hs)
theorem execHandlerBudgetExpiry_canonical {core s} (hs : MemCanonical s) : NextCanonical (execHandlerBudgetExpiry core s) := by
  unfold execHandlerBudgetExpiry
  dsimp only
  refine .next ?_
  split
  · exact .cond (swapOrStop_canonical hs) hs
  · exact swapOrStop_canonical hs
  · exact hs
theorem spillDone_canonical {s core} (hs : MemCanonical s) : MemCanonical (s.spillDone core) := by
  unfold State.spillDone
  dsimp only
  refine modSlice_canonical (.foldl modShare_canonical ?_)
  split
  · exact writeSaveArea_canonical hs
  · exact hs
theorem execSpillComplete_canonical {core s} (hs : MemCanonical s) : NextCanonical (execSpillComplete core s) :=
  .next (.cond hs (spillDone_canonical hs))
theorem execBudgetRefill_canonical {vd core s} (hs : MemCanonical s) : NextCanonical (execBudgetRefill vd core s) :=
  .next (refill_canonical hs)
theorem endRun_canonical {s core} (hs : MemCanonical s) : MemCanonical (s.endRun core) := by
  have hnoted : MemCanonical ((s.account core).noteAll core) := noteAll_canonical (account_canonical hs)
  unfold State.endRun
  dsimp only
  refine .cond hs ?_
  split
  · split
    · exact hnoted
    · exact .cond (pauseTest_canonical (modSlice_canonical hnoted)) (beginEnd_canonical hnoted)
  · exact .cond (startRun_canonical hnoted)
      (.cond (.cond hnoted (dueWalk_canonical (switchInAll_canonical (startRun_canonical hnoted)))) (modSlice_canonical hnoted))
theorem execRunEnd_canonical {core s} (hs : MemCanonical s) : NextCanonical (execRunEnd core s) := by
  unfold execRunEnd
  dsimp only
  refine .next ?_
  split
  · exact .cond (endRun_canonical (refillsDue_canonical hs)) (refillsDue_canonical hs)
  · exact endRun_canonical (refillsDue_canonical hs)
theorem execCtxswRunEnd_canonical {core s} (hs : MemCanonical s) : NextCanonical (execCtxswRunEnd core s) := by
  unfold execCtxswRunEnd
  refine .next ?_
  split
  · exact .cond (endRun_canonical hs) hs
  · exact hs
theorem raiseCarve_canonical {s} (hs : MemCanonical s) : MemCanonical (s.raiseCarve) := by
  unfold State.raiseCarve
  refine .foldl (fun h => ?_) hs
  split
  · exact modCore_canonical h
  · exact h
theorem execCarveoutChange_canonical {core ways s} (hs : MemCanonical s) : NextCanonical (execCarveoutChange core ways s) :=
  .next (.cond hs (modCore_canonical hs))
theorem execCarveoutChangeEffect_canonical {core s} (hs : MemCanonical s) : NextCanonical (execCarveoutChangeEffect core s) := by
  unfold execCarveoutChangeEffect
  refine .next ?_
  split
  · exact hs
  · exact .cond (modCore_canonical hs) hs

end Sys2Proof.Machine
end

section
/-! SUPPORT. Memory stays canonical through fetches, events of tasks, queues and packets, residency and virtual devices (R354). -/

namespace Sys2Proof.Machine
set_option Elab.async false

/-! ## Nominations and fetches -/

theorem fetchWord_canonical {s ag pc} (hs : MemCanonical s) : FstCanonical (s.fetchWord ag pc) := by
  unfold State.fetchWord
  split
  · next e => exact .mk ((translate_canonical hs).of_eq e)
  · next e => exact .mk ((translate_canonical hs).of_eq e)
  · next e => exact .mk ((translate_canonical hs).of_eq e)
theorem fetchWords_canonical {ag n} : ∀ {s pc}, MemCanonical s → FstCanonical (s.fetchWords ag pc n) := by
  induction n with
  | zero => exact fun hs => .mk hs
  | succ n ih =>
    intro s pc hs
    rw [State.fetchWords]
    split
    · next h => exact (fetchWord_canonical hs).of_eq h
    · next h =>
      have ht := @ih _ (pc + 4#64) ((fetchWord_canonical hs).of_eq h)
      split
      · next h => exact ht.of_eq h
      · next h => exact ht.of_eq h
theorem fetch_canonical {s ag pc} (hs : MemCanonical s) : FstCanonical (s.fetch ag pc) := by
  unfold State.fetch
  refine .ite (.mk hs) ?_
  split
  · next e => exact .mk ((fetchWord_canonical hs).of_eq e)
  · next e =>
    have h := (fetchWord_canonical hs).of_eq e
    split
    · next e2 => exact .mk ((fetchWords_canonical h).of_eq e2)
    · next e2 => exact .mk ((fetchWords_canonical h).of_eq e2)
theorem fetchInstr_canonical {s ag pc} (hs : MemCanonical s) : FstCanonical (s.fetchInstr ag pc) := by
  unfold State.fetchInstr
  dsimp only
  split
  · next e => exact .mk ((fetch_canonical hs).of_eq e)
  · next e =>
    have h := (fetch_canonical hs).of_eq e
    split
    · exact .mk h
    · exact .mk h
theorem deliverAll_canonical {l} : ∀ {s}, MemCanonical s → MemCanonical (s.deliverAll l) := by
  induction l with
  | nil => exact id
  | cons a l ih => exact fun hs => ih (.cond (deliver_canonical hs) hs)
theorem meetW_canonical {l} : ∀ {s}, MemCanonical s → MemCanonical (s.meetW l) := by
  induction l with
  | nil => exact id
  | cons a l ih => exact fun hs => ih (.cond (modAgent_canonical hs) hs)
theorem buffer_canonical {s o pc} (hs : MemCanonical s) : MemCanonical (s.buffer o pc) := by
  unfold State.buffer
  split
  · exact modCore_canonical hs
  · exact hs
theorem readied_canonical {s o} (hs : MemCanonical s) : MemCanonical (s.readied o) :=
  deliverAll_canonical (meetW_canonical hs)
theorem nominate_canonical {s o} (hs : MemCanonical s) : MemCanonical (s.nominate o) :=
  .of_store (.cond (readied_canonical hs) (buffer_canonical (readied_canonical hs)))
theorem noteArrival_canonical {s ag q} (hs : MemCanonical s) : MemCanonical (s.noteArrival ag q) :=
  modCore_canonical hs
theorem noteOrder_canonical {s i ag} (hs : MemCanonical s) : MemCanonical (s.noteOrder i ag) := by
  unfold State.noteOrder
  dsimp only
  refine .foldl noteBar_canonical ?_
  split
  · exact noteArrival_canonical hs
  · exact hs
theorem execSliceNomination_canonical {o s} (hs : MemCanonical s) : NextCanonical (execSliceNomination o s) :=
  .next (nominate_canonical hs)
theorem takeBreakpoints_canonical {l} : ∀ {s}, MemCanonical s → MemCanonical (s.takeBreakpoints l) := by
  induction l with
  | nil => exact id
  | cons a l ih =>
    intro s hs
    refine ih ?_
    split
    · exact takeTrap_canonical hs
    · exact hs
theorem noteIssue_canonical {s ag f} (hs : MemCanonical s) : MemCanonical (s.noteIssue ag f) := by
  unfold State.noteIssue
  dsimp only
  split
  · exact modGroup_canonical (modCore_canonical hs)
  · exact modShare_canonical (modCore_canonical hs)
theorem fetchCur_canonical {s} (hs : MemCanonical s) : FstCanonical (s.fetchCur) := by
  unfold State.fetchCur
  dsimp only
  split
  · exact .mk (.of_store (takeBreakpoints_canonical hs))
  · split
    · next e =>
      exact .mk (.foldl trapFate_canonical (noteIssue_canonical
        ((fetchInstr_canonical (.of_store (takeBreakpoints_canonical hs))).of_eq e)))
    · next e => exact .mk (.of_store (noteIssue_canonical ((fetchInstr_canonical (.of_store (takeBreakpoints_canonical hs))).of_eq e)))

/-! ## Events of threads -/

theorem execResultWriteback_canonical {ag k s} (hs : MemCanonical s) : NextCanonical (execResultWriteback ag k s) := by
  unfold execResultWriteback
  dsimp only
  refine .next ?_
  split
  · exact .cond (modAgent_canonical hs) hs
  · exact hs
theorem execStoreQueueDrain_canonical {o s} (hs : MemCanonical s) : NextCanonical (execStoreQueueDrain o s) := by
  unfold execStoreQueueDrain
  refine .next ?_
  split
  · exact drainFirst_canonical hs
  · exact hs
theorem execStsBankWrite_canonical {core part s} (hs : MemCanonical s) : NextCanonical (execStsBankWrite core part s) := by
  unfold execStsBankWrite
  refine .next ?_
  split
  · exact hs
  · exact modCore_canonical (modShare_canonical hs)
theorem takeHeld_canonical {s ag d x} (hs : MemCanonical s) : MemCanonical (s.takeHeld ag d x) :=
  .cond (stepEnd_canonical (.cond (deferred_canonical (modAgent_canonical hs)) (takeTrapWith_canonical (modAgent_canonical hs))))
    (.cond (deferred_canonical (modAgent_canonical hs)) (takeTrapWith_canonical (modAgent_canonical hs)))
theorem execParkRelease_canonical {ag s} (hs : MemCanonical s) : NextCanonical (execParkRelease ag s) := by
  unfold execParkRelease
  dsimp only
  refine .next ?_
  split
  · refine .cond ?_ hs
    split
    · exact .cond (deferred_canonical (modAgent_canonical hs)) (modAgent_canonical hs)
    · exact takeHeld_canonical hs
    · exact modAgents_canonical hs
  · exact hs
theorem execThreadKill_canonical {ag s} (hs : MemCanonical s) : NextCanonical (execThreadKill ag s) :=
  .next (.cond (killAgent_canonical hs) hs)
theorem execShareRetire_canonical {sh s} (hs : MemCanonical s) : NextCanonical (execShareRetire sh s) :=
  .next (.cond (dueWalk_canonical (modShare_canonical (.foldl flushFwd_canonical
    (.cond (dropEngines_canonical (drainAgents_canonical hs)) hs)))) (.cond (dropEngines_canonical (drainAgents_canonical hs)) hs))

/-! ## System instructions and hand-overs -/

theorem sysFirst_canonical {s ag k} (hs : MemCanonical s) (hk : ∀ {t}, MemCanonical t → FstCanonical (k t)) :
    FstCanonical (s.sysFirst ag k) :=
  committing_canonical hs hk
theorem sysStep_canonical {s ag k} (hs : MemCanonical s) (hk : ∀ {t}, MemCanonical t → FstCanonical (k t)) :
    FstCanonical (s.sysStep ag k) := by
  unfold State.sysStep
  split
  · next e => exact .mk ((drainIssuer_canonical hs).of_eq e)
  · next e => exact hk ((drainIssuer_canonical hs).of_eq e)
theorem sysCounter_canonical {s ag va} (hs : MemCanonical s) : FstCanonical (s.sysCounter ag va) := by
  unfold State.sysCounter
  refine .ite (.mk hs) ?_
  split
  · next e => exact .mk ((translate_canonical hs).of_eq e)
  · next e => exact .mk ((translate_canonical hs).of_eq e)
  · next e => exact .mk ((translate_canonical hs).of_eq e)
theorem stkho1_canonical {s ag die scope ctr b} (hs : MemCanonical s) : FstCanonical (s.stkho1 ag die scope ctr b) := by
  unfold State.stkho1
  dsimp only
  refine sysFirst_canonical hs (fun h => ?_)
  split
  · exact .mk (sysCounter_canonical h)
  · exact sysStep_canonical (sysCounter_canonical h) (fun h2 => .mk (.keepStore h2 rfl))
theorem modOwner_canonical {s st f} (hs : MemCanonical s) : MemCanonical (s.modOwner st f) :=
  .keepStore hs rfl
theorem handoverDone_canonical {s h} (hs : MemCanonical s) : MemCanonical (s.handoverDone h) := by
  unfold State.handoverDone
  split
  · exact hearthSignal_canonical hs
  · exact hs
theorem handoverStep_canonical {s h} (hs : MemCanonical s) : FstCanonical (s.handoverStep h) := by
  unfold State.handoverStep
  dsimp only
  split
  · exact .cond (.mk (handoverDone_canonical hs)) (.mk (modOwner_canonical hs))
  · exact .mk hs
  · exact .mk hs
  · exact .mk (dropTlb_canonical hs)
  · exact .mk (modOwner_canonical hs)
  · exact .mk (.cond (dropTlb_canonical (.keepStore (modOwner_canonical hs) rfl)) (.keepStore (modOwner_canonical hs) rfl))
  · exact .mk (handoverDone_canonical hs)
theorem handoverOn_canonical {s st} (hs : MemCanonical s) : MemCanonical (s.handoverOn st) := by
  unfold State.handoverOn
  dsimp only
  split
  · exact hs
  · exact .keepStore (handoverStep_canonical hs) rfl
theorem execStackHandover_canonical {stack s} (hs : MemCanonical s) : NextCanonical (execStackHandover stack s) :=
  .next (handoverOn_canonical hs)
theorem tlbiDrop_canonical {s ag scope p} (hs : MemCanonical s) : FstCanonical (s.tlbiDrop ag scope p) := by
  unfold State.tlbiDrop
  dsimp only
  refine sysStep_canonical hs (fun h => ?_)
  split
  · next e => exact .mk ((drainAgents_canonical (dropTlb_canonical h)).of_eq e)
  · next e => exact .mk ((drainAgents_canonical (dropTlb_canonical h)).of_eq e)
theorem tlbi1_canonical {s ag scope p} (hs : MemCanonical s) : FstCanonical (s.tlbi1 ag scope p) :=
  sysFirst_canonical hs tlbiDrop_canonical
theorem tlbiPage1_canonical {s ag scope a n} (hs : MemCanonical s) : FstCanonical (s.tlbiPage1 ag scope a n) :=
  sysFirst_canonical hs (fun h => .ite (.mk h) (tlbiDrop_canonical h))
theorem discardLines_canonical {s scope lo n no} (hs : MemCanonical s) : MemCanonical (s.discardLines scope lo n no) :=
  releaseIdle_canonical (setBlock_canonical (.foldl (fun h => Mem.putN_wf _ _ h) hs))
theorem cflush1_canonical {s ag op scope a b} (hs : MemCanonical s) : FstCanonical (s.cflush1 ag op scope a b) := by
  unfold State.cflush1
  dsimp only
  refine sysFirst_canonical hs (fun h => .ite (.mk h) ?_)
  split
  · exact .mk h
  · exact sysStep_canonical h (fun h2 => .mk (.foldl (fun h3 => .foldl
      (fun h4 => .cond (discardLines_canonical h4) (.cond (.cond (writeback_canonical h4) h4) h4)) h3) h2))
theorem ctxsw1_canonical {s ag force scope ctr desc b} (hs : MemCanonical s) : FstCanonical (s.ctxsw1 ag force scope ctr desc b) := by
  unfold State.ctxsw1
  dsimp only
  refine sysFirst_canonical hs (fun h => ?_)
  split
  · exact .mk (readRecordBy_canonical (sysCounter_canonical h))
  · exact .mk (readRecordBy_canonical (sysCounter_canonical h))
  · exact sysStep_canonical (readRecordBy_canonical (sysCounter_canonical h)) (fun h2 => .mk (sliceEnd_canonical (modSlice_canonical h2)))
theorem execStkho_canonical {c0 die scope a b s} (hs : MemCanonical s) : NextCanonical (execStkho c0 die scope a b s) :=
  .next (issue_canonical hs (perThread_canonical stkho1_canonical))
theorem execTlbiPage_canonical {c0 scope a b s} (hs : MemCanonical s) : NextCanonical (execTlbiPage c0 scope a b s) :=
  .next (issue_canonical hs (perThread_canonical tlbiPage1_canonical))
theorem execTlbiVdev_canonical {c0 scope b s} (hs : MemCanonical s) : NextCanonical (execTlbiVdev c0 scope b s) :=
  .next (issue_canonical hs (perThread_canonical tlbi1_canonical))
theorem execTlbiVdevn_canonical {c0 scope b s} (hs : MemCanonical s) : NextCanonical (execTlbiVdevn c0 scope b s) :=
  .next (issue_canonical hs (perThread_canonical tlbi1_canonical))
theorem execTlbiAll_canonical {c0 scope b s} (hs : MemCanonical s) : NextCanonical (execTlbiAll c0 scope b s) :=
  .next (issue_canonical hs (perThread_canonical tlbi1_canonical))
theorem execCflushClean_canonical {c0 scope a b s} (hs : MemCanonical s) : NextCanonical (execCflushClean c0 scope a b s) :=
  .next (issue_canonical hs (perThread_canonical cflush1_canonical))
theorem execCflushInv_canonical {c0 scope a b s} (hs : MemCanonical s) : NextCanonical (execCflushInv c0 scope a b s) :=
  .next (issue_canonical hs (perThread_canonical cflush1_canonical))
theorem execCflushDiscard_canonical {c0 scope a b s} (hs : MemCanonical s) : NextCanonical (execCflushDiscard c0 scope a b s) :=
  .next (issue_canonical hs (perThread_canonical cflush1_canonical))
theorem execCtxsw_canonical {c0 force scope d a b s} (hs : MemCanonical s) : NextCanonical (execCtxsw c0 force scope d a b s) :=
  .next (issue_canonical hs (perThread_canonical ctxsw1_canonical))

/-! ## Launches and restarts -/

theorem completePacket_canonical {s q idx v} (hs : MemCanonical s) : MemCanonical (s.completePacket q idx v) :=
  modQueue_canonical hs
theorem endLaunch_canonical {s l} (hs : MemCanonical s) : MemCanonical (s.endLaunch l) := by
  unfold State.endLaunch
  dsimp only
  refine .cond hs ?_
  split
  · exact completePacket_canonical (dueWalk_canonical (modLaunch_canonical hs))
  · exact dueWalk_canonical (modLaunch_canonical hs)
theorem launchTest_canonical {s l} (hs : MemCanonical s) : MemCanonical (s.launchTest l) :=
  .cond (endLaunch_canonical hs) hs
theorem teamRetire_canonical {s t} (hs : MemCanonical s) : MemCanonical (s.teamRetire t) :=
  .cond (launchTest_canonical (modLaunch_canonical (freeToken_canonical (modTask_canonical hs)))) hs
theorem execTeamRetire_canonical {t s} (hs : MemCanonical s) : NextCanonical (execTeamRetire t s) :=
  .next (teamRetire_canonical hs)
theorem killLaunch_canonical {s l info} (hs : MemCanonical s) : MemCanonical (s.killLaunch l info) :=
  .cond hs (.cond (modLaunch_canonical hs) (endLaunch_canonical
    (modLaunch_canonical (.of_store (.foldl killTask_canonical (record_canonical hs))))))
theorem countIdle_canonical {s dt} (hs : MemCanonical s) : MemCanonical (s.countIdle dt) :=
  .cond hs (.foldl (fun h => .cond (modLaunch_canonical h) h) hs)
theorem bringFault_canonical {s t f} (hs : MemCanonical s) : SomeCanonical (s.bringFault t f) := by
  unfold State.bringFault
  split
  · exact .cond (.some hs) (makePageResident_canonical hs)
  · exact .none
theorem taskFault_canonical {s t} (hs : MemCanonical s) : MemCanonical (s.taskFault t) := by
  have hdown : MemCanonical (((s.task t).shares.foldl State.dropEngines (s.discard t)).modTask t fun x => { x with bars := startBars }) :=
    modTask_canonical (.foldl dropEngines_canonical (discard_canonical hs))
  unfold State.taskFault
  dsimp only
  split
  · have hrecord {flags f supp} : MemCanonical (State.taskRecord _ t flags f supp) := taskRecord_canonical hdown
    exact .cond (.cond (modTask_canonical (modTask_canonical (.cond (.getD (bringFault_canonical hrecord) hrecord) hrecord)))
      (toRestart_canonical (modTask_canonical (.cond (.getD (bringFault_canonical hrecord) hrecord) hrecord))))
      (freeToken_canonical (modTask_canonical hrecord))
  · exact hs
theorem grantToken_canonical {s t} (hs : MemCanonical s) : MemCanonical (s.grantToken t) :=
  .cond (.keepStore hs rfl) hs
theorem taskRestart_canonical {s t cores} (hs : MemCanonical s) : MemCanonical (s.taskRestart t cores) := by
  unfold State.taskRestart
  dsimp only
  refine .cond ?_ hs
  split
  · exact hs
  · next e =>
    have h := (restart_canonical hs).of_eq e
    split
    · exact grantToken_canonical h
    · exact modTask_canonical (.foldl startTrap_canonical (grantToken_canonical h))
theorem execCapacityWaitRestart_canonical {t s} (hs : MemCanonical s) : NextCanonical (execCapacityWaitRestart t s) :=
  .next (.cond (toRestart_canonical hs) hs)
theorem execCommitRequest_canonical {t s} (hs : MemCanonical s) : NextCanonical (execCommitRequest t s) :=
  .next (.cond (.cond (modTask_canonical hs) (conflict_canonical hs)) hs)
theorem execVersionCommit_canonical {t s} (hs : MemCanonical s) : NextCanonical (execVersionCommit t s) := by
  unfold execVersionCommit
  refine .next (.cond ?_ hs)
  split
  · next e => exact modTask_canonical ((commit_canonical hs).of_done e)
  · next e => exact (commit_canonical hs).of_failed e
  · exact hs
theorem execCommitTokenGrant_canonical {part s} (hs : MemCanonical s) : NextCanonical (execCommitTokenGrant part s) := by
  unfold execCommitTokenGrant
  refine .next ?_
  split
  · exact .cond (grantToken_canonical hs) hs
  · exact hs

/-! ## The distributor -/

theorem execCordScheduleWalk_canonical {vd s} (hs : MemCanonical s) : NextCanonical (execCordScheduleWalk vd s) :=
  .next (cordWalk_canonical hs)
theorem execCordAgeingTick_canonical {vd s} (hs : MemCanonical s) : NextCanonical (execCordAgeingTick vd s) :=
  .next (cordWalk_canonical hs)
theorem execDieDistributorRequest_canonical {die l s} (hs : MemCanonical s) : NextCanonical (execDieDistributorRequest die l s) := by
  unfold execDieDistributorRequest
  dsimp only
  refine .next (.cond ?_ hs)
  split
  · exact modLaunch_canonical hs
  · exact hs
theorem execClusterRangeHandout_canonical {die cluster l s} (hs : MemCanonical s) :
    NextCanonical (execClusterRangeHandout die cluster l s) := by
  unfold execClusterRangeHandout
  dsimp only
  refine .next (.cond ?_ hs)
  split
  · exact modLaunch_canonical hs
  · exact hs
theorem execTeamPlacement_canonical {die cluster l s} (hs : MemCanonical s) : NextCanonical (execTeamPlacement die cluster l s) := by
  unfold execTeamPlacement
  dsimp only
  refine .next (.cond ?_ hs)
  split
  · refine .cond ?_ hs
    split
    · next e => exact modLaunch_canonical ((placeTeam_canonical hs).of_eq e)
    · exact hs
  · exact hs
theorem execRangeSteal_canonical {thief victim l s} (hs : MemCanonical s) : NextCanonical (execRangeSteal thief victim l s) := by
  unfold execRangeSteal
  dsimp only
  refine .next (.cond hs ?_)
  split
  · refine .cond ?_ hs
    split
    · exact modLaunch_canonical hs
    · exact hs
  · refine .cond ?_ hs
    split
    · exact modLaunch_canonical hs
    · exact hs
  · exact hs
theorem execGangFormerPop_canonical {core l s} (hs : MemCanonical s) : NextCanonical (execGangFormerPop core l s) := by
  unfold execGangFormerPop
  dsimp only
  refine .next ?_
  split
  · exact hs
  · exact .cond (fileBillet_canonical (modLaunch_canonical hs)) hs
theorem execBinTimeout_canonical {core bin s} (hs : MemCanonical s) : NextCanonical (execBinTimeout core bin s) := by
  unfold execBinTimeout
  refine .next ?_
  split
  · exact .cond (setBin_canonical (formGroup_canonical hs)) hs
  · exact hs
theorem execSharePlacement_canonical {sh core s} (hs : MemCanonical s) : NextCanonical (execSharePlacement sh core s) := by
  unfold execSharePlacement
  dsimp only
  refine .next ?_
  split
  · exact .cond (.getD (place_canonical hs) hs) hs
  · exact .cond hs (switchIn_canonical hs)
  · exact hs
theorem execTaskRestart_canonical {t cores s} (hs : MemCanonical s) : NextCanonical (execTaskRestart t cores s) :=
  .next (.cond hs (taskRestart_canonical hs))

/-! ## Queues -/

theorem raiseIrq_canonical {s part id} (hs : MemCanonical s) : MemCanonical (s.raiseIrq part id) :=
  modHearth_canonical hs
theorem send_canonical {s src dst bs} (hs : MemCanonical s) : MemCanonical (s.send src dst bs) :=
  .cond (raiseIrq_canonical (modHearth_canonical hs)) (modHearth_canonical hs)
theorem answer_canonical {s src dst} (hs : MemCanonical s) : MemCanonical (s.answer src dst) :=
  send_canonical hs
theorem takeMessages_canonical {s} (hs : MemCanonical s) : MemCanonical (s.takeMessages) :=
  modHearth_canonical hs
theorem execMailboxMessage_canonical {target sender msg s} (hs : MemCanonical s) : NextCanonical (execMailboxMessage target sender msg s) :=
  .next (.cond hs (.cond (modTele_canonical hs) (.cond hs (modHearth_canonical hs))))
theorem execQueueCreate_canonical {sender desc s} (hs : MemCanonical s) : NextCanonical (execQueueCreate sender desc s) := by
  unfold execQueueCreate
  dsimp only
  refine .next (.cond ?_ (answer_canonical hs))
  split
  · exact answer_canonical (hearthPost_canonical (.of_store (hearthTouch_canonical hs)))
  · exact hs
  · exact answer_canonical hs
theorem stopChains_canonical {s q} (hs : MemCanonical s) : MemCanonical (s.stopChains q) :=
  modHearth_canonical hs
theorem setRidx_canonical {s q j f} (hs : MemCanonical s) : MemCanonical (s.setRidx q j f) :=
  hearthPost_canonical (modQueue_canonical hs)
theorem execQueueReset_canonical {r index s} (hs : MemCanonical s) : NextCanonical (execQueueReset r index s) :=
  .next (.cond (setRidx_canonical (stopChains_canonical hs)) hs)
theorem destroyQueue_canonical {s q} (hs : MemCanonical s) : MemCanonical (s.destroyQueue q) :=
  stopChains_canonical (modQueue_canonical hs)
theorem execQueueDestroy_canonical {r s} (hs : MemCanonical s) : NextCanonical (execQueueDestroy r s) :=
  .next (.cond (destroyQueue_canonical hs) hs)
theorem execQueueDestroyComplete_canonical {q s} (hs : MemCanonical s) : NextCanonical (execQueueDestroyComplete q s) :=
  .next (.cond (modQueue_canonical hs) hs)
theorem readWidx_canonical {s q} (hs : MemCanonical s) : MemCanonical (s.readWidx q) := by
  unfold State.readWidx
  dsimp only
  split
  · exact modQueue_canonical (hearthTouch_canonical hs)
  · exact modQueue_canonical hs
  · exact modQueue_canonical hs
theorem noticesDue_canonical {s} (hs : MemCanonical s) : MemCanonical (s.noticesDue) :=
  .foldl (fun h => .cond (readWidx_canonical h) h) hs
theorem queuesSwitched_canonical {s} (hs : MemCanonical s) : MemCanonical (s.queuesSwitched) :=
  hs.of_mem rfl
theorem ring_canonical {s q index} (hs : MemCanonical s) : MemCanonical (s.ring q index) :=
  .cond hs (readWidx_canonical (modQueue_canonical hs))
theorem execDoorbellWrite_canonical {q index s} (hs : MemCanonical s) : NextCanonical (execDoorbellWrite q index s) :=
  .next (ring_canonical hs)
theorem execWriteIndexNotice_canonical {q s} (hs : MemCanonical s) : NextCanonical (execWriteIndexNotice q s) :=
  .next (.cond (readWidx_canonical hs) hs)
theorem noteOver_canonical {old s} (hs : MemCanonical s) : MemCanonical (State.noteOver old s) :=
  .cond hs (hs.of_mem rfl)
theorem packetRead_canonical {s q} (hs : MemCanonical s) : MemCanonical (s.packetRead q) :=
  hearthTouch_canonical hs
theorem block_canonical {s q} (hs : MemCanonical s) : MemCanonical (s.block_ q) :=
  modQueue_canonical hs
theorem stepped_canonical {s q next} (hs : MemCanonical s) : MemCanonical (s.stepped q next) :=
  modQueue_canonical hs
theorem dispatched_canonical {s q p done} (hs : MemCanonical s) : MemCanonical (s.dispatched q p done) := by
  unfold State.dispatched
  exact setRidx_canonical hs
theorem reject_canonical {s q p reason addr} (hs : MemCanonical s) : MemCanonical (s.reject q p reason addr) :=
  .cond (block_canonical hs) (raiseIrq_canonical (modQueue_canonical (hearthPost_canonical hs)))
theorem microStep_canonical {s q type at_ k} (hs : MemCanonical s) (hk : ∀ {x t}, MemCanonical t → MemCanonical (k x t)) :
    MemCanonical (s.microStep q type at_ k) := by
  unfold State.microStep
  refine .cond ?_ hs
  split
  · exact block_canonical hs
  · exact .cond (.cond (block_canonical hs) (hk (packetRead_canonical hs))) hs

/-! ## Memory instructions -/

theorem execLd_canonical {w d a disp s} (hs : MemCanonical s) : NextCanonical (execLd w d a disp s) :=
  .next (issue_canonical hs (perThread_canonical loadGlobal_canonical))
theorem execLdExt_canonical {c0 ord width scope hint d a disp s} (hs : MemCanonical s) :
    NextCanonical (execLdExt c0 ord width scope hint d a disp s) :=
  .next (issue_canonical hs (perThread_canonical loadGlobal_canonical))
theorem execLdz_canonical {c0 width hint d pc a disp s} (hs : MemCanonical s) : NextCanonical (execLdz c0 width hint d pc a disp s) :=
  .next (issue_canonical hs (perThread_canonical loadZero_canonical))
theorem execSt_canonical {w d a disp s} (hs : MemCanonical s) : NextCanonical (execSt w d a disp s) :=
  .next (issue_canonical hs (perThread_canonical storeGlobal_canonical))
theorem execStExt_canonical {c0 ord width scope hint d a disp s} (hs : MemCanonical s) :
    NextCanonical (execStExt c0 ord width scope hint d a disp s) :=
  .next (issue_canonical hs (perThread_canonical storeGlobal_canonical))
theorem execLds_canonical {w d a disp s} (hs : MemCanonical s) : NextCanonical (execLds w d a disp s) :=
  .next (issue_canonical hs (perThread_canonical loadPad_canonical))
theorem execLdsExt_canonical {c0 width d a disp s} (hs : MemCanonical s) : NextCanonical (execLdsExt c0 width d a disp s) :=
  .next (issue_canonical hs (perThread_canonical loadPad_canonical))
theorem execSts_canonical {w d a disp s} (hs : MemCanonical s) : NextCanonical (execSts w d a disp s) :=
  .next (issue_canonical hs (perThread_canonical storePad_canonical))
theorem execStsExt_canonical {c0 width d a disp s} (hs : MemCanonical s) : NextCanonical (execStsExt c0 width d a disp s) :=
  .next (issue_canonical hs (perThread_canonical storePad_canonical))
theorem execLdc_canonical {w d a disp s} (hs : MemCanonical s) : NextCanonical (execLdc w d a disp s) :=
  .next (issue_canonical hs (perThread_canonical loadConst_canonical))
theorem execLdcExt_canonical {c0 width hint d a disp s} (hs : MemCanonical s) : NextCanonical (execLdcExt c0 width hint d a disp s) :=
  .next (issue_canonical hs (perThread_canonical loadConst_canonical))
theorem execAtomAdd_canonical {c0 ord w64 scope d a b s} (hs : MemCanonical s) : NextCanonical (execAtomAdd c0 ord w64 scope d a b s) :=
  .next (issue_canonical hs (perThread_canonical atom_canonical))
theorem execAtomMin_canonical {c0 ord w64 scope d a b s} (hs : MemCanonical s) : NextCanonical (execAtomMin c0 ord w64 scope d a b s) :=
  .next (issue_canonical hs (perThread_canonical atom_canonical))
theorem execAtomMax_canonical {c0 ord w64 scope d a b s} (hs : MemCanonical s) : NextCanonical (execAtomMax c0 ord w64 scope d a b s) :=
  .next (issue_canonical hs (perThread_canonical atom_canonical))
theorem execAtomUmin_canonical {c0 ord w64 scope d a b s} (hs : MemCanonical s) : NextCanonical (execAtomUmin c0 ord w64 scope d a b s) :=
  .next (issue_canonical hs (perThread_canonical atom_canonical))
theorem execAtomUmax_canonical {c0 ord w64 scope d a b s} (hs : MemCanonical s) : NextCanonical (execAtomUmax c0 ord w64 scope d a b s) :=
  .next (issue_canonical hs (perThread_canonical atom_canonical))
theorem execAtomAnd_canonical {c0 ord w64 scope d a b s} (hs : MemCanonical s) : NextCanonical (execAtomAnd c0 ord w64 scope d a b s) :=
  .next (issue_canonical hs (perThread_canonical atom_canonical))
theorem execAtomOr_canonical {c0 ord w64 scope d a b s} (hs : MemCanonical s) : NextCanonical (execAtomOr c0 ord w64 scope d a b s) :=
  .next (issue_canonical hs (perThread_canonical atom_canonical))
theorem execAtomXor_canonical {c0 ord w64 scope d a b s} (hs : MemCanonical s) : NextCanonical (execAtomXor c0 ord w64 scope d a b s) :=
  .next (issue_canonical hs (perThread_canonical atom_canonical))
theorem execAtomExch_canonical {c0 ord w64 scope d a b s} (hs : MemCanonical s) : NextCanonical (execAtomExch c0 ord w64 scope d a b s) :=
  .next (issue_canonical hs (perThread_canonical atom_canonical))
theorem execAtomCas_canonical {c0 ord w64 scope d a b c s} (hs : MemCanonical s) : NextCanonical (execAtomCas c0 ord w64 scope d a b c s) :=
  .next (issue_canonical hs (perThread_canonical atom_canonical))
theorem execAtomFadd_canonical {c0 ord scope d a b s} (hs : MemCanonical s) : NextCanonical (execAtomFadd c0 ord scope d a b s) :=
  .next (issue_canonical hs (perThread_canonical atom_canonical))
theorem execRedAdd_canonical {c0 w64 scope a b s} (hs : MemCanonical s) : NextCanonical (execRedAdd c0 w64 scope a b s) :=
  .next (issue_canonical hs (perThread_canonical red_canonical))
theorem execRedMin_canonical {c0 w64 scope a b s} (hs : MemCanonical s) : NextCanonical (execRedMin c0 w64 scope a b s) :=
  .next (issue_canonical hs (perThread_canonical red_canonical))
theorem execRedMax_canonical {c0 w64 scope a b s} (hs : MemCanonical s) : NextCanonical (execRedMax c0 w64 scope a b s) :=
  .next (issue_canonical hs (perThread_canonical red_canonical))
theorem execRedUmin_canonical {c0 w64 scope a b s} (hs : MemCanonical s) : NextCanonical (execRedUmin c0 w64 scope a b s) :=
  .next (issue_canonical hs (perThread_canonical red_canonical))
theorem execRedUmax_canonical {c0 w64 scope a b s} (hs : MemCanonical s) : NextCanonical (execRedUmax c0 w64 scope a b s) :=
  .next (issue_canonical hs (perThread_canonical red_canonical))
theorem execRedAnd_canonical {c0 w64 scope a b s} (hs : MemCanonical s) : NextCanonical (execRedAnd c0 w64 scope a b s) :=
  .next (issue_canonical hs (perThread_canonical red_canonical))
theorem execRedOr_canonical {c0 w64 scope a b s} (hs : MemCanonical s) : NextCanonical (execRedOr c0 w64 scope a b s) :=
  .next (issue_canonical hs (perThread_canonical red_canonical))
theorem execRedXor_canonical {c0 w64 scope a b s} (hs : MemCanonical s) : NextCanonical (execRedXor c0 w64 scope a b s) :=
  .next (issue_canonical hs (perThread_canonical red_canonical))
theorem execRedFadd_canonical {c0 scope a b s} (hs : MemCanonical s) : NextCanonical (execRedFadd c0 scope a b s) :=
  .next (issue_canonical hs (perThread_canonical red_canonical))
theorem spres1_canonical {s ag pd off} (hs : MemCanonical s) : FstCanonical (s.spres1 ag pd off) :=
  .ite (.mk hs) (.mk (out_canonical hs))
theorem request_canonical {s v vpn die} (hs : MemCanonical s) : MemCanonical (s.request v vpn die) :=
  .keepStore hs rfl
theorem pgreq1_canonical {s ag blk pd ea} (hs : MemCanonical s) : FstCanonical (s.pgreq1 ag blk pd ea) := by
  unfold State.pgreq1
  dsimp only
  split
  · next e => exact .mk ((translate_canonical hs).of_eq e)
  · next e => exact .mk (out_canonical ((translate_canonical hs).of_eq e))
  · next e =>
    have h := (translate_canonical hs).of_eq e
    exact .ite (.mk (out_canonical h)) (.ite (.ite (.mk (request_canonical h)) (.mk (out_canonical (request_canonical h)))) (.mk h))
theorem execFence_canonical {c0 scope s} (hs : MemCanonical s) : NextCanonical (execFence c0 scope s) :=
  .next (issue_canonical hs (perThread_canonical fenceAt_canonical))
theorem execPref_canonical {c0 lvl hint a disp s} (hs : MemCanonical s) : NextCanonical (execPref c0 lvl hint a disp s) :=
  .next (issue_canonical hs (plain_canonical (fun h2 => h2)))
theorem execSpres_canonical {c0 pd a disp s} (hs : MemCanonical s) : NextCanonical (execSpres c0 pd a disp s) :=
  .next (issue_canonical hs (perThread_canonical spres1_canonical))
theorem execPgreq_canonical {c0 blk pd a disp s} (hs : MemCanonical s) : NextCanonical (execPgreq c0 blk pd a disp s) :=
  .next (issue_canonical hs (perThread_canonical pgreq1_canonical))

/-! ## Walks and residency -/

theorem execPageWalk_canonical {core vd va k s} (hs : MemCanonical s) : NextCanonical (execPageWalk core vd va k s) :=
  .next (.cond (translate_canonical hs) hs)
theorem wake_canonical {s v vpn ok} (hs : MemCanonical s) : MemCanonical (s.wake v vpn ok) :=
  modAgents_canonical hs
theorem execMakeResident_canonical {vd va die dup s} (hs : MemCanonical s) : NextCanonical (execMakeResident vd va die dup s) := by
  unfold execMakeResident
  dsimp only
  refine .next (.cond (wake_canonical (.modStore ?_)) hs)
  dsimp only
  split
  · next e => exact (makePageResident_canonical hs).of_eq e
  · exact hs
theorem execReplicaCreate_canonical {vd va die s} (hs : MemCanonical s) : NextCanonical (execReplicaCreate vd va die s) := by
  unfold execReplicaCreate
  refine .next ?_
  split
  · exact .cond (.getD (makeReplica_canonical hs) hs) hs
  · exact hs
theorem execReplicaCollapse_canonical {vd va die s} (hs : MemCanonical s) : NextCanonical (execReplicaCollapse vd va die s) := by
  unfold execReplicaCollapse
  refine .next ?_
  split
  · exact .cond (collapse_canonical hs) hs
  · exact hs
theorem migrateOff_canonical {die st l} : ∀ {s}, MemCanonical s → MemCanonical (s.migrateOff die st l) := by
  induction l with
  | nil => exact id
  | cons x l ih =>
    intro s hs
    unfold State.migrateOff
    dsimp only
    refine ih ?_
    have ht : MemCanonical (bif s.placeHeld x.1 x.2.1 x.2.2 then s else s.collapse x.1 die x.2.1) := .cond hs (collapse_canonical hs)
    split
    · split
      · exact .cond (migrateTo_canonical ht) ht
      · exact ht
    · exact ht
theorem dropReplica_canonical {s r} (hs : MemCanonical s) : MemCanonical (s.dropReplica r) :=
  dropPage_canonical (.keepStore (freePage_canonical hs) rfl)
theorem dropReplicas_canonical {s part st} (hs : MemCanonical s) : MemCanonical (s.dropReplicas part st) :=
  .foldl dropReplica_canonical hs
theorem leaveStack_canonical {s part die st} (hs : MemCanonical s) : MemCanonical (s.leaveStack part die st) :=
  migrateOff_canonical (dropReplicas_canonical hs)
theorem loansLeave_canonical {s} (hs : MemCanonical s) : MemCanonical (s.loansLeave) :=
  .foldl (fun h => .cond (leaveStack_canonical h) h) hs
theorem execLoanAgreement_canonical {stack borrower seconds s} (hs : MemCanonical s) :
    NextCanonical (execLoanAgreement stack borrower seconds s) :=
  .next (.cond (.cond (.keepStore (leaveStack_canonical hs) rfl) (leaveStack_canonical hs)) hs)
theorem returnLoan_canonical {s l} (hs : MemCanonical s) : MemCanonical (s.returnLoan l) :=
  .keepStore hs rfl
theorem execLoanEnd_canonical {stack demand s} (hs : MemCanonical s) : NextCanonical (execLoanEnd stack demand s) := by
  unfold execLoanEnd
  dsimp only
  refine .next ?_
  split
  · exact hs
  · exact .cond (leaveStack_canonical (.keepStore hs rfl)) (returnLoan_canonical hs)
theorem execLoanDeadlineExpiry_canonical {stack s} (hs : MemCanonical s) : NextCanonical (execLoanDeadlineExpiry stack s) := by
  unfold execLoanDeadlineExpiry
  dsimp only
  refine .next ?_
  split
  · exact hs
  · split
    · exact hs
    · exact .cond (returnLoan_canonical (.foldl surrender_canonical (dropReplicas_canonical hs))) hs

/-! ## Packets -/

theorem touchLaunch_canonical {s v p} (hs : MemCanonical s) : MemCanonical (s.touchLaunch v p) := by
  unfold State.touchLaunch
  dsimp only
  refine .cond (hearthTouch_canonical hs) ?_
  split
  · exact .cond (hearthTouch_canonical (hearthTouch_canonical hs))
      (hearthTouch_canonical (hearthTouch_canonical (hearthTouch_canonical hs)))
  · exact hearthTouch_canonical (hearthTouch_canonical hs)
theorem beginLaunch_canonical {s q p} (hs : MemCanonical s) : MemCanonical (s.beginLaunch q p) := by
  unfold State.beginLaunch
  dsimp only
  split
  · exact block_canonical (touchLaunch_canonical hs)
  · exact block_canonical (touchLaunch_canonical hs)
  · exact block_canonical (touchLaunch_canonical hs)
  · split
    · exact reject_canonical (touchLaunch_canonical hs)
    · exact modQueue_canonical (stepped_canonical (.of_store (touchLaunch_canonical hs)))
    · exact touchLaunch_canonical hs
theorem execPacketLaunch_canonical {q s} (hs : MemCanonical s) : NextCanonical (execPacketLaunch q s) :=
  .next (microStep_canonical hs beginLaunch_canonical)
theorem execLaunchBilletStep_canonical {q s} (hs : MemCanonical s) : NextCanonical (execLaunchBilletStep q s) := by
  unfold execLaunchBilletStep
  dsimp only
  refine .next (microStep_canonical hs (fun h => ?_))
  split
  · exact .cond (stepped_canonical (modLaunch_canonical h)) h
  · exact h
theorem startLaunch_canonical {s q p} (hs : MemCanonical s) : MemCanonical (s.startLaunch q p) := by
  unfold State.startLaunch
  dsimp only
  split
  · exact .cond (dueWalk_canonical (dispatched_canonical (modLaunch_canonical hs))) hs
  · exact hs
theorem execLaunchDispatch_canonical {q s} (hs : MemCanonical s) : NextCanonical (execLaunchDispatch q s) :=
  .next (microStep_canonical hs startLaunch_canonical)
theorem execPacketCord_canonical {q s} (hs : MemCanonical s) : NextCanonical (execPacketCord q s) :=
  .next (microStep_canonical hs (fun h => .cond (beginLaunch_canonical h) (startLaunch_canonical h)))
theorem checked_canonical {s q p k} (hs : MemCanonical s) (hk : ∀ {t}, MemCanonical t → MemCanonical (k t)) :
    MemCanonical (s.checked q p k) := by
  unfold State.checked
  split
  · exact reject_canonical hs
  · exact hk hs
theorem execPacketNop_canonical {q s} (hs : MemCanonical s) : NextCanonical (execPacketNop q s) :=
  .next (microStep_canonical hs (fun h => checked_canonical h dispatched_canonical))
theorem waitRelease_canonical {s q} (hs : MemCanonical s) : MemCanonical (s.waitRelease q) :=
  modQueue_canonical (block_canonical hs)
theorem packetWrite_canonical {s q p va w k} (hs : MemCanonical s) (hk : ∀ {t}, MemCanonical t → MemCanonical (k t)) :
    MemCanonical (s.packetWrite q p va w k) := by
  unfold State.packetWrite
  refine .cond (waitRelease_canonical hs) ?_
  split
  · next e => exact hk ((hearthDo_canonical hs).of_eq e)
  · next e => exact block_canonical ((hearthDo_canonical hs).of_eq e)
  · next e => exact reject_canonical ((hearthDo_canonical hs).of_eq e)
theorem execPacketWrite_canonical {q s} (hs : MemCanonical s) : NextCanonical (execPacketWrite q s) :=
  .next (microStep_canonical hs (fun h => checked_canonical h (fun h2 => packetWrite_canonical h2 dispatched_canonical)))
theorem execPacketSignal_canonical {q s} (hs : MemCanonical s) : NextCanonical (execPacketSignal q s) :=
  .next (microStep_canonical hs (fun h => checked_canonical h (fun h2 => packetWrite_canonical h2 dispatched_canonical)))
theorem execPacketWrsigWrite_canonical {q s} (hs : MemCanonical s) : NextCanonical (execPacketWrsigWrite q s) :=
  .next (microStep_canonical hs (fun h => checked_canonical h (fun h2 => packetWrite_canonical h2 stepped_canonical)))
theorem execPacketWrsigSignal_canonical {q s} (hs : MemCanonical s) : NextCanonical (execPacketWrsigSignal q s) :=
  .next (microStep_canonical hs (fun h => packetWrite_canonical h dispatched_canonical))
theorem waitTest_canonical {s q p} (hs : MemCanonical s) : MemCanonical (s.waitTest q p) := by
  unfold State.waitTest
  dsimp only
  refine checked_canonical hs (fun h => ?_)
  split
  · exact block_canonical (hearthTouch_canonical h)
  · exact reject_canonical (hearthTouch_canonical h)
  · exact .cond (dispatched_canonical (hearthTouch_canonical h)) (block_canonical (hearthTouch_canonical h))
theorem execPacketWait_canonical {q s} (hs : MemCanonical s) : NextCanonical (execPacketWait q s) :=
  .next (microStep_canonical hs waitTest_canonical)
theorem execWaitConditionMet_canonical {q s} (hs : MemCanonical s) : NextCanonical (execWaitConditionMet q s) :=
  .next (.cond (microStep_canonical hs waitTest_canonical) hs)
theorem execPacketChainrun_canonical {q s} (hs : MemCanonical s) : NextCanonical (execPacketChainrun q s) := by
  unfold execPacketChainrun
  dsimp only
  refine .next (microStep_canonical hs (fun h => checked_canonical h (fun h2 => ?_)))
  split
  · exact block_canonical h2
  · exact dispatched_canonical (setChain_canonical h2)
theorem bringPages_canonical {v l} : ∀ {s}, MemCanonical s → MemCanonical (s.bringPages v l) := by
  induction l with
  | nil => exact id
  | cons x l ih =>
    intro s hs
    unfold State.bringPages
    refine ih ?_
    split
    · refine .cond hs ?_
      split
      · next e => exact (makePageResident_canonical hs).of_eq e
      · exact modTele_canonical hs
    · exact hs
theorem execPacketRanges_canonical {q s} (hs : MemCanonical s) : NextCanonical (execPacketRanges q s) :=
  .next (microStep_canonical hs (fun h => checked_canonical h
    (fun h2 => .cond h2 (.cond (dispatched_canonical (bringPages_canonical h2)) (stepped_canonical (bringPages_canonical h2))))))
theorem execKindling_canonical {_q s} (hs : MemCanonical s) : NextCanonical (execKindling _q s) :=
  .next hs
theorem execPacketCompletion_canonical {q k s} (hs : MemCanonical s) : NextCanonical (execPacketCompletion q k s) := by
  unfold execPacketCompletion
  dsimp only
  refine .next ?_
  split
  · split
    · exact .cond (.cond (modQueue_canonical hs) (.cond hs (hearthPost_canonical (modQueue_canonical hs)))) hs
    · exact hs
  · exact hs
theorem execChainEnd_canonical {u s} (hs : MemCanonical s) : NextCanonical (execChainEnd u s) := by
  unfold execChainEnd
  refine .next ?_
  split
  · exact chainEndCore_canonical hs
  · split
    · split
      · exact setChain_canonical (completePacket_canonical hs)
      · exact hs
    · exact hs

/-! ## Virtual devices -/

theorem execVdevDescriptor_canonical {part desc s} (hs : MemCanonical s) : NextCanonical (execVdevDescriptor part desc s) :=
  .next (.cond (answer_canonical hs) (.cond (modVdev_canonical hs) (modVdev_canonical hs)))
theorem execGrantMessage_canonical {vd stack sectors s} (hs : MemCanonical s) : NextCanonical (execGrantMessage vd stack sectors s) :=
  .next (.cond (balloonTest_canonical (modK_canonical hs)) (answer_canonical hs))
theorem ashRecord_canonical {s v cls reason} (hs : MemCanonical s) : MemCanonical (s.ashRecord v cls reason) :=
  hyperPost_canonical (modHearth_canonical hs)
theorem secondFault_canonical {s v cls reason} (hs : MemCanonical s) : MemCanonical (s.secondFault v cls reason) :=
  .cond (modHearth_canonical (logEntry_canonical (modVdev_canonical hs))) (modTele_canonical (modVdev_canonical hs))
theorem freeze_canonical {s v cls reason} (hs : MemCanonical s) : MemCanonical (s.freeze v cls reason) := by
  unfold State.freeze
  dsimp only
  split
  · exact ashRecord_canonical (modVdev_canonical hs)
  · exact ashRecord_canonical (modVdev_canonical (modVdev_canonical hs))
  · exact hs
  · exact secondFault_canonical hs
theorem execTenantReset_canonical {vd s} (hs : MemCanonical s) : NextCanonical (execTenantReset vd s) := by
  unfold execTenantReset
  refine .next ?_
  split
  · exact freeze_canonical hs
  · exact freeze_canonical hs
  · exact hs
theorem faultReaches_canonical {s t} (hs : MemCanonical s) : MemCanonical (s.faultReaches t) := by
  unfold State.faultReaches
  split
  · exact modTask_canonical (secondFault_canonical hs)
  · exact hs
  · exact .cond hs (taskFault_canonical hs)
theorem execTaskFault_canonical {t s} (hs : MemCanonical s) : NextCanonical (execTaskFault t s) :=
  .next (faultReaches_canonical hs)
theorem launchFault_canonical {s l info} (hs : MemCanonical s) : MemCanonical (s.launchFault l info) :=
  .cond (modLaunch_canonical (secondFault_canonical hs)) (killLaunch_canonical hs)
theorem execLaunchWatchdogExpiry_canonical {l s} (hs : MemCanonical s) : NextCanonical (execLaunchWatchdogExpiry l s) :=
  .next (.cond (launchFault_canonical hs) hs)
theorem launchFaults_canonical {s} (hs : MemCanonical s) : MemCanonical (s.launchFaults) := by
  unfold State.launchFaults
  refine .foldl (fun h => ?_) hs
  split
  · exact launchFault_canonical h
  · exact h
theorem clearShare_canonical {s h} (hs : MemCanonical s) : MemCanonical (s.clearShare h) :=
  modShare_canonical (.foldl modGroup_canonical (modAgents_canonical (dropEngines_canonical hs)))
theorem clearTask_canonical {s t} (hs : MemCanonical s) : MemCanonical (s.clearTask t) :=
  modTask_canonical (releaseIdle_canonical (.foldl clearShare_canonical (freeToken_canonical (killTask_canonical hs))))
theorem scrubPage_canonical {s v va} (hs : MemCanonical s) : MemCanonical (s.scrubPage v va) := by
  unfold State.scrubPage
  dsimp only
  split
  · exact collapse_canonical hs
  · exact .cond (collapse_canonical hs) (.cond (.getD (reclaim_canonical (collapse_canonical hs)) (collapse_canonical hs))
      (.foldl emptyPage_canonical (collapse_canonical hs)))
theorem clearRest_canonical {s v} (hs : MemCanonical s) : MemCanonical (s.clearRest v) :=
  modVdev_canonical (.keepStore (modHearth_canonical (.of_store (.foldl modLaunch_canonical hs))) rfl)
theorem zeroSaveArea_canonical {s v} (hs : MemCanonical s) : MemCanonical (s.zeroSaveArea v) :=
  .foldl freshPage_canonical hs
theorem clearTenant_canonical {s v} (hs : MemCanonical s) : MemCanonical (s.clearTenant v) := by
  unfold State.clearTenant
  extract_lets s1 s2 s3 s4
  have h1 : MemCanonical s1 := .foldl clearTask_canonical hs
  have h4 : MemCanonical s4 := modBalloon_canonical (dropTlb_canonical (zeroSaveArea_canonical (clearRest_canonical h1)))
  exact .cond (.foldl scrubPage_canonical h4) h4
theorem execTenantClear_canonical {vd s} (hs : MemCanonical s) : NextCanonical (execTenantClear vd s) :=
  .next (.cond (modVdev_canonical (clearTenant_canonical hs)) hs)
theorem beginPause_canonical {s v} (hs : MemCanonical s) : MemCanonical (s.beginPause v) :=
  pauseTest_canonical (.foldl endRun_canonical (.cond hs (modVdev_canonical hs)))
theorem holdMsg_canonical {s v m} (hs : MemCanonical s) : MemCanonical (s.holdMsg v m) :=
  modVdev_canonical hs
theorem execTenantPause_canonical {vd s} (hs : MemCanonical s) : NextCanonical (execTenantPause vd s) := by
  unfold execTenantPause
  refine .next ?_
  split
  · exact beginPause_canonical hs
  · exact holdMsg_canonical hs
  · exact holdMsg_canonical hs
  · exact hs
theorem execTenantResume_canonical {vd s} (hs : MemCanonical s) : NextCanonical (execTenantResume vd s) :=
  .next (.cond (.of_store (modVdev_canonical hs)) hs)
theorem execClearingDone_canonical {vd s} (hs : MemCanonical s) : NextCanonical (execClearingDone vd s) :=
  .next (.cond (.cond (beginPause_canonical (answer_canonical (modVdev_canonical hs))) (answer_canonical (modVdev_canonical hs))) hs)
theorem markRestart_canonical {s t} (hs : MemCanonical s) : MemCanonical (s.markRestart t) :=
  .cond (modTask_canonical (taskFault_canonical hs)) (toRestart_canonical hs)
theorem markRestarts_canonical {s v} (hs : MemCanonical s) : MemCanonical (s.markRestarts v) :=
  .foldl markRestart_canonical hs
theorem capture_canonical {s v} (hs : MemCanonical s) : FstCanonical (s.capture v) :=
  .mk (.foldl writeback_canonical (markRestarts_canonical hs))
theorem captureAll_canonical {l} : ∀ {s}, MemCanonical s → FstCanonical (s.captureAll l) := by
  induction l with
  | nil => exact fun hs => .mk hs
  | cons v l ih => exact fun hs => .mk (ih (capture_canonical hs))
theorem saveAll_canonical {s hs} (hmem : MemCanonical s) : SomeCanonical (s.saveAll hs) := by
  unfold State.saveAll
  dsimp only
  refine .cond .none (.some (.foldl (fun h => ?_) (.foldl saveShare_canonical
    (drainAgents_canonical (.foldl finishStarted_canonical hmem)))))
  split
  · exact writeSaveArea_canonical h
  · exact h
theorem execCheckpoint_canonical {x s} (hs : MemCanonical s) : NextCanonical (execCheckpoint x s) := by
  unfold execCheckpoint
  dsimp only
  refine .next (.cond ?_ hs)
  split
  · exact hs
  · next e =>
    exact .foldl (fun h => .getD (resumeShare_canonical h) h) (modHearth_canonical (captureAll_canonical ((saveAll_canonical hs).of_eq e)))
theorem dropKiln_canonical {s p} (hs : MemCanonical s) : MemCanonical (s.dropKiln p) :=
  .keepStore hs rfl
theorem exportTenant_canonical {s vd target} (hs : MemCanonical s) : MemCanonical (s.exportTenant vd target) :=
  .cond hs (answer_canonical (modVdev_canonical (dropKiln_canonical (modHearth_canonical (clearTenant_canonical (capture_canonical hs))))))
theorem execTenantExport_canonical {vd target s} (hs : MemCanonical s) : NextCanonical (execTenantExport vd target s) := by
  unfold execTenantExport
  refine .next ?_
  split
  · exact .cond (exportTenant_canonical hs) (holdMsg_canonical hs)
  · exact holdMsg_canonical hs
  · exact holdMsg_canonical hs
  · exact hs
theorem undefineTenant_canonical {s vd} (hs : MemCanonical s) : MemCanonical (s.undefineTenant vd) :=
  modVdev_canonical (dropKiln_canonical (clearTenant_canonical hs))
theorem execTenantUndefine_canonical {vd s} (hs : MemCanonical s) : NextCanonical (execTenantUndefine vd s) :=
  .next (.cond (.cond (undefineTenant_canonical hs) (holdMsg_canonical hs)) hs)
theorem restoreLanes_canonical {s im v} (hs : MemCanonical s) : MemCanonical (s.restoreLanes im v) :=
  hs.of_mem rfl
theorem restoreBytes_canonical {s im v} (hs : MemCanonical s) : MemCanonical (s.restoreBytes im v) :=
  prop_foldl (p := fun m : Mem => m.wf = true) (Mem.put_wf _ _) _ (prop_foldl (p := fun m : Mem => m.wf = true) (Mem.clear_wf _ _) _ hs)
theorem rechargeSaved_canonical {s v} (hs : MemCanonical s) : MemCanonical (s.rechargeSaved v) :=
  .foldl charge_canonical hs
theorem importTenant_canonical {s vd image} (hs : MemCanonical s) : MemCanonical (s.importTenant vd image) := by
  unfold State.importTenant
  dsimp only
  split
  · exact hs
  · exact .cond (answer_canonical hs) (rechargeSaved_canonical
      (modVdev_canonical (.foldl modK_canonical (restoreBytes_canonical (restoreLanes_canonical hs)))))
theorem execTenantImport_canonical {vd image s} (hs : MemCanonical s) : NextCanonical (execTenantImport vd image s) :=
  .next (.cond hs (.cond (importTenant_canonical hs) (holdMsg_canonical hs)))
theorem applyMessage_canonical {s v m} (hs : MemCanonical s) : MemCanonical (s.applyMessage v m) :=
  .cond (importTenant_canonical (modVdev_canonical hs)) (.cond (undefineTenant_canonical hs) (exportTenant_canonical hs))
theorem messagesDue_canonical {s} (hs : MemCanonical s) : MemCanonical (s.messagesDue) := by
  unfold State.messagesDue
  refine .cond hs (.foldl (fun h => ?_) hs)
  split
  · exact applyMessage_canonical h
  · exact h

end Sys2Proof.Machine
end

section
/-! SUPPORT. Memory stays canonical through the debugger, the platform, outside agents, and a whole step (R354). -/

namespace Sys2Proof.Machine
set_option Elab.async false

/-! ## The debugger -/

theorem reply_canonical {s ag bytes} (hs : MemCanonical s) : MemCanonical (s.reply ag bytes) :=
  send_canonical hs
theorem debugCtx_canonical {s ag x n v} (hs : MemCanonical s) : MemCanonical (s.debugCtx ag x n v) := by
  unfold State.debugCtx
  split
  · exact .cond (setXctx_canonical hs) hs
  · exact hs
theorem debugDo_canonical {s ag op} (hs : MemCanonical s) : MemCanonical (s.debugDo ag op) := by
  unfold State.debugDo
  dsimp only
  split
  · exact reply_canonical hs
  · exact .cond (modAgent_canonical hs) hs
  · exact reply_canonical hs
  · exact .cond hs (modAgent_canonical hs)
  · exact reply_canonical hs
  · exact modAgent_canonical hs
  · exact reply_canonical hs
  · exact modAgent_canonical hs
  · exact reply_canonical hs
  · exact reply_canonical hs
  · exact debugCtx_canonical hs
theorem execDebugAccess_canonical {ag op s} (hs : MemCanonical s) : NextCanonical (execDebugAccess ag op s) :=
  .next (.cond (debugDo_canonical hs) hs)
theorem repark_canonical {s ag w} (hs : MemCanonical s) : MemCanonical (s.repark ag w) := by
  unfold State.repark
  dsimp only
  split
  · exact .cond (maskTest_canonical (modAgent_canonical hs)) hs
  · exact .cond (modAgent_canonical hs) (.cond hs (modAgent_canonical hs))
  · exact .cond (modAgent_canonical hs) (wrPred_canonical hs)
  · exact modAgent_canonical hs
theorem debugGo_canonical {s ag once} (hs : MemCanonical s) : MemCanonical (s.debugGo ag once) := by
  unfold State.debugGo
  dsimp only
  split
  · exact hs
  · split
    · exact repark_canonical (modAgent_canonical hs)
    · exact modAgent_canonical (modAgent_canonical hs)
theorem execDebugResume_canonical {ag s} (hs : MemCanonical s) : NextCanonical (execDebugResume ag s) :=
  .next (.cond (debugGo_canonical hs) hs)
theorem execDebugStep_canonical {ag s} (hs : MemCanonical s) : NextCanonical (execDebugStep ag s) :=
  .next (.cond (debugGo_canonical hs) hs)
theorem execDebugKill_canonical {ag s} (hs : MemCanonical s) : NextCanonical (execDebugKill ag s) :=
  .next (.cond (killAgent_canonical hs) hs)
theorem execDebugDropMask_canonical {ag m s} (hs : MemCanonical s) : NextCanonical (execDebugDropMask ag m s) :=
  .next (.cond (jdrop1_canonical hs) hs)

/-! ## Floating point -/

theorem fpOp_canonical {s i lat d f} (hs : MemCanonical s) : NextCanonical (s.fpOp i lat d f) :=
  .next (issue_canonical hs (perThread_canonical fpReg_canonical))
theorem fxuOp_canonical {s i d f} (hs : MemCanonical s) : NextCanonical (s.fxuOp i d f) :=
  .next (issue_canonical hs (perThread_canonical (fun h2 => fpGuard_canonical h2 out_canonical)))
theorem execFadd_canonical {w d a b s} (hs : MemCanonical s) : NextCanonical (execFadd w d a b s) :=
  fpOp_canonical hs
theorem execFaddExt_canonical {c0 rm d a b s} (hs : MemCanonical s) : NextCanonical (execFaddExt c0 rm d a b s) :=
  fpOp_canonical hs
theorem execFsub_canonical {w d a b s} (hs : MemCanonical s) : NextCanonical (execFsub w d a b s) :=
  fpOp_canonical hs
theorem execFsubExt_canonical {c0 rm d a b s} (hs : MemCanonical s) : NextCanonical (execFsubExt c0 rm d a b s) :=
  fpOp_canonical hs
theorem execFmul_canonical {w d a b s} (hs : MemCanonical s) : NextCanonical (execFmul w d a b s) :=
  fpOp_canonical hs
theorem execFmulExt_canonical {c0 rm d a b s} (hs : MemCanonical s) : NextCanonical (execFmulExt c0 rm d a b s) :=
  fpOp_canonical hs
theorem execFfma_canonical {c0 rm d a b c s} (hs : MemCanonical s) : NextCanonical (execFfma c0 rm d a b c s) :=
  fpOp_canonical hs
theorem execFmin_canonical {w d a b s} (hs : MemCanonical s) : NextCanonical (execFmin w d a b s) :=
  fpOp_canonical hs
theorem execFminExt_canonical {c0 d a b s} (hs : MemCanonical s) : NextCanonical (execFminExt c0 d a b s) :=
  fpOp_canonical hs
theorem execFmax_canonical {w d a b s} (hs : MemCanonical s) : NextCanonical (execFmax w d a b s) :=
  fpOp_canonical hs
theorem execFmaxExt_canonical {c0 d a b s} (hs : MemCanonical s) : NextCanonical (execFmaxExt c0 d a b s) :=
  fpOp_canonical hs
theorem execFcmp_canonical {c0 cc pd a b s} (hs : MemCanonical s) : NextCanonical (execFcmp c0 cc pd a b s) :=
  .next (issue_canonical hs (perThread_canonical (fun h2 => fpGuard_canonical h2 (fun h3 => flagAt_canonical (wrPred_canonical h3)))))
theorem execFabs_canonical {c0 d a s} (hs : MemCanonical s) : NextCanonical (execFabs c0 d a s) :=
  fpOp_canonical hs
theorem execFneg_canonical {c0 d a s} (hs : MemCanonical s) : NextCanonical (execFneg c0 d a s) :=
  fpOp_canonical hs
theorem execFclass_canonical {c0 d a s} (hs : MemCanonical s) : NextCanonical (execFclass c0 d a s) :=
  fpOp_canonical hs
theorem execFrint_canonical {c0 rm d a s} (hs : MemCanonical s) : NextCanonical (execFrint c0 rm d a s) :=
  fpOp_canonical hs
theorem execFrcp_canonical {c0 d a s} (hs : MemCanonical s) : NextCanonical (execFrcp c0 d a s) :=
  fxuOp_canonical hs
theorem execFrsq_canonical {c0 d a s} (hs : MemCanonical s) : NextCanonical (execFrsq c0 d a s) :=
  fxuOp_canonical hs
theorem execFexp2_canonical {c0 d a s} (hs : MemCanonical s) : NextCanonical (execFexp2 c0 d a s) :=
  fxuOp_canonical hs
theorem execFlog2_canonical {c0 d a s} (hs : MemCanonical s) : NextCanonical (execFlog2 c0 d a s) :=
  fxuOp_canonical hs
theorem execFsqrt_canonical {c0 rm d a s} (hs : MemCanonical s) : NextCanonical (execFsqrt c0 rm d a s) :=
  fxuOp_canonical hs
theorem execFsin_canonical {c0 d a s} (hs : MemCanonical s) : NextCanonical (execFsin c0 d a s) :=
  fxuOp_canonical hs
theorem execFcos_canonical {c0 d a s} (hs : MemCanonical s) : NextCanonical (execFcos c0 d a s) :=
  fxuOp_canonical hs
theorem execHadd2_canonical {c0 rm fmt d a b s} (hs : MemCanonical s) : NextCanonical (execHadd2 c0 rm fmt d a b s) :=
  fpOp_canonical hs
theorem execHmul2_canonical {c0 rm fmt d a b s} (hs : MemCanonical s) : NextCanonical (execHmul2 c0 rm fmt d a b s) :=
  fpOp_canonical hs
theorem execHfma2_canonical {c0 rm fmt d a b c s} (hs : MemCanonical s) : NextCanonical (execHfma2 c0 rm fmt d a b c s) :=
  fpOp_canonical hs
theorem execHmin2_canonical {c0 fmt d a b s} (hs : MemCanonical s) : NextCanonical (execHmin2 c0 fmt d a b s) :=
  fpOp_canonical hs
theorem execHmax2_canonical {c0 fmt d a b s} (hs : MemCanonical s) : NextCanonical (execHmax2 c0 fmt d a b s) :=
  fpOp_canonical hs
theorem execFdot2_canonical {c0 rm fmt d a b c s} (hs : MemCanonical s) : NextCanonical (execFdot2 c0 rm fmt d a b c s) :=
  fpOp_canonical hs
theorem fcvt1_canonical {s ag sat dir k rm c d a} (hs : MemCanonical s) : FstCanonical (s.fcvt1 ag sat dir k rm c d a) :=
  .ite (fpReg_canonical hs) (fpGuard_canonical hs (fun h => flagAt_canonical (wrReg_canonical (.cond (setSeed_canonical h) h))))
theorem qnt1_canonical {s ag sat rm c d a b} (hs : MemCanonical s) : FstCanonical (s.qnt1 ag sat rm c d a b) :=
  .ite (.mk (wrReg_canonical hs)) (fpGuard_canonical hs (fun h => flagAt_canonical (wrReg_canonical (.cond (setSeed_canonical h) h))))
theorem wrRange_canonical {ag lat ws} : ∀ {s r}, MemCanonical s → MemCanonical (s.wrRange ag lat r ws) := by
  induction ws with
  | nil => exact id
  | cons w ws ih => exact fun hs => ih (wr_canonical hs)
theorem fpRange_canonical {s ag lat d rs} (hs : MemCanonical s) : FstCanonical (s.fpRange ag lat d rs) :=
  fpGuard_canonical hs (fun h => flagAt_canonical (wrRange_canonical h))
theorem dqnt1_canonical {s ag sat rm c d a b} (hs : MemCanonical s) : FstCanonical (s.dqnt1 ag sat rm c d a b) :=
  fpRange_canonical hs
theorem execFcvt_canonical {c0 sat dir elt rm fmt d a s} (hs : MemCanonical s) : NextCanonical (execFcvt c0 sat dir elt rm fmt d a s) :=
  .next (issue_canonical hs (perThread_canonical fcvt1_canonical))
theorem execI2f_canonical {c0 rm d a s} (hs : MemCanonical s) : NextCanonical (execI2f c0 rm d a s) :=
  fpOp_canonical hs
theorem execU2f_canonical {c0 rm d a s} (hs : MemCanonical s) : NextCanonical (execU2f c0 rm d a s) :=
  fpOp_canonical hs
theorem execF2i_canonical {c0 sat rm d a s} (hs : MemCanonical s) : NextCanonical (execF2i c0 sat rm d a s) :=
  fpOp_canonical hs
theorem execF2u_canonical {c0 sat rm d a s} (hs : MemCanonical s) : NextCanonical (execF2u c0 sat rm d a s) :=
  fpOp_canonical hs
theorem execQnt_canonical {c0 sat rm fmt d a b s} (hs : MemCanonical s) : NextCanonical (execQnt c0 sat rm fmt d a b s) :=
  .next (issue_canonical hs (perThread_canonical qnt1_canonical))
theorem execDqnt_canonical {c0 sat rm fmt d a b s} (hs : MemCanonical s) : NextCanonical (execDqnt c0 sat rm fmt d a b s) :=
  .next (issue_canonical hs (perThread_canonical dqnt1_canonical))
theorem execHad_canonical {c0 sz rm fmt d a s} (hs : MemCanonical s) : NextCanonical (execHad c0 sz rm fmt d a s) := by
  unfold execHad
  refine .next (issue_canonical hs (perThread_canonical (fun h2 => ?_)))
  split
  · exact fpGuard_canonical h2 (fun h3 => flagAt_canonical (wrRange_canonical h3))
theorem execCmpr_canonical {c0 s48 fmt d a c s} (hs : MemCanonical s) : NextCanonical (execCmpr c0 s48 fmt d a c s) :=
  .next (issue_canonical hs (plain_canonical (fun h2 => wrReg_canonical (wrRange_canonical h2))))

/-! ## The platform -/

theorem setLink_canonical {s link x} (hs : MemCanonical s) : MemCanonical (s.setLink link x) :=
  modHearth_canonical hs
theorem linkDown_canonical {s link} (hs : MemCanonical s) : MemCanonical (s.linkDown link) :=
  .foldl chainLost_canonical (modHearth_canonical (setLink_canonical (.foldl logEntry_canonical (.keepStore hs rfl))))
theorem execLinkEnable_canonical {link s} (hs : MemCanonical s) : NextCanonical (execLinkEnable link s) :=
  .next (.cond (setLink_canonical hs) hs)
theorem execLinkTrained_canonical {link s} (hs : MemCanonical s) : NextCanonical (execLinkTrained link s) :=
  .next (.cond (modHearth_canonical (setLink_canonical hs)) hs)
theorem execLinkTrainingTimeout_canonical {link s} (hs : MemCanonical s) : NextCanonical (execLinkTrainingTimeout link s) :=
  .next (.cond (logEntry_canonical (setLink_canonical hs)) hs)
theorem execLinkLostLock_canonical {link s} (hs : MemCanonical s) : NextCanonical (execLinkLostLock link s) :=
  .next (.cond (.keepStore (setLink_canonical hs) rfl) hs)
theorem execLinkRetrained_canonical {link s} (hs : MemCanonical s) : NextCanonical (execLinkRetrained link s) :=
  .next (.cond (.keepStore (setLink_canonical (modTele_canonical hs)) rfl) hs)
theorem execLinkRecoveryExpiry_canonical {link s} (hs : MemCanonical s) : NextCanonical (execLinkRecoveryExpiry link s) :=
  .next (.cond (linkDown_canonical (modTele_canonical hs)) hs)
theorem execPostedWriteAck_canonical {k s} (hs : MemCanonical s) : NextCanonical (execPostedWriteAck k s) := by
  unfold execPostedWriteAck
  refine .next ?_
  split
  · exact .cond hs (.keepStore hs rfl)
  · exact hs
theorem bootPartition_canonical {s p} (hs : MemCanonical s) : MemCanonical (s.bootPartition p) :=
  modHearth_canonical hs
theorem resetPartition_canonical {s p} (hs : MemCanonical s) : MemCanonical (s.resetPartition p) := by
  unfold State.resetPartition
  exact .keepStore (dropKiln_canonical (.of_store (.foldl modVdev_canonical
    (dropTlb_canonical (.foldl clearTenant_canonical (bootPartition_canonical hs)))))) rfl
theorem resetPackage_canonical {s} (hs : MemCanonical s) : MemCanonical (s.resetPackage) :=
  .of_store (.foldl writeback_canonical hs)
theorem freezeThese_canonical {s cls vs} (hs : MemCanonical s) : MemCanonical (s.freezeThese cls vs) :=
  .foldl freeze_canonical hs
theorem freezeAll_canonical {s cls} (hs : MemCanonical s) : MemCanonical (s.freezeAll cls) :=
  freezeThese_canonical hs
theorem performReset_canonical {s r} (hs : MemCanonical s) : MemCanonical (s.performReset r) :=
  .cond (modHearth_canonical (resetPackage_canonical hs)) (resetPartition_canonical hs)
theorem resetOr_canonical {s r} (hs : MemCanonical s) : MemCanonical (s.resetOr r) :=
  .cond (modHearth_canonical hs) (performReset_canonical hs)
theorem resetsDue_canonical {s} (hs : MemCanonical s) : MemCanonical (s.resetsDue) :=
  .foldl (fun h => .cond h (performReset_canonical (modHearth_canonical h))) hs
theorem partitionFault_canonical {s p} (hs : MemCanonical s) : MemCanonical (s.partitionFault p) :=
  resetOr_canonical (freezeThese_canonical hs)
theorem deviceFault_canonical {s} (hs : MemCanonical s) : MemCanonical (s.deviceFault) :=
  .cond (resetOr_canonical (freezeAll_canonical hs)) (partitionFault_canonical (partitionFault_canonical hs))
theorem deviceFaultOf_canonical {s vs} (hs : MemCanonical s) : MemCanonical (s.deviceFaultOf vs) :=
  .cond (deviceFault_canonical hs) (.foldl (fun h => .cond (partitionFault_canonical h) h) hs)
theorem hearthRestart_canonical {s kind} (hs : MemCanonical s) : MemCanonical (s.hearthRestart kind) :=
  logEntry_canonical (modTele_canonical hs)
theorem stateOr_canonical {s r} (hs : MemCanonical s) (hr : NextCanonical r) : MemCanonical (stateOr s r) := by
  unfold stateOr
  split
  · exact NextCanonical.of_eq hr rfl
  · exact hs
theorem serveStep_canonical {s q} (hs : MemCanonical s) : MemCanonical (s.serveStep q) := by
  unfold State.serveStep
  dsimp only
  split
  · exact stateOr_canonical hs (.cond (execPacketLaunch_canonical hs)
      (.cond (execLaunchDispatch_canonical hs) (execLaunchBilletStep_canonical hs)))
  · exact stateOr_canonical hs (execPacketCord_canonical hs)
  · exact stateOr_canonical hs (execPacketWait_canonical hs)
  · exact stateOr_canonical hs (execPacketWrite_canonical hs)
  · exact stateOr_canonical hs (execPacketSignal_canonical hs)
  · exact stateOr_canonical hs (.cond (execPacketWrsigWrite_canonical hs) (execPacketWrsigSignal_canonical hs))
  · exact stateOr_canonical hs (execPacketChainrun_canonical hs)
  · exact stateOr_canonical hs (execPacketRanges_canonical hs)
  · exact stateOr_canonical hs (execPacketNop_canonical hs)
theorem restartQueues_canonical {s} (hs : MemCanonical s) : MemCanonical (s.restartQueues) := by
  unfold State.restartQueues
  dsimp only
  split
  · exact hs
  · exact .cond (.of_store (serveStep_canonical (modTele_canonical hs))) (modTele_canonical hs)
theorem execHearthCoreTimeout_canonical {k s} (hs : MemCanonical s) : NextCanonical (execHearthCoreTimeout k s) :=
  .next (.cond (.cond (restartQueues_canonical (modHearth_canonical (hearthRestart_canonical hs)))
    (modHearth_canonical (hearthRestart_canonical hs))) hs)
theorem restartsEnd_canonical {s} (hs : MemCanonical s) : MemCanonical (s.restartsEnd) :=
  .cond (logEntry_canonical (modHearth_canonical hs)) (modHearth_canonical hs)
theorem execSupervisionTimerExpiry_canonical {verified s} (hs : MemCanonical s) : NextCanonical (execSupervisionTimerExpiry verified s) :=
  .next (.cond (.cond (deviceFault_canonical (hearthRestart_canonical (modHearth_canonical hs)))
    (modHearth_canonical (deviceFault_canonical (hearthRestart_canonical (modHearth_canonical hs)))))
      (modHearth_canonical (modTele_canonical (modHearth_canonical hs))))
theorem execMemoryError_canonical {e s} (hs : MemCanonical s) : NextCanonical (execMemoryError e s) := by
  unfold execMemoryError
  refine .next ?_
  split
  · exact launchFault_canonical hs
  · exact freeze_canonical hs
  · exact deviceFault_canonical hs
  · exact deviceFaultOf_canonical hs
theorem execSoftError_canonical {stack channel s} (hs : MemCanonical s) : NextCanonical (execSoftError stack channel s) :=
  .next (.cond (modTele_canonical hs) hs)
theorem execDieLinkLoss_canonical {s} (hs : MemCanonical s) : NextCanonical (execDieLinkLoss s) :=
  .next (deviceFault_canonical hs)
theorem alarm2_canonical {s} (hs : MemCanonical s) : MemCanonical (s.alarm2) :=
  .foldl (fun h => .cond h (linkDown_canonical h)) (modHearth_canonical (freezeAll_canonical (logEntry_canonical (logEntry_canonical hs))))
theorem alarm3_canonical {s} (hs : MemCanonical s) : MemCanonical (s.alarm3) :=
  modHearth_canonical (logEntry_canonical (alarm2_canonical hs))
theorem execSecurityAlarmL2_canonical {s} (hs : MemCanonical s) : NextCanonical (execSecurityAlarmL2 s) :=
  .next (.cond (alarm3_canonical hs) (alarm2_canonical hs))
theorem execSecurityAlarmL3_canonical {s} (hs : MemCanonical s) : NextCanonical (execSecurityAlarmL3 s) :=
  .next (alarm3_canonical hs)
theorem execThermalThrottle_canonical {up s} (hs : MemCanonical s) : NextCanonical (execThermalThrottle up s) :=
  .next (modHearth_canonical hs)
theorem execJunctionOvertemp_canonical {s} (hs : MemCanonical s) : NextCanonical (execJunctionOvertemp s) :=
  .next (resetOr_canonical (freezeAll_canonical hs))
theorem bootNow_canonical {s signaturesVerify} (hs : MemCanonical s) : MemCanonical (s.bootNow signaturesVerify) :=
  .cond (.foldl (fun h => .cond (setLink_canonical h) h) (bootPartition_canonical (bootPartition_canonical (modHearth_canonical hs))))
    (modHearth_canonical hs)
theorem verifyRecord_canonical {s ok} (hs : MemCanonical s) : MemCanonical (s.verifyRecord ok) :=
  .cond hs (logEntry_canonical (modHearth_canonical hs))
theorem execPackageResetBoot_canonical {verified s} (hs : MemCanonical s) : NextCanonical (execPackageResetBoot verified s) :=
  .next (bootNow_canonical (.cond (resetPackage_canonical (verifyRecord_canonical hs)) (verifyRecord_canonical hs)))
theorem execRecovery_canonical {bundle s} (hs : MemCanonical s) : NextCanonical (execRecovery bundle s) :=
  .next (.cond hs (.cond (bootNow_canonical (resetPackage_canonical (verifyRecord_canonical (modHearth_canonical hs))))
    (.cond (logEntry_canonical (modHearth_canonical hs)) (modHearth_canonical hs))))
theorem execConfigRecordUpdate_canonical {r signaturesVerify s} (hs : MemCanonical s) :
    NextCanonical (execConfigRecordUpdate r signaturesVerify s) :=
  .next (.cond (modHearth_canonical hs) (logEntry_canonical hs))
theorem answerBytes_canonical {src dst n} : ∀ {s bs}, MemCanonical s → MemCanonical (s.answerBytes src dst n bs) := by
  induction n with
  | zero => exact id
  | succ n ih => exact fun hs => ih (send_canonical hs)
theorem execIdentityRequest_canonical {part s} (hs : MemCanonical s) : NextCanonical (execIdentityRequest part s) :=
  .next (answerBytes_canonical hs)
theorem execEnrollment_canonical {r s} (hs : MemCanonical s) : NextCanonical (execEnrollment r s) :=
  .next (modHearth_canonical hs)
theorem execTelemetryRecord_canonical {s} (hs : MemCanonical s) : NextCanonical (execTelemetryRecord s) :=
  .next (.cond (modHearth_canonical hs) hs)
theorem execTelemetryRequest_canonical {part s} (hs : MemCanonical s) : NextCanonical (execTelemetryRequest part s) :=
  .next (answerBytes_canonical hs)
theorem execPtpCorrection_canonical {ppm s} (hs : MemCanonical s) : NextCanonical (execPtpCorrection ppm s) :=
  .next (.cond (modHearth_canonical hs) hs)

/-! ## Outside agents -/

theorem outsideCharge_canonical {l} : ∀ {s}, MemCanonical s → SomeCanonical (s.outsideCharge l) := by
  induction l with
  | nil => exact fun hs => .some hs
  | cons b l ih =>
    intro s hs
    rw [State.outsideCharge]
    split
    · exact ih hs
    · split
      · next h => exact ih ((charge_canonical hs).of_eq h)
      · exact .none
theorem outsidePut_canonical {s pa bs} (hs : MemCanonical s) : MemCanonical (s.outsidePut pa bs) := by
  unfold State.outsidePut
  dsimp only
  split
  · exact modTele_canonical hs
  · next e => exact .foldl (fun h => settleHome_canonical (writeCommitted_canonical h)) ((outsideCharge_canonical hs).of_eq e)
theorem returned_canonical {s who bs} (hs : MemCanonical s) : MemCanonical (s.returned who bs) :=
  modHearth_canonical hs
theorem outsideAmo_canonical {s who pa n op b c} (hs : MemCanonical s) : MemCanonical (s.outsideAmo who pa n op b c) :=
  .cond (returned_canonical (outsidePut_canonical hs)) hs
theorem setResv_canonical {s who r} (hs : MemCanonical s) : MemCanonical (s.setResv who r) :=
  modHearth_canonical hs
theorem outsideSc_canonical {s who pa n x} (hs : MemCanonical s) : MemCanonical (s.outsideSc who pa n x) :=
  .cond (returned_canonical (outsidePut_canonical (setResv_canonical hs))) (returned_canonical (setResv_canonical hs))
theorem modPort_canonical {s port f} (hs : MemCanonical s) : MemCanonical (s.modPort port f) :=
  modHearth_canonical hs
theorem sends_canonical {s x} (hs : MemCanonical s) : MemCanonical (s.sends x) :=
  modHearth_canonical hs
theorem transmit_canonical {s port bs} (hs : MemCanonical s) : MemCanonical (s.transmit port bs) :=
  .cond (modPort_canonical hs) (sends_canonical hs)
theorem pauseClasses_canonical {s port m} (hs : MemCanonical s) : MemCanonical (s.pauseClasses port m) :=
  .foldl transmit_canonical (modPort_canonical hs)
theorem frameArrives_canonical {s port bs} (hs : MemCanonical s) : MemCanonical (s.frameArrives port bs) :=
  .cond hs (modPort_canonical hs)
theorem netSend_canonical {s who port pair pa n sum} (hs : MemCanonical s) : MemCanonical (s.netSend who port pair pa n sum) :=
  .cond (transmit_canonical hs) hs
theorem netReceive_canonical {s who port pair pa n} (hs : MemCanonical s) : MemCanonical (s.netReceive who port pair pa n) := by
  unfold State.netReceive
  dsimp only
  split
  · exact hs
  · exact .cond hs (returned_canonical (outsidePut_canonical (modPort_canonical hs)))
theorem deviceOp_canonical {s who x} (hs : MemCanonical s) : MemCanonical (s.deviceOp who x) := by
  unfold State.deviceOp
  split
  · exact .cond (modPort_canonical hs) hs
  · exact netSend_canonical hs
  · exact netReceive_canonical hs
  · exact modHearth_canonical hs
  · exact .cond (outsidePut_canonical hs) hs
  · exact .cond (sends_canonical hs) hs
  · exact .cond (sends_canonical hs) hs
  · exact .cond (sends_canonical hs) hs
  · exact .cond (returned_canonical hs) hs
  · exact .cond (sends_canonical hs) hs
  · exact hs
theorem outsideNow_canonical {s who x} (hs : MemCanonical s) : MemCanonical (s.outsideNow who x) := by
  unfold State.outsideNow
  split
  · exact returned_canonical hs
  · exact outsidePut_canonical hs
  · exact outsideAmo_canonical hs
  · exact outsideAmo_canonical hs
  · exact outsideAmo_canonical hs
  · exact .cond (outsideAmo_canonical hs) hs
  · exact .cond (returned_canonical (setResv_canonical hs)) hs
  · exact .cond (outsideSc_canonical hs) hs
  · exact .cond (ring_canonical hs) hs
  · exact stateOr_canonical hs (execMailboxMessage_canonical hs)
  · exact hs
  · exact deviceOp_canonical hs
theorem outsideDo_canonical {s who op} (hs : MemCanonical s) : MemCanonical (s.outsideDo who op) :=
  .cond hs (.cond (.keepStore hs rfl) (outsideNow_canonical hs))
theorem outsideResume_canonical {s} (hs : MemCanonical s) : MemCanonical (s.outsideResume) :=
  .foldl outsideDo_canonical (.keepStore hs rfl)
theorem resvTest_canonical {old s} (hs : MemCanonical s) : MemCanonical (State.resvTest old s) :=
  modHearth_canonical hs
theorem execApplicationCoreAccess_canonical {hart op s} (hs : MemCanonical s) : NextCanonical (execApplicationCoreAccess hart op s) := by
  unfold execApplicationCoreAccess
  dsimp only
  refine .cond (.next hs) ?_
  split
  · exact .next (modHearth_canonical hs)
  · exact .next (modHearth_canonical hs)
  · exact .next (.cond (modHearth_canonical hs) hs)
  · exact .next (.cond (modHearth_canonical hs) hs)
  · exact .next (.cond (outsideDo_canonical hs) hs)
  · exact .next hs
  · exact .next hs
  · exact .next (outsideDo_canonical hs)
theorem execPcieHostAccess_canonical {x s} (hs : MemCanonical s) : NextCanonical (execPcieHostAccess x s) :=
  .next (.cond (.cond (outsideDo_canonical hs) hs) (.cond (outsideDo_canonical hs) hs))
theorem execInboundFabricWrite_canonical {port op s} (hs : MemCanonical s) : NextCanonical (execInboundFabricWrite port op s) := by
  unfold execInboundFabricWrite
  refine .next (.cond ?_ (.cond (outsideDo_canonical hs) hs))
  split
  · exact frameArrives_canonical hs
  · exact pauseClasses_canonical hs
  · exact .cond (outsideDo_canonical hs) hs

/-! ## The next move -/

theorem ageingDue_canonical {s} (hs : MemCanonical s) : MemCanonical (s.ageingDue) :=
  .foldl (fun h => .cond h (dueWalk_canonical h)) hs
theorem elapse_canonical {s dt dclk} (hs : MemCanonical s) : MemCanonical (s.elapse dt dclk) := by
  refine .cond hs ?_
  extract_lets s1 s2 cs s3 lanes t
  have h1 : MemCanonical s1 :=
    countIdle_canonical (noteEverywhere_canonical (raiseCarve_canonical (walksDue_canonical (.cond hs (restartsEnd_canonical hs)))))
  have h2 : MemCanonical s2 := .cond (loansLeave_canonical h1) h1
  have h3 : MemCanonical s3 := .cond (modTele_canonical h2) h2
  have ht : MemCanonical t := .of_store h3
  exact .cond ht (ageingDue_canonical ht)
theorem balloonTests_canonical {s vs} (hs : MemCanonical s) : MemCanonical (s.balloonTests vs) :=
  .foldl (fun h => .cond (balloonTest_canonical h) h) hs
theorem ownPage_canonical {s v l} (hs : MemCanonical s) : MemCanonical (s.ownPage v l) :=
  .keepStore hs rfl
theorem chargePage_canonical {s v l} (hs : MemCanonical s) : MemCanonical (s.chargePage v l) :=
  .cond hs (.foldl chargeAs_canonical hs)
theorem noteMapping_canonical {old s v va l} (hs : MemCanonical s) : MemCanonical (State.noteMapping old s v va l) :=
  .cond (dropPage_canonical (setLeaf_canonical hs)) (.cond (chargePage_canonical (ownPage_canonical hs)) hs)
theorem noteMappings_canonical {old s} (hs : MemCanonical s) : MemCanonical (State.noteMappings old s) :=
  .cond hs (.foldl (fun h => .cond h (.foldl (fun h2 => .cond (noteMapping_canonical h2) (.cond (chargePage_canonical h2) h2)) h)) hs)
theorem wrapUp_canonical {s} (hs : MemCanonical s) : MemCanonical s.wrapUp := by
  unfold State.wrapUp
  extract_lets s1 s2 s3 s4 s5 s6 s7
  have h1 : MemCanonical s1 := notePins_canonical (balloonTests_canonical hs)
  have h2 : MemCanonical s2 := .cond h1 (hearthResume_canonical h1)
  have h3 : MemCanonical s3 := .cond h2 (outsideResume_canonical h2)
  have h4 : MemCanonical s4 := .cond (launchFaults_canonical h3) h3
  have h5 : MemCanonical s5 := .cond h4 (resetsDue_canonical h4)
  have h6 : MemCanonical s6 := messagesDue_canonical (queuesSwitched_canonical (noticesDue_canonical h5))
  have h7 : MemCanonical s7 := .cond h6 (takeMessages_canonical h6)
  exact .of_store h7
theorem afterMove_canonical {old r} (hold : MemCanonical old) (hr : NextCanonical r) : NextCanonical (afterMove old r) := by
  unfold afterMove
  split
  · next t =>
    have hover : MemCanonical (bif old.queues.isEmpty then t else t.noteOver old) := .cond (hr.of_eq rfl) (noteOver_canonical hold)
    have hnoted := noteMappings_canonical (old := old) hover
    exact .next (wrapUp_canonical (.cond hnoted (resvTest_canonical hnoted)))
  · exact hr
theorem runInOrder_canonical {s0 s i} (hs0 : MemCanonical s0) (hs : MemCanonical s) : MoveCanonical (State.runInOrder s0 s i) := by
  unfold State.runInOrder
  split
  · exact .cond (noteOrder_canonical hs) ⟨hs0, .next hs0⟩
  · exact hs
theorem issueFrom_canonical {s o} (hs : MemCanonical s) : MoveCanonical (s.issueFrom o) := by
  unfold State.issueFrom
  refine .cond ⟨hs, .next hs⟩ ?_
  split
  · next e => exact runInOrder_canonical hs ((fetchCur_canonical (nominate_canonical hs)).of_eq e)
  · next e => exact ⟨hs, .next ((fetchCur_canonical (nominate_canonical hs)).of_eq e)⟩
theorem scheduled_canonical {s ev} (hs : MemCanonical s) : MoveCanonical (s.scheduled ev) := by
  unfold State.scheduled
  split
  · exact issueFrom_canonical hs
  · exact .cond ⟨hs, .next (hs.of_mem rfl)⟩ hs
theorem internal_canonical {s k} (hs : MemCanonical s) : NextCanonical (s.internal k) := by
  unfold State.internal
  dsimp only
  split
  · exact execResultWriteback_canonical hs
  · exact execParkRelease_canonical hs
  · exact execStoreQueueDrain_canonical hs
  · exact execStoreQueueDrain_canonical hs
  · exact execStsBankWrite_canonical hs
  · exact execShareRetire_canonical hs
  · exact execTeamRetire_canonical hs
  · exact execTaskFault_canonical hs
  · exact execCommitRequest_canonical hs
  · exact execVersionCommit_canonical hs
  · exact execSharePlacement_canonical hs
  · exact execCopyStart_canonical hs
  · exact execCopyComplete_canonical hs
  · exact execWeightLatch_canonical hs
  · exact execMatrixOperation_canonical hs
  · exact execTilePathEntry_canonical hs
  · exact execAdrainComplete_canonical hs
  · exact execExtrapolationEntry_canonical hs
  · exact execChainEntry_canonical hs
  · exact execChainEnd_canonical hs
  · exact execHeldChargeDecided_canonical hs
  · exact execCapacityWaitRestart_canonical hs
  · exact execCommitTokenGrant_canonical hs
  · exact execBalloonRequestOpen_canonical hs
  · exact execPacketNop_canonical hs
  · exact execPacketLaunch_canonical hs
  · exact execLaunchBilletStep_canonical hs
  · exact execLaunchDispatch_canonical hs
  · exact execPacketCompletion_canonical hs
  · exact execTeamPlacement_canonical hs
  · exact execSpillComplete_canonical hs
  · exact execMatrixResetEnd_canonical hs
  · exact execDieDistributorRequest_canonical hs
  · exact execClusterRangeHandout_canonical hs
  · exact execGangFormerPop_canonical hs
  · exact execBinTimeout_canonical hs
  · exact execTaskRestart_canonical hs
  · exact execLaunchWatchdogExpiry_canonical hs
  · exact execCordScheduleWalk_canonical hs
  · exact execSliceEnd_canonical hs
  · exact execContextSwap_canonical hs
  · exact execHandlerBudgetExpiry_canonical hs
  · exact execRunEnd_canonical hs
  · exact execCtxswRunEnd_canonical hs
  · exact execBudgetRefill_canonical hs
  · exact execCarveoutChangeEffect_canonical hs
  · exact execStackHandover_canonical hs
  · exact execChainRecvwaitMet_canonical hs
  · exact execChainEntry_canonical hs
  · exact execChainRecvwaitMet_canonical hs
  · exact execChainEnd_canonical hs
  · exact execWriteIndexNotice_canonical hs
  · exact execPacketCord_canonical hs
  · exact execPacketWait_canonical hs
  · exact execWaitConditionMet_canonical hs
  · exact execPacketWrite_canonical hs
  · exact execPacketSignal_canonical hs
  · exact execPacketWrsigWrite_canonical hs
  · exact execPacketWrsigSignal_canonical hs
  · exact execPacketChainrun_canonical hs
  · exact execPacketRanges_canonical hs
  · exact execBalloonDeadlineExpiry_canonical hs
  · exact execGrantMove_canonical hs
  · split
    · exact execMakeResident_canonical hs
    · exact .next hs
theorem unscheduled_canonical {s} (hs : MemCanonical s) : MoveCanonical (s.unscheduled) := by
  unfold State.unscheduled
  split
  · exact issueFrom_canonical hs
  · exact ⟨hs, .cond (.next hs) (internal_canonical hs)⟩
theorem nextMove_canonical {s} (hs : MemCanonical s) : MoveCanonical (s.nextMove) := by
  unfold State.nextMove
  split
  · exact scheduled_canonical (elapse_canonical (hs.of_mem rfl))
  · exact unscheduled_canonical (elapse_canonical hs)

/-! ## Rays -/

theorem boxt1_canonical {s ag d a b} (hs : MemCanonical s) : FstCanonical (s.boxt1 ag d a b) := by
  unfold State.boxt1
  split
  · next e => exact .mk ((readRecord_canonical hs).of_eq e)
  · next e => exact .mk (out_canonical ((readRecord_canonical hs).of_eq e))
theorem trit1_canonical {s ag clip d a b pc} (hs : MemCanonical s) : FstCanonical (s.trit1 ag clip d a b pc) := by
  unfold State.trit1
  split
  · next e => exact .mk ((readRecord_canonical hs).of_eq e)
  · next e =>
    have h := (readRecord_canonical hs).of_eq e
    split
    · exact .mk (out_canonical h)
    · exact .mk (out_canonical h)
theorem rebin1_canonical {s ag b a off} (hs : MemCanonical s) : FstCanonical (s.rebin1 ag b a off) := by
  unfold State.rebin1
  dsimp only
  refine onceSettled_canonical hs (fun h => .ite (.mk (endAgent_canonical (modTask_canonical h))) ?_)
  split
  · next e => exact .mk ((drainIssuer_canonical h).of_eq e)
  · next e => exact .mk (endAgent_canonical (fileBillet_canonical ((drainIssuer_canonical h).of_eq e)))
theorem execBoxt_canonical {c0 d a b s} (hs : MemCanonical s) : NextCanonical (execBoxt c0 d a b s) :=
  .next (issue_canonical hs (perThread_canonical boxt1_canonical))
theorem execTrit_canonical {c0 clip d a b pc s} (hs : MemCanonical s) : NextCanonical (execTrit c0 clip d a b pc s) :=
  .next (issue_canonical hs (perThread_canonical trit1_canonical))
theorem execRebin_canonical {c0 b a off s} (hs : MemCanonical s) : NextCanonical (execRebin c0 b a off s) :=
  .next (issue_canonical hs (perThread_canonical rebin1_canonical))

/-! ## Task-engine instructions -/

theorem putBillet_canonical {s ag n b prio record} (hs : MemCanonical s) : MemCanonical (s.putBillet ag n b prio record) :=
  .cond (modTask_canonical (modSlot_canonical hs)) (enterSlot_canonical (modSlot_canonical hs))
theorem releaseOwn_canonical {s ag k} (hs : MemCanonical s) (hk : ∀ {t}, MemCanonical t → FstCanonical (k t)) :
    FstCanonical (s.releaseOwn ag k) := by
  unfold State.releaseOwn
  refine .ite (hk hs) ?_
  split
  · next e => exact .mk ((drainIssuer_canonical hs).of_eq e)
  · next e => exact hk ((drainIssuer_canonical hs).of_eq e)
theorem spawn1_canonical {s ag d frame join prio off} (hs : MemCanonical s) : FstCanonical (s.spawn1 ag d frame join prio off) := by
  unfold State.spawn1
  dsimp only
  refine .ite (.mk hs) ?_
  split
  · exact .mk hs
  · exact releaseOwn_canonical hs (fun h => .mk (out_canonical (putBillet_canonical h)))
theorem enqn1_canonical {s ag ea b} (hs : MemCanonical s) : FstCanonical (s.enqn1 ag ea b) := by
  unfold State.enqn1
  dsimp only
  refine .ite (.mk hs) ?_
  split
  · exact .mk hs
  · split
    · next e => exact .mk ((readRecord_canonical hs).of_eq e)
    · next e =>
      have h := (readRecord_canonical hs).of_eq e
      split
      · exact releaseOwn_canonical h (fun h2 => .mk (putBillet_canonical (modLaunch_canonical (hearthPost_canonical h2))))
      · exact .mk h
theorem jdec1_canonical {s ag d handle n} (hs : MemCanonical s) : FstCanonical (s.jdec1 ag d handle n) := by
  unfold State.jdec1
  dsimp only
  refine .ite (.mk hs) (.ite (.mk (modTask_canonical hs)) (committing_canonical hs (fun h => releaseOwn_canonical h (fun h2 => ?_))))
  split
  · exact .mk h2
  · next e => exact .mk (out_canonical ((jdecOn_canonical h2).of_eq e))
theorem settle1_canonical {s ag} (hs : MemCanonical s) : FstCanonical (s.settle1 ag) :=
  onceSettled_canonical hs (fun h => committing_canonical h (fun h2 => .mk h2))
theorem outNat_canonical {s ag d x} (hs : MemCanonical s) : FstCanonical (s.outNat ag d x) :=
  .mk (out_canonical hs)
theorem execSpawn_canonical {c0 d a b c off s} (hs : MemCanonical s) : NextCanonical (execSpawn c0 d a b c off s) :=
  .next (issue_canonical hs (perThread_canonical spawn1_canonical))
theorem execEnqn_canonical {c0 a b s} (hs : MemCanonical s) : NextCanonical (execEnqn c0 a b s) :=
  .next (issue_canonical hs (perThread_canonical enqn1_canonical))
theorem execJdec_canonical {c0 d a b s} (hs : MemCanonical s) : NextCanonical (execJdec c0 d a b s) :=
  .next (issue_canonical hs (perThread_canonical jdec1_canonical))
theorem execSettle_canonical {c0 s} (hs : MemCanonical s) : NextCanonical (execSettle c0 s) :=
  .next (issue_canonical hs (perThread_canonical settle1_canonical))
theorem execTaskqPrio_canonical {c0 d b s} (hs : MemCanonical s) : NextCanonical (execTaskqPrio c0 d b s) :=
  .next (issue_canonical hs (perThread_canonical outNat_canonical))
theorem execTaskqRestart_canonical {c0 d b s} (hs : MemCanonical s) : NextCanonical (execTaskqRestart c0 d b s) :=
  .next (issue_canonical hs (perThread_canonical outNat_canonical))
theorem execTaskqSettled_canonical {c0 d b s} (hs : MemCanonical s) : NextCanonical (execTaskqSettled c0 d b s) :=
  .next (issue_canonical hs (perThread_canonical outNat_canonical))
theorem execTaskqVlines_canonical {c0 d b s} (hs : MemCanonical s) : NextCanonical (execTaskqVlines c0 d b s) :=
  .next (issue_canonical hs (perThread_canonical outNat_canonical))
theorem execTaskqBqueue_canonical {c0 d b s} (hs : MemCanonical s) : NextCanonical (execTaskqBqueue c0 d b s) :=
  .next (issue_canonical hs (perThread_canonical outNat_canonical))
theorem execTaskqNqueue_canonical {c0 d b s} (hs : MemCanonical s) : NextCanonical (execTaskqNqueue c0 d b s) :=
  .next (issue_canonical hs (perThread_canonical outNat_canonical))
theorem execTaskqCursor_canonical {c0 d b s} (hs : MemCanonical s) : NextCanonical (execTaskqCursor c0 d b s) :=
  .next (issue_canonical hs (perThread_canonical outNat_canonical))

/-! ## Dispatch -/

theorem exec_canonical {i s} (hs : MemCanonical s) : NextCanonical (exec i s) := by
  unfold exec
  split
  · exact execIll_canonical hs
  · exact execMov_canonical hs
  · exact execMovExt_canonical hs
  · exact execAdd_canonical hs
  · exact execAddExt_canonical hs
  · exact execSub_canonical hs
  · exact execSubExt_canonical hs
  · exact execMul_canonical hs
  · exact execMulExt_canonical hs
  · exact execMulh_canonical hs
  · exact execMulhExt_canonical hs
  · exact execMad_canonical hs
  · exact execMin_canonical hs
  · exact execMinExt_canonical hs
  · exact execMax_canonical hs
  · exact execMaxExt_canonical hs
  · exact execAnd_canonical hs
  · exact execAndExt_canonical hs
  · exact execOr_canonical hs
  · exact execOrExt_canonical hs
  · exact execXor_canonical hs
  · exact execXorExt_canonical hs
  · exact execShl_canonical hs
  · exact execShlExt_canonical hs
  · exact execShr_canonical hs
  · exact execShrExt_canonical hs
  · exact execSar_canonical hs
  · exact execSarExt_canonical hs
  · exact execRot_canonical hs
  · exact execRotExt_canonical hs
  · exact execBfx_canonical hs
  · exact execBfxExt_canonical hs
  · exact execBfi_canonical hs
  · exact execSel_canonical hs
  · exact execCmp_canonical hs
  · exact execPlog_canonical hs
  · exact execLea_canonical hs
  · exact execLeaExt_canonical hs
  · exact execAdd64_canonical hs
  · exact execSub64_canonical hs
  · exact execShl64_canonical hs
  · exact execShr64_canonical hs
  · exact execCmp64_canonical hs
  · exact execAbs_canonical hs
  · exact execNeg_canonical hs
  · exact execNot_canonical hs
  · exact execPopc_canonical hs
  · exact execClz_canonical hs
  · exact execBrev_canonical hs
  · exact execSext8_canonical hs
  · exact execSext16_canonical hs
  · exact execZext8_canonical hs
  · exact execZext16_canonical hs
  · exact execCsrr_canonical hs
  · exact execCsrrExt_canonical hs
  · exact execCsrw_canonical hs
  · exact execCsrwExt_canonical hs
  · exact execNop_canonical hs
  · exact execFadd_canonical hs
  · exact execFaddExt_canonical hs
  · exact execFsub_canonical hs
  · exact execFsubExt_canonical hs
  · exact execFmul_canonical hs
  · exact execFmulExt_canonical hs
  · exact execFfma_canonical hs
  · exact execFmin_canonical hs
  · exact execFminExt_canonical hs
  · exact execFmax_canonical hs
  · exact execFmaxExt_canonical hs
  · exact execFcmp_canonical hs
  · exact execFabs_canonical hs
  · exact execFneg_canonical hs
  · exact execFclass_canonical hs
  · exact execFrint_canonical hs
  · exact execFrcp_canonical hs
  · exact execFrsq_canonical hs
  · exact execFsqrt_canonical hs
  · exact execFexp2_canonical hs
  · exact execFlog2_canonical hs
  · exact execFsin_canonical hs
  · exact execFcos_canonical hs
  · exact execHadd2_canonical hs
  · exact execHmul2_canonical hs
  · exact execHfma2_canonical hs
  · exact execHmin2_canonical hs
  · exact execHmax2_canonical hs
  · exact execFdot2_canonical hs
  · exact execFcvt_canonical hs
  · exact execI2f_canonical hs
  · exact execU2f_canonical hs
  · exact execF2i_canonical hs
  · exact execF2u_canonical hs
  · exact execQnt_canonical hs
  · exact execDqnt_canonical hs
  · exact execHad_canonical hs
  · exact execCmpr_canonical hs
  · exact execBoxt_canonical hs
  · exact execTrit_canonical hs
  · exact execRebin_canonical hs
  · exact execShflIdx_canonical hs
  · exact execShflUp_canonical hs
  · exact execShflDown_canonical hs
  · exact execShflXor_canonical hs
  · exact execVoteAny_canonical hs
  · exact execVoteAll_canonical hs
  · exact execVoteBallot_canonical hs
  · exact execVoteEq_canonical hs
  · exact execGredAdd_canonical hs
  · exact execGredMin_canonical hs
  · exact execGredMax_canonical hs
  · exact execGredAnd_canonical hs
  · exact execGredOr_canonical hs
  · exact execGredXor_canonical hs
  · exact execGredFadd_canonical hs
  · exact execGredFmin_canonical hs
  · exact execGredFmax_canonical hs
  · exact execBra_canonical hs
  · exact execBrc_canonical hs
  · exact execBrq_canonical hs
  · exact execCall_canonical hs
  · exact execRet_canonical hs
  · exact execRetExt_canonical hs
  · exact execJarm_canonical hs
  · exact execJarmExt_canonical hs
  · exact execJwait_canonical hs
  · exact execJwaitExt_canonical hs
  · exact execJdrop_canonical hs
  · exact execJdropExt_canonical hs
  · exact execExit_canonical hs
  · exact execExitExt_canonical hs
  · exact execYield_canonical hs
  · exact execYieldExt_canonical hs
  · exact execTrap_canonical hs
  · exact execTrapExt_canonical hs
  · exact execBrk_canonical hs
  · exact execBrkExt_canonical hs
  · exact execDqpush_canonical hs
  · exact execDqpushExt_canonical hs
  · exact execDqpop_canonical hs
  · exact execDqpopExt_canonical hs
  · exact execSret_canonical hs
  · exact execSretExt_canonical hs
  · exact execLd_canonical hs
  · exact execLdExt_canonical hs
  · exact execLdz_canonical hs
  · exact execSt_canonical hs
  · exact execStExt_canonical hs
  · exact execLds_canonical hs
  · exact execLdsExt_canonical hs
  · exact execSts_canonical hs
  · exact execStsExt_canonical hs
  · exact execLdc_canonical hs
  · exact execLdcExt_canonical hs
  · exact execAtomAdd_canonical hs
  · exact execAtomMin_canonical hs
  · exact execAtomMax_canonical hs
  · exact execAtomUmin_canonical hs
  · exact execAtomUmax_canonical hs
  · exact execAtomAnd_canonical hs
  · exact execAtomOr_canonical hs
  · exact execAtomXor_canonical hs
  · exact execAtomExch_canonical hs
  · exact execAtomCas_canonical hs
  · exact execAtomFadd_canonical hs
  · exact execRedAdd_canonical hs
  · exact execRedMin_canonical hs
  · exact execRedMax_canonical hs
  · exact execRedUmin_canonical hs
  · exact execRedUmax_canonical hs
  · exact execRedAnd_canonical hs
  · exact execRedOr_canonical hs
  · exact execRedXor_canonical hs
  · exact execRedFadd_canonical hs
  · exact execFence_canonical hs
  · exact execPref_canonical hs
  · exact execSpres_canonical hs
  · exact execPgreq_canonical hs
  · exact execBarArr_canonical hs
  · exact execBarWait_canonical hs
  · exact execBarSync_canonical hs
  · exact execBarExpect_canonical hs
  · exact execBarInit_canonical hs
  · exact execCvset_canonical hs
  · exact execRsvqFree_canonical hs
  · exact execRsvqPend_canonical hs
  · exact execRsvqNominal_canonical hs
  · exact execRsvqSurr_canonical hs
  · exact execBlksz_canonical hs
  · exact execBlkfill_canonical hs
  · exact execBalq_canonical hs
  · exact execPgsurr_canonical hs
  · exact execPgrecl_canonical hs
  · exact execWload_canonical hs
  · exact execMma_canonical hs
  · exact execMmam_canonical hs
  · exact execAclr_canonical hs
  · exact execArd_canonical hs
  · exact execAwr_canonical hs
  · exact execAdrain_canonical hs
  · exact execWrel_canonical hs
  · exact execMstat_canonical hs
  · exact execXcfg_canonical hs
  · exact execXpush_canonical hs
  · exact execXest_canonical hs
  · exact execXclr_canonical hs
  · exact execXstat_canonical hs
  · exact execTcopy_canonical hs
  · exact execChain_canonical hs
  · exact execCtwait_canonical hs
  · exact execChkill_canonical hs
  · exact execSpawn_canonical hs
  · exact execEnqn_canonical hs
  · exact execJdec_canonical hs
  · exact execSettle_canonical hs
  · exact execTaskqPrio_canonical hs
  · exact execTaskqRestart_canonical hs
  · exact execTaskqSettled_canonical hs
  · exact execTaskqVlines_canonical hs
  · exact execTaskqBqueue_canonical hs
  · exact execTaskqNqueue_canonical hs
  · exact execTaskqCursor_canonical hs
  · exact execStkho_canonical hs
  · exact execTlbiPage_canonical hs
  · exact execTlbiVdev_canonical hs
  · exact execTlbiVdevn_canonical hs
  · exact execTlbiAll_canonical hs
  · exact execCflushClean_canonical hs
  · exact execCflushInv_canonical hs
  · exact execCflushDiscard_canonical hs
  · exact execCtxsw_canonical hs
  · exact execResultWriteback_canonical hs
  · exact execStoreQueueDrain_canonical hs
  · exact execStsBankWrite_canonical hs
  · exact execParkRelease_canonical hs
  · exact execSliceNomination_canonical hs
  · exact execThreadKill_canonical hs
  · exact execShareRetire_canonical hs
  · exact execSharePlacement_canonical hs
  · exact execCopyStart_canonical hs
  · exact execCopyComplete_canonical hs
  · exact execChainEntry_canonical hs
  · exact execChainSendAck_canonical hs
  · exact execChainRecvwaitMet_canonical hs
  · exact execChainEnd_canonical hs
  · exact execWeightLatch_canonical hs
  · exact execMatrixOperation_canonical hs
  · exact execTilePathEntry_canonical hs
  · exact execAdrainComplete_canonical hs
  · exact execMatrixEngineReset_canonical hs
  · exact execMatrixResetEnd_canonical hs
  · exact execBlockWriteback_canonical hs
  · exact execHeldChargeDecided_canonical hs
  · exact execGrantMove_canonical hs
  · exact execBalloonRequestOpen_canonical hs
  · exact execBalloonDeadlineExpiry_canonical hs
  · exact execCapacityWaitRestart_canonical hs
  · exact execTaskFault_canonical hs
  · exact execTaskRestart_canonical hs
  · exact execVersionCommit_canonical hs
  · exact execCommitRequest_canonical hs
  · exact execCommitTokenGrant_canonical hs
  · exact execTeamRetire_canonical hs
  · exact execLaunchWatchdogExpiry_canonical hs
  · exact execDieDistributorRequest_canonical hs
  · exact execClusterRangeHandout_canonical hs
  · exact execTeamPlacement_canonical hs
  · exact execRangeSteal_canonical hs
  · exact execGangFormerPop_canonical hs
  · exact execBinTimeout_canonical hs
  · exact execCordScheduleWalk_canonical hs
  · exact execCordAgeingTick_canonical hs
  · exact execSliceEnd_canonical hs
  · exact execContextSwap_canonical hs
  · exact execHandlerBudgetExpiry_canonical hs
  · exact execSpillComplete_canonical hs
  · exact execBudgetRefill_canonical hs
  · exact execRunEnd_canonical hs
  · exact execCtxswRunEnd_canonical hs
  · exact execCarveoutChange_canonical hs
  · exact execCarveoutChangeEffect_canonical hs
  · exact execPageWalk_canonical hs
  · exact execMakeResident_canonical hs
  · exact execReplicaCreate_canonical hs
  · exact execReplicaCollapse_canonical hs
  · exact execStackHandover_canonical hs
  · exact execLoanAgreement_canonical hs
  · exact execLoanEnd_canonical hs
  · exact execLoanDeadlineExpiry_canonical hs
  · exact execMailboxMessage_canonical hs
  · exact execQueueCreate_canonical hs
  · exact execQueueReset_canonical hs
  · exact execQueueDestroy_canonical hs
  · exact execQueueDestroyComplete_canonical hs
  · exact execDoorbellWrite_canonical hs
  · exact execWriteIndexNotice_canonical hs
  · exact execPacketNop_canonical hs
  · exact execPacketLaunch_canonical hs
  · exact execLaunchBilletStep_canonical hs
  · exact execLaunchDispatch_canonical hs
  · exact execPacketCord_canonical hs
  · exact execPacketWait_canonical hs
  · exact execWaitConditionMet_canonical hs
  · exact execPacketWrite_canonical hs
  · exact execPacketSignal_canonical hs
  · exact execPacketWrsigWrite_canonical hs
  · exact execPacketWrsigSignal_canonical hs
  · exact execPacketChainrun_canonical hs
  · exact execPacketRanges_canonical hs
  · exact execKindling_canonical hs
  · exact execPacketCompletion_canonical hs
  · exact execVdevDescriptor_canonical hs
  · exact execGrantMessage_canonical hs
  · exact execTenantPause_canonical hs
  · exact execTenantResume_canonical hs
  · exact execTenantReset_canonical hs
  · exact execTenantClear_canonical hs
  · exact execClearingDone_canonical hs
  · exact execTenantExport_canonical hs
  · exact execTenantImport_canonical hs
  · exact execTenantUndefine_canonical hs
  · exact execCheckpoint_canonical hs
  · exact execDebugAccess_canonical hs
  · exact execDebugResume_canonical hs
  · exact execDebugStep_canonical hs
  · exact execDebugKill_canonical hs
  · exact execDebugDropMask_canonical hs
  · exact execHearthCoreTimeout_canonical hs
  · exact execSupervisionTimerExpiry_canonical hs
  · exact execMemoryError_canonical hs
  · exact execSoftError_canonical hs
  · exact execDieLinkLoss_canonical hs
  · exact execLinkEnable_canonical hs
  · exact execLinkTrained_canonical hs
  · exact execLinkTrainingTimeout_canonical hs
  · exact execLinkLostLock_canonical hs
  · exact execLinkRetrained_canonical hs
  · exact execLinkRecoveryExpiry_canonical hs
  · exact execSecurityAlarmL2_canonical hs
  · exact execSecurityAlarmL3_canonical hs
  · exact execThermalThrottle_canonical hs
  · exact execJunctionOvertemp_canonical hs
  · exact execPackageResetBoot_canonical hs
  · exact execRecovery_canonical hs
  · exact execConfigRecordUpdate_canonical hs
  · exact execIdentityRequest_canonical hs
  · exact execTelemetryRecord_canonical hs
  · exact execTelemetryRequest_canonical hs
  · exact execApplicationCoreAccess_canonical hs
  · exact execPcieHostAccess_canonical hs
  · exact execInboundFabricWrite_canonical hs
  · exact execPostedWriteAck_canonical hs
  · exact execExtrapolationEntry_canonical hs
  · exact execChargePathLift_canonical hs
  · exact execPtpCorrection_canonical hs
  · exact execEnrollment_canonical hs

-- FAIL step

/-- A step keeps the form: the next move's state has it, what exec gives on it has it, and so has what comes after the move. -/
theorem step_canonical {s} (hs : MemCanonical s) : NextCanonical (step s) := by
  have hmove := nextMove_canonical hs
  unfold step
  split
  · next e =>
    rw [e] at hmove
    exact afterMove_canonical hmove (exec_canonical hmove)
  · next e =>
    rw [e] at hmove
    obtain ⟨ht, hr⟩ := hmove
    exact afterMove_canonical ht hr

end Sys2Proof.Machine
end

section
namespace Sys2Proof.Machine

/-- Settles O3: every function of the model that gives a state keeps the form, those that write bytes by the laws of `Mem`,
the others since they give the bytes on. -/
theorem memoryStaysCanonical : Obligations.MemoryStaysCanonical := by
  unfold Obligations.MemoryStaysCanonical
  intro s t hs hstep
  exact step_canonical hs t hstep

end Sys2Proof.Machine
end
